-- ==== Sys2Proof/Word.lean ====
section
/-! DEFINITION. The word types of the Jalia and their plainest arithmetic (spec 00_scope.md, R14). -/

namespace Sys2Proof

/-- One byte of memory or of a frame. -/
abbrev Byte := BitVec 8

/-- One register: 32 bits wide and little-endian (R14). -/
abbrev Word := BitVec 32

/-- A 64-bit quantity: TIME_NOW, ticks, addresses held in register pairs. -/
abbrev Word64 := BitVec 64

end Sys2Proof
end

