-- ==== Sys2Proof/Syntax.lean ====
section
/-! DEFINITION. The commands the Jalia takes: one constructor of `Instr` per row of spec/opcode_table.json, and
the plain data their operands carry. The table gives the rows no operands; each constructor carries what its
rule says the outside supplies (a requester, an address, a frame, a measured margin, a physical bit error). -/

namespace Sys2Proof

/-- Who issues an access (R32, R417). `field f` is the PCIe function f + 1 of Field f; `furrow n` an engine of
logical Furrow n. -/
inductive Requester where
  | reeve | mgmt | loader | safety
  | field (f : Nat)
  | furrow (n : Nat)
  deriving DecidableEq, Repr

/-- A physical bit error that a check meets in a stored granule, block, word or flit (R114, R261, R277). -/
inductive Upset where
  | clean | single | double | wrongAddress
  deriving DecidableEq, Repr

/-- The physical outcomes that one start meets (R435, R441, R450): what tests, trainings, straps and the chain give.
Lists name what failed; an empty list is a clean start. -/
structure StartEnv where
  ticks           : Nat          -- TIME_NOW ticks the start takes
  pllLocks        : Bool         -- the PLL reports lock (R41)
  chainHead       : Bool         -- level of CHAIN_HEAD at PORST_N release (R469)
  fusesDisagree   : Bool         -- the three fuse copies differ (R462)
  badDramChannels : List Nat     -- mode registers report a different density or rank count (R259)
  dramMargins     : List Nat     -- margin per channel in 1/64 UI under the plough pattern (R267)
  linkMargins     : List Nat     -- margin per REEVE_LINK index (R461)
  nodeTemps       : List Int     -- temperature per node in degrees C
  badMemory       : Bool         -- a memory outside the Furrows failed BIST (R442)
  spareRowBanks   : List (Nat × Nat)  -- (n-th good physical Furrow, bank) repaired with spare rows in step 3 (R442)
  failedPhysical  : List Nat     -- physical Furrows that fail BIST, logic BIST or the baseline (R442, R444)
  missingBlocks   : List Nat     -- blocks repaired in repair rounds 1 to 3 (R446)
  failedStores    : List (Nat × Nat)  -- (physical Furrow, store 0..4) that failed after the third round (R446)
  checkers        : Nat          -- checkers exercised (R399)
  failedCheckers  : List (Nat × Nat)  -- (code, instance) of checkers that failed (R399)
  pcieUp          : Option (Nat × Nat)  -- the PCIe link comes up with a width and a speed code
  traceUp         : Bool         -- the upstream Trace chain link is up
  traceDown       : Bool         -- the downstream one is
  addrOffer       : Option Nat   -- the ADDR value that arrives within 100 ms of step 6 (R456, R457)
  chainAlign      : Option (Nat × Int)  -- first alignment: hop delay and correction in 1/256 tick (R50)
  channelCheckBad : List Nat     -- channels whose W4 write and read-back fails (R450)
  linkDownBad     : List Nat     -- links that cannot come up in W5 (R450)
  step6At         : Nat := 0     -- ticks of the start before its step 6 or W5 (R457)
  tokenBad        : Bool         -- the warm token's CRC fails (R449)
  deriving DecidableEq, Repr

/-- What a management tick measures (R258, R483) and what the firmware servo decides on it (R49). -/
structure TickEnv where
  vinMilliVolt : Nat
  currentDeci  : Nat             -- VIN current in 0.1 A
  powerDeci    : Nat             -- VIN power in 0.1 W
  maxTj        : Int             -- highest sensor reading
  nodeTemps    : List Int        -- per node 0..7
  servo        : Option (Int × Int × Int)  -- (offset in ticks, new rate, step) of the gPTP servo
  gpioLevels   : Word
  vinSamples    : List Nat := []         -- VIN readings in mV, 250 ns apart, oldest first, where the sender gives them (R481)
  sensorSamples : List (List Int) := []  -- the readings of the 24 sensors in °C, 250 ns apart, oldest first
  deriving DecidableEq, Repr

/-- One write of a seedbed row access, or a read when `wdata` is empty (R116, R117). -/
structure SeedAccess where
  req     : Requester
  furrow  : Nat                  -- seedbed of this logical Furrow
  row     : Nat                  -- seedbed row 0..32767 (R115)
  first   : Nat                  -- first granule of the row, 0..3
  count   : Nat                  -- granules, 1..4
  wdata   : List Byte
  wpoison : Bool
  upsets  : List Upset           -- physical errors met in granules 0..3
  deriving DecidableEq, Repr

/-- A Droveway Ethernet frame as it arrives: the bytes from the destination address on, without the FCS, and
whether the FCS passed (R227, R229). -/
structure DroveFrame where
  port   : Nat
  fcsOk  : Bool
  bytes  : List Byte
  deriving DecidableEq, Repr

/-- A Headland packet (R272 to R277). -/
structure Packet where
  srcX : Nat
  srcY : Nat
  dstX : Nat
  dstY : Nat
  vc   : Nat                     -- virtual channel 0..8
  response : Bool
  bytes : Nat                    -- bytes of its data flits: none in a read request (R272)
  mask : BitVec 64               -- the seedbeds of a multicast write, one bit a logical Furrow (R276); 0: one target
  upsetWord : Upset              -- error met in a data word
  upsetHead : Upset              -- error met in the header flit
  inRouter : Nat                 -- router 8y + x where an error is met
  inPort   : Nat
  noCredit : Bool                -- the flit arrives on a channel with no buffer credit
  granule  : Nat                 -- device address of the granule a poisoned data word carries; a multicast's offset counts
  deriving DecidableEq, Repr

/-- How a CSI-2 packet header's ECC decodes (R283). -/
inductive HeaderEcc where
  | good | corrected | bad
  deriving DecidableEq, Repr

/-- A CSI-2 long packet: receiver, virtual channel, data type, header ECC, CRC-16 check, payload (R283). -/
structure LongPacket where
  receiver : Nat
  vc       : Nat
  dataType : Nat
  ecc      : HeaderEcc
  crcOk    : Bool
  payload  : List Byte
  upset    : Upset               -- line-buffer error met (R302)
  checkBad : Bool                -- a concurrent check mismatched (R383)
  deriving DecidableEq, Repr

/-- A Furrow's next tile commit, and whether one of the concurrent checks found a mismatch as the tile was computed (R383). -/
structure TileCheck where
  furrow   : Nat
  mismatch : Bool := false
  deriving DecidableEq, Repr

/-- A sensor Ethernet frame without its FCS (R301). -/
structure SensorFrame where
  port  : Nat
  fcsOk : Bool
  pause : Bool
  sfdTick : Nat                  -- TIME_NOW at the start-of-frame delimiter at the pins
  bytes : List Byte
  deriving DecidableEq, Repr

/-- One received Tack word: 84 bits in the order of R337, already sliced. -/
structure TackWord where
  isFirst  : Bool
  isLast   : Bool
  reserved : Bool
  data     : Word64
  crc      : BitVec 16
  tick     : Nat                 -- capture timestamp of its start bit (R340)
  deriving DecidableEq, Repr

/-- A CAN frame, as received or as an entry describes it (R356, R361). -/
structure CanFrame where
  kind  : Nat                    -- 0 Classical base .. 4 XL
  ident : Nat
  remote : Bool
  af    : Word
  sdt   : Byte
  vcid  : Byte
  brs   : Bool
  esi   : Bool
  sec   : Bool
  tick  : Nat                    -- start-of-frame tick
  data  : List Byte
  deriving DecidableEq, Repr

/-- A Trace chain frame (R453). -/
structure ChainFrame where
  fromUp : Bool                  -- arrived on the upstream link
  type   : Nat
  src    : Nat
  unaddressed : Bool
  dst    : Nat
  broadcast : Bool
  linkLocal : Bool
  payload : List Byte
  crc    : Word
  deriving DecidableEq, Repr

/-- The memories of R382 that R385 scrubs. -/
inductive ScrubMemory where
  | lineBuffer (furrow : Nat) (word : Nat)
  | scoreBuffer (furrow : Nat) (word : Nat)
  | intakeLine (pipe : Nat) (word : Nat)
  | reinState (rein : Nat)
  | hopper (h : Nat)
  | bridleObject (o : Nat)
  | bridleFifo (c : Nat) (position : Nat)
  | chute (c : Nat) (position : Nat)
  | instructionStore (furrow : Nat) (store : Nat)
  | droveBuffer (port : Nat) (word : Nat)
  | tally (position : Nat)
  deriving DecidableEq, Repr

/-- A scan of the boundary register (R485): the levels of its balls as the outside drives them, by cell, and the cells shifted in
while what was sampled is shifted out. -/
structure JtagScan where
  levels  : List Bool
  shifted : List Bool
  deriving DecidableEq, Repr

/-- What a slice of a link's retraining meets (R460): the node temperature in °C, and whether every lane of a D-PHY receiver is in
LP state as the slice is to start. -/
structure LinkSlice where
  temp    : Int
  lanesLp : Bool
  deriving DecidableEq, Repr

/-- What a PCIe configuration request sets in a function (R425). -/
inductive ConfigRequest where
  | memorySpace (enable : Bool)
  | d3hot (enter : Bool)
  | bar (index : Nat) (base : Nat)
  | msixEnable (enable : Bool)
  | read (offset : Nat)
  deriving DecidableEq, Repr

/-- Which lockstep pair differs (R368). -/
inductive LockstepPair where
  | reeve | safetyController | timeBase
  deriving DecidableEq, Repr

/-- The commands: one constructor per row of spec/opcode_table.json, in the table's order. -/
inductive Instr where
  | porstAssert
  | porstRelease (env : StartEnv)
  | warmAssert (midSlice : Bool)
  | warmRelease (env : StartEnv)
  | vinRise
  | vinBrownout
  | perstAssert
  | safeReqAssert
  | refclkOutOfRange
  | pllLockLoss
  | pllLock
  | vinMonitorTrip
  | temperatureMonitorTrip
  | timeStep
  | timeRateAdjWrite (value : Word)
  | managementTick (env : TickEnv)
  | chainAlignTimeout
  | gptpEventMessageRx (port : Nat) (tick : Nat)
  | fsyncEdge (n : Nat)
  | fsyncPulseEnd (n : Nat)
  | yokeRefill
  | yokeAdmit (f : Nat) (r : Nat)
  | matmul (n : Nat)
  | conv (n : Nat)
  | pool (n : Nat)
  | resample (n : Nat)
  | attnBlock (n : Nat)
  | kvAppend (n : Nat)
  | eltwise (n : Nat)
  | reduce (n : Nat)
  | route (n : Nat)
  | dispatchForward (n : Nat)
  | dispatchReturn (n : Nat)
  | dispatchPut (n : Nat)
  | dispatchBalePush (n : Nat)
  | combine (n : Nat)
  | combineFetch (n : Nat)
  | move (n : Nat)
  | compress (n : Nat)
  | decompress (n : Nat)
  | syncLocalGeneration (n : Nat)
  | syncReceiveBuffer (n : Nat)
  | syncHopperCompletions (n : Nat)
  | checkPlot (n : Nat)
  | undefinedOpCode (n : Nat)
  | tileCommit (tile : TileCheck)
  | taskDone (n : Nat)
  | stubbleWriteAck (n : Nat)
  | budgetExpiry (n : Nat)
  | taskPark (n : Nat)
  | taskResume (n : Nat)
  | parkLimitExpiry (n : Nat) (slot : Nat)
  | seedbedAccess (a : SeedAccess)
  | gateTimeout (n : Nat)
  | seedbedScrubRead (n : Nat) (bank : Nat) (upsets : List Upset)
  | seedbedScrubWriteBack (n : Nat) (bank : Nat)
  | slotGenerationWrite (req : Requester) (n : Nat) (k : Nat) (gen : BitVec 16)
  | fenceRequest (n : Nat) (gen : Word)
  | furCntClear (n : Nat)
  | furSbCntClear (n : Nat)
  | furZcCntClear (n : Nat)
  | furHwCntClear (n : Nat)
  | doorbell (req : Requester) (hopper : Nat) (tail : BitVec 16)
  | hopSkip (req : Requester) (hopper : Nat)
  | hopCntReset (req : Requester) (hopper : Nat)
  | fieldStart (req : Requester) (f : Nat)
  | fieldQuiesce (req : Requester) (f : Nat)
  | fieldStop (req : Requester) (f : Nat)
  | quiesceComplete (f : Nat)
  | quiesceLimitExpiry (f : Nat)
  | fieldStopped (f : Nat)
  | stopAckTimeout (f : Nat)
  | gleaning (f : Nat)
  | droveFrameTx (port : Nat)
  | droveDispatchRx (frame : DroveFrame)
  | droveCombineRx (frame : DroveFrame)
  | drovePutRx (frame : DroveFrame)
  | droveBalePushRx (frame : DroveFrame)
  | droveGetRx (frame : DroveFrame)
  | droveAckRx (frame : DroveFrame)
  | droveOpenRx (frame : DroveFrame)
  | droveNackRx (frame : DroveFrame)
  | droveAckTimer (port : Nat) (peer : Nat)
  | droveRtoExpiry (port : Nat) (peer : Nat)
  | drovePortLinkDown (port : Nat)
  | drovePortLinkUp (port : Nat)
  | droveFenceReq (peer : Nat)
  | peerHeartbeatTimeout (peer : Nat)
  | droveCntClear
  | dramRead (req : Requester) (addr : Nat) (upset : Upset)
  | dramWrite (req : Requester) (addr : Nat) (data : List Byte) (poison : Bool)
  | dramPartialWrite (req : Requester) (addr : Nat) (data : List Byte) (upset : Upset)
  | dramPatrolScrubRead (upsets : List (Nat × Upset))
  | dramRetrainSlice (margin : Nat) (temp : Int)
  | dramRefresh (channel : Nat)
  | dramRetrainNow (channel : Nat)
  | dramCntClear
  | headlandPacket (p : Packet)
  | headCntClear
  | csi2FrameStart (receiver : Nat) (vc : Nat) (number : Nat) (ecc : HeaderEcc) (tick : Nat)
  | csi2FrameEnd (receiver : Nat) (vc : Nat) (number : Nat) (ecc : HeaderEcc)
  | csi2LineStart (receiver : Nat) (vc : Nat) (number : Nat) (ecc : HeaderEcc)
  | csi2LineEnd (receiver : Nat) (vc : Nat) (number : Nat) (ecc : HeaderEcc)
  | csi2LongPacket (p : LongPacket)
  | frameCompletion (p : Nat)
  | checkRow (p : Nat)
  | sensorEthFrameRx (frame : SensorFrame)
  | sensorEthGroupGap (p : Nat)
  | sensorEthLinkDown (port : Nat)
  | sensorEthTx (port : Nat) (bytes : List Byte) (tick : Nat)
  | dphySyncLoss (receiver : Nat)
  | intkCntClear
  | reinPeriodicDue (n : Nat)
  | reinIssue
  | reinCommandWrite (n : Nat)
  | reinCommandRelease (n : Nat)
  | mailboxWrite (req : Requester) (slot : Nat) (offset : Nat) (data : List Byte)
  | reinLockstepMismatch
  | reinCntClear
  | tackPacketRx (port : Nat) (words : List TackWord)
  | tackLinkDown (port : Nat)
  | tackLinkUp (port : Nat)
  | tackPacketTx (port : Nat) (readbackOk : Bool)
  | chutePop (req : Requester) (c : Nat)
  | chuteHoldWrite (c : Nat) (value : Word)
  | chutePush (c : Nat) (value : Word)
  | chuteDiscardN (c : Nat) (n : Nat)
  | chuteDiscardAll (c : Nat)
  | chuteCntClear
  | canFrameRx (channel : Nat) (frame : CanFrame)
  | canFrameTxDone (channel : Nat) (readbackOk : Bool)
  | canArbitrationLoss (channel : Nat)
  | canBusError (channel : Nat) (transmitting : Bool) (tecUp : Nat) (recUp : Nat)
  | brdlPost (channel : Nat)
  | brdlAbortHead (channel : Nat)
  | brdlAbortAll (channel : Nat)
  | brdlRecover (channel : Nat)
  | busOffRecoveryDone (channel : Nat)
  | brdlObjAck (object : Nat)
  | brdlCntClear
  | faultReport
  | tallyWrite
  | faultNRelease
  | faultDynToggle (heartbeat : Bool)
  | lockstepMismatch (pair : LockstepPair)
  | watchdogKick
  | watchdogExpiry
  | safeEnter
  | tallyReadIndexWrite (value : BitVec 16)
  | checkPlotDue (n : Nat)
  | martingaleWindowEnd (m : Nat)
  | safeInject (code : Nat) (instanceIndex : Nat)
  | powerWindowEnd
  | harnessLoad (req : Requester)
  | harnessApply
  | buckleOpen (r : Nat) (id : Nat)
  | buckleFasten (r : Nat) (boundary : Nat) (target : Nat)
  | buckleSlip (r : Nat)
  | buckleCommit (r : Nat)
  | buckleTimeout (r : Nat)
  | pcieMemoryWrite (function : Nat) (bar : Nat) (offset : Nat) (data : List Byte) (poisoned : Bool)
  | pcieMemoryRead (function : Nat) (bar : Nat) (offset : Nat) (length : Nat)
  | pcieFlr (function : Nat)
  | pcieUnsupportedRequest (function : Nat)
  | pcieLinkDown (down : Bool)
  | pcieCorrectableError
  | reeveBootCommand (env : StartEnv)
  | chainAddrRx (frame : ChainFrame)
  | chainHeartbeatRx (frame : ChainFrame)
  | chainDelayProbeRx (frame : ChainFrame) (tick : Nat)
  | chainDelayReplyRx (frame : ChainFrame) (sent : Nat) (received : Nat) (upstreamTick : Nat)
  | chainFenceReportRx (frame : ChainFrame)
  | chainFenceNoticeRx (frame : ChainFrame)
  | chainSafeReportRx (frame : ChainFrame)
  | chainErrRx (frame : ChainFrame)
  | chainMgmtRx (frame : ChainFrame)
  | chainSend (broadcast : Bool) (dst : Nat)
  | chainPop
  | chainAddressTimeout
  | writeGatherGo (len : Nat)
  | writeGatherAck
  | linkRetrainSlice (margin : Nat) (slice : LinkSlice)
  | dphySliceAbort (receiver : Nat)
  | fuseProgram (req : Requester)
  | jtagExtest
  | jtagIdcode
  | jtagBypass
  | jtagSamplePreload (scan : JtagScan)
  | registerWrite (req : Requester) (addr : Nat) (size : Nat) (value : Word64)
  | perstRelease
  | pcieLinkUp (width : Nat) (speed : Nat)
  | sensorEthLinkUp (port : Nat)
  | dphyHsSynchronisation (receiver : Nat)
  | traceLinkDown (upstream : Bool)
  | traceLinkUp (upstream : Bool)
  | safeReqRelease
  | referenceInRange
  | secDedMemoryScrub (memory : ScrubMemory) (upset : Upset)
  | pcieConfigurationRequest (function : Nat) (request : ConfigRequest)
  | registerRead (req : Requester) (addr : Nat) (size : Nat)
  deriving DecidableEq, Repr

end Sys2Proof
end

