-- ==== Sys2Proof/Decode.lean ====
section
/-! DEFINITION. The commands that words spell: opcode_table.json gives no row any bits ("fields" is empty in all
200 rows), so no word spells a command. -/

namespace Sys2Proof

/-- The command a word of `nbits` bits spells by the table's bits: none, for every word. -/
def decodeTableWord (_nbits _w : Nat) : Option Instr := none

end Sys2Proof
end

