-- ==== Sys2Proof/Config.lean ====
section
/-! DEFINITION. What the manual leaves to something outside it: opaque functions that nothing in Lean can
evaluate (free values). Each is named in a log entry under notes/assumptions. -/

namespace Sys2Proof.Config

/-! The Coulters' instructions (R88). The manual gives their operations and no encoding. -/

/-- One-operand floating-point operations. -/
inductive Fp1 where
  | abs | neg | exp | exp2 | log2 | rcp | sqrt | rsqrt
  deriving DecidableEq, Repr

/-- Two-operand floating-point operations. -/
inductive Fp2 where
  | add | sub | mul | min | max
  deriving DecidableEq, Repr

/-- Two-operand integer operations. -/
inductive Int2 where
  | add | sub | mul | shl | shr | sar | and | or | xor | min | max | addSat | subSat
  deriving DecidableEq, Repr

/-- Comparisons. -/
inductive Cmp where
  | eq | lt | le
  deriving DecidableEq, Repr

/-- One Coulter operation, on vector registers and predicate registers by number. -/
inductive KernelOp where
  | loadA (d : Nat) | loadB (d : Nat) | loadImm (d : Nat) | store (a : Nat)
  | loadRow (wide : Bool) (d b : Nat) | storeRow (wide : Bool) (a b : Nat)
  | fp1 (f : Fp1) (d a : Nat) | fp2 (f : Fp2) (d a b : Nat) | fma (d a b c : Nat) | fpCmp (f : Cmp) (p a b : Nat)
  | int2 (f : Int2) (d a b : Nat) | intCmp (f : Cmp) (p a b : Nat)
  | widen (fmt d a : Nat) | narrow (fmt d a : Nat) | toInt (d a : Nat) | toFp (d a : Nat)
  | broadcast (lane d a : Nat) | permute (d a b : Nat) | reduceFp (f : Fp2) (d a : Nat) | reduceInt (f : Int2) (d a : Nat)
  | exchangeFp (d e a b : Nat) | exchangeInt (d e a b : Nat)
  | setPredicate (p : Nat) (mask : BitVec 64) | branch (p : Option Nat) (target : Nat) | loop (times target : Nat)
  | waitEngine
  deriving DecidableEq, Repr

/-- An instruction: an operation, for the lanes of a predicate register or for all. -/
structure KernelInstr where
  op   : KernelOp
  pred : Option Nat := none
  deriving DecidableEq, Repr

/-- The instructions of one Coulter kernel, by CRC of the loaded image and kernel index: kernels are programs of the firmware
image, whose instruction encoding the manual does not give (R88, R100). FREE VALUE (DESIGN CHOICE, safe, log 9). -/
opaque kernelCode : Nat → Nat → List KernelInstr

/-- The result of a Coulter operation where the manual states none (a shift by 32 or more, a pole or an operand outside the
domain of a transcendental, the idle lanes of a reduction step), by operation, operand and lane. FREE VALUE (DESIGN
CHOICE, safe, log 74). -/
opaque coulterOpen : Nat → BitVec 32 → BitVec 32 → BitVec 32

/-- A Coulter kernel finishes each vector within its declared cycles (R100), by image CRC and kernel index. FREE VALUE
(DESIGN CHOICE, safe, log 9). -/
opaque kernelFits : Nat → Nat → Bool

/-- A byte of the boot ROM (R30): its contents are not in the manual. FREE VALUE (DESIGN CHOICE, safe, log 8). -/
opaque romByte : Nat → BitVec 8

/-- A byte of the firmware store or other datum that no rule states, by the count of such reads. FREE VALUE (DESIGN
CHOICE, safe, log 8). -/
opaque freeValue : Nat → BitVec 64

/-- The coding of a requester in the info field of the F0 entries of R15 and R34, by the model's number of the requester.
FREE VALUE (DESIGN CHOICE, safe, log 11). -/
opaque requesterInfo : Nat → BitVec 64

/-- The block and the cause of the F0 entries of R15 and R34, which no rule gives, by device address: the high byte selects
one of the block bytes of R22, the low byte is the cause. FREE VALUE (DESIGN CHOICE, safe, log 12). -/
opaque accessCode : Nat → BitVec 16

/-- The cause byte of an event to which no table of the manual gives a code, by its block byte (R22, R381). FREE VALUE (DESIGN
CHOICE, safe, log 82). -/
opaque openCause : Nat → BitVec 8

/-- A CHAIN_ERR's payload names two_heads, otherwise too_long (R454, R456): its format is not in the manual. FREE VALUE
(DESIGN CHOICE, safe, log 24). -/
opaque chainErrorHeads : List (BitVec 8) → Bool

/-- The 11 check bits of the extended Hamming code over a block's 64 bytes: the manual gives the code's kind and no matrix (R261;
DESIGN CHOICE, safe, log 80). -/
opaque hammingBits : List (BitVec 8) → BitVec 11

/-- The rate of a channel's per-bank refresh by the MR4 temperature read at a management tick, which the manual leaves to
JESD209-5C (R258; DESIGN CHOICE, safe, log 80). -/
opaque refreshRate : Nat → Nat → Nat

/-- The check-plot run that a firmware image carries, as the bytes of a system slice: ring, inner descriptors, stubble words,
parameter blocks and golden inputs. The manual gives its place in the image no layout (R387, R437; DESIGN CHOICE, safe,
log 19). -/
opaque checkPlotRun : List (BitVec 8) → List (BitVec 8)

end Sys2Proof.Config
end

