-- ==== Sys2Proof/Machine/RegMap.lean ====
section
/-! DEFINITION. The register maps of the spec as data: for every register its address, index ranges and fields
with access type (R16), reset value and what keeps it (R20), in the order of the chapters. -/

namespace Sys2Proof.Machine

/-- The access types of R16. -/
inductive Access where
  | ro | rw | w1c | w1s | wo | sh
  deriving DecidableEq, Repr

/-- What keeps a field's value: nothing; WARM_N (type WR, R20); fuses, which no reset changes. -/
inductive Keep where
  | none | warm | fuse
  deriving DecidableEq, Repr

/-- One field of a register; its reset value is `reset + resetIdx * i` for the register's first index i. -/
structure FieldDesc where
  msb : Nat
  lsb : Nat
  access : Access
  keep : Keep
  reset : Nat
  resetIdx : Nat
  deriving DecidableEq, Repr

/-- One row of a register map: `count1 × count2` registers at `base + stride1·i + stride2·j`; the first index is
numbered from `start`. A reserved bit has no field. -/
structure RegDesc where
  base : Nat
  count1 : Nat
  stride1 : Nat
  count2 : Nat
  stride2 : Nat
  start : Nat
  fields : List FieldDesc
  deriving DecidableEq, Repr

/-- A field with reset value 0 that no reset keeps. -/
def fld (msb lsb : Nat) (access : Access) : FieldDesc := ⟨msb, lsb, access, .none, 0, 0⟩

/-- A field with a reset value or a keep type of its own. -/
def fldK (msb lsb : Nat) (access : Access) (keep : Keep) (reset resetIdx : Nat) : FieldDesc :=
  ⟨msb, lsb, access, keep, reset, resetIdx⟩

/-- Device block 1 (R30, R31). -/
def regsBlock1 : List RegDesc := [
  -- CLK_STATUS
  ⟨0x5000010000, 1, 0x4, 1, 0x4, 0, [fldK 7 4 .ro .warm 0 0, fld 3 3 .ro, fld 2 2 .ro, fld 1 1 .w1c, fld 0 0 .w1c]⟩]

/-- Device block 2 (R30, R31). -/
def regsBlock2 : List RegDesc := [
  -- TIME_NOW_LO
  ⟨0x5000020000, 1, 0x4, 1, 0x4, 0, [fldK 31 0 .ro .warm 0 0]⟩,
  -- TIME_NOW_HI
  ⟨0x5000020004, 1, 0x4, 1, 0x4, 0, [fldK 31 0 .ro .warm 0 0]⟩,
  -- TIME_RATE_ADJ
  ⟨0x5000020008, 1, 0x4, 1, 0x4, 0, [fldK 31 0 .rw .warm 0 0]⟩,
  -- TIME_STEP_LO
  ⟨0x5000020010, 1, 0x4, 1, 0x4, 0, [fld 31 0 .rw]⟩,
  -- TIME_STEP_HI
  ⟨0x5000020014, 1, 0x4, 1, 0x4, 0, [fld 31 0 .rw]⟩,
  -- TIME_CTRL
  ⟨0x5000020018, 1, 0x4, 1, 0x4, 0, [fldK 1 1 .rw .warm 0 0, fld 0 0 .wo]⟩,
  -- TIME_STATUS
  ⟨0x500002001c, 1, 0x4, 1, 0x4, 0, [fld 2 2 .ro, fld 1 1 .ro, fld 0 0 .w1c]⟩,
  -- TIME_CHAIN_DELAY
  ⟨0x5000020020, 1, 0x4, 1, 0x4, 0, [fld 31 0 .ro]⟩,
  -- TIME_LATE_COUNT
  ⟨0x5000020024, 1, 0x4, 1, 0x4, 0, [fld 31 0 .ro]⟩,
  -- TIME_FSYNC_START_LO
  ⟨0x5000020100, 16, 0x10, 1, 0x4, 0, [fld 31 0 .sh]⟩,
  -- TIME_FSYNC_START_HI
  ⟨0x5000020104, 16, 0x10, 1, 0x4, 0, [fld 31 0 .sh]⟩,
  -- TIME_FSYNC_PERIOD
  ⟨0x5000020108, 16, 0x10, 1, 0x4, 0, [fld 31 0 .sh]⟩,
  -- TIME_FSYNC_CTRL
  ⟨0x500002010c, 16, 0x10, 1, 0x4, 0, [fld 18 18 .w1c, fld 17 17 .sh, fld 16 16 .sh, fld 15 0 .sh]⟩]

/-- The FUR_ registers of the 64 logical Furrows (R30, R31). -/
def regsFurrowA : List RegDesc := [
  -- FUR_ID
  ⟨0x4000800000, 64, 0x1000000, 1, 0x4, 0, [fldK 22 16 .ro .fuse 0 1, fldK 5 0 .ro .none 0 1]⟩,
  -- FUR_STATUS
  ⟨0x4000800004, 64, 0x1000000, 1, 0x4, 0, [fld 7 7 .ro, fld 6 4 .ro, fldK 2 0 .ro .none 4 0]⟩,
  -- FUR_TASK
  ⟨0x4000800008, 64, 0x1000000, 1, 0x4, 0, [fld 31 31 .ro, fld 14 0 .ro]⟩,
  -- FUR_TASK_TAG
  ⟨0x400080000c, 64, 0x1000000, 1, 0x4, 0, [fld 31 0 .ro]⟩,
  -- FUR_TASK_CYCLES
  ⟨0x4000800010, 64, 0x1000000, 1, 0x4, 0, [fld 14 0 .ro]⟩,
  -- FUR_TILES
  ⟨0x4000800014, 64, 0x1000000, 1, 0x4, 0, [fld 31 16 .ro, fld 15 0 .ro]⟩,
  -- FUR_FAULT
  ⟨0x4000800018, 64, 0x1000000, 1, 0x4, 0, [fld 16 16 .w1c, fld 15 0 .ro]⟩,
  -- FUR_FMT_CNT
  ⟨0x4000800020, 64, 0x1000000, 4, 0x4, 0, [fld 31 0 .ro]⟩,
  -- FUR_MAC_LO
  ⟨0x4000800030, 64, 0x1000000, 1, 0x4, 0, [fld 31 0 .ro]⟩,
  -- FUR_MAC_HI
  ⟨0x4000800034, 64, 0x1000000, 1, 0x4, 0, [fld 31 0 .ro]⟩,
  -- FUR_GATED_LO
  ⟨0x4000800038, 64, 0x1000000, 1, 0x4, 0, [fld 31 0 .ro]⟩,
  -- FUR_GATED_HI
  ⟨0x400080003c, 64, 0x1000000, 1, 0x4, 0, [fld 31 0 .ro]⟩,
  -- FUR_CTRL
  ⟨0x4000800040, 64, 0x1000000, 1, 0x4, 0, [fld 0 0 .wo]⟩,
  -- FUR_FW
  ⟨0x4000800044, 64, 0x1000000, 1, 0x4, 0, [fld 12 8 .w1c, fld 4 0 .ro]⟩,
  -- FUR_SB_CTRL
  ⟨0x4000800100, 64, 0x1000000, 1, 0x4, 0, [fld 20 15 .ro, fld 14 0 .sh]⟩,
  -- FUR_SB_STATUS
  ⟨0x4000800104, 64, 0x1000000, 1, 0x4, 0, [fld 2 2 .w1c, fld 1 1 .w1c, fld 0 0 .ro]⟩,
  -- FUR_SB_SCRUB
  ⟨0x4000800108, 64, 0x1000000, 1, 0x4, 0, [fld 26 16 .ro, fld 15 0 .ro]⟩,
  -- FUR_SB_ECC_CNT
  ⟨0x400080010c, 64, 0x1000000, 1, 0x4, 0, [fld 31 16 .ro, fld 15 0 .ro]⟩,
  -- FUR_SB_ERR
  ⟨0x4000800110, 64, 0x1000000, 1, 0x4, 0, [fld 31 31 .w1c, fld 30 30 .w1c, fld 29 29 .ro, fld 21 5 .ro]⟩,
  -- FUR_SB_GATE
  ⟨0x4000800114, 64, 0x1000000, 1, 0x4, 0, [fld 23 16 .ro, fld 4 0 .ro]⟩,
  -- FUR_SB_REPAIR
  ⟨0x4000800118, 64, 0x1000000, 1, 0x4, 0, [fldK 15 0 .ro .fuse 0 0]⟩,
  -- FUR_SB_CLEAR
  ⟨0x400080011c, 64, 0x1000000, 1, 0x4, 0, [fld 0 0 .wo]⟩,
  -- FUR_SB_SLOT_RANGE
  ⟨0x4000801000, 64, 0x1000000, 256, 0x8, 0, [fld 31 17 .ro, fld 16 2 .ro, fld 0 0 .ro]⟩,
  -- FUR_SB_SLOT_GEN
  ⟨0x4000801004, 64, 0x1000000, 256, 0x8, 0, [fld 23 20 .ro, fld 19 16 .ro, fld 15 0 .rw]⟩,
  -- FUR_RK_ECC
  ⟨0x4000800200, 64, 0x1000000, 1, 0x4, 0, [fld 31 31 .w1c, fld 30 30 .w1c, fld 23 12 .ro, fld 11 0 .ro]⟩,
  -- FUR_ZC_RAW
  ⟨0x4000800204, 64, 0x1000000, 1, 0x4, 0, [fld 31 0 .ro]⟩,
  -- FUR_ZC_MOVED
  ⟨0x4000800208, 64, 0x1000000, 1, 0x4, 0, [fld 31 0 .ro]⟩,
  -- FUR_ZC_CTRL
  ⟨0x400080020c, 64, 0x1000000, 1, 0x4, 0, [fld 0 0 .wo]⟩,
  -- FUR_HW_ECC
  ⟨0x4000800300, 64, 0x1000000, 1, 0x4, 0, [fld 31 31 .w1c, fld 30 30 .w1c, fld 23 12 .ro, fld 11 0 .ro]⟩,
  -- FUR_HW_FENCE_LO
  ⟨0x4000800304, 64, 0x1000000, 1, 0x4, 0, [fld 31 0 .rw]⟩]

/-- The FUR_ registers of the 64 logical Furrows (R30, R31). -/
def regsFurrowB : List RegDesc := [
  -- FUR_HW_FENCE_HI
  ⟨0x4000800308, 64, 0x1000000, 1, 0x4, 0, [fld 7 0 .rw]⟩,
  -- FUR_HW_FENCE_GEN
  ⟨0x400080030c, 64, 0x1000000, 1, 0x4, 0, [fld 31 0 .rw]⟩,
  -- FUR_HW_FENCE_STATUS
  ⟨0x4000800310, 64, 0x1000000, 1, 0x4, 0, [fld 7 1 .ro, fldK 0 0 .ro .none 1 0]⟩,
  -- FUR_HW_BUCKET
  ⟨0x4000800320, 64, 0x1000000, 8, 0x4, 0, [fld 22 0 .ro]⟩,
  -- FUR_HW_UNBUCKETED
  ⟨0x4000800340, 64, 0x1000000, 1, 0x4, 0, [fld 31 0 .ro]⟩,
  -- FUR_HW_SKIPPED
  ⟨0x4000800344, 64, 0x1000000, 1, 0x4, 0, [fld 31 0 .ro]⟩,
  -- FUR_HW_CTRL
  ⟨0x4000800348, 64, 0x1000000, 1, 0x4, 0, [fld 0 0 .wo]⟩]

/-- The FUR_ registers of the 64 logical Furrows (R30, R31). -/
def regsFurrow : List RegDesc := regsFurrowA ++ regsFurrowB

/-- HOP_, FLD_ and YOKE_ registers (R30, R31). -/
def regsHopper : List RegDesc := [
  -- HOP_DOORBELL
  ⟨0x4800100000, 1, 0x4, 1, 0x4, 0, [fld 31 16 .wo, fld 14 0 .wo]⟩,
  -- HOP_SKIP
  ⟨0x4800100004, 1, 0x4, 1, 0x4, 0, [fld 31 31 .wo, fld 14 0 .wo]⟩,
  -- HOP_CNT_RESET
  ⟨0x4800100008, 1, 0x4, 1, 0x4, 0, [fld 14 0 .wo]⟩,
  -- HOP_ERR
  ⟨0x480010000c, 1, 0x4, 1, 0x4, 0, [fld 31 31 .w1c, fld 17 16 .ro, fld 14 0 .ro]⟩,
  -- FLD_CTRL
  ⟨0x4800101000, 8, 0x100, 1, 0x4, 0, [fld 2 2 .wo, fld 1 1 .wo, fld 0 0 .wo]⟩,
  -- FLD_STATUS
  ⟨0x4800101004, 8, 0x100, 1, 0x4, 0, [fld 11 8 .ro, fld 7 7 .ro, fld 2 0 .ro]⟩,
  -- FLD_FURROWS_LO
  ⟨0x4800101008, 8, 0x100, 1, 0x4, 0, [fld 31 0 .ro]⟩,
  -- FLD_FURROWS_HI
  ⟨0x480010100c, 8, 0x100, 1, 0x4, 0, [fld 31 0 .ro]⟩,
  -- FLD_HOPPERS
  ⟨0x4800101010, 8, 0x100, 1, 0x4, 0, [fld 31 31 .ro, fld 30 16 .ro, fld 14 0 .ro]⟩,
  -- FLD_DRAM_BASE_LO
  ⟨0x4800101014, 8, 0x100, 1, 0x4, 0, [fld 31 0 .ro]⟩,
  -- FLD_DRAM_BASE_HI
  ⟨0x4800101018, 8, 0x100, 1, 0x4, 0, [fld 31 0 .ro]⟩,
  -- FLD_DRAM_LIMIT_LO
  ⟨0x480010101c, 8, 0x100, 1, 0x4, 0, [fld 31 0 .ro]⟩,
  -- FLD_DRAM_LIMIT_HI
  ⟨0x4800101020, 8, 0x100, 1, 0x4, 0, [fld 31 0 .ro]⟩,
  -- FLD_PCIE
  ⟨0x4800101024, 8, 0x100, 1, 0x4, 0, [fldK 7 0 .ro .none 1 1]⟩,
  -- FLD_STOP
  ⟨0x4800101028, 8, 0x100, 1, 0x4, 0, [fld 31 16 .ro, fld 15 0 .ro]⟩,
  -- FLD_STOP_TICK_LO
  ⟨0x480010102c, 8, 0x100, 1, 0x4, 0, [fld 31 0 .ro]⟩,
  -- FLD_STOP_TICK_HI
  ⟨0x4800101030, 8, 0x100, 1, 0x4, 0, [fld 31 0 .ro]⟩,
  -- FLD_QUIESCE
  ⟨0x4800101034, 8, 0x100, 1, 0x4, 0, [fld 9 0 .rw]⟩,
  -- FLD_PARK
  ⟨0x4800101038, 8, 0x100, 1, 0x4, 0, [fld 19 0 .sh]⟩,
  -- FLD_GLEAN_ADDR_LO
  ⟨0x480010103c, 8, 0x100, 1, 0x4, 0, [fld 31 0 .rw]⟩,
  -- FLD_GLEAN_ADDR_HI
  ⟨0x4800101040, 8, 0x100, 1, 0x4, 0, [fld 31 0 .rw]⟩,
  -- FLD_GLEAN_COUNT
  ⟨0x4800101044, 8, 0x100, 1, 0x4, 0, [fld 15 0 .ro]⟩,
  -- YOKE_RATE
  ⟨0x4800102000, 8, 0x40, 3, 0x10, 0, [fld 31 31 .sh, fld 19 0 .sh]⟩,
  -- YOKE_DEPTH
  ⟨0x4800102004, 8, 0x40, 3, 0x10, 0, [fld 20 0 .sh]⟩,
  -- YOKE_LEVEL
  ⟨0x4800102008, 8, 0x40, 3, 0x10, 0, [fld 31 0 .ro]⟩,
  -- YOKE_HELD
  ⟨0x480010200c, 8, 0x40, 3, 0x10, 0, [fld 31 0 .ro]⟩]

/-- Device block 6 (R30, R31). -/
def regsBlock6 : List RegDesc := [
  -- DROVE_PORT_STATUS
  ⟨0x5000060010, 4, 0x4, 1, 0x4, 0, [fld 19 4 .ro, fld 3 3 .w1c, fld 2 2 .ro, fld 1 1 .ro, fld 0 0 .ro]⟩,
  -- DROVE_PORT_DROP
  ⟨0x5000060020, 4, 0x4, 1, 0x4, 0, [fld 31 16 .ro, fld 15 0 .ro]⟩,
  -- DROVE_RTO
  ⟨0x5000060030, 1, 0x4, 1, 0x4, 0, [fldK 23 0 .sh .none 64000 0]⟩,
  -- DROVE_PEER
  ⟨0x5000060100, 16, 0x4, 1, 0x4, 0, [fld 7 4 .ro, fld 3 3 .wo, fld 2 2 .sh, fld 1 1 .ro, fld 0 0 .ro]⟩,
  -- DROVE_PEER_RETX
  ⟨0x5000060140, 16, 0x4, 1, 0x4, 0, [fld 31 0 .ro]⟩,
  -- DROVE_RXB_STATUS
  ⟨0x5000061000, 1024, 0x8, 1, 0x4, 0, [fld 31 16 .ro, fld 15 0 .ro]⟩,
  -- DROVE_RXB_LAST
  ⟨0x5000061004, 1024, 0x8, 1, 0x4, 0, [fld 31 16 .ro, fld 15 0 .ro]⟩,
  -- DROVE_RESID
  ⟨0x5000064000, 256, 0x4, 1, 0x4, 0, [fld 31 24 .ro, fld 23 12 .ro, fld 11 0 .ro]⟩,
  -- DROVE_CTRL
  ⟨0x5000060000, 1, 0x4, 1, 0x4, 0, [fld 0 0 .wo]⟩]

/-- Device block 4 (R30, R31). -/
def regsBlock4 : List RegDesc := [
  -- DRAM_CFG
  ⟨0x5000040000, 1, 0x4, 1, 0x4, 0, [fld 5 4 .ro, fld 3 3 .ro, fld 2 0 .ro]⟩,
  -- DRAM_STATUS
  ⟨0x5000040004, 1, 0x4, 1, 0x4, 0, [fld 9 9 .w1c, fld 8 8 .ro, fld 4 0 .ro]⟩,
  -- DRAM_TRAIN_CTRL
  ⟨0x5000040008, 1, 0x4, 1, 0x4, 0, [fld 31 24 .ro, fldK 19 0 .sh .none 1000 0]⟩,
  -- DRAM_SCRUB
  ⟨0x500004000c, 1, 0x4, 1, 0x4, 0, [fld 31 21 .ro, fld 20 0 .ro]⟩,
  -- DRAM_CTRL
  ⟨0x5000040010, 1, 0x4, 1, 0x4, 0, [fld 6 6 .wo, fld 5 5 .wo, fld 4 0 .wo]⟩,
  -- DRAM_ERR_ADDR_LO
  ⟨0x5000040014, 1, 0x4, 1, 0x4, 0, [fld 31 0 .ro]⟩,
  -- DRAM_ERR_ADDR_HI
  ⟨0x5000040018, 1, 0x4, 1, 0x4, 0, [fld 31 0 .ro]⟩,
  -- DRAM_ERR
  ⟨0x500004001c, 1, 0x4, 1, 0x4, 0, [fld 31 31 .w1c, fld 30 30 .w1c, fld 29 29 .ro, fld 4 0 .ro]⟩,
  -- DRAM_CH_ECC
  ⟨0x5000040100, 32, 0x4, 1, 0x4, 0, [fld 31 16 .ro, fld 15 0 .ro]⟩,
  -- DRAM_CH_TRAIN
  ⟨0x5000040200, 32, 0x4, 1, 0x4, 0, [fldK 31 24 .ro .warm 0 0, fldK 23 16 .ro .warm 0 0, fld 15 0 .ro]⟩,
  -- DRAM_NODE_TEMP
  ⟨0x5000040300, 8, 0x4, 1, 0x4, 0, [fld 7 0 .ro]⟩]

/-- Device block 3 (R30, R31). -/
def regsBlock3 : List RegDesc := [
  -- HEAD_VC_WEIGHT
  ⟨0x5000030000, 9, 0x4, 1, 0x4, 0, [fld 3 0 .ro]⟩,
  -- HEAD_ECC
  ⟨0x5000030040, 1, 0x4, 1, 0x4, 0, [fld 31 16 .ro, fld 15 0 .ro]⟩,
  -- HEAD_ERR
  ⟨0x5000030044, 1, 0x4, 1, 0x4, 0, [fld 31 31 .w1c, fld 30 30 .w1c, fld 15 12 .ro, fld 9 7 .ro, fld 6 0 .ro]⟩,
  -- HEAD_CTRL
  ⟨0x5000030048, 1, 0x4, 1, 0x4, 0, [fld 0 0 .wo]⟩]

/-- Device block 5 (R30, R31). -/
def regsBlock5 : List RegDesc := [
  -- INTK_CTRL
  ⟨0x5000050000, 1, 0x4, 1, 0x4, 0, [fld 0 0 .wo]⟩,
  -- INTK_RX_STATUS
  ⟨0x5000050010, 8, 0x4, 1, 0x4, 0, [fld 31 16 .ro, fld 3 3 .w1c, fld 2 1 .ro, fld 0 0 .ro]⟩,
  -- INTK_ETH_STATUS
  ⟨0x5000050030, 4, 0x4, 1, 0x4, 0, [fld 31 16 .ro, fld 1 1 .w1c, fld 0 0 .ro]⟩,
  -- INTK_PIPE_CTRL
  ⟨0x5000050100, 16, 0x40, 1, 0x4, 0, [fld 31 31 .sh, fld 30 29 .sh, fld 28 25 .sh, fld 24 21 .ro, fld 20 19 .ro, fld 18 18 .ro, fld 7 4 .ro, fldK 3 0 .ro .none 15 0]⟩,
  -- INTK_PIPE_SEED
  ⟨0x5000050104, 16, 0x40, 1, 0x4, 0, [fld 31 0 .sh]⟩,
  -- INTK_PIPE_BL
  ⟨0x5000050108, 16, 0x40, 2, 0x4, 0, [fld 31 16 .sh, fld 15 0 .sh]⟩,
  -- INTK_PIPE_GAIN
  ⟨0x5000050110, 16, 0x40, 2, 0x4, 0, [fldK 31 16 .sh .none 4096 0, fldK 15 0 .sh .none 4096 0]⟩,
  -- INTK_PIPE_CHECK_EXP
  ⟨0x5000050118, 16, 0x40, 1, 0x4, 0, [fld 31 0 .sh]⟩,
  -- INTK_PIPE_CHECK_LAST
  ⟨0x500005011c, 16, 0x40, 1, 0x4, 0, [fld 31 0 .ro]⟩,
  -- INTK_PIPE_FRAMES
  ⟨0x5000050120, 16, 0x40, 1, 0x4, 0, [fld 31 0 .ro]⟩,
  -- INTK_PIPE_STATE
  ⟨0x5000050124, 16, 0x40, 1, 0x4, 0, [fld 7 4 .ro, fld 2 0 .ro]⟩,
  -- INTK_PIPE_DROP
  ⟨0x5000050128, 16, 0x40, 1, 0x4, 0, [fld 31 16 .ro, fld 15 0 .ro]⟩,
  -- INTK_PIPE_ERR
  ⟨0x500005012c, 16, 0x40, 1, 0x4, 0, [fld 31 31 .w1c, fld 30 30 .w1c, fld 29 29 .w1c, fld 28 28 .w1c, fld 27 27 .w1c, fld 26 26 .w1c, fld 25 25 .w1c, fld 24 24 .w1c, fld 23 23 .w1c, fld 22 22 .w1c]⟩,
  -- INTK_PIPE_CAPTURE_LO
  ⟨0x5000050130, 16, 0x40, 1, 0x4, 0, [fld 31 0 .ro]⟩,
  -- INTK_PIPE_CAPTURE_HI
  ⟨0x5000050134, 16, 0x40, 1, 0x4, 0, [fld 31 0 .ro]⟩]

/-- Device block 7 (R30, R31). -/
def regsBlock7A : List RegDesc := [
  -- REIN_STATUS
  ⟨0x5000070000, 1, 0x4, 1, 0x4, 0, [fld 31 24 .ro, fld 16 8 .ro, fld 2 2 .w1c, fld 1 1 .w1c, fld 0 0 .ro]⟩,
  -- REIN_CTRL
  ⟨0x5000070004, 1, 0x4, 1, 0x4, 0, [fld 0 0 .wo]⟩,
  -- REIN_CH_CTRL
  ⟨0x5000070100, 256, 0x40, 1, 0x4, 0, [fld 31 31 .sh, fld 28 27 .sh, fld 26 26 .sh, fld 25 24 .sh, fld 1 0 .sh]⟩,
  -- REIN_CH_PERIOD
  ⟨0x5000070104, 256, 0x40, 1, 0x4, 0, [fld 27 0 .sh]⟩,
  -- REIN_CH_AGE
  ⟨0x5000070108, 256, 0x40, 1, 0x4, 0, [fld 31 16 .sh, fld 15 0 .sh]⟩,
  -- REIN_CH_KP
  ⟨0x500007010c, 256, 0x40, 1, 0x4, 0, [fld 31 0 .sh]⟩,
  -- REIN_CH_KI
  ⟨0x5000070110, 256, 0x40, 1, 0x4, 0, [fld 31 0 .sh]⟩,
  -- REIN_CH_KB
  ⟨0x5000070114, 256, 0x40, 1, 0x4, 0, [fld 31 0 .sh]⟩,
  -- REIN_CH_KA
  ⟨0x5000070118, 256, 0x40, 1, 0x4, 0, [fld 31 0 .sh]⟩,
  -- REIN_CH_UMIN
  ⟨0x500007011c, 256, 0x40, 1, 0x4, 0, [fld 31 0 .sh]⟩,
  -- REIN_CH_UMAX
  ⟨0x5000070120, 256, 0x40, 1, 0x4, 0, [fld 31 0 .sh]⟩,
  -- REIN_CH_IMIN
  ⟨0x5000070124, 256, 0x40, 1, 0x4, 0, [fld 31 0 .sh]⟩,
  -- REIN_CH_IMAX
  ⟨0x5000070128, 256, 0x40, 1, 0x4, 0, [fld 31 0 .sh]⟩,
  -- REIN_CH_MANUAL
  ⟨0x500007012c, 256, 0x40, 1, 0x4, 0, [fld 31 0 .sh]⟩,
  -- REIN_CH_SAFE
  ⟨0x5000070130, 256, 0x40, 1, 0x4, 0, [fld 31 0 .sh]⟩,
  -- REIN_CH_SPC
  ⟨0x5000070134, 256, 0x40, 1, 0x4, 0, [fld 31 0 .sh]⟩,
  -- REIN_CH_RATE
  ⟨0x5000070138, 256, 0x40, 1, 0x4, 0, [fld 31 0 .sh]⟩,
  -- REIN_CH_CURB_OUT
  ⟨0x500007013c, 256, 0x40, 1, 0x4, 0, [fld 31 16 .sh, fld 15 0 .sh]⟩,
  -- REIN_CH_SRC_SP
  ⟨0x5000074100, 256, 0x40, 1, 0x4, 0, [fld 31 29 .ro, fld 28 28 .ro, fld 27 17 .ro, fld 16 11 .ro, fld 10 5 .ro, fld 4 0 .ro]⟩,
  -- REIN_CH_SRC_PV
  ⟨0x5000074104, 256, 0x40, 1, 0x4, 0, [fld 31 29 .ro, fld 28 28 .ro, fld 27 17 .ro, fld 16 11 .ro, fld 10 5 .ro, fld 4 0 .ro]⟩,
  -- REIN_CH_SRC_FF
  ⟨0x5000074108, 256, 0x40, 1, 0x4, 0, [fld 31 29 .ro, fld 28 28 .ro, fld 27 17 .ro, fld 16 11 .ro, fld 10 5 .ro, fld 4 0 .ro]⟩,
  -- REIN_CH_DEST
  ⟨0x500007410c, 256, 0x40, 1, 0x4, 0, [fld 31 30 .ro, fld 29 26 .ro, fld 12 12 .ro, fld 11 6 .ro, fld 4 0 .ro]⟩,
  -- REIN_CH_PHASE
  ⟨0x5000074110, 256, 0x40, 1, 0x4, 0, [fld 27 0 .sh]⟩,
  -- REIN_CH_RELEASE
  ⟨0x5000074114, 256, 0x40, 1, 0x4, 0, [fld 23 0 .sh]⟩,
  -- REIN_CH_PLAUS
  ⟨0x5000074118, 256, 0x40, 1, 0x4, 0, [fld 31 24 .sh, fld 23 0 .sh]⟩,
  -- REIN_CH_CURB_H
  ⟨0x500007411c, 256, 0x40, 1, 0x4, 0, [fld 31 0 .sh]⟩,
  -- REIN_CH_STATUS
  ⟨0x5000074120, 256, 0x40, 1, 0x4, 0, [fld 31 29 .ro, fld 28 27 .ro, fld 26 24 .ro, fld 23 23 .ro, fld 22 22 .ro, fld 21 21 .ro, fld 20 20 .w1c, fld 19 19 .w1c, fld 18 18 .w1c, fld 17 17 .w1c, fld 7 0 .ro]⟩,
  -- REIN_CH_COUNT
  ⟨0x5000074124, 256, 0x40, 1, 0x4, 0, [fld 31 20 .ro, fld 19 10 .ro, fld 9 0 .ro]⟩,
  -- REIN_CH_U
  ⟨0x5000074128, 256, 0x40, 1, 0x4, 0, [fld 31 0 .ro]⟩,
  -- REIN_CH_ORIGIN_LO
  ⟨0x5000074130, 256, 0x40, 1, 0x4, 0, [fld 31 0 .ro]⟩]

/-- Device block 7 (R30, R31). -/
def regsBlock7B : List RegDesc := [
  -- REIN_CH_ORIGIN_HI
  ⟨0x5000074134, 256, 0x40, 1, 0x4, 0, [fld 31 0 .ro]⟩,
  -- REIN_CH_REL_TICK_LO
  ⟨0x5000074138, 256, 0x40, 1, 0x4, 0, [fld 31 0 .ro]⟩,
  -- REIN_CH_REL_TICK_HI
  ⟨0x500007413c, 256, 0x40, 1, 0x4, 0, [fld 31 0 .ro]⟩]

/-- Device block 7 (R30, R31). -/
def regsBlock7 : List RegDesc := regsBlock7A ++ regsBlock7B

/-- Device block 8 (R30, R31). -/
def regsBlock8 : List RegDesc := [
  -- BRDL_CTRL
  ⟨0x5000080000, 1, 0x4, 1, 0x4, 0, [fld 0 0 .wo]⟩,
  -- BRDL_OBJ_ACK
  ⟨0x5000080004, 1, 0x4, 1, 0x4, 0, [fld 10 0 .wo]⟩,
  -- BRDL_OBJ_SEL
  ⟨0x5000080400, 2, 0x100, 1, 0x4, 0, [fld 15 11 .rw, fld 10 0 .rw]⟩,
  -- BRDL_CH_CTRL
  ⟨0x5000081000, 8, 0x100, 1, 0x4, 0, [fld 3 2 .ro, fld 1 0 .sh]⟩,
  -- BRDL_CH_NBT
  ⟨0x5000081004, 8, 0x100, 1, 0x4, 0, [fld 31 24 .ro, fld 23 16 .ro, fld 15 9 .ro, fld 8 2 .ro]⟩,
  -- BRDL_CH_DBT
  ⟨0x5000081008, 8, 0x100, 1, 0x4, 0, [fld 31 27 .ro, fld 26 21 .ro, fld 20 16 .ro, fld 15 11 .ro, fld 10 3 .ro, fld 2 2 .ro]⟩,
  -- BRDL_CH_STATUS
  ⟨0x500008100c, 8, 0x100, 1, 0x4, 0, [fld 31 30 .ro, fld 29 23 .ro, fld 22 14 .ro, fld 13 6 .ro]⟩,
  -- BRDL_CH_ERR
  ⟨0x5000081010, 8, 0x100, 1, 0x4, 0, [fld 31 31 .w1c, fld 30 30 .w1c, fld 29 29 .w1c, fld 28 28 .w1c, fld 27 27 .w1c, fld 26 26 .w1c, fld 25 25 .w1c, fld 24 24 .w1c]⟩,
  -- BRDL_CH_CMD
  ⟨0x5000081014, 8, 0x100, 1, 0x4, 0, [fld 3 3 .wo, fld 2 2 .wo, fld 1 1 .wo, fld 0 0 .wo]⟩,
  -- BRDL_CH_TX_DONE
  ⟨0x5000081018, 8, 0x100, 1, 0x4, 0, [fld 31 16 .ro, fld 15 0 .ro]⟩,
  -- BRDL_CH_COUNT
  ⟨0x500008101c, 8, 0x100, 1, 0x4, 0, [fld 31 16 .ro, fld 15 0 .ro]⟩]

/-- Device block 9 (R30, R31). -/
def regsBlock9 : List RegDesc := [
  -- TACK_CFG
  ⟨0x5000090000, 12, 0x20, 1, 0x4, 0, [fld 3 2 .ro, fld 1 1 .ro, fld 0 0 .ro]⟩,
  -- TACK_STATUS
  ⟨0x5000090004, 12, 0x20, 1, 0x4, 0, [fld 8 8 .w1c, fld 7 7 .w1c, fld 6 6 .w1c, fld 5 5 .w1c, fld 4 4 .w1c, fld 3 3 .ro, fld 2 2 .ro, fld 1 1 .ro, fld 0 0 .ro]⟩,
  -- TACK_COUNT
  ⟨0x5000090008, 12, 0x20, 1, 0x4, 0, [fld 31 16 .ro, fld 15 0 .ro]⟩,
  -- TACK_RX_TICK_LO
  ⟨0x500009000c, 12, 0x20, 1, 0x4, 0, [fld 31 0 .ro]⟩,
  -- TACK_RX_TICK_HI
  ⟨0x5000090010, 12, 0x20, 1, 0x4, 0, [fld 31 0 .ro]⟩,
  -- CHUTE_CFG
  ⟨0x5000090400, 24, 0x20, 1, 0x4, 0, [fld 31 31 .ro, fld 30 30 .sh, fldK 29 24 .sh .none 32 0, fld 23 18 .sh, fld 3 0 .ro]⟩,
  -- CHUTE_STATUS
  ⟨0x5000090404, 24, 0x20, 1, 0x4, 0, [fld 31 31 .w1c, fld 30 30 .w1c, fld 29 29 .w1c, fld 28 28 .w1c, fld 6 6 .ro, fld 5 0 .ro]⟩,
  -- CHUTE_ECC
  ⟨0x5000090408, 24, 0x20, 1, 0x4, 0, [fld 31 16 .ro, fld 15 0 .ro]⟩,
  -- CHUTE_DATA_LO
  ⟨0x500009040c, 24, 0x20, 1, 0x4, 0, [fld 31 0 .rw]⟩,
  -- CHUTE_DATA_HI
  ⟨0x5000090410, 24, 0x20, 1, 0x4, 0, [fld 31 0 .rw]⟩,
  -- CHUTE_DISCARD
  ⟨0x5000090414, 24, 0x20, 1, 0x4, 0, [fld 31 31 .wo, fld 5 0 .wo]⟩,
  -- CHUTE_CTRL
  ⟨0x5000090800, 1, 0x4, 1, 0x4, 0, [fld 0 0 .wo]⟩]

/-- Device block 10 (R30, R31). -/
def regsBlock10A : List RegDesc := [
  -- SAFE_STATUS
  ⟨0x50000a0000, 1, 0x4, 1, 0x4, 0, [fld 31 16 .ro, fld 7 7 .ro, fld 6 6 .ro, fld 5 5 .ro, fld 4 4 .ro, fldK 3 3 .ro .none 1 0, fld 2 2 .ro, fld 1 0 .ro]⟩,
  -- SAFE_CTRL
  ⟨0x50000a0004, 1, 0x4, 1, 0x4, 0, [fld 1 1 .sh, fld 0 0 .wo]⟩,
  -- SAFE_PIN
  ⟨0x50000a0008, 1, 0x4, 1, 0x4, 0, [fldK 7 0 .sh .none 10 0]⟩,
  -- SAFE_WDT
  ⟨0x50000a000c, 1, 0x4, 1, 0x4, 0, [fld 31 31 .wo, fld 19 10 .sh, fld 9 0 .sh]⟩,
  -- SAFE_MON
  ⟨0x50000a0010, 1, 0x4, 1, 0x4, 0, [fld 31 16 .ro, fld 15 8 .ro]⟩,
  -- SAFE_TALLY_WR
  ⟨0x50000a0020, 1, 0x4, 1, 0x4, 0, [fld 15 0 .ro]⟩,
  -- SAFE_TALLY_RD
  ⟨0x50000a0024, 1, 0x4, 1, 0x4, 0, [fld 15 0 .rw]⟩,
  -- SAFE_TALLY_CTRL
  ⟨0x50000a0028, 1, 0x4, 1, 0x4, 0, [fldK 7 0 .sh .none 8 0]⟩,
  -- SAFE_TALLY_STATUS
  ⟨0x50000a002c, 1, 0x4, 1, 0x4, 0, [fld 31 31 .w1c, fld 30 30 .ro, fldK 10 0 .ro .none 1024 0]⟩,
  -- SAFE_SRC_SEL
  ⟨0x50000a0030, 1, 0x4, 1, 0x4, 0, [fld 18 16 .rw, fld 15 0 .rw]⟩,
  -- SAFE_SRC_COUNT_LO
  ⟨0x50000a0034, 1, 0x4, 1, 0x4, 0, [fld 31 0 .ro]⟩,
  -- SAFE_SRC_COUNT_HI
  ⟨0x50000a0038, 1, 0x4, 1, 0x4, 0, [fld 31 0 .ro]⟩,
  -- SAFE_SRC_FIRST_LO
  ⟨0x50000a003c, 1, 0x4, 1, 0x4, 0, [fld 31 0 .ro]⟩,
  -- SAFE_SRC_FIRST_HI
  ⟨0x50000a0040, 1, 0x4, 1, 0x4, 0, [fld 31 0 .ro]⟩,
  -- SAFE_SRC_LAST_LO
  ⟨0x50000a0044, 1, 0x4, 1, 0x4, 0, [fld 31 0 .ro]⟩,
  -- SAFE_SRC_LAST_HI
  ⟨0x50000a0048, 1, 0x4, 1, 0x4, 0, [fld 31 0 .ro]⟩,
  -- SAFE_INJ_STATUS
  ⟨0x50000a0050, 1, 0x4, 1, 0x4, 0, [fld 31 16 .ro, fld 15 0 .ro]⟩,
  -- SAFE_INJ_FAIL
  ⟨0x50000a0060, 16, 0x4, 1, 0x4, 0, [fld 31 16 .ro, fld 15 0 .ro]⟩,
  -- SAFE_INJECT
  ⟨0x50000a00a0, 1, 0x4, 1, 0x4, 0, [fld 31 31 .wo, fld 30 16 .rw, fld 15 0 .rw]⟩,
  -- SAFE_CP_PERIOD
  ⟨0x50000a00b0, 1, 0x4, 1, 0x4, 0, [fld 31 0 .ro]⟩,
  -- SAFE_CP_WINDOW
  ⟨0x50000a00b4, 1, 0x4, 1, 0x4, 0, [fld 31 0 .ro]⟩,
  -- SAFE_CP_TRANSIENT
  ⟨0x50000a00b8, 1, 0x4, 1, 0x4, 0, [fld 31 8 .ro, fld 7 0 .ro]⟩,
  -- SAFE_FUR_CP
  ⟨0x50000a0100, 64, 0x4, 1, 0x4, 0, [fld 31 16 .ro, fld 11 8 .ro, fld 2 0 .ro]⟩,
  -- SAFE_FUR_PASS_LO
  ⟨0x50000a0200, 64, 0x8, 1, 0x4, 0, [fld 31 0 .ro]⟩,
  -- SAFE_FUR_PASS_HI
  ⟨0x50000a0204, 64, 0x8, 1, 0x4, 0, [fld 31 0 .ro]⟩,
  -- SAFE_FUR_PHASE
  ⟨0x50000a0400, 64, 0x4, 1, 0x4, 0, [fld 31 0 .ro]⟩,
  -- SAFE_MG_CFG
  ⟨0x50000a1020, 255, 0x20, 1, 0x4, 1, [fld 31 31 .sh, fld 30 29 .sh, fld 28 26 .sh, fld 25 24 .ro, fld 23 16 .ro, fldK 7 4 .sh .none 1 0, fldK 3 0 .sh .none 1 0]⟩,
  -- SAFE_MG_PERIOD
  ⟨0x50000a1024, 255, 0x20, 1, 0x4, 1, [fld 31 0 .sh]⟩,
  -- SAFE_MG_PHASE
  ⟨0x50000a1028, 255, 0x20, 1, 0x4, 1, [fld 31 0 .sh]⟩,
  -- SAFE_MG_WIDTH
  ⟨0x50000a102c, 255, 0x20, 1, 0x4, 1, [fld 31 0 .sh]⟩]

/-- Device block 10 (R30, R31). -/
def regsBlock10B : List RegDesc := [
  -- SAFE_MG_AGE
  ⟨0x50000a1030, 255, 0x20, 1, 0x4, 1, [fld 31 0 .sh]⟩,
  -- SAFE_MG_STATUS
  ⟨0x50000a1034, 255, 0x20, 1, 0x4, 1, [fld 31 31 .w1c, fld 30 30 .w1c, fld 29 29 .w1c, fld 28 28 .w1c, fld 3 0 .ro]⟩,
  -- SAFE_MG_LAST_AGE
  ⟨0x50000a1038, 255, 0x20, 1, 0x4, 1, [fld 31 0 .ro]⟩,
  -- SAFE_PWR
  ⟨0x50000a0014, 1, 0x4, 1, 0x4, 0, [fld 31 16 .ro, fld 15 0 .ro]⟩,
  -- SAFE_PWR_AVG
  ⟨0x50000a0018, 1, 0x4, 1, 0x4, 0, [fld 31 31 .w1c, fld 30 16 .ro, fld 15 0 .ro]⟩]

/-- Device block 10 (R30, R31). -/
def regsBlock10 : List RegDesc := regsBlock10A ++ regsBlock10B

/-- Device block 11 (R30, R31). -/
def regsBlock11 : List RegDesc := [
  -- HRNS_CTRL
  ⟨0x50000b0000, 1, 0x4, 1, 0x4, 0, [fld 31 31 .wo, fld 25 24 .rw, fld 23 16 .rw, fld 15 0 .rw]⟩,
  -- HRNS_SRC_LO
  ⟨0x50000b0004, 1, 0x4, 1, 0x4, 0, [fld 31 0 .rw]⟩,
  -- HRNS_SRC_HI
  ⟨0x50000b0008, 1, 0x4, 1, 0x4, 0, [fld 31 0 .rw]⟩,
  -- HRNS_STATUS
  ⟨0x50000b000c, 1, 0x4, 1, 0x4, 0, [fld 31 31 .ro, fld 30 30 .ro, fld 29 29 .w1c, fld 28 27 .ro, fld 26 25 .ro, fld 23 16 .ro]⟩,
  -- HRNS_ERR_LOC
  ⟨0x50000b0010, 1, 0x4, 1, 0x4, 0, [fld 31 16 .ro, fld 15 0 .ro]⟩,
  -- HRNS_SERIAL
  ⟨0x50000b0014, 1, 0x4, 1, 0x4, 0, [fld 31 0 .ro]⟩,
  -- HRNS_BUILD
  ⟨0x50000b0018, 4, 0x4, 1, 0x4, 0, [fld 31 0 .ro]⟩,
  -- HRNS_BOOT
  ⟨0x50000b0028, 1, 0x4, 1, 0x4, 0, [fld 4 4 .ro, fld 3 3 .ro, fld 2 2 .ro, fld 1 1 .ro, fld 0 0 .ro]⟩,
  -- BKL_CMD
  ⟨0x50000b1000, 11, 0x20, 1, 0x4, 0, [fld 31 30 .wo, fld 25 24 .wo, fld 23 16 .wo, fld 15 0 .wo]⟩,
  -- BKL_STATUS
  ⟨0x50000b1004, 11, 0x20, 1, 0x4, 0, [fld 31 30 .ro, fld 29 27 .ro, fld 26 26 .w1c, fld 25 25 .ro, fld 23 16 .ro, fld 15 0 .ro]⟩,
  -- BKL_FAIL_LO
  ⟨0x50000b1008, 11, 0x20, 1, 0x4, 0, [fld 31 0 .ro]⟩,
  -- BKL_FAIL_HI
  ⟨0x50000b100c, 11, 0x20, 1, 0x4, 0, [fld 31 0 .ro]⟩,
  -- BKL_INFO
  ⟨0x50000b1010, 11, 0x20, 1, 0x4, 0, [fld 8 0 .ro]⟩]

/-- Device block 13 (R30, R31). -/
def regsBlock13 : List RegDesc := [
  -- PCIE_LINK
  ⟨0x50000d0000, 1, 0x4, 1, 0x4, 0, [fld 7 4 .ro, fld 3 1 .ro, fld 0 0 .ro]⟩,
  -- PCIE_ERR
  ⟨0x50000d0004, 1, 0x4, 1, 0x4, 0, [fld 31 31 .w1c, fld 30 30 .w1c, fld 29 29 .w1c, fld 28 28 .w1c, fld 27 27 .w1c]⟩,
  -- PCIE_COUNT
  ⟨0x50000d0008, 1, 0x4, 1, 0x4, 0, [fld 31 16 .ro, fld 15 0 .ro]⟩,
  -- PCIE_FN
  ⟨0x50000d0010, 9, 0x4, 1, 0x4, 0, [fld 2 2 .w1c, fld 1 1 .ro, fld 0 0 .ro]⟩]

/-- Device block 0 (R30, R31). -/
def regsBlock0 : List RegDesc := [
  -- REEVE_BOOT
  ⟨0x5000000000, 1, 0x4, 1, 0x4, 0, [fld 31 31 .ro, fld 30 29 .ro, fld 28 24 .ro, fld 23 0 .ro]⟩,
  -- REEVE_RST
  ⟨0x5000000004, 1, 0x4, 1, 0x4, 0, [fldK 31 31 .ro .warm 0 0, fld 0 0 .ro]⟩,
  -- REEVE_CTRL
  ⟨0x5000000008, 1, 0x4, 1, 0x4, 0, [fld 0 0 .wo]⟩,
  -- REEVE_BUSERR
  ⟨0x500000000c, 1, 0x4, 1, 0x4, 0, [fld 31 31 .w1c]⟩,
  -- REEVE_BUSERR_ADDR_LO
  ⟨0x5000000010, 1, 0x4, 1, 0x4, 0, [fld 31 0 .ro]⟩,
  -- REEVE_BUSERR_ADDR_HI
  ⟨0x5000000014, 1, 0x4, 1, 0x4, 0, [fld 31 0 .ro]⟩,
  -- REEVE_WG_ADDR_LO
  ⟨0x5000000050, 1, 0x4, 1, 0x4, 0, [fld 31 0 .rw]⟩,
  -- REEVE_WG_ADDR_HI
  ⟨0x5000000054, 1, 0x4, 1, 0x4, 0, [fld 31 0 .rw]⟩,
  -- REEVE_WG_CTRL
  ⟨0x5000000058, 1, 0x4, 1, 0x4, 0, [fld 31 31 .wo, fld 30 30 .ro, fld 6 0 .rw]⟩,
  -- REEVE_WT_STATUS
  ⟨0x5000000018, 1, 0x4, 1, 0x4, 0, [fld 31 31 .ro, fld 15 8 .ro, fld 6 6 .ro, fld 5 5 .ro, fld 4 4 .ro, fld 3 3 .ro, fld 2 2 .ro, fld 1 1 .ro, fld 0 0 .ro]⟩,
  -- REEVE_FW
  ⟨0x500000001c, 1, 0x4, 1, 0x4, 0, [fld 31 16 .ro, fld 9 8 .ro, fld 7 0 .ro]⟩,
  -- REEVE_SPARE
  ⟨0x5000000020, 1, 0x4, 1, 0x4, 0, [fld 26 24 .ro, fld 18 16 .ro, fld 6 0 .ro]⟩,
  -- REEVE_CHAIN
  ⟨0x5000000030, 1, 0x4, 1, 0x4, 0, [fld 31 31 .ro, fld 30 30 .ro, fld 29 29 .ro, fld 28 28 .w1c, fld 27 27 .ro, fld 26 26 .ro, fld 20 16 .ro, fld 3 0 .ro]⟩,
  -- REEVE_CHAIN_CNT
  ⟨0x5000000034, 1, 0x4, 1, 0x4, 0, [fld 31 16 .ro, fld 15 0 .ro]⟩,
  -- REEVE_CHAIN_CMD
  ⟨0x5000000038, 1, 0x4, 1, 0x4, 0, [fld 31 31 .wo, fld 30 30 .wo, fld 4 4 .wo, fld 3 0 .wo]⟩,
  -- REEVE_CHAIN_STATUS
  ⟨0x500000003c, 1, 0x4, 1, 0x4, 0, [fld 31 31 .ro, fld 4 0 .ro]⟩,
  -- REEVE_LINK_CTRL
  ⟨0x50000001f0, 1, 0x4, 1, 0x4, 0, [fldK 19 0 .sh .none 1000 0]⟩,
  -- REEVE_LINK
  ⟨0x5000000200, 17, 0x4, 1, 0x4, 0, [fldK 31 24 .ro .warm 0 0, fldK 23 16 .ro .warm 0 0, fld 15 0 .ro]⟩,
  -- REEVE_GPIO_OUT
  ⟨0x5000000040, 1, 0x4, 1, 0x4, 0, [fld 31 0 .rw]⟩,
  -- REEVE_GPIO_OE
  ⟨0x5000000044, 1, 0x4, 1, 0x4, 0, [fld 31 0 .rw]⟩,
  -- REEVE_GPIO_IN
  ⟨0x5000000048, 1, 0x4, 1, 0x4, 0, [fld 31 0 .ro]⟩]

/-- Device block 12 (R30, R31). -/
def regsBlock12 : List RegDesc := [
  -- FUSE_PART
  ⟨0x50000c0000, 1, 0x4, 1, 0x4, 0, [fldK 31 24 .ro .fuse 176 0, fldK 23 16 .ro .fuse 170 0, fldK 15 12 .ro .fuse 5 0, fldK 1 0 .ro .fuse 0 0]⟩,
  -- FUSE_UID_LO
  ⟨0x50000c0004, 1, 0x4, 1, 0x4, 0, [fldK 31 0 .ro .fuse 0 0]⟩,
  -- FUSE_UID_HI
  ⟨0x50000c0008, 1, 0x4, 1, 0x4, 0, [fldK 31 0 .ro .fuse 0 0]⟩,
  -- FUSE_KEY
  ⟨0x50000c0010, 1, 0x4, 1, 0x4, 0, [fldK 7 4 .ro .fuse 0 0, fldK 3 0 .ro .fuse 0 0]⟩,
  -- FUSE_MIN_SERIAL
  ⟨0x50000c0014, 1, 0x4, 1, 0x4, 0, [fldK 31 0 .ro .fuse 0 0]⟩,
  -- FUSE_FURROW
  ⟨0x50000c0020, 3, 0x4, 1, 0x4, 0, [fldK 31 0 .ro .fuse 0 0]⟩,
  -- FUSE_PROG
  ⟨0x50000c0030, 1, 0x4, 1, 0x4, 0, [fld 31 31 .wo, fld 3 0 .rw]⟩,
  -- FUSE_PROG_SERIAL
  ⟨0x50000c0034, 1, 0x4, 1, 0x4, 0, [fld 31 0 .rw]⟩,
  -- FUSE_KEY_HASH
  ⟨0x50000c0100, 4, 0x40, 12, 0x4, 0, [fldK 31 0 .ro .fuse 0 0]⟩]

/-- The register rows that can hold an address: the region of R30 it lies in. -/
def regRows (a : Nat) : List RegDesc :=
  if a / 0x100000000 == 0x40 then
    (if 0x800000 ≤ a % 0x1000000 && a % 0x1000000 < 0x810000 then regsFurrow else [])
  else if a / 0x10000 == 0x480010 then regsHopper
  else if a / 0x100000 == 0x50000 then
    match a / 0x10000 % 16 with
    | 0 => regsBlock0
    | 1 => regsBlock1
    | 2 => regsBlock2
    | 3 => regsBlock3
    | 4 => regsBlock4
    | 5 => regsBlock5
    | 6 => regsBlock6
    | 7 => regsBlock7
    | 8 => regsBlock8
    | 9 => regsBlock9
    | 10 => regsBlock10
    | 11 => regsBlock11
    | 12 => regsBlock12
    | 13 => regsBlock13
    | _ => []
  else []

/-- Where a row's registers hold address a: its first and second index. -/
def RegDesc.index? (d : RegDesc) (a : Nat) : Option (Nat × Nat) :=
  if a < d.base then none
  else
    let off := a - d.base
    let i := if d.count1 == 1 then 0 else off / d.stride1
    let rest := off - d.stride1 * i
    let j := if d.count2 == 1 then 0 else rest / d.stride2
    if i < d.count1 && j < d.count2 && rest == d.stride2 * j then some (i + d.start, j) else none

/-- The row of a list that holds address a, with its indices. -/
def findRow (a : Nat) : List RegDesc → Option (RegDesc × Nat × Nat)
  | [] => none
  | d :: ds =>
    match d.index? a with
    | some (i, j) => some (d, i, j)
    | none => findRow a ds

/-- The register at an address, if a register map names one. -/
def regAt (a : Nat) : Option (RegDesc × Nat × Nat) := findRow a (regRows a)

/-- The reset value of a field of the register with first index i. -/
def FieldDesc.resetBits (f : FieldDesc) (i : Nat) : Nat := (f.reset + f.resetIdx * i) * 2 ^ f.lsb

/-- The bits a field covers, as a mask. -/
def FieldDesc.mask (f : FieldDesc) : Word :=
  BitVec.ofNat 32 ((2 ^ (f.msb + 1 - f.lsb) - 1) * 2 ^ f.lsb)

/-- The mask of the fields of a row that meet a test. -/
def maskWhere (fs : List FieldDesc) (p : FieldDesc → Bool) : Word :=
  fs.foldl (fun m f => if p f then m ||| f.mask else m) 0

/-- A row whose Reset column is not 0 throughout. -/
def RegDesc.hasReset (d : RegDesc) : Bool := d.fields.any fun f => f.reset != 0 || f.resetIdx != 0

/-- The value of the register at an address right after PORST_N (the Reset column, R20): no two rows share an address,
so the rows that reset to 0 need no look. -/
def regReset (a : Nat) : Word :=
  match findRow a ((regRows a).filter RegDesc.hasReset) with
  | some (d, i, _) => BitVec.ofNat 32 (d.fields.foldl (fun t f => t + f.resetBits i) 0)
  | none => 0

end Sys2Proof.Machine
end

