-- ==== Sys2Proof/Machine/Regs.lean ====
section
/-! DEFINITION. The device address of every register, by the address expression of its register map (R30, R31). -/

namespace Sys2Proof.Machine

/-- CLK_STATUS (02_clocks_and_time.md). -/
def Reg.clkStatus : Nat := 0x5000010000

/-- TIME_NOW_LO (02_clocks_and_time.md). -/
def Reg.timeNowLo : Nat := 0x5000020000

/-- TIME_NOW_HI (02_clocks_and_time.md). -/
def Reg.timeNowHi : Nat := 0x5000020004

/-- TIME_RATE_ADJ (02_clocks_and_time.md). -/
def Reg.timeRateAdj : Nat := 0x5000020008

/-- TIME_STEP_LO (02_clocks_and_time.md). -/
def Reg.timeStepLo : Nat := 0x5000020010

/-- TIME_STEP_HI (02_clocks_and_time.md). -/
def Reg.timeStepHi : Nat := 0x5000020014

/-- TIME_CTRL (02_clocks_and_time.md). -/
def Reg.timeCtrl : Nat := 0x5000020018

/-- TIME_STATUS (02_clocks_and_time.md). -/
def Reg.timeStatus : Nat := 0x500002001c

/-- TIME_CHAIN_DELAY (02_clocks_and_time.md). -/
def Reg.timeChainDelay : Nat := 0x5000020020

/-- TIME_LATE_COUNT (02_clocks_and_time.md). -/
def Reg.timeLateCount : Nat := 0x5000020024

/-- TIME_FSYNC_START_LO (02_clocks_and_time.md). -/
def Reg.timeFsyncStartLo (n : Nat) : Nat := 0x5000020100 + 0x10 * n

/-- TIME_FSYNC_START_HI (02_clocks_and_time.md). -/
def Reg.timeFsyncStartHi (n : Nat) : Nat := 0x5000020104 + 0x10 * n

/-- TIME_FSYNC_PERIOD (02_clocks_and_time.md). -/
def Reg.timeFsyncPeriod (n : Nat) : Nat := 0x5000020108 + 0x10 * n

/-- TIME_FSYNC_CTRL (02_clocks_and_time.md). -/
def Reg.timeFsyncCtrl (n : Nat) : Nat := 0x500002010c + 0x10 * n

/-- FUR_ID (04_furrow_cores.md). -/
def Reg.furId (n : Nat) : Nat := 0x4000800000 + 0x1000000 * n

/-- FUR_STATUS (04_furrow_cores.md). -/
def Reg.furStatus (n : Nat) : Nat := 0x4000800004 + 0x1000000 * n

/-- FUR_TASK (04_furrow_cores.md). -/
def Reg.furTask (n : Nat) : Nat := 0x4000800008 + 0x1000000 * n

/-- FUR_TASK_TAG (04_furrow_cores.md). -/
def Reg.furTaskTag (n : Nat) : Nat := 0x400080000c + 0x1000000 * n

/-- FUR_TASK_CYCLES (04_furrow_cores.md). -/
def Reg.furTaskCycles (n : Nat) : Nat := 0x4000800010 + 0x1000000 * n

/-- FUR_TILES (04_furrow_cores.md). -/
def Reg.furTiles (n : Nat) : Nat := 0x4000800014 + 0x1000000 * n

/-- FUR_FAULT (04_furrow_cores.md). -/
def Reg.furFault (n : Nat) : Nat := 0x4000800018 + 0x1000000 * n

/-- FUR_FMT_CNT (04_furrow_cores.md). -/
def Reg.furFmtCnt (n : Nat) (k : Nat) : Nat := 0x4000800020 + 0x1000000 * n + 0x4 * k

/-- FUR_MAC_LO (04_furrow_cores.md). -/
def Reg.furMacLo (n : Nat) : Nat := 0x4000800030 + 0x1000000 * n

/-- FUR_MAC_HI (04_furrow_cores.md). -/
def Reg.furMacHi (n : Nat) : Nat := 0x4000800034 + 0x1000000 * n

/-- FUR_GATED_LO (04_furrow_cores.md). -/
def Reg.furGatedLo (n : Nat) : Nat := 0x4000800038 + 0x1000000 * n

/-- FUR_GATED_HI (04_furrow_cores.md). -/
def Reg.furGatedHi (n : Nat) : Nat := 0x400080003c + 0x1000000 * n

/-- FUR_CTRL (04_furrow_cores.md). -/
def Reg.furCtrl (n : Nat) : Nat := 0x4000800040 + 0x1000000 * n

/-- FUR_FW (04_furrow_cores.md). -/
def Reg.furFw (n : Nat) : Nat := 0x4000800044 + 0x1000000 * n

/-- FUR_SB_CTRL (05_seedbeds.md). -/
def Reg.furSbCtrl (n : Nat) : Nat := 0x4000800100 + 0x1000000 * n

/-- FUR_SB_STATUS (05_seedbeds.md). -/
def Reg.furSbStatus (n : Nat) : Nat := 0x4000800104 + 0x1000000 * n

/-- FUR_SB_SCRUB (05_seedbeds.md). -/
def Reg.furSbScrub (n : Nat) : Nat := 0x4000800108 + 0x1000000 * n

/-- FUR_SB_ECC_CNT (05_seedbeds.md). -/
def Reg.furSbEccCnt (n : Nat) : Nat := 0x400080010c + 0x1000000 * n

/-- FUR_SB_ERR (05_seedbeds.md). -/
def Reg.furSbErr (n : Nat) : Nat := 0x4000800110 + 0x1000000 * n

/-- FUR_SB_GATE (05_seedbeds.md). -/
def Reg.furSbGate (n : Nat) : Nat := 0x4000800114 + 0x1000000 * n

/-- FUR_SB_REPAIR (05_seedbeds.md). -/
def Reg.furSbRepair (n : Nat) : Nat := 0x4000800118 + 0x1000000 * n

/-- FUR_SB_CLEAR (05_seedbeds.md). -/
def Reg.furSbClear (n : Nat) : Nat := 0x400080011c + 0x1000000 * n

/-- FUR_SB_SLOT_RANGE (05_seedbeds.md). -/
def Reg.furSbSlotRange (n : Nat) (k : Nat) : Nat := 0x4000801000 + 0x1000000 * n + 0x8 * k

/-- FUR_SB_SLOT_GEN (05_seedbeds.md). -/
def Reg.furSbSlotGen (n : Nat) (k : Nat) : Nat := 0x4000801004 + 0x1000000 * n + 0x8 * k

/-- FUR_RK_ECC (06_rake_windows.md). -/
def Reg.furRkEcc (n : Nat) : Nat := 0x4000800200 + 0x1000000 * n

/-- FUR_ZC_RAW (06_rake_windows.md). -/
def Reg.furZcRaw (n : Nat) : Nat := 0x4000800204 + 0x1000000 * n

/-- FUR_ZC_MOVED (06_rake_windows.md). -/
def Reg.furZcMoved (n : Nat) : Nat := 0x4000800208 + 0x1000000 * n

/-- FUR_ZC_CTRL (06_rake_windows.md). -/
def Reg.furZcCtrl (n : Nat) : Nat := 0x400080020c + 0x1000000 * n

/-- FUR_HW_ECC (07_harrow_attention.md). -/
def Reg.furHwEcc (n : Nat) : Nat := 0x4000800300 + 0x1000000 * n

/-- FUR_HW_FENCE_LO (07_harrow_attention.md). -/
def Reg.furHwFenceLo (n : Nat) : Nat := 0x4000800304 + 0x1000000 * n

/-- FUR_HW_FENCE_HI (07_harrow_attention.md). -/
def Reg.furHwFenceHi (n : Nat) : Nat := 0x4000800308 + 0x1000000 * n

/-- FUR_HW_FENCE_GEN (07_harrow_attention.md). -/
def Reg.furHwFenceGen (n : Nat) : Nat := 0x400080030c + 0x1000000 * n

/-- FUR_HW_FENCE_STATUS (07_harrow_attention.md). -/
def Reg.furHwFenceStatus (n : Nat) : Nat := 0x4000800310 + 0x1000000 * n

/-- FUR_HW_BUCKET (07_harrow_attention.md). -/
def Reg.furHwBucket (n : Nat) (k : Nat) : Nat := 0x4000800320 + 0x1000000 * n + 0x4 * k

/-- FUR_HW_UNBUCKETED (07_harrow_attention.md). -/
def Reg.furHwUnbucketed (n : Nat) : Nat := 0x4000800340 + 0x1000000 * n

/-- FUR_HW_SKIPPED (07_harrow_attention.md). -/
def Reg.furHwSkipped (n : Nat) : Nat := 0x4000800344 + 0x1000000 * n

/-- FUR_HW_CTRL (07_harrow_attention.md). -/
def Reg.furHwCtrl (n : Nat) : Nat := 0x4000800348 + 0x1000000 * n

/-- HOP_DOORBELL (08_hoppers_and_fields.md). -/
def Reg.hopDoorbell : Nat := 0x4800100000

/-- HOP_SKIP (08_hoppers_and_fields.md). -/
def Reg.hopSkip : Nat := 0x4800100004

/-- HOP_CNT_RESET (08_hoppers_and_fields.md). -/
def Reg.hopCntReset : Nat := 0x4800100008

/-- HOP_ERR (08_hoppers_and_fields.md). -/
def Reg.hopErr : Nat := 0x480010000c

/-- FLD_CTRL (08_hoppers_and_fields.md). -/
def Reg.fldCtrl (f : Nat) : Nat := 0x4800101000 + 0x100 * f

/-- FLD_STATUS (08_hoppers_and_fields.md). -/
def Reg.fldStatus (f : Nat) : Nat := 0x4800101004 + 0x100 * f

/-- FLD_FURROWS_LO (08_hoppers_and_fields.md). -/
def Reg.fldFurrowsLo (f : Nat) : Nat := 0x4800101008 + 0x100 * f

/-- FLD_FURROWS_HI (08_hoppers_and_fields.md). -/
def Reg.fldFurrowsHi (f : Nat) : Nat := 0x480010100c + 0x100 * f

/-- FLD_HOPPERS (08_hoppers_and_fields.md). -/
def Reg.fldHoppers (f : Nat) : Nat := 0x4800101010 + 0x100 * f

/-- FLD_DRAM_BASE_LO (08_hoppers_and_fields.md). -/
def Reg.fldDramBaseLo (f : Nat) : Nat := 0x4800101014 + 0x100 * f

/-- FLD_DRAM_BASE_HI (08_hoppers_and_fields.md). -/
def Reg.fldDramBaseHi (f : Nat) : Nat := 0x4800101018 + 0x100 * f

/-- FLD_DRAM_LIMIT_LO (08_hoppers_and_fields.md). -/
def Reg.fldDramLimitLo (f : Nat) : Nat := 0x480010101c + 0x100 * f

/-- FLD_DRAM_LIMIT_HI (08_hoppers_and_fields.md). -/
def Reg.fldDramLimitHi (f : Nat) : Nat := 0x4800101020 + 0x100 * f

/-- FLD_PCIE (08_hoppers_and_fields.md). -/
def Reg.fldPcie (f : Nat) : Nat := 0x4800101024 + 0x100 * f

/-- FLD_STOP (08_hoppers_and_fields.md). -/
def Reg.fldStop (f : Nat) : Nat := 0x4800101028 + 0x100 * f

/-- FLD_STOP_TICK_LO (08_hoppers_and_fields.md). -/
def Reg.fldStopTickLo (f : Nat) : Nat := 0x480010102c + 0x100 * f

/-- FLD_STOP_TICK_HI (08_hoppers_and_fields.md). -/
def Reg.fldStopTickHi (f : Nat) : Nat := 0x4800101030 + 0x100 * f

/-- FLD_QUIESCE (08_hoppers_and_fields.md). -/
def Reg.fldQuiesce (f : Nat) : Nat := 0x4800101034 + 0x100 * f

/-- FLD_PARK (08_hoppers_and_fields.md). -/
def Reg.fldPark (f : Nat) : Nat := 0x4800101038 + 0x100 * f

/-- FLD_GLEAN_ADDR_LO (08_hoppers_and_fields.md). -/
def Reg.fldGleanAddrLo (f : Nat) : Nat := 0x480010103c + 0x100 * f

/-- FLD_GLEAN_ADDR_HI (08_hoppers_and_fields.md). -/
def Reg.fldGleanAddrHi (f : Nat) : Nat := 0x4800101040 + 0x100 * f

/-- FLD_GLEAN_COUNT (08_hoppers_and_fields.md). -/
def Reg.fldGleanCount (f : Nat) : Nat := 0x4800101044 + 0x100 * f

/-- YOKE_RATE (08_hoppers_and_fields.md). -/
def Reg.yokeRate (f : Nat) (r : Nat) : Nat := 0x4800102000 + 0x40 * f + 0x10 * r

/-- YOKE_DEPTH (08_hoppers_and_fields.md). -/
def Reg.yokeDepth (f : Nat) (r : Nat) : Nat := 0x4800102004 + 0x40 * f + 0x10 * r

/-- YOKE_LEVEL (08_hoppers_and_fields.md). -/
def Reg.yokeLevel (f : Nat) (r : Nat) : Nat := 0x4800102008 + 0x40 * f + 0x10 * r

/-- YOKE_HELD (08_hoppers_and_fields.md). -/
def Reg.yokeHeld (f : Nat) (r : Nat) : Nat := 0x480010200c + 0x40 * f + 0x10 * r

/-- DROVE_PORT_STATUS (09_droveway.md). -/
def Reg.drovePortStatus (q : Nat) : Nat := 0x5000060010 + 0x4 * q

/-- DROVE_PORT_DROP (09_droveway.md). -/
def Reg.drovePortDrop (q : Nat) : Nat := 0x5000060020 + 0x4 * q

/-- DROVE_RTO (09_droveway.md). -/
def Reg.droveRto : Nat := 0x5000060030

/-- DROVE_PEER (09_droveway.md). -/
def Reg.drovePeer (p : Nat) : Nat := 0x5000060100 + 0x4 * p

/-- DROVE_PEER_RETX (09_droveway.md). -/
def Reg.drovePeerRetx (p : Nat) : Nat := 0x5000060140 + 0x4 * p

/-- DROVE_RXB_STATUS (09_droveway.md). -/
def Reg.droveRxbStatus (x : Nat) : Nat := 0x5000061000 + 0x8 * x

/-- DROVE_RXB_LAST (09_droveway.md). -/
def Reg.droveRxbLast (x : Nat) : Nat := 0x5000061004 + 0x8 * x

/-- DROVE_RESID (09_droveway.md). -/
def Reg.droveResid (e : Nat) : Nat := 0x5000064000 + 0x4 * e

/-- DROVE_CTRL (09_droveway.md). -/
def Reg.droveCtrl : Nat := 0x5000060000

/-- DRAM_CFG (10_dram_and_headland.md). -/
def Reg.dramCfg : Nat := 0x5000040000

/-- DRAM_STATUS (10_dram_and_headland.md). -/
def Reg.dramStatus : Nat := 0x5000040004

/-- DRAM_TRAIN_CTRL (10_dram_and_headland.md). -/
def Reg.dramTrainCtrl : Nat := 0x5000040008

/-- DRAM_SCRUB (10_dram_and_headland.md). -/
def Reg.dramScrub : Nat := 0x500004000c

/-- DRAM_CTRL (10_dram_and_headland.md). -/
def Reg.dramCtrl : Nat := 0x5000040010

/-- DRAM_ERR_ADDR_LO (10_dram_and_headland.md). -/
def Reg.dramErrAddrLo : Nat := 0x5000040014

/-- DRAM_ERR_ADDR_HI (10_dram_and_headland.md). -/
def Reg.dramErrAddrHi : Nat := 0x5000040018

/-- DRAM_ERR (10_dram_and_headland.md). -/
def Reg.dramErr : Nat := 0x500004001c

/-- DRAM_CH_ECC (10_dram_and_headland.md). -/
def Reg.dramChEcc (c : Nat) : Nat := 0x5000040100 + 0x4 * c

/-- DRAM_CH_TRAIN (10_dram_and_headland.md). -/
def Reg.dramChTrain (c : Nat) : Nat := 0x5000040200 + 0x4 * c

/-- DRAM_NODE_TEMP (10_dram_and_headland.md). -/
def Reg.dramNodeTemp (m : Nat) : Nat := 0x5000040300 + 0x4 * m

/-- HEAD_VC_WEIGHT (10_dram_and_headland.md). -/
def Reg.headVcWeight (v : Nat) : Nat := 0x5000030000 + 0x4 * v

/-- HEAD_ECC (10_dram_and_headland.md). -/
def Reg.headEcc : Nat := 0x5000030040

/-- HEAD_ERR (10_dram_and_headland.md). -/
def Reg.headErr : Nat := 0x5000030044

/-- HEAD_CTRL (10_dram_and_headland.md). -/
def Reg.headCtrl : Nat := 0x5000030048

/-- INTK_CTRL (11_intake.md). -/
def Reg.intkCtrl : Nat := 0x5000050000

/-- INTK_RX_STATUS (11_intake.md). -/
def Reg.intkRxStatus (n : Nat) : Nat := 0x5000050010 + 0x4 * n

/-- INTK_ETH_STATUS (11_intake.md). -/
def Reg.intkEthStatus (q : Nat) : Nat := 0x5000050030 + 0x4 * q

/-- INTK_PIPE_CTRL (11_intake.md). -/
def Reg.intkPipeCtrl (p : Nat) : Nat := 0x5000050100 + 0x40 * p

/-- INTK_PIPE_SEED (11_intake.md). -/
def Reg.intkPipeSeed (p : Nat) : Nat := 0x5000050104 + 0x40 * p

/-- INTK_PIPE_BL (11_intake.md). -/
def Reg.intkPipeBl (p : Nat) (m : Nat) : Nat := 0x5000050108 + 0x40 * p + 0x4 * m

/-- INTK_PIPE_GAIN (11_intake.md). -/
def Reg.intkPipeGain (p : Nat) (m : Nat) : Nat := 0x5000050110 + 0x40 * p + 0x4 * m

/-- INTK_PIPE_CHECK_EXP (11_intake.md). -/
def Reg.intkPipeCheckExp (p : Nat) : Nat := 0x5000050118 + 0x40 * p

/-- INTK_PIPE_CHECK_LAST (11_intake.md). -/
def Reg.intkPipeCheckLast (p : Nat) : Nat := 0x500005011c + 0x40 * p

/-- INTK_PIPE_FRAMES (11_intake.md). -/
def Reg.intkPipeFrames (p : Nat) : Nat := 0x5000050120 + 0x40 * p

/-- INTK_PIPE_STATE (11_intake.md). -/
def Reg.intkPipeState (p : Nat) : Nat := 0x5000050124 + 0x40 * p

/-- INTK_PIPE_DROP (11_intake.md). -/
def Reg.intkPipeDrop (p : Nat) : Nat := 0x5000050128 + 0x40 * p

/-- INTK_PIPE_ERR (11_intake.md). -/
def Reg.intkPipeErr (p : Nat) : Nat := 0x500005012c + 0x40 * p

/-- INTK_PIPE_CAPTURE_LO (11_intake.md). -/
def Reg.intkPipeCaptureLo (p : Nat) : Nat := 0x5000050130 + 0x40 * p

/-- INTK_PIPE_CAPTURE_HI (11_intake.md). -/
def Reg.intkPipeCaptureHi (p : Nat) : Nat := 0x5000050134 + 0x40 * p

/-- REIN_STATUS (12_rein_engine.md). -/
def Reg.reinStatus : Nat := 0x5000070000

/-- REIN_CTRL (12_rein_engine.md). -/
def Reg.reinCtrl : Nat := 0x5000070004

/-- REIN_CH_CTRL (12_rein_engine.md). -/
def Reg.reinChCtrl (n : Nat) : Nat := 0x5000070100 + 0x40 * n

/-- REIN_CH_PERIOD (12_rein_engine.md). -/
def Reg.reinChPeriod (n : Nat) : Nat := 0x5000070104 + 0x40 * n

/-- REIN_CH_AGE (12_rein_engine.md). -/
def Reg.reinChAge (n : Nat) : Nat := 0x5000070108 + 0x40 * n

/-- REIN_CH_KP (12_rein_engine.md). -/
def Reg.reinChKp (n : Nat) : Nat := 0x500007010c + 0x40 * n

/-- REIN_CH_KI (12_rein_engine.md). -/
def Reg.reinChKi (n : Nat) : Nat := 0x5000070110 + 0x40 * n

/-- REIN_CH_KB (12_rein_engine.md). -/
def Reg.reinChKb (n : Nat) : Nat := 0x5000070114 + 0x40 * n

/-- REIN_CH_KA (12_rein_engine.md). -/
def Reg.reinChKa (n : Nat) : Nat := 0x5000070118 + 0x40 * n

/-- REIN_CH_UMIN (12_rein_engine.md). -/
def Reg.reinChUmin (n : Nat) : Nat := 0x500007011c + 0x40 * n

/-- REIN_CH_UMAX (12_rein_engine.md). -/
def Reg.reinChUmax (n : Nat) : Nat := 0x5000070120 + 0x40 * n

/-- REIN_CH_IMIN (12_rein_engine.md). -/
def Reg.reinChImin (n : Nat) : Nat := 0x5000070124 + 0x40 * n

/-- REIN_CH_IMAX (12_rein_engine.md). -/
def Reg.reinChImax (n : Nat) : Nat := 0x5000070128 + 0x40 * n

/-- REIN_CH_MANUAL (12_rein_engine.md). -/
def Reg.reinChManual (n : Nat) : Nat := 0x500007012c + 0x40 * n

/-- REIN_CH_SAFE (12_rein_engine.md). -/
def Reg.reinChSafe (n : Nat) : Nat := 0x5000070130 + 0x40 * n

/-- REIN_CH_SPC (12_rein_engine.md). -/
def Reg.reinChSpc (n : Nat) : Nat := 0x5000070134 + 0x40 * n

/-- REIN_CH_RATE (12_rein_engine.md). -/
def Reg.reinChRate (n : Nat) : Nat := 0x5000070138 + 0x40 * n

/-- REIN_CH_CURB_OUT (12_rein_engine.md). -/
def Reg.reinChCurbOut (n : Nat) : Nat := 0x500007013c + 0x40 * n

/-- REIN_CH_SRC_SP (12_rein_engine.md). -/
def Reg.reinChSrcSp (n : Nat) : Nat := 0x5000074100 + 0x40 * n

/-- REIN_CH_SRC_PV (12_rein_engine.md). -/
def Reg.reinChSrcPv (n : Nat) : Nat := 0x5000074104 + 0x40 * n

/-- REIN_CH_SRC_FF (12_rein_engine.md). -/
def Reg.reinChSrcFf (n : Nat) : Nat := 0x5000074108 + 0x40 * n

/-- REIN_CH_DEST (12_rein_engine.md). -/
def Reg.reinChDest (n : Nat) : Nat := 0x500007410c + 0x40 * n

/-- REIN_CH_PHASE (12_rein_engine.md). -/
def Reg.reinChPhase (n : Nat) : Nat := 0x5000074110 + 0x40 * n

/-- REIN_CH_RELEASE (12_rein_engine.md). -/
def Reg.reinChRelease (n : Nat) : Nat := 0x5000074114 + 0x40 * n

/-- REIN_CH_PLAUS (12_rein_engine.md). -/
def Reg.reinChPlaus (n : Nat) : Nat := 0x5000074118 + 0x40 * n

/-- REIN_CH_CURB_H (12_rein_engine.md). -/
def Reg.reinChCurbH (n : Nat) : Nat := 0x500007411c + 0x40 * n

/-- REIN_CH_STATUS (12_rein_engine.md). -/
def Reg.reinChStatus (n : Nat) : Nat := 0x5000074120 + 0x40 * n

/-- REIN_CH_COUNT (12_rein_engine.md). -/
def Reg.reinChCount (n : Nat) : Nat := 0x5000074124 + 0x40 * n

/-- REIN_CH_U (12_rein_engine.md). -/
def Reg.reinChU (n : Nat) : Nat := 0x5000074128 + 0x40 * n

/-- REIN_CH_ORIGIN_LO (12_rein_engine.md). -/
def Reg.reinChOriginLo (n : Nat) : Nat := 0x5000074130 + 0x40 * n

/-- REIN_CH_ORIGIN_HI (12_rein_engine.md). -/
def Reg.reinChOriginHi (n : Nat) : Nat := 0x5000074134 + 0x40 * n

/-- REIN_CH_REL_TICK_LO (12_rein_engine.md). -/
def Reg.reinChRelTickLo (n : Nat) : Nat := 0x5000074138 + 0x40 * n

/-- REIN_CH_REL_TICK_HI (12_rein_engine.md). -/
def Reg.reinChRelTickHi (n : Nat) : Nat := 0x500007413c + 0x40 * n

/-- BRDL_CTRL (13_bridle_and_chutes.md). -/
def Reg.brdlCtrl : Nat := 0x5000080000

/-- BRDL_OBJ_ACK (13_bridle_and_chutes.md). -/
def Reg.brdlObjAck : Nat := 0x5000080004

/-- BRDL_OBJ_SEL (13_bridle_and_chutes.md). -/
def Reg.brdlObjSel (w : Nat) : Nat := 0x5000080400 + 0x100 * w

/-- BRDL_CH_CTRL (13_bridle_and_chutes.md). -/
def Reg.brdlChCtrl (c : Nat) : Nat := 0x5000081000 + 0x100 * c

/-- BRDL_CH_NBT (13_bridle_and_chutes.md). -/
def Reg.brdlChNbt (c : Nat) : Nat := 0x5000081004 + 0x100 * c

/-- BRDL_CH_DBT (13_bridle_and_chutes.md). -/
def Reg.brdlChDbt (c : Nat) : Nat := 0x5000081008 + 0x100 * c

/-- BRDL_CH_STATUS (13_bridle_and_chutes.md). -/
def Reg.brdlChStatus (c : Nat) : Nat := 0x500008100c + 0x100 * c

/-- BRDL_CH_ERR (13_bridle_and_chutes.md). -/
def Reg.brdlChErr (c : Nat) : Nat := 0x5000081010 + 0x100 * c

/-- BRDL_CH_CMD (13_bridle_and_chutes.md). -/
def Reg.brdlChCmd (c : Nat) : Nat := 0x5000081014 + 0x100 * c

/-- BRDL_CH_TX_DONE (13_bridle_and_chutes.md). -/
def Reg.brdlChTxDone (c : Nat) : Nat := 0x5000081018 + 0x100 * c

/-- BRDL_CH_COUNT (13_bridle_and_chutes.md). -/
def Reg.brdlChCount (c : Nat) : Nat := 0x500008101c + 0x100 * c

/-- TACK_CFG (13_bridle_and_chutes.md). -/
def Reg.tackCfg (n : Nat) : Nat := 0x5000090000 + 0x20 * n

/-- TACK_STATUS (13_bridle_and_chutes.md). -/
def Reg.tackStatus (n : Nat) : Nat := 0x5000090004 + 0x20 * n

/-- TACK_COUNT (13_bridle_and_chutes.md). -/
def Reg.tackCount (n : Nat) : Nat := 0x5000090008 + 0x20 * n

/-- TACK_RX_TICK_LO (13_bridle_and_chutes.md). -/
def Reg.tackRxTickLo (n : Nat) : Nat := 0x500009000c + 0x20 * n

/-- TACK_RX_TICK_HI (13_bridle_and_chutes.md). -/
def Reg.tackRxTickHi (n : Nat) : Nat := 0x5000090010 + 0x20 * n

/-- CHUTE_CFG (13_bridle_and_chutes.md). -/
def Reg.chuteCfg (c : Nat) : Nat := 0x5000090400 + 0x20 * c

/-- CHUTE_STATUS (13_bridle_and_chutes.md). -/
def Reg.chuteStatus (c : Nat) : Nat := 0x5000090404 + 0x20 * c

/-- CHUTE_ECC (13_bridle_and_chutes.md). -/
def Reg.chuteEcc (c : Nat) : Nat := 0x5000090408 + 0x20 * c

/-- CHUTE_DATA_LO (13_bridle_and_chutes.md). -/
def Reg.chuteDataLo (c : Nat) : Nat := 0x500009040c + 0x20 * c

/-- CHUTE_DATA_HI (13_bridle_and_chutes.md). -/
def Reg.chuteDataHi (c : Nat) : Nat := 0x5000090410 + 0x20 * c

/-- CHUTE_DISCARD (13_bridle_and_chutes.md). -/
def Reg.chuteDiscard (c : Nat) : Nat := 0x5000090414 + 0x20 * c

/-- CHUTE_CTRL (13_bridle_and_chutes.md). -/
def Reg.chuteCtrl : Nat := 0x5000090800

/-- SAFE_STATUS (14_safety.md). -/
def Reg.safeStatus : Nat := 0x50000a0000

/-- SAFE_CTRL (14_safety.md). -/
def Reg.safeCtrl : Nat := 0x50000a0004

/-- SAFE_PIN (14_safety.md). -/
def Reg.safePin : Nat := 0x50000a0008

/-- SAFE_WDT (14_safety.md). -/
def Reg.safeWdt : Nat := 0x50000a000c

/-- SAFE_MON (14_safety.md). -/
def Reg.safeMon : Nat := 0x50000a0010

/-- SAFE_TALLY_WR (14_safety.md). -/
def Reg.safeTallyWr : Nat := 0x50000a0020

/-- SAFE_TALLY_RD (14_safety.md). -/
def Reg.safeTallyRd : Nat := 0x50000a0024

/-- SAFE_TALLY_CTRL (14_safety.md). -/
def Reg.safeTallyCtrl : Nat := 0x50000a0028

/-- SAFE_TALLY_STATUS (14_safety.md). -/
def Reg.safeTallyStatus : Nat := 0x50000a002c

/-- SAFE_SRC_SEL (14_safety.md). -/
def Reg.safeSrcSel : Nat := 0x50000a0030

/-- SAFE_SRC_COUNT_LO (14_safety.md). -/
def Reg.safeSrcCountLo : Nat := 0x50000a0034

/-- SAFE_SRC_COUNT_HI (14_safety.md). -/
def Reg.safeSrcCountHi : Nat := 0x50000a0038

/-- SAFE_SRC_FIRST_LO (14_safety.md). -/
def Reg.safeSrcFirstLo : Nat := 0x50000a003c

/-- SAFE_SRC_FIRST_HI (14_safety.md). -/
def Reg.safeSrcFirstHi : Nat := 0x50000a0040

/-- SAFE_SRC_LAST_LO (14_safety.md). -/
def Reg.safeSrcLastLo : Nat := 0x50000a0044

/-- SAFE_SRC_LAST_HI (14_safety.md). -/
def Reg.safeSrcLastHi : Nat := 0x50000a0048

/-- SAFE_INJ_STATUS (14_safety.md). -/
def Reg.safeInjStatus : Nat := 0x50000a0050

/-- SAFE_INJ_FAIL (14_safety.md). -/
def Reg.safeInjFail (k : Nat) : Nat := 0x50000a0060 + 0x4 * k

/-- SAFE_INJECT (14_safety.md). -/
def Reg.safeInject : Nat := 0x50000a00a0

/-- SAFE_CP_PERIOD (14_safety.md). -/
def Reg.safeCpPeriod : Nat := 0x50000a00b0

/-- SAFE_CP_WINDOW (14_safety.md). -/
def Reg.safeCpWindow : Nat := 0x50000a00b4

/-- SAFE_CP_TRANSIENT (14_safety.md). -/
def Reg.safeCpTransient : Nat := 0x50000a00b8

/-- SAFE_FUR_CP (14_safety.md). -/
def Reg.safeFurCp (n : Nat) : Nat := 0x50000a0100 + 0x4 * n

/-- SAFE_FUR_PASS_LO (14_safety.md). -/
def Reg.safeFurPassLo (n : Nat) : Nat := 0x50000a0200 + 0x8 * n

/-- SAFE_FUR_PASS_HI (14_safety.md). -/
def Reg.safeFurPassHi (n : Nat) : Nat := 0x50000a0204 + 0x8 * n

/-- SAFE_FUR_PHASE (14_safety.md). -/
def Reg.safeFurPhase (n : Nat) : Nat := 0x50000a0400 + 0x4 * n

/-- SAFE_MG_CFG (14_safety.md). -/
def Reg.safeMgCfg (m : Nat) : Nat := 0x50000a1000 + 0x20 * m

/-- SAFE_MG_PERIOD (14_safety.md). -/
def Reg.safeMgPeriod (m : Nat) : Nat := 0x50000a1004 + 0x20 * m

/-- SAFE_MG_PHASE (14_safety.md). -/
def Reg.safeMgPhase (m : Nat) : Nat := 0x50000a1008 + 0x20 * m

/-- SAFE_MG_WIDTH (14_safety.md). -/
def Reg.safeMgWidth (m : Nat) : Nat := 0x50000a100c + 0x20 * m

/-- SAFE_MG_AGE (14_safety.md). -/
def Reg.safeMgAge (m : Nat) : Nat := 0x50000a1010 + 0x20 * m

/-- SAFE_MG_STATUS (14_safety.md). -/
def Reg.safeMgStatus (m : Nat) : Nat := 0x50000a1014 + 0x20 * m

/-- SAFE_MG_LAST_AGE (14_safety.md). -/
def Reg.safeMgLastAge (m : Nat) : Nat := 0x50000a1018 + 0x20 * m

/-- HRNS_CTRL (15_harness_and_host.md). -/
def Reg.hrnsCtrl : Nat := 0x50000b0000

/-- HRNS_SRC_LO (15_harness_and_host.md). -/
def Reg.hrnsSrcLo : Nat := 0x50000b0004

/-- HRNS_SRC_HI (15_harness_and_host.md). -/
def Reg.hrnsSrcHi : Nat := 0x50000b0008

/-- HRNS_STATUS (15_harness_and_host.md). -/
def Reg.hrnsStatus : Nat := 0x50000b000c

/-- HRNS_ERR_LOC (15_harness_and_host.md). -/
def Reg.hrnsErrLoc : Nat := 0x50000b0010

/-- HRNS_SERIAL (15_harness_and_host.md). -/
def Reg.hrnsSerial : Nat := 0x50000b0014

/-- HRNS_BUILD (15_harness_and_host.md). -/
def Reg.hrnsBuild (k : Nat) : Nat := 0x50000b0018 + 0x4 * k

/-- HRNS_BOOT (15_harness_and_host.md). -/
def Reg.hrnsBoot : Nat := 0x50000b0028

/-- BKL_CMD (15_harness_and_host.md). -/
def Reg.bklCmd (r : Nat) : Nat := 0x50000b1000 + 0x20 * r

/-- BKL_STATUS (15_harness_and_host.md). -/
def Reg.bklStatus (r : Nat) : Nat := 0x50000b1004 + 0x20 * r

/-- BKL_FAIL_LO (15_harness_and_host.md). -/
def Reg.bklFailLo (r : Nat) : Nat := 0x50000b1008 + 0x20 * r

/-- BKL_FAIL_HI (15_harness_and_host.md). -/
def Reg.bklFailHi (r : Nat) : Nat := 0x50000b100c + 0x20 * r

/-- BKL_INFO (15_harness_and_host.md). -/
def Reg.bklInfo (r : Nat) : Nat := 0x50000b1010 + 0x20 * r

/-- PCIE_LINK (15_harness_and_host.md). -/
def Reg.pcieLink : Nat := 0x50000d0000

/-- PCIE_ERR (15_harness_and_host.md). -/
def Reg.pcieErr : Nat := 0x50000d0004

/-- PCIE_COUNT (15_harness_and_host.md). -/
def Reg.pcieCount : Nat := 0x50000d0008

/-- PCIE_FN (15_harness_and_host.md). -/
def Reg.pcieFn (fn_ : Nat) : Nat := 0x50000d0010 + 0x4 * fn_

/-- REEVE_BOOT (16_bringup.md). -/
def Reg.reeveBoot : Nat := 0x5000000000

/-- REEVE_RST (16_bringup.md). -/
def Reg.reeveRst : Nat := 0x5000000004

/-- REEVE_CTRL (16_bringup.md). -/
def Reg.reeveCtrl : Nat := 0x5000000008

/-- REEVE_BUSERR (16_bringup.md). -/
def Reg.reeveBuserr : Nat := 0x500000000c

/-- REEVE_BUSERR_ADDR_LO (16_bringup.md). -/
def Reg.reeveBuserrAddrLo : Nat := 0x5000000010

/-- REEVE_BUSERR_ADDR_HI (16_bringup.md). -/
def Reg.reeveBuserrAddrHi : Nat := 0x5000000014

/-- REEVE_WG_ADDR_LO (16_bringup.md). -/
def Reg.reeveWgAddrLo : Nat := 0x5000000050

/-- REEVE_WG_ADDR_HI (16_bringup.md). -/
def Reg.reeveWgAddrHi : Nat := 0x5000000054

/-- REEVE_WG_CTRL (16_bringup.md). -/
def Reg.reeveWgCtrl : Nat := 0x5000000058

/-- REEVE_WT_STATUS (16_bringup.md). -/
def Reg.reeveWtStatus : Nat := 0x5000000018

/-- REEVE_FW (16_bringup.md). -/
def Reg.reeveFw : Nat := 0x500000001c

/-- REEVE_SPARE (16_bringup.md). -/
def Reg.reeveSpare : Nat := 0x5000000020

/-- REEVE_CHAIN (16_bringup.md). -/
def Reg.reeveChain : Nat := 0x5000000030

/-- REEVE_CHAIN_CNT (16_bringup.md). -/
def Reg.reeveChainCnt : Nat := 0x5000000034

/-- REEVE_CHAIN_CMD (16_bringup.md). -/
def Reg.reeveChainCmd : Nat := 0x5000000038

/-- REEVE_CHAIN_STATUS (16_bringup.md). -/
def Reg.reeveChainStatus : Nat := 0x500000003c

/-- REEVE_LINK_CTRL (16_bringup.md). -/
def Reg.reeveLinkCtrl : Nat := 0x50000001f0

/-- REEVE_LINK (16_bringup.md). -/
def Reg.reeveLink (k : Nat) : Nat := 0x5000000200 + 0x4 * k

/-- FUSE_PART (16_bringup.md). -/
def Reg.fusePart : Nat := 0x50000c0000

/-- FUSE_UID_LO (16_bringup.md). -/
def Reg.fuseUidLo : Nat := 0x50000c0004

/-- FUSE_UID_HI (16_bringup.md). -/
def Reg.fuseUidHi : Nat := 0x50000c0008

/-- FUSE_KEY (16_bringup.md). -/
def Reg.fuseKey : Nat := 0x50000c0010

/-- FUSE_MIN_SERIAL (16_bringup.md). -/
def Reg.fuseMinSerial : Nat := 0x50000c0014

/-- FUSE_FURROW (16_bringup.md). -/
def Reg.fuseFurrow (j : Nat) : Nat := 0x50000c0020 + 0x4 * j

/-- FUSE_PROG (16_bringup.md). -/
def Reg.fuseProg : Nat := 0x50000c0030

/-- FUSE_PROG_SERIAL (16_bringup.md). -/
def Reg.fuseProgSerial : Nat := 0x50000c0034

/-- FUSE_KEY_HASH (16_bringup.md). -/
def Reg.fuseKeyHash (s : Nat) (k : Nat) : Nat := 0x50000c0100 + 0x40 * s + 0x4 * k

/-- SAFE_PWR (17_package_and_electrical.md). -/
def Reg.safePwr : Nat := 0x50000a0014

/-- SAFE_PWR_AVG (17_package_and_electrical.md). -/
def Reg.safePwrAvg : Nat := 0x50000a0018

/-- REEVE_GPIO_OUT (17_package_and_electrical.md). -/
def Reg.reeveGpioOut : Nat := 0x5000000040

/-- REEVE_GPIO_OE (17_package_and_electrical.md). -/
def Reg.reeveGpioOe : Nat := 0x5000000044

/-- REEVE_GPIO_IN (17_package_and_electrical.md). -/
def Reg.reeveGpioIn : Nat := 0x5000000048

end Sys2Proof.Machine
end

