-- ==== Sys2Proof/Machine/SMap.lean ====
section
/-! DEFINITION. Sparse maps from Nat keys, as lists in one canonical form: keys strictly rising and no entry equal
to what an unlisted key holds. Every store of the device that is read by number is such a list. -/

namespace Sys2Proof.Machine

/-- A sparse map: (key, value) pairs. -/
abbrev SMap (α : Type) := List (Nat × α)

/-- The value a list holds at a key, if it lists one. -/
def mapFind {α : Type} : SMap α → Nat → Option α
  | [], _ => none
  | (k, v) :: m, a => if a = k then some v else mapFind m a

/-- The value at a key; `d` is what an unlisted key holds. -/
def mapGet {α : Type} (d : α) (m : SMap α) (a : Nat) : α := (mapFind m a).getD d

/-- Put an entry in its place in the rising order. -/
def mapInsert {α : Type} : SMap α → Nat → α → SMap α
  | [], a, v => [(a, v)]
  | (k, w) :: m, a, v =>
    if a < k then (a, v) :: (k, w) :: m
    else if a = k then (a, v) :: m
    else (k, w) :: mapInsert m a v

/-- Take every entry of a key out. -/
def mapErase {α : Type} : SMap α → Nat → SMap α
  | [], _ => []
  | (k, w) :: m, a => if a = k then mapErase m a else (k, w) :: mapErase m a

/-- Write a key: writing what an unlisted key holds removes the entry. -/
def mapSet {α : Type} [DecidableEq α] (d : α) (m : SMap α) (a : Nat) (v : α) : SMap α :=
  if v = d then mapErase m a else mapInsert m a v

/-- Every key of the list is above a bound. -/
def keysAbove {α : Type} (lo : Nat) : SMap α → Bool
  | [] => true
  | (k, _) :: m => lo < k && keysAbove lo m

/-- The canonical form of a map whose unlisted keys hold `d a`: rising keys, no entry equal to `d`. -/
def mapWf {α : Type} [DecidableEq α] (d : Nat → α) : SMap α → Bool
  | [] => true
  | (k, v) :: m => keysAbove k m && decide (v ≠ d k) && mapWf d m

end Sys2Proof.Machine
end

