-- ==== Sys2Proof/Machine/State.lean ====
section
/-! DEFINITION. The machine's state as plain data: every register, memory, buffer, queue, counter, mode and pin
that the spec names, the outcomes' reasons, and the state right after reset. Registers and memories are sparse
maps; a register the map does not list holds its reset value (`regReset`). -/

namespace Sys2Proof.Machine

/-- What one granule or block of a protected memory holds (R114, R127, R261, R264): `double` is an uncorrectable
error, which stored poison is too. -/
inductive Mark where
  | clean | single | double | wrongAddress
  deriving DecidableEq, Repr

/-- A checker's event on the fault-report network (R22, R367, R374): code, class 0 to 4, instance, info (none: the cause's
chapter states no detail, and the entry's info is a free value, DESIGN CHOICE, safe, log 6); `field` is the Field that
an F3 stops once it
reaches the island. -/
structure Event where
  code     : Nat
  cls      : Nat
  inst     : Nat := 0
  info     : Option Nat := none
  field    : Option Nat := none
  injected : Bool := false
  deriving DecidableEq, Repr

/-- An event in the island that waits for the tally writer, with the tick it reached the island (R369, R378). -/
structure TallyEvent where
  event : Event
  tick  : Nat
  cycle : Nat                        -- CLK_MGMT cycle of its arrival, as the model counts cycles (R369)
  deriving DecidableEq, Repr

/-- A source's record: entries written in this management tick, and the coalesced count with its ticks (R379). -/
structure SourceRecord where
  written : Nat := 0
  count   : Nat := 0
  first   : Nat := 0
  last    : Nat := 0
  deriving DecidableEq, Repr

/-- A task descriptor, word by word (R91). -/
structure Desc where
  op : Nat
  guardA : Bool
  guardB : Bool
  guardDst : Bool
  hasScale : Bool
  hasBias : Bool
  zcA : Bool
  zcDst : Bool
  budget : Nat
  tag : Nat
  fmtA : Nat
  fmtB : Nat
  fmtOut : Nat
  scaleABf16 : Bool
  scaleBBf16 : Bool
  round : Nat
  g : Nat
  gOut : Nat
  nOut : Nat
  seed : Nat
  aAddr : Nat
  aGen : Nat
  bAddr : Nat
  bGen : Nat
  dstAddr : Nat
  dstGen : Nat
  paramAddr : Nat
  tiles : Nat
  paramLen : Nat
  stubbleAddr : Nat
  stage : Nat
  reservedSet : Bool
  crcOk : Bool
  deriving DecidableEq, Repr

/-- One output tile ready to commit (R107): the extent as written, as (address, bytes) pieces in the order the
checksum takes them, copies that a multicast writes besides, and the R78 events of its elements by kind 0..3. -/
structure Tile where
  pieces : List (Nat × List Byte)
  copies : List (Nat × List Byte) := []
  events : List Nat := [0, 0, 0, 0]
  reads  : List (Nat × Nat) := []    -- what the tile reads: (address, bytes)
  poison : Bool := false             -- some of it was poisoned (R126)
  zc     : Nat × Nat := (0, 0)       -- granules of its compressed rows: uncompressed, and moved (R163)
  group  : Option Nat := none        -- its messages; its one piece is then a send record (R247, R248)
  deriving DecidableEq, Repr

/-- What a task waits for: nothing; its operands' generation gate; the destination's gate; a SYNC condition of kind
0, 1 or 2 (R99); a Droveway buffer round (R247, R251); the Field's yoke (R217); a fetch's reply (R252). -/
inductive Wait where
  | none
  | gate (furrow slot : Nat)
  | slotGen (furrow slot : Nat)
  | round (buffer number : Nat)
  | completions (hopper : Nat) (count : Nat)
  | fetch (buffer number peer : Nat)
  | messages (group : Nat)
  deriving DecidableEq, Repr

/-- A guarded use of a slot: seedbed, slot number, expected generation, and whether the task writes it (R130). -/
structure SlotUse where
  furrow : Nat
  slot   : Nat
  gen    : Nat
  write  : Bool
  deriving DecidableEq, Repr

/-- How far a task has come: accepted with its parameter block still to be read; checked, with its running stubble write
still to be made; its operands still to be read; its tiles computed and being committed; or ended, its final stubble write
still to be issued, with the fault cause. -/
inductive Stage where
  | checking | starting | reading | committing
  | ending (cause : Nat)
  deriving DecidableEq, Repr

/-- A Droveway data message (R228); `uid` is the model's serial number of it. -/
structure Message where
  uid     : Nat := 0
  kind    : Nat                      -- header type 1 to 5
  dst     : Nat                      -- receiving chip
  msgId   : Nat := 0
  field   : Nat                      -- sending Field
  last    : Bool := false
  resp    : Bool := false
  buffer  : Nat
  round   : Nat
  offset  : Nat := 0
  aux     : Nat := 0
  aux2    : Nat := 0
  tag     : List Byte
  payload : List Byte := []
  group   : Option Nat := none       -- the sending task's message group
  admitted : Bool := false           -- the yoke has admitted its next transmission (R226)
  asked   : Bool := false            -- that admission has been requested
  sent    : Bool := false            -- it has been transmitted before
  poison  : Bool := false            -- its data lost to an uncorrectable frame-buffer word (R256)
  deriving DecidableEq, Repr

/-- The task a Furrow runs or has parked. -/
structure Task where
  hopper    : Nat
  desc      : Desc
  stage     : Stage := .reading
  stubble   : Bool := false          -- the stubble word may be written (R101)
  wait      : Wait := .none
  waitTick  : Nat := 0               -- TIME_NOW when the wait began
  charged   : Bool := false          -- this phase's yoke requests have been issued (R215)
  committed : Nat := 0
  tilesLeft : List Tile := []
  crcs      : List Word := []        -- checksums of the tiles committed so far (R107)
  events    : List Nat := [0, 0, 0, 0]
  uses      : List SlotUse := []     -- guards the task states
  start     : Nat := 0               -- TIME_NOW at acceptance
  paused    : Nat := 0               -- ticks parked so far (R109)
  cycles    : Nat := 0               -- lower bound of its running cycles (R85, R100)
  extra     : Nat := 0               -- cycles of resumptions, which come on top of them (R211)
  resuming  : Bool := false          -- the running stubble write of a resumption is still to be made (R211)
  outer     : Option Desc := none    -- the CHECK_PLOT that runs this inner descriptor (R388)
  drafts    : List Message := []     -- messages to issue once tile 0 is committed, or at once (R247)
  groups    : List Nat := []         -- its message groups
  buffers   : List (Nat × Nat) := [] -- receive-buffer rounds it consumes (R238)
  snapshots : List (Nat × Nat) := [] -- (header address, generation) snapshot by a Harrow task (R172, R186)
  outerCause : Nat := 0              -- the fault cause of that CHECK_PLOT, 0 for none
  reads     : List (Nat × Nat) := [] -- what every tile of it depends on, once it has been read (R126)
  deriving DecidableEq, Repr

/-- A park slot in use (R209 to R213): the task with its resume point, the tick of its parked stubble write and the
order of parking. -/
structure ParkSlot where
  task  : Task
  tick  : Nat
  order : Nat
  deriving DecidableEq, Repr

/-- A final stubble write that has been issued and not acknowledged (R130, R203): a Field task's word lands with its
acknowledgement, so that one never acknowledged leaves the word as last acknowledged (R110); `lost` is one whose request
was discarded at the yoke. -/
structure Unacked where
  uid     : Nat := 0
  word    : Option (Nat × List Byte) := none
  lost    : Bool := false
  owed    : Bool := false            -- it was not acknowledged when its ready or quiesced Field stopped (R203)
  hopper  : Nat
  done    : Bool
  uses    : List SlotUse
  stageNo : Nat                      -- martingale index of the task (R395)
  capture : Option Nat               -- capture tick of the tag it wrote
  buffers : List (Nat × Nat)         -- receive-buffer rounds the task consumed (R238)
  deriving DecidableEq, Repr

/-- The check-plot run of a Furrow (R388 to R392). -/
structure CheckRun where
  due        : Bool := false         -- run nextK is due (R390)
  nextK      : Nat := 0              -- number of the next run to start
  active     : Bool := false         -- a run or rerun is in progress
  rerun      : Nat := 0              -- 0: the run; 1, 2: its reruns
  started    : Bool := false         -- a task of this run has been accepted
  startTick  : Nat := 0
  firstHead  : Nat := 0              -- ring index of the run's first descriptor
  transients : List Nat := []        -- management ticks of the transients counted (R392)
  deriving DecidableEq, Repr

/-- The descriptor that a Furrow's buffer holds (R206): the hopper and the ring slot it comes from, and its bytes with
their poison once its fetch has been admitted. -/
structure DescBuffer where
  hopper : Nat
  slot   : Nat
  data   : Option (List Byte × Bool) := none
  deriving DecidableEq, Repr

/-- A stubble write that has been issued and waits at the yoke (R217). -/
structure Posted where
  uid  : Nat
  addr : Nat
  data : List Byte
  deriving DecidableEq, Repr

/-- A change of a slot by an acknowledgement and the cycle of CLK_CORE it takes effect in, with the remaining readers before it
(R130, R135). -/
structure SlotAdvance where
  slot  : Nat
  cycle : Nat
  left  : Nat
  write : Bool                       -- a writer's acknowledgement, otherwise a reader's
  moves : Bool                       -- it changes the generation: an advance; otherwise only the readers that remain
  deriving DecidableEq, Repr

/-- One logical Furrow besides its registers. -/
structure Furrow where
  task     : Option Task := none
  buffer   : Option DescBuffer := none
  posted   : List Posted := []
  postCount : Nat := 0               -- stubble writes posted so far, for their serial numbers
  advanced : List SlotAdvance := []  -- advances of its seedbed's slots at the last acknowledgement
  slots    : SMap (Option ParkSlot) := []  -- park slots 0..7
  parks    : Nat := 0                -- parkings so far, for the order of parking
  rr       : SMap Nat := []          -- per class: 1 + the last hopper accepted from (R205)
  unacked  : List Unacked := []
  run      : CheckRun := {}
  scrubbed : List Nat := []          -- banks scrubbed in this period of 4,096 cycles (R138)
  writeBack : List (Nat × Nat) := [] -- (bank, granule address) scrub write-backs waiting (R138)
  stores   : SMap Mark := []         -- uncorrectable errors left in its five instruction stores (R90, R385)
  deriving DecidableEq, Repr

/-- Where a hopper's task is (R195): none in flight or waiting to be accepted again; running; parked; frozen. -/
inductive HopperStage where
  | idle | running | parked | frozen
  deriving DecidableEq, Repr

/-- A hopper state entry (R195). -/
structure Hopper where
  base     : Nat := 0
  k        : Nat := 0
  field    : Nat := 0
  cls      : Nat := 0
  furrow   : Nat := 0
  retries  : Nat := 0
  enable   : Bool := false
  head     : Nat := 0
  tail     : Nat := 0
  done     : Nat := 0
  stage    : HopperStage := .idle
  tries    : Nat := 0
  inflight : Bool := false
  park     : Nat := 0
  fault    : Nat := 0
  noAck    : Bool := false           -- final stubble write not acknowledged in time (R203, R221)
  wasParked : Bool := false          -- parked at the stop (R221)
  mark     : Mark := .clean          -- an uncorrectable error that the scrub leaves in the entry (R385)
  deriving DecidableEq, Repr

/-- Who issued a request that waits at a yoke bucket: the running task of a Furrow; a task that has ended meanwhile; a
Furrow's descriptor fetch; a stubble write of a Furrow by its serial number; or a Droveway message by its own. -/
inductive YokeUser where
  | furrow (n : Nat)
  | ended
  | fetch (n : Nat)
  | posted (n uid : Nat)
  | frame (uid : Nat)
  deriving DecidableEq, Repr

/-- A request that waits at a Field's yoke bucket: its cost and who issued it (R217). -/
structure YokeRequest where
  cost   : Nat
  user   : YokeUser
  deriving DecidableEq, Repr

/-- A yoke bucket's waiting requests, oldest first, and whether one waited in this refill period (R217). -/
structure Yoke where
  queue  : List YokeRequest := []
  waited : Bool := false
  deriving DecidableEq, Repr

/-- A Field besides its registers. -/
structure Field where
  quiesceTicks : Nat := 0            -- management ticks counted since the quiesce request (R202)
  gleanFailed  : Bool := false       -- the 0x220B entry of this stop has been recorded (R219)
  deriving DecidableEq, Repr

/-- One FSYNC output: the tick from which its edges still count, its pulse level, and the tick the pulse ends (R51). -/
structure Fsync where
  start   : Nat := 0
  last    : Option Nat := none       -- the last edge fired
  level   : Bool := false
  endTick : Nat := 0
  deriving DecidableEq, Repr

/-- The time base (R43, R46, R25, R216). -/
structure TimeBase where
  now        : Nat := 0              -- TIME_NOW, below 2^64
  phase      : Nat := 0              -- rate phase accumulator, 40 bits (R46)
  cycles     : Nat := 0              -- cycles of CLK_FAST run; the model's own count, which no time correction moves
  ticks      : Nat := 0              -- management ticks raised since reset; the model's own count (R25)
  ticksDue   : Nat := 0              -- management ticks that TIME_NOW has reached and whose command has not yet run
  refillsDue : Nat := 0              -- yoke refills that TIME_NOW has reached and whose command has not yet run
  stepTo     : Nat := 0              -- the value that the last forward correction gave TIME_NOW (R330)
  fsync      : SMap Fsync := []
  delays     : List Int := []        -- round-trip delays measured in this tick, in 1/256 tick (R50)
  lastDelay  : Nat := 0              -- management tick of the last valid chain measurement
  deriving DecidableEq, Repr

/-- An evaluation between issue and the write of the command register (R317): everything cycle 6 writes. -/
structure ReinEval where
  due    : Nat                       -- CLK_FAST cycle of the command register write
  state  : Nat                       -- REIN_CH_STATUS.state after it
  cs     : Nat
  cause  : Nat
  bad    : Nat                       -- sp_bad, pv_bad, ff_bad as bits 2, 1, 0
  plaus  : Nat
  ov     : Bool
  entry  : Bool                      -- an entry to Curb
  i      : Int
  dPrev  : Int
  yPrev  : Int
  uPrev  : Int
  u      : Int
  origin : Nat
  trig   : Nat                       -- trigger tick
  offset : Nat                       -- REIN_CH_RELEASE as read at the issue (R318)
  events : List Event
  deriving DecidableEq, Repr

/-- A command that waits for its release tick (R329, R330): the encoded word for a Tack port, or descriptor and data
for a Bridle channel. -/
structure ReinRelease where
  tick : Nat
  late : Bool
  dest : Nat                         -- REIN_CH_DEST as encoded for
  data : List Byte
  safe : Bool := false               -- u_safe after a lockstep mismatch, still to be placed (R331)
  deriving DecidableEq, Repr

/-- One rein besides its registers (R313 to R333). -/
structure Rein where
  pending   : Bool := false
  trig      : Nat := 0               -- trigger tick of the pending evaluation
  dueFrom   : Nat := 0               -- due ticks from here on count (R313)
  lastIssue : Option Nat := none     -- CLK_FAST cycle of its last issue (R315)
  i         : Int := 0               -- Q17.47
  dPrev     : Int := 0
  yPrev     : Int := 0               -- Q1.31
  uPrev     : Int := 0
  rest      : Bool := false          -- the next evaluation starts D from rest (R320)
  rearm     : Bool := false          -- a fastened rearm waits for the next issue (R322)
  eval      : Option ReinEval := none
  release   : Option ReinRelease := none
  bad       : Mark := .clean         -- error in the state words (R332)
  noted     : Bool := false          -- an uncorrectable one that has been recorded already
  deriving DecidableEq, Repr

/-- A Tack port's sample bank (R310). -/
structure SampleBank where
  words   : List Word64 := []
  arrival : Nat := 0
  valid   : Bool := false
  deriving DecidableEq, Repr

/-- The Rein engine besides its registers. -/
structure ReinEngine where
  reins   : SMap Rein := []
  banks   : SMap SampleBank := []
  written : SMap Bool := []          -- mailbox slots written since harness load (R307)
  silent  : Bool := false            -- a lockstep mismatch has silenced the engine (R331)
  lastIssue : Option Nat := none     -- CLK_FAST cycle of the last issue of any rein (R315)
  updated   : Nat := 0               -- the first cycle whose latch sees the last update of a source (R316)
  deriving DecidableEq, Repr

/-- A Tack port's receiver (R339 to R341). -/
structure TackPort where
  staged  : List (Word64 × Nat) := []  -- staged words with their timestamps
  discard : Bool := false            -- discarding until the next word with FIRST set
  deriving DecidableEq, Repr

/-- A word in a chute with its stored check (R343). -/
structure ChuteWord where
  data : Word64
  mark : Mark := .clean
  deriving DecidableEq, Repr

/-- A chute: its words, oldest first, and the holding register of a transmit chute (R343, R347). -/
structure Chute where
  words : List ChuteWord := []
  hold  : Word := 0
  deriving DecidableEq, Repr

/-- An entry of a Bridle transmit FIFO (R360, R361). -/
structure FifoEntry where
  desc  : List Byte                  -- 16 bytes
  data  : List Byte
  rein  : Bool
  abort : Bool := false              -- to be removed at the end of its attempt (R362)
  drop  : Bool := false              -- the same, without counting as aborted (R364)
  mark  : Mark := .clean
  deriving DecidableEq, Repr

/-- A Bridle receive object (R356). -/
structure BridleObject where
  tick  : Nat := 0
  ident : Word := 0
  af    : Word := 0
  len   : Nat := 0
  sdt   : Byte := 0
  vcid  : Byte := 0
  new   : Bool := false
  lost  : Bool := false
  brs   : Bool := false
  esi   : Bool := false
  sec   : Bool := false
  valid : Bool := false
  channel : Nat := 0
  seq   : Nat := 0
  data  : List Byte := []
  mark  : Mark := .clean             -- an uncorrectable error that the scrub leaves in its words (R385)
  deriving DecidableEq, Repr

/-- The pins and what the part samples from them. -/
structure Pins where
  porst     : Bool := true           -- PORST_N registered low
  warm      : Bool := false          -- WARM_N registered low
  perst     : Bool := false          -- PERST_N low
  safeReq   : Bool := false          -- SAFE_REQ_N low
  vinUp     : Bool := true           -- VIN above its thresholds (R471)
  chainHead : Bool := false          -- CHAIN_HEAD as sampled
  outputsZ  : Bool := true           -- output balls high-impedance: PORST_N is low (R473)
  zUntil    : Nat := 0               -- tick at which the first 1 µs of a WARM_N assertion ends (R473)
  dyn       : Bool := false          -- level of FAULT_DYN
  fcIn      : SMap Bool := []        -- FC_IN per Tack port, high asks the port to wait (R336)
  tap       : Nat := 0               -- JTAG instruction: 0 IDCODE, 1 BYPASS, 2 SAMPLE/PRELOAD, 3 EXTEST
  boundary  : List Bool := []        -- boundary register, a cell per ball (R485)
  gpioLevels : Word := 0
  pllLocked : Bool := false          -- the PLL has locked since PORST_N (R41, R42)
  coldDue   : Bool := false          -- PORST_N was released with WARM_N low: the cold start awaits WARM_N (R473)
  deriving DecidableEq, Repr

/-- One martingale besides its registers (R396, R397). -/
structure Martingale where
  firstWindow : Nat := 0             -- index of the first counted window
  evaluated   : Nat := 0             -- index of the next window whose end is not yet evaluated
  resumeAt    : Option Nat := none   -- after a backward step: TIME_NOW to reach again
  deriving DecidableEq, Repr

/-- The safety island besides its registers and the tally log (R367 to R380). -/
structure Island where
  net        : List Event := []      -- events not yet in the island, oldest first
  queue      : List TallyEvent := [] -- events waiting for the tally writer
  sources    : SMap SourceRecord := []  -- key: code · 8 + class
  f4Causes   : List Nat := []        -- causes recorded since safe state was entered
  holdTicks  : Nat := 0              -- management ticks until FAULT_N may be released
  kicks      : Nat := 0              -- kicks of this tick (R373)
  kickBad    : Bool := false         -- one of them outside the window
  wdtFrom    : Option Nat := none    -- first tick judged, as `TimeBase.ticks` counts them
  wdtTick    : Nat := 0              -- the tick that the kicks belong to, counted alike
  f4Since    : Bool := false         -- an F4 event has arrived since the fasten of a leave (R376)
  martingales : SMap Martingale := []
  powerSum   : Nat := 0              -- readings of the running power window (R483)
  powerTicks : Nat := 0
  powerWindow : Nat := 0             -- number of that window
  monitorsOk : Bool := false         -- supply and temperature inside R4 for the whole last tick
  monitorsBad : Bool := false        -- a monitor tripped in this tick
  rangeOpen  : Bool := false         -- this tick opened inside R4
  vinRun     : Nat := 0              -- consecutive VIN readings outside the monitor's limits (R481)
  tjRuns     : SMap Nat := []        -- the same per temperature sensor
  deriving DecidableEq, Repr

/-- A transaction of one buckle requester (R417 to R423). -/
structure Buckle where
  openTick : Nat := 0
  boundary : Nat := 0
  target   : Nat := 0
  shadows  : SMap (Word × Word) := []  -- register address to (mask, value)
  failCount : Nat := 0
  deriving DecidableEq, Repr

/-- The harness loader (R412 to R416): the copied image, and whether a kind 2 image has been handed to requester 10. -/
structure Loader where
  staging : List Byte := []
  passed  : Bool := false
  deriving DecidableEq, Repr

/-- A frame of a stream's window (R230, R233): its sequence number, and whether it waits to be sent again. -/
structure WindowFrame where
  seq   : Nat
  again : Bool := false
  msg   : Message
  deriving DecidableEq, Repr

/-- A stream between one port of this chip and the same port of a peer: its sending side and its receiving side
(R230 to R233). The sending side is open when DROVE_PORT_STATUS.streams says so. -/
structure Stream where
  nextSeq  : Nat := 0
  window   : List WindowFrame := []
  lastAdvance : Nat := 0
  timeouts : Nat := 0
  rxOpen   : Bool := false
  expected : Nat := 0
  sinceAck : Nat := 0                -- frames delivered since the last ACK, and the tick of the first
  firstTick : Nat := 0
  nackTick : Option Nat := none      -- a sequence-gap NACK is outstanding since this tick
  openAt   : Option Nat := none      -- the tick of an ACK with OPEN sent whose answer may still come (R230)
  deriving DecidableEq, Repr

/-- An ACK or NACK frame that waits at a port (R232). -/
structure ControlFrame where
  peer   : Nat
  nack   : Bool
  seq    : Nat
  openIt : Bool := false
  reason : Nat := 0
  msgId  : Nat := 0
  deriving DecidableEq, Repr

/-- A Droveway port: control frames, and new data frames by peer, oldest first; the Field after the one served last. -/
structure DrovePort where
  control : List ControlFrame := []
  ready   : List Message := []
  rr      : Nat := 0
  deriving DecidableEq, Repr

/-- A peer besides its registers: the next message number, the next port of its round robin, messages without a
stream, and the record of delivered messages (R225, R234). -/
structure DrovePeer where
  nextMsg : Nat := 0
  rr      : Nat := 0
  held    : List Message := []
  highest : Option Nat := none
  seen    : List Nat := []
  deriving DecidableEq, Repr

/-- A receive buffer besides its registers (R236 to R238): bytes received and LAST totals by 16·(round mod 2) + sender,
consumers that have ended by round mod 2, and the senders fenced for round c + 1. -/
structure RxBuffer where
  received : SMap Nat := []
  totals   : SMap Nat := []
  ended    : SMap Nat := []
  fencedNext : Nat := 0
  deriving DecidableEq, Repr

/-- A message for the round after the next that its buffer accepts, until its cycle of CLK_IO is over: a release in that cycle comes
first (R239). Its port, none for a message of this chip to itself; its sender; the cycle. -/
structure LateMessage where
  port  : Option Nat
  src   : Nat
  msg   : Message
  cycle : Nat
  deriving DecidableEq, Repr

/-- The messages of one output tile of a DISPATCH or COMBINE task (R247). -/
structure MsgGroup where
  outstanding : Nat := 0
  issued   : Nat := 0
  lost     : Bool := false
  rejected : Bool := false
  firstId  : Nat := 0
  lastId   : Nat := 0
  deriving DecidableEq, Repr

/-- The Droveway besides its registers; streams by 16·port + peer. -/
structure Droveway where
  streams : SMap Stream := []
  ports   : SMap DrovePort := []
  peers   : SMap DrovePeer := []
  buffers : SMap RxBuffer := []
  groups  : SMap MsgGroup := []
  totals  : SMap (SMap Nat) := []    -- bytes delivered per 1,024·chip + buffer, by round (R228)
  late    : Option LateMessage := none
  own     : List Message := []       -- messages to this chip that wait for bucket 1 (R225)
  nextGroup : Nat := 1
  nextUid : Nat := 1
  deriving DecidableEq, Repr

/-- The Trace chain besides its registers (R452 to R458, R241, R242). -/
structure Chain where
  queue    : List (Nat × List Byte) := []  -- MGMT messages received: source, payload
  busyUntil : Nat := 0               -- tick at which the send in progress ends
  heard    : List Nat := []          -- addresses whose HEARTBEAT arrived in this management tick
  missed   : SMap Nat := []          -- management ticks in a row without a HEARTBEAT, per chip
  reports  : List Nat := []          -- chain head: chips reported since the last notice
  noticed  : List Nat := []          -- chain head: chips whose notice has been broadcast
  due      : SMap (Option Nat) := [] -- management tick number at which a chip is marked fenced
  step6    : Option Nat := none      -- TIME_NOW at the start of step 6 while no address is held
  detected : List Bool := []         -- chain errors this chip has detected itself and reported (true: two heads, R456)
  deriving DecidableEq, Repr

/-- The DRAM interface besides its registers (R268 to R270): the rotation's next channel, channels placed first, the
slices done of the retraining in progress and whether it is the rotation's, the management ticks of the last rotation
and of each channel's last training, and the block of the chunk that scrub reads next. -/
structure DramState where
  next     : Nat := 0
  front    : List Nat := []
  slices   : Nat := 0
  lastRotation : Nat := 0
  lastTrained  : SMap Nat := []
  scrubBlock   : Nat := 0
  mr4Tick      : Nat := 0            -- management tick of the last MR4 reading (R258)
  refresh      : SMap (Nat × Nat) := []  -- per channel: the bank its next per-bank refresh takes, and its rate
  deriving DecidableEq, Repr

/-- The warm token (R448): entry k is DRAM channel k, or link k - 32. Each entry holds the training's tick, its node
temperature and its settings, of which the model keeps the margin. -/
structure WarmToken where
  trained  : SMap (Nat × Int × Nat) := []
  dramCfg  : Word := 0               -- the channels' configuration
  marginMin : Nat := 0
  map      : List Nat := []          -- physical Furrow of each logical index
  fenced   : List Nat := []          -- logical Furrows fenced at start-up
  fwLength : Nat := 0                -- length and CRC of the Reeve firmware in Reeve SRAM
  fwCrc    : Word := 0
  fence    : Bool := false
  complete : Bool := false
  deriving DecidableEq, Repr

/-- A retraining that the last D-PHY slice has ended, as it stood before: an abort of that slice takes it back (R460). -/
structure LinkDone where
  link  : Nat
  reg   : Word
  tick  : Nat
  front : List Nat
  entry : Option (Nat × Int × Nat)
  event : Option Event
  deriving DecidableEq, Repr

/-- Retraining of the links of REEVE_LINK (R460): the rotation's next link, links placed first, the link being retrained
and its slices done, and the management ticks of the last rotation and of each link's last training. -/
structure LinkState where
  next     : Nat := 0
  front    : List Nat := []
  current  : Option Nat := none
  slices   : Nat := 0
  lastRotation : Nat := 0
  lastTrained  : SMap Nat := []
  done     : Option LinkDone := none -- the D-PHY retraining whose last slice may still be aborted
  deriving DecidableEq, Repr

/-- An access that a seedbed which is not ready yet holds (R139): a row access, or a write or read through a requester's
port. -/
inductive HeldAccess where
  | row (x : SeedAccess)
  | write (r : Requester) (a : Nat) (data : List Byte) (poison : Bool)
  | read (r : Requester) (a n : Nat)
  deriving DecidableEq, Repr

/-- Start-up besides its registers: the warm token; a start that waits for the PLL's lock, and whether it is a warm one
(R41, R440); the field spares not in use (R443); the physical Furrow that a start placed at a logical index (R443, R444);
and by physical Furrow the seedbed banks with spare rows, as the fuses hold them and as step 3 found them (R442). -/
structure Boot where
  heldSeed : List HeldAccess := []   -- accesses held until the seedbeds are ready, oldest first (R139)
  token   : Option WarmToken := none
  waiting : Option StartEnv := none
  warmWait : Bool := false
  spares  : List Nat := []
  placed  : SMap Nat := []
  fusedRows : SMap Nat := []
  foundRows : SMap Nat := []
  deriving DecidableEq, Repr

/-- The firmware image that the broadcast load put into the Furrows' stores (R90, R437): the CRC of its body, the
sequencer and Coulter parts and the kernel table's entries. -/
structure Firmware where
  image     : Nat := 0
  sequencer : List Byte := []
  coulter   : List Byte := []
  kernels   : List (List Byte) := []
  deriving DecidableEq, Repr

/-- The live settings that a pipeline samples at a frame start (R280), as the registers hold them. -/
structure IntakeSettings where
  ctrl  : Word := 0
  seed  : Word := 0
  bl    : List Nat := []             -- by site k
  gain  : List Nat := []
  check : Word := 0
  deriving DecidableEq, Repr

/-- How the frame in progress is handled: delivered so far; errored (R284); dropped whole (R293); discarded at a
disabled start (R281). -/
inductive FrameStage where
  | good | errored | dropped | discarded
  deriving DecidableEq, Repr

/-- The frame or group in progress at an Intake pipeline (R283 to R294, R301). -/
structure IntakeFrame where
  stage     : FrameStage := .good
  settings  : IntakeSettings := {}
  number    : Nat := 0               -- Frame Start number
  start     : Nat := 0               -- INTK_PIPE_FRAMES of this frame
  capture   : Nat := 0
  fsync     : Bool := false
  unsynced  : Bool := false
  corrected : Bool := false
  buffer    : Nat := 0
  lines     : List (List Byte) := [] -- raw lines received, or none for Ethernet
  count     : Nat := 0               -- long packets or rows received
  starts    : Nat := 0               -- Line Start packets received
  rows      : Nat := 0               -- output rows written
  crc       : Word := 0xFFFFFFFF#32  -- running chain CRC
  deriving DecidableEq, Repr

/-- A packet that waits in a receiver's line buffer while the check row runs (R299), or is handled at once. -/
inductive CsiPacket where
  | frameStart (number : Nat) (ecc : HeaderEcc) (tick : Nat)
  | frameEnd (number : Nat) (ecc : HeaderEcc)
  | lineStart (number : Nat) (ecc : HeaderEcc)
  | lineEnd (number : Nat) (ecc : HeaderEcc)
  | long (packet : LongPacket)
  deriving DecidableEq, Repr

/-- An Intake pipeline besides its registers. -/
structure IntakePipe where
  frame     : Option IntakeFrame := none
  done      : Option IntakeFrame := none   -- its completion is due (R294)
  check     : Option (IntakeSettings × Nat) := none  -- its check row runs, since this tick (R298)
  waiting   : List (CsiPacket × Bool) := []  -- packets in the line buffer, and whether the Field ran as each arrived (R23, R299)
  waitBytes : Nat := 0
  overflow  : Bool := false
  halted    : Bool := false
  delivered : Nat := 0               -- d
  tails     : SMap Nat := []         -- pt by 4·x + trigger slot
  lastFrame : Nat := 0               -- previous non-zero Frame Start number, 0 for none
  sequence  : Option Nat := none     -- sequence value of the last row
  lastRow   : Nat := 0               -- timestamp of the last row
  deriving DecidableEq, Repr

/-- A PCIe function's configuration and MSI-X state (R425 to R427, R430): BARs, power state, the MSI-X enable, the
table's bytes and the pending bits. -/
structure PcieFunction where
  d3hot   : Bool := false
  bar0    : Nat := 0
  bar2    : Nat := 0
  msix    : Bool := false
  table   : SMap Byte := []
  pendingBits : Nat := 0
  deriving DecidableEq, Repr

/-- What has left the device through its links and pins: the model's own record. -/
inductive Output where
  | fsyncEdge (n tick : Nat)
  | frame (port : Nat) (bytes : List Byte)
  | poisonedFrame (port : Nat) (bytes : List Byte)  -- a frame whose data is poisoned (R256)
  | tackPacket (port : Nat) (words : List (Word64 × Nat))
  | canFrame (channel : Nat) (frame : CanFrame)
  | chainFrame (up : Bool) (bytes : List Byte)   -- R453 without the comma
  | msix (function vector : Nat)
  | completion (function : Nat) (status : Nat) (poisoned : Bool) (data : List Byte)
  | readData (value : Word64)
  | row (data : List Byte) (poisoned : Bool)     -- what the requester of a row or block read receives
  | jtag (value : Nat)
  | scan (cells : List Bool)                     -- the boundary register's sample, shifted out (R485)
  | delayProbes                                  -- the 256 probes of a management tick (R50)
  | delayReply (received sent : Nat)             -- their ticks at this chip
  | chainError (twoHeads : Bool)                 -- CHAIN_ERR, whose payload the manual does not give
  | pins (cells : List Bool)                     -- EXTEST drives the boundary register
  | sensorTx (port : Nat) (bytes : List Byte) (tick : Nat)
  | gptpStamp (port tick : Nat)
  deriving DecidableEq, Repr

/-- The machine's state. -/
structure State where
  pending  : List Instr := []        -- commands waiting, first in, first out
  regs     : SMap Word := []         -- every register, by device address; unlisted: its reset value
  latch    : SMap Word := []         -- high halves latched under R21 and not yet read, by high-register address
  mem      : List Host.Cell := []    -- every byte memory of R30; unlisted: 0
  marks    : SMap Mark := []         -- stored errors and poison per 32-byte granule (address / 32)
  words    : SMap Mark := []         -- uncorrectable words that the scrub leaves in buffers without an address (R385)
  tables   : SMap (List Byte) := []  -- harness table entries (R408), by section, table and index
  time     : TimeBase := {}
  pins     : Pins := {}
  furrows  : SMap Furrow := []
  hoppers  : SMap Hopper := []
  fields   : SMap Field := []
  yokes    : SMap Yoke := []         -- key 3·f + r
  island   : Island := {}
  rein     : ReinEngine := {}
  tacks    : SMap TackPort := []
  chutes   : SMap Chute := []
  fifos    : SMap (List FifoEntry) := []  -- per Bridle channel, head first
  objects  : SMap BridleObject := []
  buckles  : SMap Buckle := []
  loader   : Loader := {}
  drove    : Droveway := {}
  chain    : Chain := {}
  dram     : DramState := {}
  intake   : SMap IntakePipe := []
  pcie     : SMap PcieFunction := []
  firmware : Firmware := {}
  boot     : Boot := {}
  links    : LinkState := {}
  outbox   : List Output := []       -- the model's own record of what left the device
  freeCount : Nat := 0               -- the model's own count of free values taken
  deriving DecidableEq, Repr

/-- Why a command stops the model: no command does. Every row of the table has an effect for all its operands. -/
inductive Fault where
  deriving DecidableEq, Repr

/-- Why the model gives a command no meaning. -/
inductive Refusal where
  /-- The command named has no meaning in the model yet. Raised by exec alone. Safe. -/
  | notModelled (mnemonic : String)
  deriving DecidableEq, Repr

/-- The machine right after reset: PORST_N registered low (R20), every field at its Reset value, the memories with
nothing listed, and the queue empty. -/
def State.reset : State := {}

end Sys2Proof.Machine
end

