-- ==== Sys2Proof/Machine/Ops.lean ====
section
/-! DEFINITION. The named operations over registers, memory, events and outputs that every meaning is built from. -/

namespace Sys2Proof.Machine

/-- The outcome type of a meaning. -/
abbrev Result := Host.Outcome State Fault Refusal

/-! Numbers and bytes. -/

/-- Bits msb..lsb of a number. -/
def bitsOf (v msb lsb : Nat) : Nat := v / 2 ^ lsb % 2 ^ (msb + 1 - lsb)

/-- One bit of a number. -/
def bitOf (v i : Nat) : Bool := v / 2 ^ i % 2 == 1

/-- A number with bits msb..lsb replaced. -/
def withBits (v msb lsb x : Nat) : Nat :=
  v - bitsOf v msb lsb * 2 ^ lsb + x % 2 ^ (msb + 1 - lsb) * 2 ^ lsb

/-- The signed reading of the low w bits. -/
def signedOf (v w : Nat) : Int :=
  let m := v % 2 ^ w
  if m < 2 ^ (w - 1) then (m : Int) else (m : Int) - (2 ^ w : Nat)

/-- The low w bits of an integer. -/
def unsignedOf (x : Int) (w : Nat) : Nat := (x % (2 ^ w : Nat)).toNat

/-- The n little-endian bytes of a number (R14). -/
def leBytes (n v : Nat) : List Byte := (List.range n).map fun i => BitVec.ofNat 8 (v / 256 ^ i)

/-- The number that little-endian bytes spell. -/
def leNat : List Byte → Nat
  | [] => 0
  | b :: bs => b.toNat + 256 * leNat bs

/-- The number that big-endian bytes spell. -/
def beNat (bs : List Byte) : Nat := leNat bs.reverse

/-- n bytes of a list from an offset, zero past its end. -/
def slice (bs : List Byte) (off n : Nat) : List Byte :=
  let t := (bs.drop off).take n
  t ++ List.replicate (n - t.length) 0

/-- The little-endian number at an offset of a byte list. -/
def leAt (bs : List Byte) (off n : Nat) : Nat := leNat (slice bs off n)

/-- Ceiling division; 0 by 0. -/
def ceilDiv (a b : Nat) : Nat := (a + b - 1) / b

/-- Round up to a multiple of m. -/
def roundUp (a m : Nat) : Nat := ceilDiv a m * m

/-- 1 for true. -/
def bval (b : Bool) : Nat := if b then 1 else 0

/-- Fold a function over 0, 1, …, n - 1 from a state. -/
def forUpTo {σ : Type} (n : Nat) (f : Nat → σ → σ) (s : σ) : σ :=
  (List.range n).foldl (fun t i => f i t) s

/-- Apply a state change when a condition holds. -/
def onlyIf {σ : Type} (c : Bool) (f : σ → σ) (s : σ) : σ := if c then f s else s

/-! CRC-32C (R92). -/

/-- One bit step of the reflected Castagnoli polynomial. -/
def crcStep (c : Word) : Word := if c.getLsbD 0 then (c >>> 1) ^^^ 0x82F63B78#32 else c >>> 1

/-- One byte into the CRC register. -/
def crcByte (c : Word) (b : Byte) : Word :=
  crcStep <| crcStep <| crcStep <| crcStep <| crcStep <| crcStep <| crcStep <| crcStep <|
    (c ^^^ BitVec.setWidth 32 b)

/-- CRC-32C over bytes in ascending address order (R92). -/
def crc32c (bs : List Byte) : Word := bs.foldl crcByte 0xFFFFFFFF#32 ^^^ 0xFFFFFFFF#32

/-! Registers. -/

/-- The register at a device address as it stands. -/
def State.reg (s : State) (a : Nat) : Word := mapGet (regReset a) s.regs a

/-- Write all bits of a register; the canonical form lists it only when it differs from its reset value. -/
def State.setReg (s : State) (a : Nat) (v : Word) : State :=
  { s with regs := mapSet (regReset a) s.regs a v }

/-- A field of a register. -/
def State.bits (s : State) (a msb lsb : Nat) : Nat := bitsOf (s.reg a).toNat msb lsb

/-- One bit of a register. -/
def State.bit (s : State) (a i : Nat) : Bool := bitOf (s.reg a).toNat i

/-- Write a field of a register, leaving its other bits. -/
def State.setBits (s : State) (a msb lsb v : Nat) : State :=
  s.setReg a (BitVec.ofNat 32 (withBits (s.reg a).toNat msb lsb v))

/-- Write one bit of a register. -/
def State.setBit (s : State) (a i : Nat) (b : Bool) : State := s.setBits a i i (bval b)

/-- Add to a count field, which saturates at all ones. -/
def State.addSat (s : State) (a msb lsb : Nat) (k : Nat := 1) : State :=
  s.setBits a msb lsb (min (s.bits a msb lsb + k) (2 ^ (msb + 1 - lsb) - 1))

/-- Add to a count field, which wraps. -/
def State.addWrap (s : State) (a msb lsb : Nat) (k : Nat := 1) : State :=
  s.setBits a msb lsb (s.bits a msb lsb + k)

/-- A 64-bit quantity over a low and a high register. -/
def State.reg64 (s : State) (lo hi : Nat) : Nat := (s.reg lo).toNat + 2 ^ 32 * (s.reg hi).toNat

/-- Write a 64-bit quantity over a low and a high register. -/
def State.setReg64 (s : State) (lo hi v : Nat) : State :=
  (s.setReg lo (BitVec.ofNat 32 v)).setReg hi (BitVec.ofNat 32 (v / 2 ^ 32))

/-! Indexed records. -/

/-- Furrow n's record. -/
def State.furrow (s : State) (n : Nat) : Furrow := mapGet {} s.furrows n

/-- Replace Furrow n's record. -/
def State.setFurrow (s : State) (n : Nat) (f : Furrow) : State := { s with furrows := mapSet {} s.furrows n f }

/-- Hopper h's state entry. -/
def State.hopper (s : State) (h : Nat) : Hopper := mapGet {} s.hoppers h

/-- Replace hopper h's state entry. -/
def State.setHopper (s : State) (h : Nat) (x : Hopper) : State := { s with hoppers := mapSet {} s.hoppers h x }

/-- Field f's record. -/
def State.field (s : State) (f : Nat) : Field := mapGet {} s.fields f

/-- Replace Field f's record. -/
def State.setField (s : State) (f : Nat) (x : Field) : State := { s with fields := mapSet {} s.fields f x }

/-- Change the warm token, if there is one (R448). -/
def State.mapToken (s : State) (g : WarmToken → WarmToken) : State :=
  { s with boot := { s.boot with token := s.boot.token.map g } }

/-! Time. -/

/-- TIME_NOW. -/
def State.now (s : State) : Nat := s.time.now

/-- Ticks per management tick (R25). -/
def mgmtTicks : Nat := 6400000

/-- The management tick number of TIME_NOW. -/
def State.tickNumber (s : State) : Nat := s.now / mgmtTicks

/-- The token entry of a channel or link is rewritten when it is retrained (R448). -/
def State.retrained (s : State) (k margin : Nat) (temp : Int) : State :=
  s.mapToken fun t => { t with trained := mapInsert t.trained k (s.now, temp, margin) }

/-! Memory. -/

/-- The byte at a device address. -/
def State.byte (s : State) (a : Nat) : Byte := mapGet 0 s.mem a

/-- n bytes from an address. -/
def State.bytes (s : State) (a n : Nat) : List Byte := (List.range n).map fun i => s.byte (a + i)

/-- The little-endian number in n bytes of memory. -/
def State.le (s : State) (a n : Nat) : Nat := leNat (s.bytes a n)

/-- Write bytes into the map of memory. -/
def memWrite (m : List Host.Cell) : Nat → List Byte → List Host.Cell
  | _, [] => m
  | a, b :: bs => memWrite (mapSet 0 m a b) (a + 1) bs

/-- The canonical form of memory: addresses rise, and no entry equals the 0 that an unlisted byte reads as (DESIGN
CHOICE, unsafe, log 4). -/
def Memory.wf (m : List Host.Cell) : Bool := mapWf (fun _ => 0) m

/-- Write bytes at an address; the error marks stay. -/
def State.poke (s : State) (a : Nat) (bs : List Byte) : State := { s with mem := memWrite s.mem a bs }

/-- The granule numbers (32 bytes each) that n bytes from a touch. -/
def granulesOf (a n : Nat) : List Nat :=
  if n = 0 then [] else (List.range ((a + n - 1) / 32 + 1 - a / 32)).map fun i => a / 32 + i

/-- What a granule's stored check bits say. -/
def State.mark (s : State) (g : Nat) : Mark := mapGet .clean s.marks g

/-- Set what a granule's stored check bits say. -/
def State.setMark (s : State) (g : Nat) (m : Mark) : State := { s with marks := mapSet .clean s.marks g m }

/-- Mark every granule that n bytes from a touch. -/
def State.markRange (s : State) (a n : Nat) (m : Mark) : State :=
  (granulesOf a n).foldl (fun t g => t.setMark g m) s

/-- Some granule of n bytes from a is poisoned or uncorrectable. -/
def State.poisoned (s : State) (a n : Nat) : Bool :=
  (granulesOf a n).any fun g => s.mark g == .double || s.mark g == .wrongAddress

/-- Bytes of seedbeds: the logical Furrow whose seedbed holds an address (R30). -/
def seedbedOf (a : Nat) : Option Nat :=
  if a / 0x100000000 = 0x40 ∧ a / 0x1000000 % 256 < 64 ∧ a % 0x1000000 < 0x400000 then some (a / 0x1000000 % 64) else none

/-- First address of logical Furrow n's seedbed (R30). -/
def seedbedBase (n : Nat) : Nat := 0x4000000000 + 0x1000000 * n

/-- Installed DRAM capacity in bytes by DRAM_CFG.capacity. -/
def State.dramInstalled (s : State) : Nat :=
  match s.bits Reg.dramCfg 2 0 with
  | 0 => 0
  | c => 2 ^ (34 + c)

/-- Bytes of the DRAM window that are mapped: 31/32 of the installed capacity (R33). -/
def State.dramMapped (s : State) : Nat := s.dramInstalled / 32 * 31

/-! Events, outputs and free values. -/

/-- Put a checker's event on the fault-report network (R367). -/
def State.raise (s : State) (e : Event) : State :=
  { s with island := { s.island with net := s.island.net ++ [e] } }

/-- An event of a block to which no table gives a code, such as the set of a W1C flag (R381): the cause byte is free (DESIGN
CHOICE, safe, log 82). -/
def State.raiseOpen (s : State) (block cls inst : Nat) : State :=
  s.raise { code := 256 * block + (Config.openCause block).toNat, cls := cls, inst := inst }

/-- Put an event on the network when a condition holds. -/
def State.raiseIf (s : State) (c : Bool) (e : Event) : State := if c then s.raise e else s

/-- Something leaves the device. -/
def State.emit (s : State) (o : Output) : State := { s with outbox := s.outbox ++ [o] }

/-! Words of the buffers that have no device address (R385). -/

/-- Buffers whose words the scrub reads: a Furrow's line buffers and score buffer, a pipeline's line buffers, a Droveway port's
frame buffers. -/
inductive WordBuffer where
  | line | score | intake | drove
  deriving DecidableEq, Repr

/-- The number of a buffer of unit i (below 64). -/
def bufferKey (b : WordBuffer) (i : Nat) : Nat :=
  4 * i + match b with
    | .line => 0
    | .score => 1
    | .intake => 2
    | .drove => 3

/-- The mark of word k of a buffer. -/
def State.word (s : State) (b : WordBuffer) (i k : Nat) : Mark := mapGet .clean s.words (256 * k + bufferKey b i)

/-- Mark word k of a buffer. -/
def State.setWord (s : State) (b : WordBuffer) (i k : Nat) (m : Mark) : State :=
  { s with words := mapSet .clean s.words (256 * k + bufferKey b i) m }

/-- A buffer's words are rewritten: no error stands in it any longer (R138, R385). Which words a use rewrites the manual leaves
open: the model takes all of them (DESIGN CHOICE, unsafe, log 28). -/
def State.rewriteWords (s : State) (b : WordBuffer) (i : Nat) : State :=
  { s with words := s.words.filter fun (k, _) => k % 256 != bufferKey b i }

/-- PCIe function n besides its registers. -/
def State.function (s : State) (n : Nat) : PcieFunction := mapGet {} s.pcie n

/-- Replace PCIe function n. -/
def State.setFunction (s : State) (n : Nat) (x : PcieFunction) : State := { s with pcie := mapSet {} s.pcie n x }

/-- Reset value of an MSI-X table byte: every vector masked (DESIGN CHOICE, unsafe, log 18). -/
def tableReset (off : Nat) : Byte := if off % 16 = 12 then 1 else 0

/-- A byte of a function's MSI-X table (R427). -/
def PcieFunction.tableByte (x : PcieFunction) (off : Nat) : Byte := mapGet (tableReset off) x.table off

/-- An MSI-X vector of a function fires (R430): its message leaves, or its pending bit is set while it is masked. -/
def State.notify (s : State) (n v : Nat) : State :=
  let x := s.function n
  if !x.msix then s
  else if (x.tableByte (16 * v + 12)).getLsbD 0 then
    s.setFunction n { x with pendingBits := withBits x.pendingBits v v 1 }
  else s.emit (.msix n v)

/-- The next free value, for a datum the spec leaves open (DESIGN CHOICE, safe, log 6). -/
def State.takeFree (s : State) : BitVec 64 × State :=
  (Config.freeValue s.freeCount, { s with freeCount := s.freeCount + 1 })

/-- The model's own number of a requester, to which Config.requesterInfo gives its free coding in an entry (DESIGN
CHOICE, safe, log 11). -/
def requesterCode : Requester → Nat
  | .reeve => 0
  | .mgmt => 1
  | .field f => 2 + f
  | .loader => 10
  | .safety => 11
  | .furrow n => 16 + n

/-- The Field a Furrow belongs to (R27). -/
def State.fieldOf (s : State) (n : Nat) : Option Nat :=
  if s.bit (Reg.furStatus n) 7 then some (s.bits (Reg.furStatus n) 6 4) else none

/-- The ticks per cycle of CLK_CORE: the active divider (R39). -/
def State.coreTicks (s : State) : Nat := s.bits Reg.clkStatus 7 4

/-- Act on unit i of n. A number that the device has no unit for stands for a free one of the units it has: no rule says what such
a command does (DESIGN CHOICE, safe, log 92). -/
def withUnit (s : State) (n i : Nat) (f : State → Nat → State) : State :=
  if i < n then f s i
  else
    let (v, s) := s.takeFree
    f s (v.toNat % n)

/-- A reset is asserted. -/
def State.inReset (s : State) : Bool := s.pins.porst || s.pins.warm

/-- The device does not run: a reset is asserted, or a start waits for WARM_N (R473) or for the PLL (R41). -/
def State.held (s : State) : Bool := s.inReset || s.pins.coldDue || s.boot.waiting.isSome

/-- The state with a queue of waiting commands in place of its own. -/
def State.withQueue (t : State) (q : List Instr) : State := { t with pending := q }

/-- A command's effect: everything but the queue, which holds the commands after it and no command changes. -/
def always (s t : State) : Result := .next (t.withQueue s.pending)

/-- A command of a running device: while it is held in reset, every field stays as the reset left it (R20). -/
def live (s t : State) : Result := always s (if s.held then s else t)

end Sys2Proof.Machine
end

