-- ==== Sys2Proof/Machine/Memory.lean ====
section
/-! DEFINITION. Error-checked memory: seedbed rows (R114 to R119, R124 to R127) and DRAM blocks (R260 to R265). -/

namespace Sys2Proof.Machine

/-! Seedbeds. -/

/-- Record a seedbed error in FUR_SB_ERR and FUR_SB_ECC_CNT: an uncorrectable one replaces a corrected one, never the
reverse until uncorr is cleared. -/
def seedError (s : State) (n granule : Nat) (uncorr scrub : Bool) : State :=
  let s := if uncorr || !s.bit (Reg.furSbErr n) 31 then
      (s.setBits (Reg.furSbErr n) 21 5 granule).setBit (Reg.furSbErr n) 29 scrub
    else s
  let s := s.setBit (Reg.furSbErr n) (if uncorr then 31 else 30) true
  if uncorr then s.addSat (Reg.furSbEccCnt n) 31 16 else s.addSat (Reg.furSbEccCnt n) 15 0

/-- What a check finds in a granule: its stored mark, or an error met on this access. -/
def metMark (stored : Mark) (u : Upset) : Mark :=
  if stored = .double ∨ stored = .wrongAddress then stored
  else
    match u with
    | .clean => stored
    | .single => if stored = .single then .double else .single
    | .double => .double
    | .wrongAddress => .wrongAddress

/-- A read of one seedbed row checks all four of its granules (R124, R125). -/
def readSeedRow (s : State) (n row : Nat) (upsets : List Upset) : State :=
  forUpTo 4 (fun i s =>
    let g := seedbedBase n / 32 + 4 * row + i
    let m := metMark (s.mark g) ((upsets[i]?).getD .clean)
    let s := s.setMark g m
    match m with
    | .clean => s
    | .single => (seedError s n (4 * row + i) false false).raise { code := 0x2101, cls := 1, inst := n }
    | _ => (seedError s n (4 * row + i) true false).raise { code := 0x2103, cls := 2, inst := n }) s

/-- A write cancels the scrub write-backs of the granules it covers (R138). -/
def cancelWriteBacks (s : State) (a n : Nat) : State :=
  match seedbedOf a with
  | some m =>
    let f := s.furrow m
    if f.writeBack.isEmpty then s
    else s.setFurrow m { f with writeBack := f.writeBack.filter fun (_, g) => !(granulesOf a n).contains (g / 32) }
  | none => s

/-- Write whole granules of a seedbed, padded with zero by the engine (R117), clean or poisoned (R127). -/
def writeSeed (s : State) (a : Nat) (bs : List Byte) (poison : Bool) : State :=
  let pad := List.replicate (a % 32) 0 ++ bs
  let all := pad ++ List.replicate (roundUp pad.length 32 - pad.length) 0
  let s := cancelWriteBacks s (a / 32 * 32) all.length
  (s.poke (a / 32 * 32) all).markRange (a / 32 * 32) all.length (if poison then .double else .clean)

/-! DRAM. -/

/-- The channel of a data block (R260). -/
def dramChannel (b : Nat) : Nat :=
  let c := b / 31
  Nat.xor (c % 32) (c / 32 % 32)

/-- Where a device address lies in DRAM (R260): channel, chunk within it, bank (its group in bits 3:2), rank, row, and byte within the
2 KiB page. -/
structure DramPlace where
  channel : Nat
  loc     : Nat
  bank    : Nat
  rank    : Nat
  row     : Nat
  col     : Nat
  deriving DecidableEq, Repr

/-- The bits of R260's rr: the 2 KiB pages of a channel's 1, 2 or 4 GiB in each of its 16 bank addresses (R258, R259). -/
def State.rowBits (s : State) : Nat := 14 + s.bits Reg.dramCfg 2 0

/-- The place of a mapped device address: with two ranks the top bit of rr is the rank and the rest the row, with one rank all of it is
the row (R260). -/
def State.dramPlace (s : State) (a : Nat) : DramPlace :=
  let b := a / 64
  let l := b / 31 / 32
  let rr := l / 16
  let half := 2 ^ (s.rowBits - 1)
  ⟨dramChannel b, l, Nat.xor (l % 16) (l / 16 % 16), if s.bit Reg.dramCfg 3 then rr / half else 0,
    if s.bit Reg.dramCfg 3 then rr % half else rr, 64 * (b % 31) + a % 64⟩

/-- The byte of the page at which a block's check word lies (R260). -/
def checkColumn (b : Nat) : Nat := 1984 + 2 * (b % 31)

/-- The address check of block b: bit j is the XOR of the bits i of b with i mod 5 = j (R261); a block index has fewer than 40
bits. -/
def addressCheck (b : Nat) : BitVec 5 :=
  BitVec.ofNat 5 ((List.range 5).foldl (fun w j =>
    if ((List.range 8).filter fun i => b.testBit (5 * i + j)).length % 2 = 1 then w + 2 ^ j else w) 0)

/-- The check word stored with block b: the address check above the Hamming bits of its data, which poison inverts (R261,
R264). -/
def checkWordOf (b : Nat) (data : List Byte) (poison : Bool) : BitVec 16 :=
  let h := Config.hammingBits data
  addressCheck b ++ if poison then ~~~h else h

/-- The 64 check bytes of chunk c: a word for each of its 31 blocks, and two zero bytes (R260). -/
def State.checkBytes (s : State) (c : Nat) : List Byte :=
  ((List.range 31).flatMap fun i =>
    let b := 31 * c + i
    leBytes 2 (checkWordOf b (s.bytes (64 * b) 64) (s.mark (2 * b) == .double)).toNat) ++ leBytes 2 0

/-- What the check of a block finds: a block is one unit of the check, held on its even granule. -/
def State.blockMark (s : State) (b : Nat) : Mark := s.mark (2 * b)

/-- Set a block's mark, on both of its granules. -/
def setBlockMark (s : State) (b : Nat) (m : Mark) : State := (s.setMark (2 * b) m).setMark (2 * b + 1) m

/-- Record a DRAM error in DRAM_ERR, DRAM_ERR_ADDR and DRAM_CH_ECC. -/
def dramError (s : State) (b : Nat) (uncorr scrub : Bool) : State :=
  let s := if uncorr || !s.bit Reg.dramErr 31 then
      ((s.setReg64 Reg.dramErrAddrLo Reg.dramErrAddrHi (64 * b)).setBit Reg.dramErr 29 scrub).setBits Reg.dramErr 4 0
        (dramChannel b)
    else s
  let s := s.setBit Reg.dramErr (if uncorr then 31 else 30) true
  if uncorr then s.addSat (Reg.dramChEcc (dramChannel b)) 31 16 else s.addSat (Reg.dramChEcc (dramChannel b)) 15 0

/-- The check of a block read: its events, with scrub codes where the patrol reads it (R264, R265, R270). -/
def checkBlock (s : State) (b : Nat) (u : Upset) (scrub : Bool) : State :=
  let m := metMark (s.blockMark b) u
  let s := setBlockMark s b m
  let k := if scrub then 2 else 0
  match m with
  | .clean => s
  | .single => (dramError s b false scrub).raise { code := 0x0401 + k, cls := 1, inst := dramChannel b }
  | .double => (dramError s b true scrub).raise { code := 0x0402 + k, cls := 2, inst := dramChannel b }
  | .wrongAddress => (dramError s b true scrub).raise { code := 0x0405, cls := 4, inst := dramChannel b }

/-- Write bytes of one block from an offset: a whole block, or a read, a merge and a write (R262, R264). -/
def writeBlock (s : State) (b off : Nat) (bs : List Byte) (poison : Bool) (u : Upset) : State :=
  if bs.length = 64 then setBlockMark (s.poke (64 * b) bs) b (if poison then .double else .clean)
  else
    let s := checkBlock s b u false
    let bad := poison || s.blockMark b == .double || s.blockMark b == .wrongAddress
    setBlockMark (s.poke (64 * b + off) bs) b (if bad then .double else .clean)

/-- Write bytes into DRAM, block by block; `fuel` bounds the blocks. -/
def writeDram (s : State) (a : Nat) (bs : List Byte) (poison : Bool) (u : Upset) : Nat → State
  | 0 => s
  | fuel + 1 =>
    if bs = [] then s
    else
      let n := 64 - a % 64
      writeDram (writeBlock s (a / 64) (a % 64) (bs.take n) poison u) (a + n) (bs.drop n) poison u fuel

/-! Any memory. -/

/-- Write bytes with correct check bits, or with poison (R127, R264). -/
def State.store (s : State) (a : Nat) (bs : List Byte) (poison : Bool := false) : State :=
  if a < 0x2000000000 then writeDram s a bs poison .clean (bs.length / 64 + 2)
  else if (seedbedOf a).isSome then writeSeed s a bs poison
  else (s.poke a bs).markRange a bs.length (if poison then .double else .clean)

/-- The events of a read of n bytes from a: every row or block that it touches is checked. -/
def noteRead (s : State) (a n : Nat) : State :=
  if n = 0 then s
  else if a < 0x2000000000 then
    forUpTo ((a + n - 1) / 64 + 1 - a / 64) (fun i s => checkBlock s (a / 64 + i) .clean false) s
  else
    match seedbedOf a with
    | some m => forUpTo ((a % 0x400000 + n - 1) / 128 + 1 - a % 0x400000 / 128)
        (fun i s => readSeedRow s m (a % 0x400000 / 128 + i) []) s
    | none => s

/-- The events of a list of reads. -/
def noteReads (s : State) (xs : List (Nat × Nat)) : State := xs.foldl (fun s (a, n) => noteRead s a n) s

/-- A poisoned read reaches the Reeve (R126). -/
def reeveBusError (s : State) (a : Nat) : State :=
  let s := s.setBit Reg.reeveBuserr 31 true
  (s.setReg64 Reg.reeveBuserrAddrLo Reg.reeveBuserrAddrHi a).raise { code := 0x0002, cls := 0 }

/-- The Reeve reads n bytes from a (R126). -/
def reeveRead (s : State) (a n : Nat) : State :=
  let bad := s.poisoned a n
  let s := noteRead s a n
  if bad then reeveBusError s a else s

end Sys2Proof.Machine
end

