-- ==== Sys2Proof/Machine/Numerics.lean ====
section
/-! DEFINITION. The number formats, exact arithmetic, roundings and narrowings of spec 03_number_formats.md. Values are
exact: a sign, a whole magnitude and a power of two, or infinity or NaN; each rounding is one named function (R81). A
widening is exact (R79). -/

namespace Sys2Proof.Machine

/-- An exact value: NaN, a signed infinity, or ±m·2^e, where m = 0 is a signed zero (R54 to R59). -/
inductive Val where
  | nan
  | inf (neg : Bool)
  | fin (neg : Bool) (m : Nat) (e : Int)
  deriving DecidableEq, Repr

/-- A binary floating-point format: exponent and mantissa widths, bias, largest finite value maxK·2^maxQ (R54, R56). -/
structure FloatFmt where
  ebits : Nat
  mbits : Nat
  bias  : Nat
  maxK  : Nat
  maxQ  : Int
  deriving DecidableEq, Repr

/-- The floating-point formats by format code (R52). -/
def floatFmt (code : Nat) : Option FloatFmt :=
  match code with
  | 5 => some ⟨2, 1, 1, 3, 1⟩
  | 6 => some ⟨2, 3, 1, 15, -1⟩
  | 7 => some ⟨3, 2, 3, 7, 2⟩
  | 8 => some ⟨4, 3, 7, 14, 5⟩
  | 9 => some ⟨5, 2, 15, 7, 13⟩
  | 10 => some ⟨5, 10, 15, 2047, 5⟩
  | 11 => some ⟨8, 7, 127, 255, 120⟩
  | 12 => some ⟨8, 23, 127, 16777215, 104⟩
  | _ => none

/-- W40 (R59). -/
def w40Fmt : FloatFmt := ⟨8, 31, 127, 4294967295, 96⟩

/-- The width in bits of a format code (R52). -/
def fmtWidth (code : Nat) : Nat :=
  match code with
  | 0 => 4 | 1 => 8 | 2 => 8 | 3 => 16 | 4 => 32 | 5 => 4 | 6 => 6 | 7 => 6
  | 8 => 8 | 9 => 8 | 10 => 16 | 11 => 16 | 12 => 32 | 13 => 8 | _ => 0

/-- The integer formats. -/
def fmtIsInt (code : Nat) : Bool := code ≤ 4

/-- A shift by a signed count, exact for counts of 0 and up. -/
def scaleNat (m : Nat) (k : Int) : Nat := if 0 ≤ k then m * 2 ^ k.toNat else m / 2 ^ (-k).toNat

/-- Decode a floating-point encoding (R54 to R57). -/
def decodeFloat (code : Nat) (f : FloatFmt) (v : Nat) : Val :=
  let neg := bitOf v (f.ebits + f.mbits)
  let ex := bitsOf v (f.ebits + f.mbits - 1) f.mbits
  let mant := v % 2 ^ f.mbits
  let top := 2 ^ f.ebits - 1
  if code = 8 ∧ ex = top ∧ mant = 7 then .nan
  else if 9 ≤ code ∧ ex = top then (if mant = 0 then .inf neg else .nan)
  else if ex = 0 then .fin neg mant (1 - (f.bias : Int) - f.mbits)
  else .fin neg (2 ^ f.mbits + mant) ((ex : Int) - f.bias - f.mbits)

/-- Decode an element by its format code; a code with no value reads as NaN. -/
def decodeElem (code v : Nat) : Val :=
  let ofInt (x : Int) : Val := .fin (x < 0) x.natAbs 0
  match code with
  | 0 => ofInt (signedOf v 4)
  | 1 => ofInt (signedOf v 8)
  | 2 => ofInt (v % 256)
  | 3 => ofInt (signedOf v 16)
  | 4 => ofInt (signedOf v 32)
  | 13 => if v % 256 = 255 then .nan else .fin false 1 ((v % 256 : Nat) - (127 : Int))
  | c =>
    match floatFmt c with
    | some f => decodeFloat c f v
    | none => .nan

/-- The significand of a source: the weight of its last bit, as a power of two, and how many bits it has (R73). -/
structure Significand where
  lsb  : Int
  bits : Nat
  deriving DecidableEq, Repr

/-- The significand of an element (R73). That of an integer element is as wide as its format (DESIGN CHOICE, unsafe, log 95). -/
def srcLsb (code v : Nat) : Significand :=
  match floatFmt code with
  | some f =>
    let ex := bitsOf v (f.ebits + f.mbits - 1) f.mbits
    ⟨(max ex 1 : Nat) - (f.bias : Int) - f.mbits, f.mbits + 1⟩
  | none => if code = 13 then ⟨(v % 256 : Nat) - (127 : Int), 1⟩ else ⟨0, fmtWidth code⟩

/-- A zero of either sign. -/
def Val.isZero : Val → Bool
  | .fin _ 0 _ => true
  | _ => false

/-- NaN. -/
def Val.isNan : Val → Bool
  | .nan => true
  | _ => false

/-- A finite value. -/
def Val.isFinite : Val → Bool
  | .fin _ _ _ => true
  | _ => false

/-- Plus zero. -/
def Val.zero : Val := .fin false 0 0

/-- The value of a natural number. -/
def Val.ofNat (n : Nat) : Val := .fin false n 0

/-- The value of an integer. -/
def Val.ofInt (x : Int) : Val := .fin (x < 0) x.natAbs 0

/-- The signed whole multiple of 2^q that a finite value is, for q at or below its exponent. -/
def scaled (neg : Bool) (m : Nat) (e q : Int) : Int :=
  let k : Int := m * 2 ^ (e - q).toNat
  if neg then -k else k

/-- The value x·2^q of an integer, with a sign for zero. -/
def valOf (x q : Int) (negZero : Bool) : Val :=
  if x = 0 then .fin negZero 0 0 else .fin (x < 0) x.natAbs q

/-- Exact addition: NaN from NaN or opposite infinities; a zero sum is +0 unless both addends are −0 (R65). -/
def Val.add (x y : Val) : Val :=
  match x, y with
  | .nan, _ => .nan
  | _, .nan => .nan
  | .inf a, .inf b => if a = b then .inf a else .nan
  | .inf a, _ => .inf a
  | _, .inf b => .inf b
  | .fin a m e, .fin b k g =>
    let q := min e g
    valOf (scaled a m e q + scaled b k g q) q (decide (m = 0) && decide (k = 0) && a && b)

/-- Exact multiplication. -/
def Val.mul (x y : Val) : Val :=
  match x, y with
  | .nan, _ => .nan
  | _, .nan => .nan
  | .inf a, .inf b => .inf (a != b)
  | .inf a, .fin b m _ => if m = 0 then .nan else .inf (a != b)
  | .fin a m _, .inf b => if m = 0 then .nan else .inf (a != b)
  | .fin a m e, .fin b k g => .fin (a != b) (m * k) (e + g)

/-- Negation. -/
def Val.neg : Val → Val
  | .nan => .nan
  | .inf a => .inf !a
  | .fin a m e => .fin (!a) m e

/-- Subtraction. -/
def Val.sub (x y : Val) : Val := x.add y.neg

/-- x < y for values that are not NaN; −0 lies below +0 (R89). -/
def Val.lt (x y : Val) : Bool :=
  match x, y with
  | .nan, _ => false
  | _, .nan => false
  | .inf a, .inf b => a && !b
  | .inf a, _ => a
  | _, .inf b => !b
  | .fin a m e, .fin b k g =>
    let q := min e g
    let u := scaled a m e q
    let v := scaled b k g q
    u < v || (u == v && decide (m = 0) && a && !b)

/-- The FP maximum of R89: NaN if either is NaN. -/
def Val.max (x y : Val) : Val := if x.isNan || y.isNan then .nan else if x.lt y then y else x

/-- The FP minimum of R89: NaN if either is NaN. -/
def Val.min (x y : Val) : Val := if x.isNan || y.isNan then .nan else if y.lt x then y else x

/-! Rounding (R71 to R75). -/

/-- The rounding modes of R71. -/
inductive Rounding where
  | sr (x : Nat)                     -- with the generator's output
  | rne | rtz
  deriving DecidableEq, Repr

/-- Whether a magnitude floor + r / 2^sh rounds up; d is the number of source bits below ulp (R72, R73). -/
def roundsUp (mode : Rounding) (floor r sh d : Nat) : Bool :=
  match mode with
  | .rtz => false
  | .rne => decide (2 ^ sh < 2 * r) || (decide (2 * r = 2 ^ sh) && floor % 2 == 1)
  | .sr x =>
    let fd := r * 2 ^ d / 2 ^ sh
    decide (2 ^ d ≤ fd + x % 2 ^ d)

/-- The number d of R73 for a grid of 2^q: the significand bits of the source below it, capped at 32; 32 where the whole
significand lies below. -/
def discarded (src : Significand) (q : Int) : Nat :=
  let n := (q - src.lsb).toNat
  if src.bits ≤ n then 32 else min 32 n

/-- Round a magnitude m·2^e from a source significand to a multiple of 2^q. -/
def roundAt (mode : Rounding) (m : Nat) (e q : Int) (src : Significand) : Nat :=
  if q ≤ e then m * 2 ^ (e - q).toNat
  else
    let sh := (q - e).toNat
    let fl := m / 2 ^ sh
    if roundsUp mode fl (m % 2 ^ sh) sh (discarded src q) then fl + 1 else fl

/-- The power of two of a format's grid at a magnitude m·2^e (R72). -/
def FloatFmt.ulp (f : FloatFmt) (m : Nat) (e : Int) : Int :=
  max ((Nat.log2 m : Int) + e) (1 - (f.bias : Int)) - f.mbits

/-- k·2^q is above a format's largest finite value. -/
def FloatFmt.over (f : FloatFmt) (k : Nat) (q : Int) : Bool :=
  let b := min q f.maxQ
  decide (f.maxK * 2 ^ (f.maxQ - b).toNat < k * 2 ^ (q - b).toNat)

/-- Encode k·2^q, a value of a format's grid with k at most 2^(mbits + 1). -/
def FloatFmt.encode (f : FloatFmt) (neg : Bool) (k : Nat) (q : Int) : Nat :=
  let sign := bval neg * 2 ^ (f.ebits + f.mbits)
  if k < 2 ^ f.mbits then sign + k
  else
    let ex := (q + f.mbits + f.bias).toNat
    if k < 2 ^ (f.mbits + 1) then sign + ex * 2 ^ f.mbits + (k - 2 ^ f.mbits)
    else sign + (ex + 1) * 2 ^ f.mbits

/-- Round an exact value to nearest, ties to even, in a wide format, overflow giving infinity (R59, R75). A negative value that rounds to
zero gives −0, as in IEEE 754; R65 speaks of sums that are exactly zero (DEDUCED, unsafe, log 95). -/
def FloatFmt.rne (f : FloatFmt) (x : Val) : Val :=
  match x with
  | .fin neg m e =>
    if m = 0 then .fin neg 0 0
    else
      let q := f.ulp m e
      let k := roundAt .rne m e q ⟨q, 0⟩
      if f.over k q then .inf neg else .fin neg k q
  | v => v

/-- rne40 of R65. -/
def rne40 (x : Val) : Val := w40Fmt.rne x

/-- One rounding to FP32 (R75). -/
def rne32 (x : Val) : Val := (FloatFmt.mk 8 23 127 16777215 104).rne x

/-- The generator of R73. -/
def srGenerator (s t i : Nat) : Nat :=
  let w (x : Nat) : BitVec 32 := BitVec.ofNat 32 x
  let x := w s ^^^ (w t * 0x9E3779B9#32) ^^^ (w i * 0x85EBCA6B#32)
  let x := (x ^^^ (x >>> 16)) * 0x7FEB352D#32
  let x := (x ^^^ (x >>> 15)) * 0x846CA68B#32
  (x ^^^ (x >>> 16)).toNat

/-- The rounding of one element by a tensor's mode, seed, tag and element index (R71, R74). -/
def roundingOf (mode seed tag i : Nat) : Rounding :=
  match mode with
  | 0 => .sr (srGenerator seed tag (i % 2 ^ 32))
  | 1 => .rne
  | _ => .rtz

/-- A narrowed element: its bits and the R78 event it raises (0 finite overflow, 1 infinity, 2 NaN). -/
structure Narrowed where
  bits  : Nat
  event : Option Nat := none
  deriving DecidableEq, Repr

/-- The range limits of an integer format (R53). -/
def intRange (code : Nat) : Int × Int :=
  match code with
  | 0 => (-8, 7)
  | 1 => (-128, 127)
  | 2 => (0, 255)
  | 3 => (-32768, 32767)
  | _ => (-2147483648, 2147483647)

/-- Narrow to an integer format (R76, R77). -/
def narrowInt (code : Nat) (mode : Rounding) (x : Val) (src : Significand) : Narrowed :=
  let (lo, hi) := intRange code
  let w := fmtWidth code
  match x with
  | .nan => ⟨0, some 2⟩
  | .inf neg => ⟨unsignedOf (if neg then lo else hi) w, some 1⟩
  | .fin neg m e =>
    let k := roundAt mode m e 0 src
    let v : Int := if neg then -k else k
    if v < lo then ⟨unsignedOf lo w, some 0⟩
    else if hi < v then ⟨unsignedOf hi w, some 0⟩
    else ⟨unsignedOf v w, none⟩

/-- The canonical quiet NaN of a destination, or +0 where the format has none (R57, R76). -/
def canonicalNan (code : Nat) : Nat :=
  match code with
  | 8 => 0x7F
  | 9 => 0x7E
  | 10 => 0x7E00
  | 11 => 0x7FC0
  | 12 => 0x7FC00000
  | _ => 0

/-- The encoding of an infinity narrowed into a floating-point destination (R76). -/
def narrowInf (code : Nat) (f : FloatFmt) (neg : Bool) : Nat :=
  if 9 ≤ code then bval neg * 2 ^ (f.ebits + f.mbits) + (2 ^ f.ebits - 1) * 2 ^ f.mbits
  else f.encode neg f.maxK f.maxQ

/-- Narrow an exact value, held in a source significand, into a stored format under R72 to R77. -/
def narrow (code : Nat) (mode : Rounding) (x : Val) (src : Significand) : Narrowed :=
  match floatFmt code with
  | none => narrowInt code mode x src
  | some f =>
    match x with
    | .nan => ⟨canonicalNan code, some 2⟩
    | .inf neg => ⟨narrowInf code f neg, some 1⟩
    | .fin neg m e =>
      if m = 0 then ⟨f.encode neg 0 0, none⟩
      else
        let q := f.ulp m e
        let k := roundAt mode m e q src
        if f.over k q then
          ⟨if 10 ≤ code && mode != .rtz then narrowInf code f neg else f.encode neg f.maxK f.maxQ, some 0⟩
        else ⟨f.encode neg k q, none⟩

/-- The significand of a value held in W40 (R73). -/
def w40Lsb : Val → Significand
  | .fin _ m e => ⟨w40Fmt.ulp m e, 32⟩
  | _ => ⟨0, 32⟩

/-- The significand of a value held in FP32. -/
def fp32Lsb : Val → Significand
  | .fin _ m e => ⟨(FloatFmt.mk 8 23 127 16777215 104).ulp m e, 24⟩
  | _ => ⟨0, 24⟩

/-- The significand of an INT32 result. -/
def int32Lsb : Significand := ⟨0, 32⟩

/-- Add an R78 event to the counts by kind. -/
def addEvent (counts : List Nat) (ev : Option Nat) : List Nat :=
  match ev with
  | none => counts
  | some k => counts.zipIdx.map fun (c, i) => if i = k then c + 1 else c

/-- Add event counts, kind by kind. -/
def addEvents (a b : List Nat) : List Nat := List.zipWith (· + ·) a b

/-! Quotients and exponentials, correctly rounded to FP32 (R88). -/

/-- A quotient of finite magnitudes as a value that rounds as the exact quotient does: 64 bits and a sticky bit. -/
def quotient (neg : Bool) (m : Nat) (e : Int) (k : Nat) (g : Int) : Val :=
  let sh := 64 + Nat.log2 k
  let t := m * 2 ^ sh / k
  let sticky := if m * 2 ^ sh % k = 0 then 0 else 1
  .fin neg (2 * t + sticky) (e - g - sh - 1)

/-- Division before rounding. -/
def Val.div (x y : Val) : Val :=
  match x, y with
  | .nan, _ => .nan
  | _, .nan => .nan
  | .inf _, .inf _ => .nan
  | .inf a, .fin b _ _ => .inf (a != b)
  | .fin a _ _, .inf b => .fin (a != b) 0 0
  | .fin a m e, .fin b k g =>
    if k = 0 then (if m = 0 then .nan else .inf (a != b))
    else quotient (a != b) m e k g

/-- Fraction bits of the fixed-point exponentials. -/
def expBits : Nat := 512

/-- Taylor terms of e^r in fixed point: sum of r^i / i! for i below n, from term t. -/
def expSeries (r : Nat) : Nat → Nat → Nat → Nat
  | 0, _, _ => 0
  | n + 1, i, t => t + expSeries r n (i + 1) (t * r / 2 ^ expBits / (i + 1))

/-- Square a fixed-point number n times. -/
def squareTimes : Nat → Nat → Nat
  | 0, x => x
  | n + 1, x => squareTimes n (x * x / 2 ^ expBits)

/-- e^(m·2^e) for a magnitude below 2^8, in fixed point: a Taylor sum of the argument over 2^24, squared 24 times. -/
def expFixed (m : Nat) (e : Int) : Nat :=
  let r := scaleNat m (e + expBits - 24)
  squareTimes 24 (expSeries r 24 0 (2 ^ expBits))

/-- exp, correctly rounded to FP32 (R88). -/
def fpExp (x : Val) : Val :=
  match x with
  | .nan => .nan
  | .inf neg => if neg then Val.zero else .inf false
  | .fin neg m e =>
    if m = 0 then .fin false 1 0
    else if 8 ≤ (Nat.log2 m : Int) + e then (if neg then Val.zero else .inf false)
    else
      let y := expFixed m e
      rne32 (if neg then quotient false 1 0 (2 * y + 1) (-(expBits : Int) - 1)
        else .fin false (2 * y + 1) (-(expBits : Int) - 1))

/-- ln 2 in fixed point. -/
def ln2Fixed : Nat :=
  9293584264128987901384440660653081117630633404975079641076009770578364573633075645167623918067512986930843040596952636663673675798576024949780480621393957

/-- exp2, correctly rounded to FP32 (R88): the whole part of the argument is the exponent, the rest goes through e^x. -/
def fpExp2 (x : Val) : Val :=
  match x with
  | .nan => .nan
  | .inf neg => if neg then Val.zero else .inf false
  | .fin neg m e =>
    if m = 0 then .fin false 1 0
    else if 8 ≤ (Nat.log2 m : Int) + e then (if neg then Val.zero else .inf false)
    else
      let a := scaleNat m (e + expBits)
      let v : Int := if neg then -(a : Int) else a
      let n := v / (2 ^ expBits : Nat)
      let r := (v % (2 ^ expBits : Nat)).toNat
      if r = 0 then rne32 (.fin false 1 n)
      else
        let y := squareTimes 24 (expSeries (r * ln2Fixed / 2 ^ (expBits + 24)) 24 0 (2 ^ expBits))
        rne32 (.fin false (2 * y + 1) (n - expBits - 1))

/-- One rounding to BF16 (R175). -/
def rneBf16 (x : Val) : Val := (FloatFmt.mk 8 7 127 255 120).rne x

/-- a·b + c with one rounding to FP32. -/
def fpFma (a b c : Val) : Val := rne32 ((a.mul b).add c)

/-- Round the exact sum of two values to FP32. -/
def fpAdd (x y : Val) : Val := rne32 (x.add y)

/-- Round the exact product of two values to FP32. -/
def fpMul (x y : Val) : Val := rne32 (x.mul y)

/-- Round the exact quotient of two values to FP32. -/
def fpDiv (x y : Val) : Val := rne32 (x.div y)

/-- The FP32 encoding of a value already on the FP32 grid. -/
def fp32Bits (x : Val) : Nat := (narrow 12 .rne x (fp32Lsb x)).bits

/-! Storage packing (R60). -/

/-- The number that w bits of a byte list spell from bit offset o. -/
def packedAt (bs : List Byte) (w o : Nat) : Nat :=
  let first := o / 8
  leNat ((bs.drop first).take ((o % 8 + w + 7) / 8)) / 2 ^ (o % 8) % 2 ^ w

/-- Element k of a packed row of elements of width w. -/
def elemAt (bs : List Byte) (w k : Nat) : Nat := packedAt bs w (w * k)

/-- Pack elements of width w into bytes, zero in the last byte's spare bits. -/
def packElems (w : Nat) (es : List Nat) : List Byte :=
  let v := es.zipIdx.foldl (fun t (x, k) => t + x % 2 ^ w * 2 ^ (w * k)) 0
  leBytes (ceilDiv (w * es.length) 8) v

/-- Pad bytes with zero to whole granules (R117). -/
def padGranules (bs : List Byte) : List Byte := bs ++ List.replicate (roundUp bs.length 32 - bs.length) 0

/-- Bytes of a row of n elements of width w. -/
def rowBytes (w n : Nat) : Nat := ceilDiv (w * n) 8

end Sys2Proof.Machine
end

