-- ==== Sys2Proof/Machine/Operands.lean ====
section
/-! DEFINITION. What commands and tasks name: the address map and each requester's reach (R30 to R34, R136, R137),
harness table entries (R408), hopper rings (R194, R195), task descriptors (R91) and parameter headers (R93). -/

namespace Sys2Proof.Machine

/-! Harness table entries (R408). -/

/-- The key of an entry: section type, table, index. -/
def tableKey (sect tab idx : Nat) : Nat := sect * 0x1000000 + tab * 0x100000 + idx

/-- The entry at an index, with valid set; empty where no entry stands (R409). -/
def State.entry (s : State) (sect tab idx : Nat) : List Byte := mapGet [] s.tables (tableKey sect tab idx)

/-- An entry stands at an index. -/
def State.hasEntry (s : State) (sect tab idx : Nat) : Bool := (s.entry sect tab idx) != []

/-- A little-endian field of an entry. -/
def State.entryAt (s : State) (sect tab idx off n : Nat) : Nat := leAt (s.entry sect tab idx) off n

/-- Put an entry in place, or remove it with the empty list. -/
def State.setEntry (s : State) (sect tab idx : Nat) (e : List Byte) : State :=
  { s with tables := mapSet [] s.tables (tableKey sect tab idx) e }

/-! The address map (R30). -/

/-- The ranges of R30 that an address may lie in. -/
inductive Region where
  | dram
  | seedbed (n : Nat)
  | furRegs (n : Nat)
  | hopperTable
  | hopRegs
  | block (b : Nat)
  | sram | rom | flash
  deriving DecidableEq, Repr

/-- The mapped range that holds an address; none: unmapped (R30, R33). -/
def State.region (s : State) (a : Nat) : Option Region :=
  if a < 0x2000000000 then (if a < s.dramMapped then some .dram else none)
  else if a / 0x100000000 = 0x40 then
    let n := a / 0x1000000 % 64
    let off := a % 0x1000000
    if 0x40 ≤ a / 0x1000000 % 256 then none
    else if off < 0x400000 then some (.seedbed n)
    else if 0x800000 ≤ off ∧ off < 0x810000 then some (.furRegs n)
    else none
  else if 0x4800000000 ≤ a ∧ a < 0x4800100000 then some .hopperTable
  else if 0x4800100000 ≤ a ∧ a < 0x4800110000 then some .hopRegs
  else if 0x5000000000 ≤ a ∧ a < 0x50000E0000 then some (.block (a / 0x10000 % 16))
  else if 0x5800000000 ≤ a ∧ a < 0x5800200000 then some .sram
  else if 0x5801000000 ≤ a ∧ a < 0x5801040000 then some .rom
  else if 0x6000000000 ≤ a ∧ a < 0x6010000000 then some .flash
  else none

/-- The range that holds n bytes from a wholly (R102). -/
def State.extentRegion (s : State) (a n : Nat) : Option Region :=
  match s.region a, s.region (a + (n - 1)) with
  | some r, some q => if r = q then some r else none
  | _, _ => none

/-! Fields and their resources (R27 to R29). -/

/-- FLD_STATUS.state of R200. -/
def State.fieldState (s : State) (f : Nat) : Nat := s.bits (Reg.fldStatus f) 2 0

/-- The states of R200. -/
def fldUnconfigured : Nat := 0
/-- Ready. -/
def fldReady : Nat := 1
/-- Running. -/
def fldRunning : Nat := 2
/-- Quiescing. -/
def fldQuiescing : Nat := 3
/-- Quiesced. -/
def fldQuiesced : Nat := 4
/-- Stopping. -/
def fldStopping : Nat := 5
/-- Stopped. -/
def fldStopped : Nat := 6

/-- Logical Furrow n belongs to Field f. -/
def State.furrowIn (s : State) (f n : Nat) : Bool := s.fieldOf n == some f

/-- A Field's hopper range, if it has one (FLD_HOPPERS). -/
def State.hopperRange (s : State) (f : Nat) : Option (Nat × Nat) :=
  if s.bit (Reg.fldHoppers f) 31 then some (s.bits (Reg.fldHoppers f) 14 0, s.bits (Reg.fldHoppers f) 30 16) else none

/-- Hopper h lies in Field f's range. -/
def State.hopperIn (s : State) (f h : Nat) : Bool :=
  match s.hopperRange f with
  | some (a, b) => a ≤ h && h ≤ b
  | none => false

/-- n bytes from a lie in Field f's own DRAM region. -/
def State.inFieldDram (s : State) (f a n : Nat) : Bool :=
  let base := s.reg64 (Reg.fldDramBaseLo f) (Reg.fldDramBaseHi f)
  let last := s.reg64 (Reg.fldDramLimitLo f) (Reg.fldDramLimitHi f)
  base < last && base ≤ a && a + n ≤ last + 1

/-- n bytes from a lie in a shared region that Field f may write, or read (R29, R408 DRAM_MAP table 1). The Field that writes a region
reads it too, whatever its reading mask says (DESIGN CHOICE, unsafe, log 96). -/
def State.inShared (s : State) (f a n : Nat) (write : Bool) : Bool :=
  (List.range 64).any fun i =>
    let e := s.entry 7 1 i
    e != [] && (leAt e 1 1 == f || (!write && bitOf (leAt e 2 1) f)) &&
      leAt e 8 8 ≤ a && a + n ≤ leAt e 16 8 + 1

/-- The headroom size of a Furrow's seedbed in bytes (R136). -/
def State.headroom (s : State) (n : Nat) : Nat := s.bits (Reg.furSbCtrl n) 20 15 * 0x10000

/-- The three ranges of R136 that n bytes from an offset may lie in: 0 Field range, 1 headroom, 2 system slice; an
extent that crosses them lies in the most restricted one it touches. -/
def State.seedRange (s : State) (fur off n : Nat) : Nat :=
  let last := off % 0x400000 + (n - 1)
  if 0x3F0000 ≤ last then 2 else if 0x3F0000 - s.headroom fur ≤ last then 1 else 0

/-- How a requester comes to memory: as itself, as a task of a class on its Furrow, as a check plot (R388), as gleaning
of a task of a Furrow, with the Reeve's reach (R219), or as the Intake for a Field. -/
inductive Reach where
  | req (r : Requester)
  | task (furrow cls : Nat)
  | check (furrow : Nat)
  | glean (furrow : Nat)
  | intake (field : Nat)
  deriving DecidableEq, Repr

/-- The mailbox window of block 7 (R311). -/
def mailboxBase : Nat := 0x500007C000

/-- A Field reaches n bytes from a, registers apart, as a task (with its class) or as its function. -/
def State.fieldReaches (s : State) (f : Nat) (cls : Option Nat) (a n : Nat) (write : Bool) : Bool :=
  match s.extentRegion a n with
  | some .dram => s.inFieldDram f a n || s.inShared f a n write
  | some (.seedbed m) =>
    s.furrowIn f m &&
      (s.seedRange m a n == 0 || (s.seedRange m a n == 1 && cls == some 0))
  | some .hopperTable => !write && s.hopperIn f ((a - 0x4800000000) / 32) && s.hopperIn f ((a + n - 1 - 0x4800000000) / 32)
  | some (.block 7) =>
    cls.isSome && mailboxBase ≤ a && a + n ≤ mailboxBase + 0x4000 &&
      (List.range ((a + n - 1) / 64 + 1 - a / 64)).all fun i =>
        s.hasEntry 9 1 ((a - mailboxBase) / 64 + i) && s.entryAt 9 1 ((a - mailboxBase) / 64 + i) 1 1 == f
  | _ => false

/-- n bytes from a lie in the system slice of Furrow n's seedbed (R388). -/
def inSystemSlice (fur a n : Nat) : Bool :=
  seedbedBase fur + 0x3F0000 ≤ a && a + n ≤ seedbedBase fur + 0x400000

/-- A start has not ended. -/
def State.starting (s : State) : Bool := !s.bit Reg.reeveBoot 31

/-- The device is in firmware recovery (R441). -/
def State.recovering (s : State) : Bool := s.starting && s.bits Reg.reeveBoot 30 29 == 3

/-- A host function in firmware recovery reaches function 0's part of the map only (R441). -/
def State.recoveryReach (s : State) (r : Requester) (a : Nat) : Bool :=
  !s.recovering || r == .reeve ||
    (r == .mgmt && [some Region.sram, some (.block 0), some (.block 10), some (.block 12)].contains (s.region a))

/-- First system hopper. -/
def sysHopper : Nat := 32704

/-- Hopper h is a system hopper (R192). -/
def isSystem (h : Nat) : Bool := sysHopper ≤ h

/-- A Field's function reaches n bytes from a (R32). -/
def State.functionReaches (s : State) (f a n : Nat) (write : Bool) : Bool :=
  match s.extentRegion a n with
  | some (.furRegs m) => s.furrowIn f m
  | some .hopRegs =>
    s.fieldState f != fldUnconfigured &&
      (a == Reg.hopDoorbell || a == Reg.hopSkip || a == Reg.hopCntReset ||
        (Reg.fldCtrl f ≤ a && a < Reg.fldCtrl f + 0x100) || (Reg.yokeRate f 0 ≤ a && a < Reg.yokeRate f 0 + 0x40))
  | _ => s.fieldState f != fldUnconfigured && s.fieldReaches f none a n write

/-- A Furrow engine reaches n bytes from a with the reach of the task it runs: a check plot's its system slice, another's
its class's (R137, R388). -/
def State.engineReaches (s : State) (m a n : Nat) (write : Bool) : Bool :=
  match (s.furrow m).task with
  | some t =>
    if isSystem t.hopper then inSystemSlice m a n
    else (s.fieldOf m).any fun f => s.fieldReaches f (some (s.hopper t.hopper).cls) a n write
  | none => (s.fieldOf m).any fun f => s.fieldReaches f (some 3) a n write

/-- The reach of R32 and R137 over n bytes from a. -/
def State.reaches (s : State) (r : Reach) (a n : Nat) (write : Bool) : Bool :=
  match r with
  | .req .reeve => (s.extentRegion a n).isSome
  | .req .mgmt => (s.extentRegion a n).isSome && s.recoveryReach .mgmt a
  | .req .loader => (s.extentRegion a n).isSome
  | .req .safety =>
    match s.extentRegion a n with
    | some (.seedbed m) => inSystemSlice m a n
    | some (.furRegs _) => true
    | some (.block 10) => true
    | some .hopRegs => a == Reg.hopDoorbell
    | _ => false
  | .req (.field f) => s.functionReaches f a n write && s.recoveryReach (.field f) a
  | .req (.furrow m) => s.engineReaches m a n write
  | .task m cls =>
    match s.fieldOf m with
    | some f => s.fieldReaches f (some cls) a n write
    | none => false
  | .check m => inSystemSlice m a n
  | .glean _ => (s.extentRegion a n).isSome
  | .intake f =>
    match s.extentRegion a n with
    | some .dram => s.inFieldDram f a n
    | some (.seedbed m) => s.furrowIn f m && s.seedRange m a n == 0
    | _ => false

/-- The block bytes of fault codes (R22). -/
def blockBytes : List Nat := List.range 14 ++ [0x20, 0x21, 0x22]

/-- The code of the F0 entry of an access that R15 or R34 drops: a block byte of R22 and a cause, both free. -/
def accessFault (a : Nat) : Nat :=
  let c := (Config.accessCode a).toNat
  (blockBytes[c / 256 % 17]?).getD 0 * 256 + c % 256

/-- The F0 entry of an access to an unmapped offset or outside the requester's reach (R15, R34). The manual gives the
entry no code: a free value; its info field carries the requester in a coding that is free too (DESIGN CHOICE, safe,
logs 11 and 12). -/
def denied (s : State) (r : Requester) (a : Nat) : State :=
  s.raise { code := accessFault a, cls := 0, info := some (Config.requesterInfo (requesterCode r)).toNat }

/-! Hopper entries (R195). -/

/-- The hopper holds a task that its Furrow may accept next: posted, or to be run again (R199, R204, R205). -/
def State.hopperReady (s : State) (h : Nat) : Bool :=
  let x := s.hopper h
  x.enable && x.stage == .idle && (x.inflight || x.head != x.tail) &&
    (isSystem h || s.fieldState x.field == fldRunning) && s.bits (Reg.furStatus x.furrow) 2 0 != 3

/-- HopperState of R195 as the entry shows it. A hopper that a doorbell has filled shows pending in every Field state (R196);
one bound to a fenced Furrow never does (R393). -/
def State.hopperStateCode (s : State) (h : Nat) : Nat :=
  match (s.hopper h).stage with
  | .running => 2
  | .parked => 3
  | .frozen => 4
  | .idle =>
    let x := s.hopper h
    bval (x.enable && (x.inflight || x.head != x.tail) && s.bits (Reg.furStatus x.furrow) 2 0 != 3)

/-- The 32 bytes of a hopper state entry (R195). -/
def State.hopperBytes (s : State) (h : Nat) : List Byte :=
  let x := s.hopper h
  leBytes 8 (x.base % 2 ^ 40 + x.k * 2 ^ 40 + x.field * 2 ^ 44 + x.cls * 2 ^ 47 + x.furrow * 2 ^ 49 +
      x.retries * 2 ^ 55 + bval x.enable * 2 ^ 57) ++
    leBytes 2 x.head ++ leBytes 2 x.tail ++ leBytes 4 x.done ++
    leBytes 1 (s.hopperStateCode h + x.tries * 8 + bval x.inflight * 32) ++ leBytes 1 x.park ++
    leBytes 2 x.fault ++ leBytes 12 0

/-- The address of the descriptor at a hopper's head slot (R194). -/
def Hopper.headSlot (x : Hopper) : Nat := x.base + 64 * (x.head % 2 ^ x.k)

/-- A byte of readable memory: the hopper table through its entries, every other byte from its store. -/
def State.viewByte (s : State) (a : Nat) : Byte :=
  if 0x4800000000 ≤ a ∧ a < 0x4800100000 then
    ((s.hopperBytes ((a - 0x4800000000) / 32))[(a - 0x4800000000) % 32]?).getD 0
  else if 0x5801000000 ≤ a ∧ a < 0x5801040000 then Config.romByte (a - 0x5801000000)
  else s.byte a

/-- n bytes of readable memory. -/
def State.view (s : State) (a n : Nat) : List Byte := (List.range n).map fun i => s.viewByte (a + i)

/-! Descriptors (R91). -/

/-- The descriptor that 64 bytes spell. -/
def decodeDesc (bs : List Byte) : Desc :=
  let w (i : Nat) : Nat := leAt bs (8 * i) 8
  { op := bitsOf (w 0) 7 0, guardA := bitOf (w 0) 8, guardB := bitOf (w 0) 9, guardDst := bitOf (w 0) 10
    hasScale := bitOf (w 0) 11, hasBias := bitOf (w 0) 12, zcA := bitOf (w 0) 13, zcDst := bitOf (w 0) 14
    budget := bitsOf (w 0) 30 16, tag := bitsOf (w 0) 63 32
    fmtA := bitsOf (w 1) 3 0, fmtB := bitsOf (w 1) 7 4, fmtOut := bitsOf (w 1) 11 8
    scaleABf16 := bitOf (w 1) 12, scaleBBf16 := bitOf (w 1) 13, round := bitsOf (w 1) 15 14
    g := bitsOf (w 1) 17 16, gOut := bitsOf (w 1) 19 18, nOut := bitsOf (w 1) 26 20, seed := bitsOf (w 1) 63 32
    aAddr := bitsOf (w 2) 39 0, aGen := bitsOf (w 2) 55 40, bAddr := bitsOf (w 3) 39 0, bGen := bitsOf (w 3) 55 40
    dstAddr := bitsOf (w 4) 39 0, dstGen := bitsOf (w 4) 55 40
    paramAddr := bitsOf (w 5) 39 0, tiles := bitsOf (w 5) 55 40, paramLen := bitsOf (w 5) 63 56
    stubbleAddr := bitsOf (w 6) 39 0, stage := bitsOf (w 6) 47 40
    reservedSet := bitOf (w 0) 15 || bitOf (w 0) 31 || bitsOf (w 1) 31 27 != 0 || bitsOf (w 2) 63 56 != 0 ||
      bitsOf (w 3) 63 56 != 0 || bitsOf (w 4) 63 56 != 0 || bitsOf (w 6) 63 48 != 0 || bitsOf (w 7) 31 0 != 0
    crcOk := bitsOf (w 7) 63 32 == (crc32c (bs.take 60)).toNat }

/-- The descriptor at an address. -/
def State.descAt (s : State) (a : Nat) : Desc := decodeDesc (s.bytes a 64)

/-- Entry i of the parameter header: an address, or 0 where absent (R93). -/
def State.header (s : State) (d : Desc) (i : Nat) : Nat := s.le (d.paramAddr + 8 * i) 8

/-- The i-th 32-bit value of the op-specific part, from granule 3 (R94, R95). -/
def State.param (s : State) (d : Desc) (i : Nat) : Nat := s.le (d.paramAddr + 96 + 4 * i) 4

/-- Operand group size G (R64). -/
def Desc.groupSize (d : Desc) : Nat := 32 * 2 ^ d.g

/-- Output group size G_out, 0 for none (R70). -/
def Desc.outGroup (d : Desc) : Nat := if d.gOut = 0 then 0 else 16 * 2 ^ d.gOut

/-! Stubble words (R104). -/

/-- The 32-byte granule of a stubble word. -/
def stubbleBytes (tag committed total fault state events : Nat) : List Byte :=
  let b := leBytes 4 tag ++ leBytes 2 committed ++ leBytes 2 total ++ leBytes 2 fault ++ leBytes 1 state ++
    leBytes 1 (min events 255)
  b ++ leBytes 4 (crc32c b).toNat ++ leBytes 16 0

/-- A stubble word that can be read for a descriptor (R105). -/
def stubbleReadable (w : List Byte) (d : Desc) : Bool :=
  leAt w 12 4 == (crc32c (w.take 12)).toNat && leAt w 10 1 < 5 && leAt w 0 4 == d.tag && leAt w 6 2 == d.tiles

/-- The sum of event counts. -/
def sumNat (l : List Nat) : Nat := l.foldl (· + ·) 0

end Sys2Proof.Machine
end

