-- ==== Sys2Proof/Machine/Fields.lean ====
section
/-! DEFINITION. Hoppers, Fields and yokes (spec 08_hoppers_and_fields.md): doorbells, Field states, stops, the yoke
buckets and the scheduler's choice. -/

namespace Sys2Proof.Machine

/-! Task fault classes (R103, R190, R213, R257, R383). -/

/-- The fault class of a task cause. -/
def causeClass (cause : Nat) : Nat :=
  if cause = 0x0A ∨ cause = 0x23 then 2 else if cause = 0x0D then 0 else 3

/-- The event of a task fault on Furrow n (R103); an F3 names the Field of the task, a system task none. -/
def taskFaultEvent (n cause : Nat) (field : Option Nat) : Event :=
  { code := 0x2000 + cause, cls := causeClass cause, inst := n, field := if causeClass cause = 3 then field else none }

/-! Yokes (R215 to R218). -/

/-- Change the Droveway messages wherever they wait to be sent. -/
def mapMessages (s : State) (on : Message → Message) : State :=
  { s with drove := { s.drove with
      ports := s.drove.ports.map fun (k, p) => (k, { p with ready := p.ready.map on })
      peers := s.drove.peers.map fun (k, p) => (k, { p with held := p.held.map on })
      own := s.drove.own.map on
      streams := s.drove.streams.map fun (k, t) => (k, { t with window := t.window.map fun w => { w with msg := on w.msg } }) } }

/-- Change the Droveway message of a serial number. -/
def mapMessage (s : State) (uid : Nat) (g : Message → Message) : State := mapMessages s fun m => if m.uid = uid then g m else m

/-- A message is not delivered: its bytes leave the total of its buffer and round, and the totals of the LASTs issued after it that have
not been sent yet (R228). -/
def undeliver (s : State) (m : Message) : State :=
  if m.kind = 4 then s
  else
    let key := 1024 * m.dst + m.buffer
    let old := mapGet [] s.drove.totals key
    let n := m.payload.length
    let later (k : Message) : Bool :=
      k.last && !k.sent && k.kind != 4 && k.dst == m.dst && k.buffer == m.buffer && k.round == m.round && m.uid < k.uid
    let s := { s with drove := { s.drove with totals := mapSet [] s.drove.totals key (mapSet 0 old m.round (mapGet 0 old m.round - n)) } }
    mapMessages s fun k => if later k then { k with aux := k.aux - n } else k

/-- Bucket r of Field f. -/
def State.yoke (s : State) (f r : Nat) : Yoke := mapGet {} s.yokes (3 * f + r)

/-- Replace bucket r of Field f. -/
def State.setYoke (s : State) (f r : Nat) (y : Yoke) : State := { s with yokes := mapSet {} s.yokes (3 * f + r) y }

/-- Some request of a user waits at a yoke. -/
def State.userWaits (s : State) (u : YokeUser) : Bool := s.yokes.any fun (_, y) => y.queue.any fun q => q.user == u

/-- An address lies in the Rein mailbox (R311). -/
def inMailbox (a : Nat) : Bool := mailboxBase ≤ a && a < mailboxBase + 0x4000

/-- A task's write of one granule, a checksum, a tag or a stubble word: aimed at a mailbox slot it covers no whole slot and is
dropped with F0 0x070A (R312). -/
def storeGranule (s : State) (a : Nat) (bs : List Byte) : State :=
  if inMailbox a then s.raise { code := 0x070A, cls := 0, inst := (a - mailboxBase) / 64 } else s.store a bs

/-- A posted stubble write that waits at no bucket any more lands (R217). -/
def landPosted (s : State) (n uid : Nat) : State :=
  if s.userWaits (.posted n uid) then s
  else
    let f := s.furrow n
    match f.posted.find? fun p => p.uid == uid with
    | some p => storeGranule (s.setFurrow n { f with posted := f.posted.filter fun q => q.uid != uid }) p.addr p.data
    | none => s

/-- The yoke has admitted a request: a Droveway message's next transmission (R226), or a posted stubble write. -/
def admitFrame (s : State) (u : YokeUser) : State :=
  match u with
  | .frame uid => mapMessage s uid fun m => { m with admitted := true }
  | .posted n uid => landPosted s n uid
  | _ => s

/-- The bucket's signed level. -/
def State.yokeLevel (s : State) (f r : Nat) : Int := signedOf (s.reg (Reg.yokeLevel f r)).toNat 32

/-- Write the bucket's signed level. -/
def State.setYokeLevel (s : State) (f r : Nat) (v : Int) : State :=
  s.setReg (Reg.yokeLevel f r) (BitVec.ofNat 32 (unsignedOf v 32))

/-- The bucket charges and limits (R216). -/
def State.yokeEnabled (s : State) (f r : Nat) : Bool := s.bit (Reg.yokeRate f r) 31

/-- A bucket admits a request as it is made. A posted write lands once both of its buckets have been asked, by its issuer. -/
def admitAtOnce (s : State) (u : YokeUser) : State :=
  match u with
  | .posted _ _ => s
  | _ => admitFrame s u

/-- A request reaches a bucket: admitted and charged, or queued behind the waiting ones (R216, R217). -/
def yokeRequest (s : State) (f r : Nat) (q : YokeRequest) : State :=
  if !s.yokeEnabled f r then admitAtOnce s q.user
  else
    let y := s.yoke f r
    if y.queue.isEmpty ∧ 0 < s.yokeLevel f r then admitAtOnce (s.setYokeLevel f r (s.yokeLevel f r - q.cost)) q.user
    else s.setYoke f r { queue := y.queue ++ [q], waited := true }

/-- Admit the oldest waiting request once the level is above 0 (R216). -/
def yokeAdmit (s : State) (f r : Nat) : State :=
  let y := s.yoke f r
  match y.queue with
  | q :: rest =>
    if 0 < s.yokeLevel f r ∨ !s.yokeEnabled f r then
      let s := if s.yokeEnabled f r then s.setYokeLevel f r (s.yokeLevel f r - q.cost) else s
      admitFrame (s.setYoke f r { y with queue := rest }) q.user
    else s
  | [] => s

/-- One bucket's refill, and its count of periods in which a request waited (R216, YOKE_HELD). -/
def yokeRefillOne (s : State) (f r : Nat) : State :=
  let y := s.yoke f r
  let s := if s.yokeEnabled f r then
      s.setYokeLevel f r (min (s.yokeLevel f r + s.bits (Reg.yokeRate f r) 19 0) (s.bits (Reg.yokeDepth f r) 20 0))
    else s
  let s := if y.waited then s.addSat (Reg.yokeHeld f r) 31 0 else s
  s.setYoke f r { y with waited := !y.queue.isEmpty }

/-- A request of Furrow n's running task waits at a bucket of its Field. -/
def State.yokeWaits (s : State) (n : Nat) : Bool :=
  match s.fieldOf n with
  | some f => (List.range 2).any fun r => (s.yoke f r).queue.any fun q => q.user == .furrow n
  | none => false

/-- Charge one access of n bytes from a, made by a user for a task of Furrow m: DRAM requests to buckets 0 and 1, every
other access that leaves the own seedbed to bucket 1 (R215). A system task is charged to no yoke. -/
def chargeAccess (s : State) (u : YokeUser) (m : Nat) (system : Bool) (a n : Nat) : State :=
  match s.fieldOf m with
  | none => s
  | some f =>
    if system || n == 0 then s
    else
      let cost := ceilDiv n 64
      let dram := s.region a == some .dram
      let own := seedbedOf a == some m
      let s := if dram then yokeRequest s f 0 ⟨cost, u⟩ else s
      if own then s else yokeRequest s f 1 ⟨cost, u⟩

/-- Charge a list of accesses of a Furrow's task. -/
def chargeAll (s : State) (m : Nat) (system : Bool) (xs : List (Nat × Nat)) : State :=
  xs.foldl (fun s (a, n) => chargeAccess s (.furrow m) m system a n) s

/-- The requests of Furrow n's task that still wait go on waiting after its end, for nobody (R217). -/
def releaseYoke (s : State) (n : Nat) : State :=
  let free (q : YokeRequest) : YokeRequest := if q.user = .furrow n then { q with user := .ended } else q
  if s.userWaits (.furrow n) then { s with yokes := s.yokes.map fun (k, y) => (k, { y with queue := y.queue.map free }) }
  else s

/-- A stubble write at a park or a resumption: charged, and it lands once the yoke has admitted it (R215, R217). -/
def postWrite (s : State) (n a : Nat) (bs : List Byte) : State :=
  let f := s.furrow n
  let uid := f.postCount
  let s := s.setFurrow n { f with postCount := uid + 1, posted := f.posted ++ [⟨uid, a, bs⟩] }
  landPosted (chargeAccess s (.posted n uid) n false a bs.length) n uid

/-! Stubble words. -/

/-- The stubble word of a task (R104). -/
def stubbleWord (d : Desc) (committed cause state : Nat) (events : List Nat) : List Byte :=
  stubbleBytes d.tag committed d.tiles (if cause = 0 then 0 else 0x2000 + cause) state (sumNat events)

/-- Write a task's stubble word (R104, R106). -/
def writeStubble (s : State) (d : Desc) (committed cause state : Nat) (events : List Nat) : State :=
  storeGranule s d.stubbleAddr (stubbleWord d committed cause state events)

/-- Issue a task's final stubble write: it is charged to the Field's yoke and lands when it is acknowledged (R110, R215,
R217); that of a system task is charged to no yoke and lands at once (DESIGN CHOICE, unsafe, log 37). -/
def issueFinal (s : State) (n : Nat) (t : Task) (cause state : Nat) (u : Unacked) : State :=
  let w := stubbleWord t.desc t.committed cause state t.events
  let f := s.furrow n
  if isSystem t.hopper then storeGranule (s.setFurrow n { f with unacked := f.unacked ++ [u] }) t.desc.stubbleAddr w
  else
    let u := { u with uid := f.postCount, word := some (t.desc.stubbleAddr, w) }
    let s := s.setFurrow n { f with postCount := f.postCount + 1, unacked := f.unacked ++ [u] }
    chargeAccess s (.posted n f.postCount) n false t.desc.stubbleAddr 32

/-- The R78 counts of the last ended task (FUR_FMT_CNT). -/
def showEvents (s : State) (n : Nat) (events : List Nat) : State :=
  forUpTo 4 (fun k s => s.setReg (Reg.furFmtCnt n k) (BitVec.ofNat 32 (min ((events[k]?).getD 0) 0xFFFFFFFF))) s

/-- The final stubble write of a task that ends faulted, and its record until it is acknowledged (R103, R203). -/
def endFaulted (s : State) (n : Nat) (t : Task) (cause : Nat) (field : Option Nat) : State :=
  let s := s.setBits (Reg.furFault n) 15 0 (0x2000 + cause)
  let s := s.setBit (Reg.furFault n) 16 true
  let s := s.setHopper t.hopper { s.hopper t.hopper with fault := 0x2000 + cause }
  let s := showEvents s n t.events
  let s := if t.stubble then
      issueFinal s n t cause 4 { hopper := t.hopper, done := false, uses := [], stageNo := 0, capture := none, buffers := [] }
    else s
  s.raise (taskFaultEvent n cause field)

/-! Reclaim fences (R186). -/

/-- The running task of Furrow n holds a snapshot that keeps the current fence request from clearing. -/
def State.fenceHeld (s : State) (n : Nat) : Bool :=
  let h := s.reg64 (Reg.furHwFenceLo n) (Reg.furHwFenceHi n) % 2 ^ 40
  let g := (s.reg (Reg.furHwFenceGen n)).toNat
  match (s.furrow n).task with
  | some t => t.snapshots.any fun (a, gs) =>
      let k := (g + 2 ^ 32 - gs) % 2 ^ 32
      a == h && 1 ≤ k && k ≤ 2 ^ 31
  | none => false

/-- Show the fence and the snapshots held (FUR_HW_FENCE_STATUS). -/
def showFence (s : State) (n : Nat) : State :=
  let k := match (s.furrow n).task with
    | some t => t.snapshots.length
    | none => 0
  (s.setBits (Reg.furHwFenceStatus n) 7 1 (min k 127)).setBit (Reg.furHwFenceStatus n) 0 (!s.fenceHeld n)

/-! Stopping a Field (R200, R201, R203). -/

/-- The Furrows of a Field. -/
def State.furrowsOf (s : State) (f : Nat) : List Nat := (List.range 64).filter (s.furrowIn f)

/-- The listed hoppers of a Field: those that differ from an empty entry. -/
def State.hoppersOf (s : State) (f : Nat) : List Nat := (s.hoppers.map (·.1)).filter (s.hopperIn f)

/-- A running task of the Field stops: its final stubble write is due with cause 0x0D (R110), unless it has already
failed. -/
def stopTask (s : State) (n : Nat) : State :=
  let f := s.furrow n
  match f.task with
  | some t =>
    match t.stage with
    | .ending _ => s
    | _ =>
      if isSystem t.hopper then s
      else releaseYoke (s.setFurrow n { f with task := some { t with stage := .ending 0x0D, wait := .none, tilesLeft := []
                                                                     charged := false } }) n
  | none => s

/-- The parked tasks of a Furrow end faulted with cause 0x0D (R203). -/
def stopParked (s : State) (n fld : Nat) : State :=
  let slots := (s.furrow n).slots.filterMap fun (_, p) => p
  let s := s.setFurrow n { s.furrow n with slots := [] }
  slots.foldl (fun s p =>
    let s := endFaulted s n p.task 0x0D (some fld)
    s.setHopper p.task.hopper { s.hopper p.task.hopper with wasParked := true }) s

/-- Record a stop trigger in FLD_STOP and FLD_STOP_TICK (R201). -/
def recordStop (s : State) (f code : Nat) : State :=
  let s := s.addSat (Reg.fldStop f) 31 16
  let s := s.setBits (Reg.fldStop f) 15 0 code
  s.setReg64 (Reg.fldStopTickLo f) (Reg.fldStopTickHi f) s.now

/-- A Droveway message waits at a yoke under this serial number. -/
def YokeRequest.isFrame (q : YokeRequest) (m : Message) : Bool := q.user == .frame m.uid

/-- Discard Droveway messages whose admission is discarded: a new frame is dropped, a frame of a window waits for its
next timeout. -/
def dropWaiting (s : State) (qs : List YokeRequest) : State :=
  let waits (m : Message) : Bool := qs.any fun q => q.isFrame m
  let idle (w : WindowFrame) : WindowFrame :=
    if waits w.msg then { w with again := false, msg := { w.msg with asked := false } } else w
  let gone := (s.drove.ports.flatMap fun (_, p) => p.ready.filter waits) ++
    (s.drove.peers.flatMap fun (_, p) => p.held.filter waits) ++ s.drove.own.filter waits
  let s := gone.foldl undeliver s
  { s with drove := { s.drove with
      ports := s.drove.ports.map fun (k, p) => (k, { p with ready := p.ready.filter fun m => !waits m })
      peers := s.drove.peers.map fun (k, p) => (k, { p with held := p.held.filter fun m => !waits m })
      own := s.drove.own.filter fun m => !waits m
      streams := s.drove.streams.map fun (k, t) => (k, { t with window := t.window.map idle }) } }

/-- A Furrow's stubble writes and descriptor fetch whose requests are discarded: a posted write never lands, a final one is
never acknowledged, and the buffer holds nothing. -/
def dropPosted (s : State) (qs : List YokeRequest) (n : Nat) : State :=
  let waits (u : YokeUser) : Bool := qs.any fun q => q.user == u
  let f := s.furrow n
  s.setFurrow n { f with
    posted := f.posted.filter fun p => !waits (.posted n p.uid)
    unacked := f.unacked.map fun u => if waits (.posted n u.uid) then { u with lost := true } else u
    buffer := if waits (.fetch n) then none else f.buffer }

/-- Discard the requests that wait at a Field's yoke (R203). -/
def clearYokes (s : State) (f : Nat) : State :=
  let qs := (List.range 3).flatMap fun r => (s.yoke f r).queue
  let s := dropWaiting s qs
  let s := forUpTo 3 (fun r s => s.setYoke f r {}) s
  forUpTo 64 (fun n s => if qs.isEmpty then s else dropPosted s qs n) s

/-- The descriptor buffers of a Field's Furrows hold nothing once it no longer runs: step 2 of R205 chooses no hopper. -/
def emptyBuffers (s : State) (f : Nat) : State :=
  (s.furrowsOf f).foldl (fun s n => s.setFurrow n { s.furrow n with buffer := none }) s

/-- Freeze the hoppers of a Field with a task in flight (R203). -/
def freezeHoppers (s : State) (f : Nat) : State :=
  (s.hoppersOf f).foldl (fun s h =>
    if (s.hopper h).inflight then s.setHopper h { s.hopper h with stage := .frozen, noAck := false } else s) s

/-- A state change of a Field, with its MSI-X vectors (R200, R430). -/
def setFieldState (s : State) (f st : Nat) : State :=
  ((s.setBits (Reg.fldStatus f) 2 0 st).notify (f + 1) 0).notify 0 0

/-- Some final stubble write of the Field is not acknowledged: still to be issued or waiting. -/
def State.unackedHoppers (s : State) (f : Nat) : List Nat :=
  (List.range 64).flatMap fun n =>
    let x := s.furrow n
    ((match x.task with
      | some t => [t.hopper]
      | none => []) ++ x.unacked.map (·.hopper)).filter (s.hopperIn f)

/-- The final stubble writes of a ready or quiesced Field that stops are owed their acknowledgement from the trigger on (R203). -/
def oweWrites (s : State) (f n : Nat) : State :=
  let x := s.furrow n
  if x.unacked.isEmpty then s
  else s.setFurrow n { x with unacked := x.unacked.map fun u => if s.hopperIn f u.hopper then { u with owed := true } else u }

/-- A stop trigger for Field f with a fault code (R200, R201, R203). The requests discarded are those that wait at the
trigger: the final stubble writes come after it. -/
def stopField (s : State) (f code : Nat) : State :=
  let st := s.fieldState f
  if st = fldRunning ∨ st = fldQuiescing then
    let s := recordStop s f code
    let s := setFieldState s f fldStopping
    let s := (s.hoppersOf f).foldl (fun s h => s.setHopper h { s.hopper h with wasParked := false }) s
    let ns := s.furrowsOf f
    let s := clearYokes (emptyBuffers s f) f
    let s := ns.foldl stopTask s
    let s := ns.foldl (fun s n => stopParked s n f) s
    let s := freezeHoppers s f
    s.setField f {}
  else if st = fldReady ∨ st = fldQuiesced then
    let s := recordStop s f code
    let s := setFieldState s f fldStopped
    let s := forUpTo 64 (fun n s => oweWrites s f n) (clearYokes (freezeHoppers s f) f)
    let s := s.setBits (Reg.fldGleanCount f) 15 0 0
    s.setBit (Reg.fldStatus f) 7 true
  else s

/-- A fenced Furrow's check plot is dropped as it stands: the fence ends no task in a way that a stubble word could show
(R393, DESIGN CHOICE, unsafe, log 19). -/
def dropCheck (s : State) (n : Nat) : State :=
  match (s.furrow n).task with
  | some t =>
    if isSystem t.hopper then showFence ((s.setFurrow n { s.furrow n with task := none }).setBit (Reg.furTask n) 31 false) n else s
  | none => s

/-- Fence a Furrow (R393): it runs nothing and leaves its Field; the warm token notes it (R448). -/
def fenceFurrow (s : State) (n : Nat) : State :=
  let s := dropCheck s n
  let s := match s.fieldOf n with
    | some f => if n < 32 then s.setBit (Reg.fldFurrowsLo f) n false else s.setBit (Reg.fldFurrowsHi f) (n - 32) false
    | none => s
  let s := s.setBit (Reg.furStatus n) 7 false
  let s := s.setBits (Reg.furStatus n) 2 0 3
  let s := s.setBits (Reg.safeFurCp n) 2 0 4
  let s := s.setFurrow n { s.furrow n with run := { (s.furrow n).run with due := false, active := false } }
  s.mapToken fun k => { k with fence := true }

/-- Raise the F3 fault that fences a Furrow and take its reaction: the Furrow is fenced at once and its Field stops
(R392, R393). -/
def fenceFault (s : State) (n info : Nat) : State :=
  let fld := s.fieldOf n
  let s := s.raise { code := 0x2022, cls := 3, inst := n, info := some info }
  let s := match fld with
    | some f => stopField s f 0x2022
    | none => s
  fenceFurrow s n

/-! Field control (R200, R202). -/

/-- A request that the table of R200 does not allow. -/
def refuseField (s : State) (f : Nat) : State := s.raise { code := 0x2207, cls := 0, inst := f }

/-- The table lets a start take effect (R200), outside safe state (R375). -/
def State.mayStart (s : State) (f : Nat) : Bool :=
  let st := s.fieldState f
  !s.bit Reg.safeStatus 2 && (st == fldReady || st == fldQuiesced || (st == fldStopped && s.bit (Reg.fldStatus f) 7))

/-- A Field starts to run: its hoppers are idle and its yokes full. -/
def runField (s : State) (f : Nat) : State :=
  let s := setFieldState s f fldRunning
  let s := s.setBit (Reg.fldStatus f) 7 false
  let s := (s.hoppersOf f).foldl (fun s h =>
    s.setHopper h { s.hopper h with stage := .idle, noAck := false, wasParked := false }) s
  forUpTo 3 (fun r s => s.setReg (Reg.yokeLevel f r) (BitVec.ofNat 32 (s.bits (Reg.yokeDepth f r) 20 0))) s

/-- FLD_CTRL.quiesce. -/
def quiesceField (s : State) (f : Nat) : State :=
  if s.fieldState f = fldRunning then
    emptyBuffers ((setFieldState s f fldQuiescing).setField f { s.field f with quiesceTicks := 0 }) f
  else refuseField s f

/-- FLD_CTRL.stop. -/
def requestStop (s : State) (f : Nat) : State :=
  let st := s.fieldState f
  if st = fldRunning ∨ st = fldQuiescing ∨ st = fldReady ∨ st = fldQuiesced then
    stopField (s.raise { code := 0x2206, cls := 0, inst := f }) f 0x2206
  else refuseField s f

/-- No task of the Field runs or is parked. -/
def State.fieldIdle (s : State) (f : Nat) : Bool :=
  (s.furrowsOf f).all fun n =>
    (match (s.furrow n).task with
     | some t => isSystem t.hopper
     | none => true) && (s.furrow n).slots.isEmpty

/-- A quiescing Field with no task running or parked becomes quiesced. -/
def completeQuiesce (s : State) (f : Nat) : State :=
  if s.fieldState f = fldQuiescing ∧ s.fieldIdle f then setFieldState s f fldQuiesced else s

/-- FLD_QUIESCE.limit, where 0 acts as 1,000. -/
def State.quiesceLimit (s : State) (f : Nat) : Nat :=
  let l := s.bits (Reg.fldQuiesce f) 9 0
  if l = 0 then 1000 else l

/-- The quiesce limit is reached: F3 0x2205 and the Field stops (R202). -/
def expireQuiesce (s : State) (f : Nat) : State :=
  if s.fieldState f = fldQuiescing ∧ s.quiesceLimit f ≤ (s.field f).quiesceTicks then
    stopField (s.raise { code := 0x2205, cls := 3, inst := f }) f 0x2205
  else s

/-- A stopping Field whose final stubble writes are all acknowledged becomes stopped (R200). -/
def completeStop (s : State) (f : Nat) : State :=
  if s.fieldState f = fldStopping ∧ (s.unackedHoppers f).isEmpty then setFieldState s f fldStopped else s

/-- Forget the tasks and unacknowledged writes of a Field on Furrow n; a task's snapshots go with it (R186). -/
def dropUnacked (s : State) (f n : Nat) : State :=
  let x := s.furrow n
  let mine (h : Nat) : Bool := s.hopperIn f h
  let task := match x.task with
    | some t => if mine t.hopper then none else some t
    | none => none
  let s := match x.task with
    | some t => if mine t.hopper ∧ s.bits (Reg.furStatus n) 2 0 = 1 then s.setBits (Reg.furStatus n) 2 0 0 else s
    | none => s
  showFence (s.setFurrow n { x with task := task, unacked := x.unacked.filter fun u => !mine u.hopper }) n

/-- A hopper's final stubble write was not acknowledged in time (R203). -/
def noteNoAck (s : State) (h : Nat) : State :=
  (s.setHopper h { s.hopper h with noAck := true }).raise { code := 0x2208, cls := 2, inst := h }

/-- 25,600 cycles after a stop trigger: an F2 entry per hopper whose final write is not acknowledged, and the Field
is stopped (R200, R203). -/
def expireStop (s : State) (f : Nat) : State :=
  setFieldState (forUpTo 64 (fun n s => dropUnacked s f n) ((s.unackedHoppers f).foldl noteNoAck s)) f fldStopped

/-- The hoppers of a Field whose final writes were owed when it stopped ready or quiesced, and still are (R203). -/
def State.owedHoppers (s : State) (f : Nat) : List Nat :=
  (List.range 64).flatMap fun n => ((s.furrow n).unacked.filter fun u => u.owed && s.hopperIn f u.hopper).map (·.hopper)

/-- Their 25,600 cycles are over. -/
def expireOwed (s : State) (f : Nat) : State :=
  forUpTo 64 (fun n s =>
    let x := s.furrow n
    s.setFurrow n { x with unacked := x.unacked.filter fun u => !(u.owed && s.hopperIn f u.hopper) }) ((s.owedHoppers f).foldl noteNoAck s)

/-! Hoppers (R196, R198, R204). -/

/-- The reason for refusing a doorbell, if any (R196). -/
def doorbellRefusal (s : State) (r : Reach) (h tail : Nat) : Option Nat :=
  let x := s.hopper h
  let inside := match r with
    | .req .reeve => true
    | .req .mgmt => true
    | .req (.field f) => s.hopperIn f h
    | .intake f => s.hopperIn f h
    | .req .safety => isSystem h
    | _ => false
  if isSystem h ∧ r ≠ .req .safety then some 3
  else if !inside then some 2
  else if !x.enable then some 1
  else if 2 ^ x.k < (tail + 65536 - x.head) % 65536 then some 0
  else none

/-- A doorbell (R196). -/
def doorbell (s : State) (r : Reach) (h tail : Nat) : State :=
  match doorbellRefusal s r h tail with
  | none => s.setHopper h { s.hopper h with tail := tail % 65536 }
  | some reason =>
    let s := s.setReg Reg.hopErr (BitVec.ofNat 32 (0x80000000 + reason * 0x10000 + h % 32768))
    let s := match r with
      | .req .mgmt => s.notify 0 3
      | .req (.field f) => s.notify (f + 1) 3
      | _ => s
    s.raise { code := 0x2201, cls := 0, inst := h }

/-- A requester may act on a hopper: the Reeve, management, or the Field's own function, in recovery the Reeve alone (R32,
R441). -/
def State.mayControl (s : State) (r : Requester) (h : Nat) : Bool :=
  s.recoveryReach r Reg.hopSkip &&
    (match r with
     | .reeve => true
     | .mgmt => true
     | .field f => s.hopperIn f h
     | _ => false)

/-- HOP_SKIP (R204). -/
def hopSkip (s : State) (h : Nat) : State :=
  let x := s.hopper h
  let st := s.fieldState x.field
  if !isSystem h && x.inflight && (st == fldQuiesced || st == fldStopped) && s.hopperIn x.field h then
    s.setHopper h { x with head := (x.head + 1) % 65536, inflight := false, tries := 0, stage := .idle }
  else s.raise { code := 0x220A, cls := 0, inst := h }

/-- HOP_CNT_RESET (R198). -/
def hopCntReset (s : State) (h : Nat) : State := s.setHopper h { s.hopper h with done := 0 }

/-! The scheduler (R205). -/

/-- What the scheduler of a Furrow would take at a boundary. -/
inductive Choice where
  | check (h : Nat)
  | resume (slot : Nat)
  | hopper (h : Nat)
  | nothing
  deriving DecidableEq, Repr

/-- A round-robin pass over a Field's hoppers of one class: from the number after the last one accepted from, wrapping
to the first of the range. -/
def State.roundRobin (s : State) (n f c : Nat) : Option Nat :=
  let ready := (s.hoppersOf f).filter fun h =>
    s.hopperReady h && (s.hopper h).furrow == n && (s.hopper h).cls == c
  let start := mapGet 0 (s.furrow n).rr c
  match ready.find? (fun h => start ≤ h) with
  | some h => some h
  | none => ready.head?

/-- The check plot is due at every boundary: its latest start has come, or a run is in progress (R390). -/
def State.checkDue (s : State) (n : Nat) : Bool :=
  let r := (s.furrow n).run
  s.hopperReady (sysHopper + n) && (r.due || r.active)

/-- The latest start L_k of a Furrow's next run (R390). -/
def State.latestStart (s : State) (n k : Nat) : Nat :=
  (s.reg (Reg.safeFurPhase n)).toNat + k * (s.reg Reg.safeCpPeriod).toNat

/-- The check plot may start early: TIME_NOW lies in its early window (R390). -/
def State.checkEarly (s : State) (n : Nat) : Bool :=
  let l := s.latestStart n (s.furrow n).run.nextK
  s.hopperReady (sysHopper + n) && (s.reg Reg.safeCpPeriod) != 0 && s.now < l &&
    l ≤ s.now + (s.reg Reg.safeCpWindow).toNat

/-- The parked task of a class with its condition held and parked earliest; `holds` is the condition. -/
def State.resumable (s : State) (n c : Nat) (holds : State → Nat → Task → Bool) : Option Nat :=
  let cand := (s.furrow n).slots.filter fun (_, p) =>
    match p with
    | some p => (s.hopper p.task.hopper).cls == c && holds s n p.task
    | none => false
  (cand.foldl (fun (best : Option (Nat × Nat)) (k, p) =>
    match p, best with
    | some p, some (o, _) => if p.order < o then some (p.order, k) else best
    | some p, none => some (p.order, k)
    | none, _ => best) none).map (·.2)

/-- The first class from c on with a parked task that can resume or a ready hopper (R205 step 2). -/
def State.chooseClass (s : State) (n f : Nat) (holds : State → Nat → Task → Bool) : Nat → Nat → Choice
  | 0, _ => .nothing
  | fuel + 1, c =>
    match s.resumable n c holds with
    | some k => .resume k
    | none =>
      match if s.fieldState f = fldRunning then s.roundRobin n f c else none with
      | some h => .hopper h
      | none => s.chooseClass n f holds fuel (c + 1)

/-- The scheduler's choice on Furrow n (R205). -/
def State.choice (s : State) (n : Nat) (holds : State → Nat → Task → Bool) : Choice :=
  if s.checkDue n then .check (sysHopper + n)
  else
    let c := match s.fieldOf n with
      | some f => s.chooseClass n f holds 4 0
      | none => .nothing
    let quiescing := (s.fieldOf n).any fun f => s.fieldState f == fldQuiescing
    if c = .nothing ∧ s.checkEarly n ∧ !quiescing then .check (sysHopper + n) else c

end Sys2Proof.Machine
end

