-- ==== Sys2Proof/Machine/Time.lean ====
section
/-! DEFINITION. The time base (spec 02_clocks_and_time.md): the clock's run, steps, the rate, FSYNC outputs. -/

namespace Sys2Proof.Machine

/-- The signed rate of TIME_RATE_ADJ (R46). -/
def State.rate (s : State) : Int := signedOf (s.reg Reg.timeRateAdj).toNat 32

/-- TIME_NOW counts forward to a value: each multiple on the way makes a management tick (R25) or a refill (R216) due. -/
def reachTime (s : State) (t : Nat) : State :=
  let old := s.time.now
  { s with time := { s.time with
      now := t % 2 ^ 64
      ticks := s.time.ticks + (t / mgmtTicks - old / mgmtTicks)
      ticksDue := s.time.ticksDue + (t / mgmtTicks - old / mgmtTicks)
      refillsDue := s.time.refillsDue + (t / 6400 - old / 6400) } }

/-- A correction carries TIME_NOW forward: past one or more multiples it gives exactly one management tick and exactly one
refill (R25, R47, R216). -/
def correctTime (s : State) (t : Nat) : State :=
  { s with time := { s.time with
      now := t % 2 ^ 64
      stepTo := t % 2 ^ 64
      ticks := s.time.ticks + bval (s.now / mgmtTicks != t / mgmtTicks)
      ticksDue := s.time.ticksDue + bval (s.now / mgmtTicks != t / mgmtTicks)
      refillsDue := s.time.refillsDue + bval (s.now / 6400 != t / 6400) } }

/-- Run n cycles of CLK_FAST: 4 ticks each, and one tick more or less per carry of the phase accumulator (R43, R46).
While PORST_N is low TIME_NOW stays cleared. -/
def runCycles (s : State) (n : Nat) : State :=
  if s.pins.porst then s
  else
    let acc : Int := s.time.phase + n * s.rate
    let ticks : Int := 4 * n + acc / 2 ^ 40
    let s := reachTime s (s.time.now + ticks.toNat)
    { s with time := { s.time with phase := (acc % 2 ^ 40).toNat, cycles := s.time.cycles + n } }

/-- The cycles of CLK_FAST until TIME_NOW has advanced by d ticks at the present rate. -/
def State.cyclesFor (s : State) (d : Nat) : Nat :=
  (-((s.time.phase - (d : Int) * 2 ^ 40) / (2 ^ 42 + s.rate))).toNat

/-- Let the clock run until TIME_NOW reaches or passes a tick. A command that names a timed event runs the clock to it
where TIME_NOW has not reached it yet (DESIGN CHOICE, unsafe, log 13). -/
def runUntil (s : State) (t : Nat) : State := if s.now < t then runCycles s (s.cyclesFor (t - s.now)) else s

/-- Let the clock run to a cycle of CLK_FAST, where it has not come to it yet. -/
def runToCycle (s : State) (c : Nat) : State := runCycles s (c - s.time.cycles)

/-- The first value of base + k·period, k = 0, 1, 2 …, at or after a tick. -/
def nextMultiple (base period t : Nat) : Nat :=
  if t ≤ base then base else base + ceilDiv (t - base) period * period

/-- The next multiple of a period above a value. -/
def multipleAfter (period t : Nat) : Nat := (t / period + 1) * period

/-! FSYNC outputs (R51). -/

/-- FSYNC output n besides its registers. -/
def State.fsync (s : State) (n : Nat) : Fsync := mapGet {} s.time.fsync n

/-- Replace FSYNC output n. -/
def State.setFsync (s : State) (n : Nat) (f : Fsync) : State :=
  { s with time := { s.time with fsync := mapSet {} s.time.fsync n f } }

/-- TIME_FSYNC_START of an output. -/
def State.fsyncStart (s : State) (n : Nat) : Nat := s.reg64 (Reg.timeFsyncStartLo n) (Reg.timeFsyncStartHi n)

/-- TIME_FSYNC_PERIOD of an output. -/
def State.fsyncPeriod (s : State) (n : Nat) : Nat := (s.reg (Reg.timeFsyncPeriod n)).toNat

/-- The output's schedule runs. -/
def State.fsyncOn (s : State) (n : Nat) : Bool := s.bit (Reg.timeFsyncCtrl n) 16 && s.fsyncPeriod n != 0

/-- The tick of an output's next edge. -/
def State.fsyncNext (s : State) (n : Nat) : Nat := nextMultiple (s.fsyncStart n) (s.fsyncPeriod n) (s.fsync n).start

/-- Output n fires its next edge at its scheduled tick and holds the pulse for the set width (R51). -/
def pulseEdge (s : State) (n : Nat) : State :=
  let e := s.fsyncNext n
  let w := max 1 (s.bits (Reg.timeFsyncCtrl n) 15 0)
  (s.setFsync n { start := e + 1, last := some e, level := true, endTick := e + 64 * w }).emit (.fsyncEdge n e)

/-- An enabled output fires its next edge, at its scheduled tick: the clock runs to it where TIME_NOW has not reached it. An
edge that the clock's run has reached before its command, as a second output's in one cycle of CLK_FAST, was neither past when
armed nor stepped over, so it fires at its own tick (R44, R45, R51; DESIGN CHOICE, unsafe, log 59). -/
def fireEdge (s : State) (n : Nat) : State :=
  if s.fsyncOn n then pulseEdge (runUntil s (s.fsyncNext n)) n else s

/-- The edges of output n that TIME_NOW has reached have fired, whether or not their command has come (log 59). -/
def fireReached (s : State) (n : Nat) : State :=
  if s.fsyncOn n && s.fsyncNext n < s.now then
    forUpTo (ceilDiv (s.now - s.fsyncNext n) (s.fsyncPeriod n)) (fun _ s => pulseEdge s n) s
  else s

/-- The edges of an enabled output that a forward step to tick t passes are skipped: its late flag is set, which is an event
of the output, and each is counted (R45, R381). -/
def skipEdges (s : State) (t n : Nat) : State :=
  let s := fireReached s n
  if s.fsyncOn n && s.fsyncNext n < t then
    let skipped := ceilDiv (t - s.fsyncNext n) (s.fsyncPeriod n)
    let s := s.setFsync n { s.fsync n with start := t }
    ((s.setBit (Reg.timeFsyncCtrl n) 18 true).addSat Reg.timeLateCount 31 0 skipped).raiseOpen 0x02 0 n
  else s

/-- The pulse ends. -/
def endPulse (s : State) (n : Nat) : State :=
  let f := s.fsync n
  if f.level then (runUntil s f.endTick).setFsync n { f with level := false } else s

/-! Reins as the time base sees them (R488). -/

/-- A rein is enabled: its state or its requested mode is not off (R488). -/
def State.reinOn (s : State) (n : Nat) : Bool :=
  s.bits (Reg.reinChStatus n) 31 29 != 0 || s.bits (Reg.reinChCtrl n) 1 0 != 0

/-! Martingale m as a step sees it (R397). -/

/-- Martingale m besides its registers. -/
def State.martingale (s : State) (m : Nat) : Martingale := mapGet {} s.island.martingales m

/-- Replace martingale m. -/
def State.setMartingale (s : State) (m : Nat) (x : Martingale) : State :=
  { s with island := { s.island with martingales := mapSet {} s.island.martingales m x } }

/-- Period, phase and width of a martingale. -/
def State.mgPeriod (s : State) (m : Nat) : Nat := (s.reg (Reg.safeMgPeriod m)).toNat
/-- The phase of a martingale. -/
def State.mgPhase (s : State) (m : Nat) : Nat := (s.reg (Reg.safeMgPhase m)).toNat
/-- The width of a martingale. -/
def State.mgWidth (s : State) (m : Nat) : Nat := (s.reg (Reg.safeMgWidth m)).toNat
/-- Martingale m counts. -/
def State.mgOn (s : State) (m : Nat) : Bool := s.bit (Reg.safeMgCfg m) 31 && s.mgPeriod m != 0

/-- After a backward step from tick t, a martingale waits until TIME_NOW again reaches the end of the window it was in; one
that already waits for a later tick goes on waiting for it (R397). -/
def holdMartingale (s : State) (t m : Nat) : State :=
  if s.mgOn m ∧ s.mgPhase m ≤ t then
    let k := (t - s.mgPhase m) / s.mgPeriod m
    let stop := s.mgPhase m + k * s.mgPeriod m + s.mgWidth m
    s.setMartingale m { s.martingale m with resumeAt := some (max stop ((s.martingale m).resumeAt.getD 0)) }
  else s

/-- A step of TIME_NOW by a signed count of ticks (R47), at once and whole (R48): forward; backward only while no rein and no FSYNC
output is enabled. -/
def stepTime (s : State) (d : Int) : State :=
  if d = 0 ∨ s.pins.porst then s
  else if 0 < d then
    let t := s.now + d.toNat
    let s := forUpTo 16 (fun n s => skipEdges s t n) s
    correctTime s t
  else if (List.range 256).any s.reinOn || (List.range 16).any (fun n => s.bit (Reg.timeFsyncCtrl n) 16) then
    (s.setBit Reg.timeStatus 0 true).raise { code := 0x0201, cls := 0 }
  else
    let old := s.now
    let s := { s with time := { s.time with now := unsignedOf ((s.now : Int) + d) 64, stepTo := 0 } }
    forUpTo 255 (fun i s => holdMartingale s old (i + 1)) s

/-- TIME_CTRL.step: the signed TIME_STEP applies at one CLK_FAST boundary (R47). -/
def execTimeStep (s : State) : Result := live s <|
  stepTime s (signedOf (s.reg64 Reg.timeStepLo Reg.timeStepHi) 64)

/-- Set TIME_NOW to a time in 1/256 tick: forward as a step forward, otherwise back without a management tick; the part
below a tick goes into the phase accumulator (R46, R47, R50). -/
def setTime (s : State) (t256 : Nat) : State :=
  let t := t256 / 256
  let s := if s.now < t then correctTime (forUpTo 16 (fun n s => skipEdges s t n) s) t
    else if t = s.now then s
    else
      let old := s.now
      let s := { s with time := { s.time with now := t, stepTo := 0 } }
      forUpTo 255 (fun i s => holdMartingale s old (i + 1)) s
  { s with time := { s.time with phase := t256 % 256 * 2 ^ 32 } }

/-- The limit of TIME_RATE_ADJ (R46). -/
def rateLimit : Int := 219902326

/-- Write TIME_RATE_ADJ, clamped (R46). -/
def writeRate (s : State) (v : Word) : State :=
  let r := signedOf v.toNat 32
  let c := if r < -rateLimit then -rateLimit else if rateLimit < r then rateLimit else r
  s.setReg Reg.timeRateAdj (BitVec.ofNat 32 (unsignedOf c 32))

/-- A write to TIME_RATE_ADJ (R46). -/
def execTimeRateAdjWrite (value : Word) (s : State) : Result := live s <| writeRate s value

/-- A gPTP event message is timestamped at the MAC boundary for the servo (R49); the timestamp goes to the firmware. -/
def execGptpEventMessageRx (port tick : Nat) (s : State) : Result := live s <|
  withUnit s 4 port fun s port => s.emit (.gptpStamp port tick)

/-- FSYNC output n fires its next edge (R51). -/
def execFsyncEdge (n : Nat) (s : State) : Result := live s <| withUnit s 16 n fun s n => fireEdge s n

/-- The pulse of FSYNC output n ends (R51). -/
def execFsyncPulseEnd (n : Nat) (s : State) : Result := live s <| withUnit s 16 n fun s n => endPulse s n

end Sys2Proof.Machine
end

