-- ==== Sys2Proof/Machine/Martingale.lean ====
section
/-! DEFINITION. Martingales (R394 to R397): check-ins, window ends and restarts. -/

namespace Sys2Proof.Machine

/-- The event of a martingale cause, with the martingale's reaction class (R394, R396). -/
def mgEvent (s : State) (m code info : Nat) : Event :=
  let reaction := s.bits (Reg.safeMgCfg m) 30 29
  { code := code, cls := 2 + min reaction 2, inst := m, info := some (info % 2 ^ 64)
    field := if reaction = 1 then some (s.bits (Reg.safeMgCfg m) 28 26) else none }

/-- Raise a cause and set its flag in SAFE_MG_STATUS. -/
def mgRaise (s : State) (m code flag info : Nat) : State :=
  (s.setBit (Reg.safeMgStatus m) flag true).raise (mgEvent s m code info)

/-- The index of the last window that has opened by tick t. -/
def State.mgWindow (s : State) (m t : Nat) : Nat := (t - s.mgPhase m) / s.mgPeriod m

/-- Tick t lies inside a window, ends included (R396). -/
def State.mgInside (s : State) (m t : Nat) : Bool :=
  s.mgPhase m ≤ t && (t - s.mgPhase m) % s.mgPeriod m ≤ s.mgWidth m

/-- The tick of the end of window k. -/
def State.mgEnd (s : State) (m k : Nat) : Nat := s.mgPhase m + k * s.mgPeriod m + s.mgWidth m

/-- Evaluate the end of the next window: a count below n_min raises 0x0A10; the count starts again at 0 (R396). -/
def closeWindow (s : State) (m : Nat) : State :=
  let x := s.martingale m
  let s := if s.bits (Reg.safeMgStatus m) 3 0 < s.bits (Reg.safeMgCfg m) 7 4 then
      mgRaise s m 0x0A10 31 x.evaluated
    else s
  let s := s.setBits (Reg.safeMgStatus m) 3 0 0
  s.setMartingale m { x with evaluated := x.evaluated + 1, resumeAt := none }

/-- Evaluate every window below k whose end has not been evaluated. -/
def closeUpTo (s : State) (m k : Nat) : State :=
  forUpTo (k - (s.martingale m).evaluated) (fun _ s => closeWindow s m) s

/-- Counting is held off: the first counted window has not opened, or TIME_NOW has not again passed the end of the
window a backward step left (R397). -/
def State.mgMuted (s : State) (m t : Nat) : Bool :=
  let x := s.martingale m
  t < s.mgPhase m + x.firstWindow * s.mgPeriod m ||
    (match x.resumeAt with
     | some r => t ≤ r
     | none => false)

/-- The age check of a check-in with capture tick c (R396). -/
def checkAge (s : State) (m t : Nat) (c : Option Nat) : State :=
  match c with
  | none => s
  | some c =>
    let age := (t + 2 ^ 64 - c) % 2 ^ 64
    let s := s.setReg (Reg.safeMgLastAge m) (BitVec.ofNat 32 (min age 0xFFFFFFFF))
    let limit := (s.reg (Reg.safeMgAge m)).toNat
    if limit ≠ 0 ∧ limit * 6400 < age then mgRaise s m 0x0A12 29 age else s

/-- The count of a check-in inside window k (R396). -/
def countIn (s : State) (m k : Nat) : State :=
  let s := closeUpTo s m k
  let n := s.bits (Reg.safeMgStatus m) 3 0
  let s := if s.bits (Reg.safeMgCfg m) 3 0 ≤ n then mgRaise s m 0x0A13 28 k else s
  s.setBits (Reg.safeMgStatus m) 3 0 (min (n + 1) 15)

/-- A check-in of martingale m at tick t with capture tick c (R395, R396). -/
def checkIn (s : State) (m t : Nat) (c : Option Nat) : State :=
  if !s.mgOn m then s
  else
    let s := checkAge s m t c
    if s.mgMuted m t then s
    else if s.mgInside m t then countIn s m (s.mgWindow m t)
    else mgRaise s m 0x0A11 30 (s.mgWindow m t)

/-- The martingales of a source kind and index that count (R394). -/
def State.mgOf (s : State) (kind index : Nat) : List Nat :=
  ((List.range 255).map (· + 1)).filter fun m =>
    s.mgOn m && s.bits (Reg.safeMgCfg m) 25 24 == kind && s.bits (Reg.safeMgCfg m) 23 16 == index

/-- A check-in of every martingale of a source (R395). -/
def checkInAll (s : State) (kind index t : Nat) (c : Option Nat) : State :=
  (s.mgOf kind index).foldl (fun s m => checkIn s m t c) s

/-- A Furrow task of stage m checks in when the martingale watches tasks (R395). -/
def checkInTask (s : State) (m t : Nat) (c : Option Nat) : State :=
  if m ≠ 0 ∧ s.bits (Reg.safeMgCfg m) 25 24 = 0 then checkIn s m t c else s

/-- An enable, or new timing of a martingale that stays enabled: the open window is discarded and counting starts with
the first window that opens at or after this tick (R397). -/
def restartMartingale (s : State) (m : Nat) : State :=
  let k := if s.now ≤ s.mgPhase m then 0 else ceilDiv (s.now - s.mgPhase m) (s.mgPeriod m)
  (s.setBits (Reg.safeMgStatus m) 3 0 0).setMartingale m { firstWindow := k, evaluated := k, resumeAt := none }

/-- TIME_NOW passes the end of a martingale's next window (R396). -/
def endWindow (s : State) (m : Nat) : State :=
  if s.mgOn m then closeWindow (runUntil s (s.mgEnd m (s.martingale m).evaluated + 1)) m else s

/-- TIME_NOW passes a window's end (R396). -/
def execMartingaleWindowEnd (m : Nat) (s : State) : Result := live s <| withUnit s 255 (if m = 0 then 255 else m - 1) fun s k => endWindow s (k + 1)

end Sys2Proof.Machine
end

