-- ==== Sys2Proof/Machine/Rein.lean ====
section
/-! DEFINITION. The Rein engine (spec 12_rein_engine.md): sources, the mailbox, triggers, the law, Curb and release. Its
formats are those of R304 (R11), its fault codes those of R335, and a rein that no harness has set is off (R303). -/

namespace Sys2Proof.Machine

/-- Rein n besides its registers. -/
def State.reinRec (s : State) (n : Nat) : Rein := mapGet {} s.rein.reins n

/-- Replace rein n. -/
def State.setRein (s : State) (n : Nat) (r : Rein) : State :=
  { s with rein := { s.rein with reins := mapSet {} s.rein.reins n r } }

/-- Port p's sample bank. -/
def State.bank (s : State) (p : Nat) : SampleBank := mapGet {} s.rein.banks p

/-- Replace port p's sample bank. -/
def State.setBank (s : State) (p : Nat) (b : SampleBank) : State :=
  { s with rein := { s.rein with banks := mapSet {} s.rein.banks p b } }

/-- Bridle receive object o. -/
def State.object (s : State) (o : Nat) : BridleObject := mapGet {} s.objects o

/-- Replace Bridle receive object o. -/
def State.setObject (s : State) (o : Nat) (x : BridleObject) : State :=
  { s with objects := mapSet {} s.objects o x }

/-- The state a rein runs in: 0 off, 1 manual, 2 automatic, 3 Curb, 4 safe. -/
def State.reinState (s : State) (n : Nat) : Nat := s.bits (Reg.reinChStatus n) 31 29

/-- A signed 32-bit register. -/
def State.sreg (s : State) (a : Nat) : Int := signedOf (s.reg a).toNat 32

/-- Write a rein's state and keep REIN_STATUS.active (the reins not off). -/
def setReinState (s : State) (n st : Nat) : State :=
  let old := s.reinState n
  let s := s.setBits (Reg.reinChStatus n) 31 29 st
  let act := s.bits Reg.reinStatus 16 8
  if old = 0 ∧ st ≠ 0 then s.setBits Reg.reinStatus 16 8 (act + 1)
  else if old ≠ 0 ∧ st = 0 then s.setBits Reg.reinStatus 16 8 (act - 1)
  else s

/-! Triggers (R313 to R315). -/

/-- A rein becomes due at a trigger tick; on a pending rein the trigger is coalesced (R315). -/
def becomePending (s : State) (n tick : Nat) : State :=
  let r := s.reinRec n
  if r.pending then
    let s := s.setRein n { r with trig := tick }
    let s := s.setBit (Reg.reinChStatus n) 19 true
    (s.addSat (Reg.reinChCount n) 9 0).raise { code := 0x0705, cls := 0, inst := n }
  else s.setRein n { r with pending := true, trig := tick }

/-- The source register of a slot: 0 PV, 1 SP, 2 FF (REIN_CH_CTRL.trig_slot). -/
def srcReg (n slot : Nat) : Nat :=
  match slot with
  | 0 => Reg.reinChSrcPv n
  | 1 => Reg.reinChSrcSp n
  | _ => Reg.reinChSrcFf n

/-- The trigger slot of a rein reads a source. -/
def State.triggeredBy (s : State) (n kind index : Nat) : Bool :=
  let src := srcReg n (s.bits (Reg.reinChCtrl n) 28 27)
  s.reinOn n && s.bit (Reg.reinChCtrl n) 26 && s.bits src 31 29 == kind && s.bits src 27 17 == index

/-- A source is updated in this cycle: a latch sees its new value from the next cycle on (R316). Commands stand in the order of
time, so a latch commanded after an update is in a later cycle than it (DESIGN CHOICE, unsafe, log 13). -/
def noteUpdate (s : State) : State := { s with rein := { s.rein with updated := s.time.cycles + 1 } }

/-- An arrival at a source triggers the reins whose trigger slot reads it; it counts in the next cycle (R314). -/
def arrive (s : State) (kind index tick : Nat) : State :=
  ((List.range 256).filter fun n => s.triggeredBy n kind index).foldl (fun s n => becomePending s n tick) (noteUpdate s)

/-- The latest due tick of a periodic rein at or before TIME_NOW (R313): none before its first one. -/
def State.lastDue (s : State) (n : Nat) : Option Nat :=
  let p := 4 * s.bits (Reg.reinChPeriod n) 27 0
  let b := 4 * s.bits (Reg.reinChPhase n) 27 0
  if p = 0 then none
  else
    let off := b % p
    if s.now < off then none else some (s.now - (s.now - off) % p)

/-- The next due tick of a periodic rein at or after a tick. -/
def State.nextDue (s : State) (n t : Nat) : Nat :=
  let p := 4 * s.bits (Reg.reinChPeriod n) 27 0
  nextMultiple (4 * s.bits (Reg.reinChPhase n) 27 0 % p) p t

/-- A periodic rein's due tick is reached: where none has been reached since the last one, the clock runs to the next.
The trigger tick is the latest due tick passed (R313). -/
def periodicDue (s : State) (n : Nat) : State :=
  if s.reinOn n && !s.bit (Reg.reinChCtrl n) 26 && s.bits (Reg.reinChPeriod n) 27 0 != 0 then
    let s := runUntil s (s.nextDue n (s.reinRec n).dueFrom)
    match s.lastDue n with
    | some t =>
      if (s.reinRec n).dueFrom ≤ t then
        becomePending (s.setRein n { s.reinRec n with dueFrom := s.now + 1 }) n t
      else s
    | none => s
  else s

/-! Slots (R305 to R309). -/

/-- A latched slot: its Q1.31 value, whether it is stale or invalid, and its origin tick. -/
structure Latched where
  x      : Int
  stale  : Bool
  bad    : Bool
  origin : Option Nat
  deriving DecidableEq, Repr

/-- A slot is usable: valid and not stale (R308). -/
def Latched.usable (l : Latched) : Bool := !l.stale && !l.bad

/-- The Q1.31 value of the field that a source descriptor takes from a raw 64-bit value (R305, R306). -/
def fieldQ31 (desc raw : Nat) : Int :=
  let w := bitsOf desc 4 0 + 1
  let f := bitsOf raw (bitsOf desc 10 5 + w - 1) (bitsOf desc 10 5)
  if bitOf desc 28 then signedOf (f * 2 ^ (32 - w)) 32 else (f : Int) * 2 ^ (31 - w)

/-- The provenance tag's CRC (R297). -/
def tagOk (t : List Byte) : Bool := leAt t 28 4 == (crc32c (t.take 28)).toNat

/-- The capture tick of a provenance tag (R297). -/
def tagCapture (t : List Byte) : Nat := leAt t 8 8

/-- A mailbox slot's validity: written since harness load, value block and tag good (R307). -/
def State.mailboxGood (s : State) (m : Nat) : Bool :=
  let b := s.bytes (mailboxBase + 64 * m) 64
  mapGet false s.rein.written m && leAt b 28 4 == (crc32c (b.take 28)).toNat && tagOk (b.drop 32)

/-- The raw value, origin tick and validity of a source (R305, R307). `trig`: the slot triggers its rein. -/
def State.source (s : State) (n desc : Nat) (trig : Bool) : Nat × Option Nat × Bool :=
  let idx := bitsOf desc 27 17
  let sel := bitsOf desc 16 11
  match bitsOf desc 31 29 with
  | 1 => ((s.reg (Reg.reinChSpc n)).toNat, none, true)
  | 2 => (s.le (mailboxBase + 64 * idx + 4 * sel) 4, some (s.le (mailboxBase + 64 * idx + 40) 8), s.mailboxGood idx)
  | 3 =>
    let b := s.bank idx
    (((b.words[sel]?).getD 0).toNat, some b.arrival, b.valid && s.bit (Reg.tackStatus idx) 0)
  | 4 =>
    let o := s.object idx
    (leAt (o.data.take o.len) sel 8, some o.tick,
      o.valid && s.bits (Reg.brdlChStatus o.channel) 31 30 != 2 && !(trig && o.lost))
  | 5 => ((s.reg (Reg.reinChU idx)).toNat, some (s.reg64 (Reg.reinChOriginLo idx) (Reg.reinChOriginHi idx)),
      s.reinState idx != 0)
  | _ => (0, none, true)

/-- Latch a slot at tick t: 0 PV, 1 SP, 2 FF (R316). -/
def State.latchSlot (s : State) (n slot t : Nat) : Latched :=
  let desc := (s.reg (srcReg n slot)).toNat
  let trig := s.bit (Reg.reinChCtrl n) 26 && s.bits (Reg.reinChCtrl n) 28 27 == slot
  let (raw, origin, ok) := s.source n desc trig
  let limit := if slot = 0 then s.bits (Reg.reinChAge n) 31 16 * 64 else s.bits (Reg.reinChAge n) 15 0 * 6400
  let stale := match origin with
    | some o => limit != 0 && limit < (t + 2 ^ 64 - o) % 2 ^ 64
    | none => false
  { x := if bitsOf desc 31 29 = 0 then 0 else fieldQ31 desc raw, stale := stale, bad := !ok, origin := origin }

/-- The smallest origin tick among slots, or the latch tick where none has one (R309). -/
def originOf (t : Nat) (ls : List Latched) : Nat :=
  match ls.filterMap (·.origin) with
  | [] => t
  | o :: os => os.foldl min o

/-- A latch of a trigger slot that reads a Bridle object clears its NEW and LOST flags (R307, R357). -/
def clearTriggerObject (s : State) (n : Nat) : State :=
  let src := (s.reg (srcReg n (s.bits (Reg.reinChCtrl n) 28 27))).toNat
  if s.bit (Reg.reinChCtrl n) 26 ∧ bitsOf src 31 29 = 4 then
    let o := bitsOf src 27 17
    s.setObject o { s.object o with new := false, lost := false }
  else s

/-! The law (R319 to R321). -/

/-- Q1.31 to Q17.47. -/
def widen (x : Int) : Int := x * 2 ^ 16

/-- Rounding shift right of R319. -/
def shr (x : Int) (n : Nat) : Int := if n = 0 then x else (x + 2 ^ (n - 1)) / 2 ^ n

/-- Saturation to 64 bits of R319, and whether it changed the value. -/
def sat64 (x : Int) : Int × Bool :=
  let y := min (max x (-(2 ^ 63))) (2 ^ 63 - 1)
  (y, y != x)

/-- The clamp of R319. -/
def lim (x lo hi : Int) : Int := min (max x lo) hi

/-- The rate limit and final clamp of R319 and R325. -/
def limitOutput (s : State) (n : Nat) (u uPrev : Int) : Int :=
  let rate := s.sreg (Reg.reinChRate n)
  let u := if rate = 0 then u else lim u (uPrev - rate) (uPrev + rate)
  lim u (s.sreg (Reg.reinChUmin n)) (s.sreg (Reg.reinChUmax n))

/-- What one evaluation of the law gives (R319). -/
structure LawResult where
  i     : Int
  d     : Int
  u     : Int
  uRaw  : Int
  uC    : Int
  ov    : Bool
  deriving DecidableEq, Repr

/-- The law of R319 for a mode (true: manual), with the integrator's preset reference where the evaluation presets. -/
def law (s : State) (n : Nat) (manual : Bool) (preset : Option Int) (r y ff i dPrev yPrev uPrev : Int) : LawResult :=
  let kp := s.sreg (Reg.reinChKp n)
  let ki := s.sreg (Reg.reinChKi n)
  let kb := s.sreg (Reg.reinChKb n)
  let ka : Int := (s.reg (Reg.reinChKa n)).toNat
  let uMan := s.sreg (Reg.reinChManual n)
  let imin := widen (s.sreg (Reg.reinChImin n))
  let imax := widen (s.sreg (Reg.reinChImax n))
  let umin := widen (s.sreg (Reg.reinChUmin n))
  let umax := widen (s.sreg (Reg.reinChUmax n))
  let e := widen r - widen y
  let (p, o1) := sat64 (shr (kp * e) 24)
  let (d, o2) := sat64 (shr (ka * dPrev) 32 - shr (kb * (widen y - widen yPrev)) 24)
  let (di, o3) := sat64 (shr (ki * e) 24)
  let f := widen ff
  if manual then
    let (t, o4) := sat64 (widen uMan - p - d - f)
    let uC := lim (widen uMan) umin umax
    ⟨lim t imin imax, d, limitOutput s n (shr uC 16) uPrev, uC, uC, o1 || o2 || o3 || o4⟩
  else
    let (iNew, o4) := match preset with
      | some ref =>
        let (t, o) := sat64 (widen ref - p - d - f)
        (lim t imin imax, o)
      | none =>
        let (iTry, oa) := sat64 (i + di)
        let (uTry, ob) := sat64 (p + iTry + d + f)
        let hold := (umax < uTry && 0 < di) || (uTry < umin && di < 0)
        (lim (if hold then i else iTry) imin imax, oa || ob)
    let (uRaw, o5) := sat64 (p + iNew + d + f)
    let uC := lim uRaw umin umax
    ⟨iNew, d, limitOutput s n (shr uC 16) uPrev, uRaw, uC, o1 || o2 || o3 || o4 || o5⟩

/-- Consecutive margin excesses after an evaluation, and whether the output is implausible (R321). -/
def plausibility (s : State) (n : Nat) (l : LawResult) : Nat × Bool :=
  let margin := widen ((s.bits (Reg.reinChPlaus n) 23 0 : Int) * 128)
  let count := s.bits (Reg.reinChPlaus n) 31 24
  let run := if margin < (l.uRaw - l.uC).natAbs then min (s.bits (Reg.reinChStatus n) 7 0 + 1) 255 else 0
  (run, l.ov || (count != 0 && count ≤ run))

/-! Curb (R323 to R325). -/

/-- The target of a Curb state: 1 hi, 2 lo, otherwise the safe value. -/
def curbTarget (s : State) (n cs : Nat) : Int :=
  match cs with
  | 1 => signedOf (s.bits (Reg.reinChCurbOut n) 31 16) 16 * 2 ^ 16
  | 2 => signedOf (s.bits (Reg.reinChCurbOut n) 15 0) 16 * 2 ^ 16
  | _ => s.sreg (Reg.reinChSafe n)

/-- The Curb state on entry (R324). -/
def curbEntryState (s : State) (n : Nat) (ok : Bool) (e uPrev : Int) : Nat :=
  let h := widen (s.sreg (Reg.reinChCurbH n))
  if !ok then 0
  else if h < e then 1
  else if e < -h then 2
  else if (uPrev - curbTarget s n 1).natAbs ≤ (uPrev - curbTarget s n 2).natAbs then 1 else 2

/-- The Curb state after an evaluation's update (R325). -/
def curbUpdate (s : State) (n cs : Nat) (ok : Bool) (e : Int) : Nat :=
  let h := widen (s.sreg (Reg.reinChCurbH n))
  if !ok then cs else if h < e then 1 else if e < -h then 2 else cs

/-! One evaluation (R317). -/

/-- The F2 event of a Curb cause. -/
def curbEvents (n cause : Nat) : List Event :=
  if 1 ≤ cause ∧ cause ≤ 3 then [{ code := 0x0700 + cause, cls := 2, inst := n }] else []

/-- The evaluation in Curb, on entry or staying, with the latched slots (R324, R325). -/
def evalCurb (s : State) (n t trig : Nat) (entry : Bool) (cause : Nat) (sp pv ff : Latched) (ov : Bool)
    (plaus : Nat) : ReinEval :=
  let r := s.reinRec n
  let ok := sp.usable && pv.usable
  let e := widen sp.x - widen pv.x
  let cs0 := if entry then curbEntryState s n ok e r.uPrev else s.bits (Reg.reinChStatus n) 28 27
  let cs := curbUpdate s n cs0 ok e
  let u := limitOutput s n (curbTarget s n cs) r.uPrev
  { due := s.time.cycles + 6, state := 3, cs := cs, cause := cause
    bad := bval (!sp.usable) * 4 + bval (!pv.usable) * 2 + bval (!ff.usable)
    plaus := plaus, ov := ov, entry := entry
    i := r.i, dPrev := if ok then 0 else r.dPrev, yPrev := if ok then pv.x else r.yPrev, uPrev := u, u := u
    origin := originOf t [sp, pv, ff], trig := trig, offset := s.bits (Reg.reinChRelease n) 23 0
    events := if entry then curbEvents n cause else [] }

/-- The evaluation in safe: u_safe with no rate limit (R333). -/
def evalSafe (s : State) (n t trig : Nat) (sp pv ff : Latched) (events : List Event) : ReinEval :=
  let r := s.reinRec n
  let u := s.sreg (Reg.reinChSafe n)
  { due := s.time.cycles + 6, state := 4, cs := s.bits (Reg.reinChStatus n) 28 27, cause := 0
    bad := bval (!sp.usable) * 4 + bval (!pv.usable) * 2 + bval (!ff.usable)
    plaus := s.bits (Reg.reinChStatus n) 7 0, ov := false, entry := false
    i := r.i, dPrev := r.dPrev, yPrev := r.yPrev, uPrev := r.uPrev, u := u
    origin := originOf t [sp, pv, ff], trig := trig, offset := s.bits (Reg.reinChRelease n) 23 0, events := events }

/-- The evaluation in manual or automatic mode; in automatic mode a Curb entry condition turns it into Curb (R323). -/
def evalLaw (s : State) (n t trig : Nat) (manual : Bool) (preset : Option Int)
    (sp pv ff : Latched) : ReinEval :=
  let r := s.reinRec n
  let yPrev := if r.rest then pv.x else r.yPrev
  let dPrev := if r.rest then 0 else r.dPrev
  let l := law s n manual preset sp.x pv.x ff.x r.i dPrev yPrev r.uPrev
  let (run, implausible) :=
    if manual then (s.bits (Reg.reinChStatus n) 7 0, false)
    else
      let (run, implausible) := plausibility s n l
      (run, implausible && preset.isNone)
  let stale := sp.stale || pv.stale || ff.stale
  let bad := sp.bad || pv.bad || ff.bad
  let cause := if stale then 1 else if bad then 2 else if implausible then 3 else 0
  if !manual && cause != 0 then evalCurb s n t trig true cause sp pv ff l.ov run
  else
    { due := s.time.cycles + 6, state := if manual then 1 else 2, cs := s.bits (Reg.reinChStatus n) 28 27, cause := 0
      bad := bval (!sp.usable) * 4 + bval (!pv.usable) * 2 + bval (!ff.usable)
      plaus := run, ov := l.ov, entry := false
      i := l.i, dPrev := l.d, yPrev := pv.x, uPrev := l.u, u := l.u
      origin := originOf t [sp, pv, ff], trig := trig, offset := s.bits (Reg.reinChRelease n) 23 0, events := [] }

/-- What an issue finds: the state to evaluate in (0: off, no evaluation), a preset reference, and whether the state
words are reset (R320, R322, R333). -/
structure Entry where
  state  : Nat
  preset : Option Int := none
  fresh  : Bool := false
  cause  : Nat := 0
  deriving DecidableEq, Repr

/-- The row of R322 that applies at an issue of rein n. -/
def reinEntry (s : State) (n : Nat) : Entry :=
  let st := s.reinState n
  let mode := s.bits (Reg.reinChCtrl n) 1 0
  let uMan := s.sreg (Reg.reinChManual n)
  let fromOff : Entry :=
    match mode with
    | 1 => { state := 1, fresh := true }
    | 2 => { state := 2, fresh := true, preset := some uMan }
    | _ => { state := 0 }
  if s.bit Reg.safeStatus 2 then
    if st = 0 then { state := 0 }
    else if st = 4 then { state := 4 }
    else if s.bits (Reg.reinChCtrl n) 25 24 = 1 then { state := 3, cause := 4 }
    else { state := 4 }
  else
    match st with
    | 0 => fromOff
    | 1 => if mode = 0 then { state := 0 } else if mode = 2 then { state := 2, preset := some uMan } else { state := 1 }
    | 2 => if mode = 0 then { state := 0 } else if mode = 1 then { state := 1 } else { state := 2 }
    | 3 =>
      if (s.reinRec n).rearm then
        match mode with
        | 1 => { state := 1 }
        | 2 => { state := 2, preset := some (s.reinRec n).uPrev }
        | _ => { state := 0 }
      else { state := 3 }
    | _ => if (s.reinRec n).rearm then fromOff else { state := 4 }

/-- REIN_STATUS names the rein of the last state-word error (R332). -/
def noteWordError (s : State) (n : Nat) (m : Mark) : State :=
  match m with
  | .clean => s
  | .single => (s.setBit Reg.reinStatus 2 true).setBits Reg.reinStatus 31 24 n
  | _ => (s.setBit Reg.reinStatus 1 true).setBits Reg.reinStatus 31 24 n

/-- The events of a state-word error that an issue meets; one that has been recorded already is not recorded again (R332). -/
def wordEvents (n : Nat) (r : Rein) : List Event :=
  match r.bad with
  | .clean => []
  | .single => [{ code := 0x0708, cls := 1, inst := n }]
  | _ => if r.noted then [] else [{ code := 0x0709, cls := 2, inst := n }]

/-- The state words hold an uncorrectable error (R332). -/
def Rein.wordBad (r : Rein) : Bool := r.bad == .double || r.bad == .wrongAddress

/-- The evaluation of an issue at tick t, with its slots latched (R316, R322, R332). -/
def evaluation (s : State) (n t trig : Nat) (en : Entry) (bad : Bool) (sp pv ff : Latched) : ReinEval :=
  if bad || en.state = 4 then evalSafe s n t trig sp pv ff []
  else if en.state = 3 then
    evalCurb s n t trig (en.cause = 4 && s.reinState n != 3) (if en.cause = 4 then 4 else s.bits (Reg.reinChStatus n) 26 24)
      sp pv ff false (s.bits (Reg.reinChStatus n) 7 0)
  else evalLaw s n t trig (en.state = 1) en.preset sp pv ff

/-- Evaluate a rein at its issue (R316, R317): its state words are read, those of a fresh start set first, then the law, Curb or
safe. An uncorrectable state word takes the rein to safe whatever else the issue would do (R322). -/
def evaluate (s : State) (n t trig : Nat) : State :=
  let r := s.reinRec n
  let en := reinEntry s n
  let uMan := s.sreg (Reg.reinChManual n)
  let events := wordEvents n r
  let s := if r.wordBad && r.noted then s else noteWordError s n r.bad
  let q := { r with pending := false, lastIssue := some s.time.cycles, rearm := false, bad := .clean, noted := false }
  let q := if en.fresh then { q with i := 0, dPrev := 0, uPrev := uMan, rest := true } else q
  let s := s.setRein n q
  if en.state = 0 && !r.wordBad then
    events.foldl (fun s e => s.raise e) ((setReinState s n 0).setBits (Reg.reinChStatus n) 26 24 0)
  else
    let pv := s.latchSlot n 0 t
    let sp := s.latchSlot n 1 t
    let ff := s.latchSlot n 2 t
    let s := clearTriggerObject s n
    let ev := evaluation s n t trig en r.wordBad sp pv ff
    s.setRein n { s.reinRec n with eval := some { ev with events := ev.events ++ events }, rest := false }

/-- A rein may issue in cycle c: pending, 256 cycles past its previous issue, and not still in the pipeline (R315). -/
def State.mayIssue (s : State) (n c : Nat) : Bool :=
  let r := s.reinRec n
  r.pending && r.eval.isNone &&
    (match r.lastIssue with
     | some l => l + 256 ≤ c
     | none => true)

/-- The earliest cycle of an issue: after the last issue and the last update of a source. -/
def State.issueBase (s : State) : Nat :=
  max (max s.time.cycles s.rein.updated) (match s.rein.lastIssue with
    | some l => l + 1
    | none => 0)

/-- The earliest cycle in which rein n may issue once it is pending. -/
def State.ownCycle (s : State) (n : Nat) : Nat :=
  match (s.reinRec n).lastIssue with
  | some l => max s.issueBase (l + 256)
  | none => s.issueBase

/-- The earliest cycle in which some pending rein may issue. -/
def State.issueCycle (s : State) : Option Nat :=
  match (s.rein.reins.filter fun (_, r) => r.pending && r.eval.isNone).map fun (n, _) => s.ownCycle n with
  | [] => none
  | c :: cs => some (cs.foldl min c)

/-- The cycle of the next issue and the lowest-numbered pending rein allowed to issue in it (R315). -/
def State.nextIssue (s : State) : Option (Nat × Nat) :=
  if s.rein.silent then none
  else
    match s.issueCycle with
    | none => none
    | some c => ((s.rein.reins.map (·.1)).find? fun n => s.mayIssue n c).map fun n => (c, n)

/-- Rein n issues (R319). -/
def issueRein (s : State) (n : Nat) : State :=
  let s := { s with rein := { s.rein with lastIssue := some s.time.cycles } }
  evaluate s n s.now (s.reinRec n).trig

/-! The command (R317, R328 to R330). -/

/-- The field value that a destination encodes from u (R328). -/
def encodeField (dest : Nat) (u : Int) : Nat :=
  let w := bitsOf dest 4 0 + 1
  if bitOf dest 12 then
    unsignedOf (lim (shr u (32 - w)) (-(2 ^ (w - 1))) (2 ^ (w - 1) - 1)) w
  else if u < 0 then 0
  else if w = 32 then (2 * u).toNat % 2 ^ 32
  else (lim (shr u (31 - w)) 0 (2 ^ w - 1)).toNat

/-- The template of a rein (R408 REIN table 0): descriptor and 64 data bytes, or the word in bytes 0 to 7. -/
def State.template (s : State) (n : Nat) : List Byte := slice (s.entry 9 0 n) 8 80

/-- The bytes that a command sends: the template with the field replaced in its word or in data bytes 0 to 7 (R328). -/
def encodeCommand (s : State) (n : Nat) (u : Int) : List Byte :=
  let dest := (s.reg (Reg.reinChDest n)).toNat
  let t := s.template n
  let at_ := if bitsOf dest 31 30 = 1 then 0 else 16
  let lsb := bitsOf dest 11 6
  let word := withBits (leAt t at_ 8) (lsb + bitsOf dest 4 0) lsb (encodeField dest u)
  t.take at_ ++ leBytes 8 word ++ t.drop (at_ + 8)

/-- A rein's new command waits for its release tick; one that still waited is replaced (R329, R330). -/
def scheduleRelease (s : State) (n : Nat) (trig offset : Nat) (u : Int) : State :=
  let dest := (s.reg (Reg.reinChDest n)).toNat
  if bitsOf dest 31 30 = 0 ∨ s.rein.silent then s
  else
    let r := s.reinRec n
    let s := if r.release.isSome then
        let s := s.setBit (Reg.reinChStatus n) 19 true
        (s.addSat (Reg.reinChCount n) 9 0).raise { code := 0x0705, cls := 0, inst := n }
      else s
    let due := trig + offset
    let late := due < s.now + 8
    let s := if late then
        let s := s.setBit (Reg.reinChStatus n) 20 true
        (s.addSat (Reg.reinChCount n) 19 10).raise { code := 0x0704, cls := 0, inst := n }
      else s
    let rel : ReinRelease := { tick := max due s.now, late := late, dest := dest, data := encodeCommand s n u }
    s.setRein n { s.reinRec n with release := some rel }

/-- Cycle 6 of an evaluation: state written back, REIN_CH_U and REIN_CH_ORIGIN written, inner reins triggered, the
martingales checked in and the command scheduled (R314, R317, R329, R395). -/
def writeCommand (s : State) (n : Nat) : State :=
  match (s.reinRec n).eval with
  | none => s
  | some ev =>
    let s := runToCycle s ev.due
    let t := s.now
    let s := s.setRein n { s.reinRec n with
      eval := none, i := ev.i, dPrev := ev.dPrev, yPrev := ev.yPrev, uPrev := ev.uPrev }
    let s := setReinState s n ev.state
    let s := s.setBits (Reg.reinChStatus n) 28 27 ev.cs
    let s := s.setBits (Reg.reinChStatus n) 26 24 ev.cause
    let s := s.setBits (Reg.reinChStatus n) 23 21
      (bitsOf ev.bad 2 2 * 4 + bitsOf ev.bad 1 1 * 2 + bitsOf ev.bad 0 0)
    let s := s.setBits (Reg.reinChStatus n) 7 0 ev.plaus
    let s := if ev.ov then s.setBit (Reg.reinChStatus n) 17 true else s
    let s := if ev.entry then (s.setBit (Reg.reinChStatus n) 18 true).addSat (Reg.reinChCount n) 31 20 else s
    let s := ev.events.foldl (fun s e => s.raise e) s
    let s := s.setReg (Reg.reinChU n) (BitVec.ofNat 32 (unsignedOf ev.u 32))
    let s := s.setReg64 (Reg.reinChOriginLo n) (Reg.reinChOriginHi n) ev.origin
    let s := scheduleRelease s n ev.trig ev.offset ev.u
    let s := arrive s 5 n t
    checkInAll s 2 n t (some ev.origin)

/-! The mailbox (R311, R312). -/

/-- Whether a requester may write a mailbox slot (R312). -/
def State.mayMail (s : State) (r : Requester) (m : Nat) : Bool :=
  match r with
  | .reeve => true
  | .mgmt => true
  | .furrow n =>
    match s.fieldOf n with
    | some f => s.hasEntry 9 1 m && s.entryAt 9 1 m 1 1 == f
    | none => false
  | _ => false

/-- An accepted whole-slot write and its arrival (R312, R314). -/
def mailStore (s : State) (m : Nat) (data : List Byte) : State :=
  let s := s.store (mailboxBase + 64 * m) data
  let s := { s with rein := { s.rein with written := mapSet false s.rein.written m true } }
  arrive s 2 m s.now

/-- A mailbox write: the whole slot by an allowed requester, or dropped with F0 0x070A (R312). -/
def mailboxWrite (s : State) (r : Requester) (m off : Nat) (data : List Byte) : State :=
  if off = 0 ∧ data.length = 64 ∧ s.mayMail r m then mailStore s m data
  else s.raise { code := 0x070A, cls := 0, inst := m }

/-! Meanings. -/

/-- Six cycles after issue the command register is written (R317). -/
def execReinCommandWrite (n : Nat) (s : State) : Result := live s <| withUnit s 256 n fun s n => writeCommand s n

/-- REIN_CTRL.cnt_clear clears every REIN_CH_COUNT. -/
def execReinCntClear (s : State) : Result := live s <|
  forUpTo 256 (fun n s => s.setReg (Reg.reinChCount n) 0) s

end Sys2Proof.Machine
end

