-- ==== Sys2Proof/Machine/Tack.lean ====
section
/-! DEFINITION. Tack ports and chutes (spec 13_bridle_and_chutes.md R336 to R350). -/

namespace Sys2Proof.Machine

/-- Chute c's words and holding register. -/
def State.chute (s : State) (c : Nat) : Chute := mapGet {} s.chutes c

/-- Replace chute c and bring its hysteresis flag up to date: set at or above high, cleared at or below low, held in
between; TACK_STATUS.fc_out of a receive chute follows it in WATERMARK mode and is low in POLL mode (R349). -/
def State.setChute (s : State) (c : Nat) (x : Chute) : State :=
  let s := { s with chutes := mapSet {} s.chutes c x }
  let n := x.words.length
  let above :=
    if s.bits (Reg.chuteCfg c) 29 24 ≤ n then true
    else if n ≤ s.bits (Reg.chuteCfg c) 23 18 then false
    else s.bit (Reg.chuteStatus c) 6
  let s := s.setBit (Reg.chuteStatus c) 6 above
  if c % 2 = 0 then s.setBit (Reg.tackStatus (c / 2)) 2 (above && s.bit (Reg.chuteCfg c) 30) else s

/-- Tack port n's receiver. -/
def State.tackPort (s : State) (n : Nat) : TackPort := mapGet {} s.tacks n

/-- Replace Tack port n's receiver. -/
def State.setTack (s : State) (n : Nat) (x : TackPort) : State := { s with tacks := mapSet {} s.tacks n x }

/-- Some rein names a transmit chute as its destination: only the Rein engine writes it (R342). -/
def State.reinFeeds (s : State) (c : Nat) : Bool :=
  c % 2 == 1 && (List.range 256).any fun n => s.bits (Reg.reinChDest n) 31 26 == 16 + c / 2

/-- The chute is bound to the Rein engine: by its own setting, or as some rein's destination. -/
def State.chuteBound (s : State) (c : Nat) : Bool := s.bit (Reg.chuteCfg c) 31 || s.reinFeeds c

/-! The link CRC (R338). -/

/-- One bit into the link CRC register: polynomial 0x1021, no reflection. -/
def linkStep (c : BitVec 16) (b : Bool) : BitVec 16 :=
  let c' := c <<< 1
  if c.getLsbD 15 != b then c' ^^^ 0x1021#16 else c'

/-- The link CRC of a word: bits 1 to 67 of its frame in sending order (R337, R338). -/
def linkCrc (isFirst isLast reserved : Bool) (data : Word64) : BitVec 16 :=
  ([isFirst, isLast, reserved] ++ (List.range 64).map data.getLsbD).foldl linkStep 0xFFFF#16

/-! Word errors as words leave a chute (R348). -/

/-- The effects of checking one word that leaves chute c; true: the word is uncorrectable. -/
def checkWord (s : State) (c : Nat) (m : Mark) : State × Bool :=
  match m with
  | .clean => (s, false)
  | .single =>
    let s := (s.setBit (Reg.chuteStatus c) 30 true).addSat (Reg.chuteEcc c) 15 0
    (s.raise { code := 0x0901, cls := 1, inst := c }, false)
  | _ =>
    let s := (s.setBit (Reg.chuteStatus c) 31 true).addSat (Reg.chuteEcc c) 31 16
    (s.raise { code := 0x0902, cls := 2, inst := c }, true)

/-! Reception (R339, R340, R310). -/

/-- Port n's sample bank is invalid until the next good packet of the set length; its words stay (R310). -/
def loseBank (s : State) (n : Nat) : State := noteUpdate (s.setBank n { s.bank n with valid := false })

/-- The effects of checking words that leave chute c; true: one of them is uncorrectable. -/
def checkWords (s : State) (c : Nat) (ws : List ChuteWord) : State × Bool :=
  ws.foldl (fun (s, bad) w =>
    let (s, b) := checkWord s c w.mark
    (s, bad || b)) (s, false)

/-- The Rein engine drains a good packet of a bound chute into the sample bank: each word is checked as it leaves, and an
uncorrectable one marks the bank invalid (R310, R348). `tick`: the last word's timestamp. -/
def drainPacket (s : State) (n tick : Nat) : State :=
  let c := 2 * n
  let ws := (s.chute c).words
  let (s, bad) := checkWords (s.setChute c { s.chute c with words := [] }) c ws
  if ws.length ≠ s.bits (Reg.chuteCfg c) 3 0 then
    let s := loseBank s n
    let s := s.setBit (Reg.tackStatus n) 8 true
    s.raise { code := 0x090B, cls := 2, inst := n }
  else if bad then loseBank s n
  else
    let s := s.setBank n { words := ws.map (·.data), arrival := tick, valid := true }
    arrive s 3 n tick

/-- A good packet: its tick is recorded (R340), and it enters the receive chute whole or is dropped for lack of room (R339). -/
def acceptPacket (s : State) (n : Nat) (ws : List (Word64 × Nat)) : State :=
  let c := 2 * n
  let x := s.chute c
  let tick := (ws.getLast?.map (·.2)).getD s.now
  let s := s.setReg64 (Reg.tackRxTickLo n) (Reg.tackRxTickHi n) tick
  if 32 < x.words.length + ws.length then
    let s := (s.setBit (Reg.tackStatus n) 5 true).addSat (Reg.tackCount n) 15 0
    s.raise { code := 0x0905, cls := 2, inst := n }
  else
    let s := s.setChute c { x with words := x.words ++ ws.map fun w => { data := w.1 } }
    if s.chuteBound c then drainPacket s n tick else s

/-- A framing error: the staged words are discarded (R339). -/
def framingError (s : State) (n : Nat) : State :=
  let s := (s.setBit (Reg.tackStatus n) 7 true).addSat (Reg.tackCount n) 15 0
  let s := s.setTack n { staged := [], discard := true }
  s.raise { code := 0x0904, cls := 2, inst := n }

/-- A word that fails its CRC: the staged words are discarded and a bound bank is marked invalid (R310, R339). -/
def crcError (s : State) (n : Nat) : State :=
  let s := (s.setBit (Reg.tackStatus n) 6 true).addSat (Reg.tackCount n) 31 16
  let s := s.setTack n { staged := [], discard := true }
  let s := if s.chuteBound (2 * n) then loseBank s n else s
  s.raise { code := 0x0903, cls := 2, inst := n }

/-- One received word (R339). -/
def receiveWord (s : State) (n : Nat) (w : TackWord) : State :=
  let p := s.tackPort n
  if p.discard && !w.isFirst then s
  else if linkCrc w.isFirst w.isLast w.reserved w.data != w.crc then crcError s n
  else
    let s := if w.isFirst && !p.staged.isEmpty then framingError s n else s
    let staged := if w.isFirst then [] else p.staged
    if w.reserved || (!w.isFirst && staged.isEmpty) || staged.length == 8 then framingError s n
    else
      let ws := staged ++ [(w.data, w.tick)]
      if w.isLast then acceptPacket (s.setTack n { staged := [], discard := false }) n ws
      else s.setTack n { staged := ws, discard := false }

/-- The words of a packet reach an enabled receiver whose link is up (R339, R341). -/
def receivePacket (s : State) (n : Nat) (ws : List TackWord) : State :=
  if s.bit (Reg.tackCfg n) 1 && s.bit (Reg.tackStatus n) 0 then ws.foldl (fun s w => receiveWord s n w) s else s

/-! Transmission (R342). -/

/-- Send the words of a packet: each checked as it leaves its chute, an uncorrectable one with its CRC inverted (R348). -/
def sendWords (s : State) (c : Nat) : List ChuteWord → Nat → Nat → List (Word64 × Nat) → State × List (Word64 × Nat)
  | [], _, _, out => (s, out)
  | w :: ws, i, n, out =>
    let (s, bad) := checkWord s c w.mark
    let crc := linkCrc (i == 0) (i + 1 == n) false w.data
    sendWords s c ws (i + 1) n (out ++ [(w.data, (if bad then ~~~crc else crc).toNat)])

/-- The port may start a packet (R342, R375). -/
def State.mayTransmit (s : State) (n : Nat) : Bool :=
  let c := 2 * n + 1
  let l := s.bits (Reg.chuteCfg c) 3 0
  s.bit (Reg.tackCfg n) 0 && l != 0 && l ≤ (s.chute c).words.length &&
    !(s.bit (Reg.chuteCfg c) 30 && mapGet false s.pins.fcIn n) &&
    !(s.bit Reg.safeStatus 2 && !s.chuteBound c)

/-- An idle port sends one packet of L_tx words; the readback of the pad is compared (R342, R384). -/
def sendPacket (s : State) (n : Nat) (readbackOk : Bool) : State :=
  if s.mayTransmit n then
    let c := 2 * n + 1
    let x := s.chute c
    let l := s.bits (Reg.chuteCfg c) 3 0
    let (s, out) := sendWords s c (x.words.take l) 0 l []
    let s := s.setChute c { x with words := x.words.drop l }
    let s := s.emit (.tackPacket n out)
    s.raiseIf (!readbackOk) { code := 0x090A, cls := if s.chuteBound c then 4 else 2, inst := n }
  else s

/-! Links (R341). -/

/-- A Tack link goes down. -/
def tackDown (s : State) (n : Nat) : State :=
  if s.bit (Reg.tackStatus n) 0 then
    let s := (s.setBit (Reg.tackStatus n) 0 false).setBit (Reg.tackStatus n) 4 true
    let s := s.setTack n { s.tackPort n with staged := [] }
    s.raise { code := 0x0906, cls := 2, inst := n }
  else s

/-! Software access to chutes (R345 to R347). -/

/-- Underrun: a read or discard beyond the count. -/
def underrun (s : State) (c : Nat) : State :=
  (s.setBit (Reg.chuteStatus c) 29 true).raise { code := 0x0907, cls := 0, inst := c }

/-- A read of CHUTE_DATA_LO on a receive chute: the value, whether it is poisoned, and the state after (R345). -/
def popChute (s : State) (c : Nat) : Word × Bool × State :=
  if s.chuteBound c then (0, false, s.raise { code := 0x0908, cls := 0, inst := c })
  else
    let x := s.chute c
    match x.words with
    | [] => (0, false, underrun { s with latch := mapInsert s.latch (Reg.chuteDataHi c) 0 } c)
    | w :: ws =>
      let (s, bad) := checkWord (s.setChute c { x with words := ws }) c w.mark
      let s := { s with latch := mapInsert s.latch (Reg.chuteDataHi c) (w.data.extractLsb' 32 32) }
      (w.data.extractLsb' 0 32, bad, s)

/-- Remove n words from the head of a receive chute, each checked as it leaves; an excess is an underrun (R346, R348). -/
def discardWords (s : State) (c n : Nat) : State :=
  let x := s.chute c
  let t := (checkWords (s.setChute c { x with words := x.words.drop n }) c (x.words.take n)).1
  if x.words.length < n then underrun t c else t

/-- A push on a transmit chute, dropped when it is full or bound to the Rein engine (R347). -/
def pushChute (s : State) (c : Nat) (lo : Word) : State :=
  let x := s.chute c
  if s.chuteBound c || 32 ≤ x.words.length then
    (s.setBit (Reg.chuteStatus c) 28 true).raise { code := 0x0908, cls := 0, inst := c }
  else s.setChute c { x with words := x.words ++ [{ data := x.hold ++ lo }] }

/-- Load the holding register of a transmit chute (R347). -/
def holdChute (s : State) (c : Nat) (v : Word) : State := s.setChute c { s.chute c with hold := v }

/-! Meanings. -/

/-- A command on a receive chute, which has an even number. -/
def onReceiveChute (s : State) (c : Nat) (f : State → Nat → State) : State :=
  withUnit s 12 (if c % 2 = 0 then c / 2 else 12) fun s k => f s (2 * k)

/-- A command on a transmit chute, which has an odd number. -/
def onTransmitChute (s : State) (c : Nat) (f : State → Nat → State) : State :=
  withUnit s 12 (if c % 2 = 1 then c / 2 else 12) fun s k => f s (2 * k + 1)

/-- A received Tack packet (R339). -/
def execTackPacketRx (port : Nat) (words : List TackWord) (s : State) : Result := live s <|
  withUnit s 12 port fun s port => receivePacket s port words

/-- The input of a Tack port stays below 100 mV for 1 µs (R341). -/
def execTackLinkDown (port : Nat) (s : State) : Result := live s <| withUnit s 12 port fun s port => tackDown s port

/-- 1 µs of valid levels brings the link up (R341). -/
def execTackLinkUp (port : Nat) (s : State) : Result := live s <|
  withUnit s 12 port fun s port => s.setBit (Reg.tackStatus port) 0 true

/-- A port sends a packet (R342). -/
def execTackPacketTx (port : Nat) (readbackOk : Bool) (s : State) : Result := live s <|
  withUnit s 12 port fun s port => sendPacket s port readbackOk

/-- A write of CHUTE_DATA_HI on a transmit chute (R347). -/
def execChuteHoldWrite (c : Nat) (value : Word) (s : State) : Result := live s <|
  onTransmitChute s c fun s c => holdChute s c value

/-- A write of CHUTE_DATA_LO on a transmit chute (R347). -/
def execChutePush (c : Nat) (value : Word) (s : State) : Result := live s <|
  onTransmitChute s c fun s c => pushChute s c value

/-- CHUTE_DISCARD.n of a receive chute: how many words a value outside 1 to 32 removes R346 does not say, so a free value does (DESIGN
CHOICE, safe, log 92). -/
def execChuteDiscardN (c n : Nat) (s : State) : Result := live s <|
  onReceiveChute s c fun s c => withUnit s 32 (if n = 0 then 32 else n - 1) fun s k => discardWords s c (k + 1)

/-- CHUTE_DISCARD.all of a receive chute (R346). -/
def execChuteDiscardAll (c : Nat) (s : State) : Result := live s <|
  onReceiveChute s c fun s c => discardWords s c (s.chute c).words.length

/-- CHUTE_CTRL.cnt_clear clears every TACK_COUNT and CHUTE_ECC (R348). -/
def execChuteCntClear (s : State) : Result := live s <|
  forUpTo 24 (fun c s => s.setReg (Reg.chuteEcc c) 0)
    (forUpTo 12 (fun n s => s.setReg (Reg.tackCount n) 0) s)

end Sys2Proof.Machine
end

