-- ==== Sys2Proof/Machine/Bridle.lean ====
section
/-! DEFINITION. Bridle channels (spec 13_bridle_and_chutes.md R351 to R366) and the release of Rein commands (R329 to
R331). -/

namespace Sys2Proof.Machine

/-- Channel c's transmit FIFO, head first. -/
def State.fifo (s : State) (c : Nat) : List FifoEntry := mapGet [] s.fifos c

/-- Replace channel c's transmit FIFO. -/
def State.setFifo (s : State) (c : Nat) (l : List FifoEntry) : State := { s with fifos := mapSet [] s.fifos c l }

/-- BRDL_CH_CTRL.mode is normal. -/
def State.brdlNormal (s : State) (c : Nat) : Bool := s.bits (Reg.brdlChCtrl c) 1 0 == 1

/-- The channel is bus off or recovering: its FIFO waits. -/
def State.brdlOff (s : State) (c : Nat) : Bool := 2 ≤ s.bits (Reg.brdlChStatus c) 31 30

/-- The head entry is in transmission: a channel that can send transmits its head without pause (DESIGN CHOICE, unsafe,
log 14). -/
def State.sending (s : State) (c : Nat) : Bool := s.brdlNormal c && !s.brdlOff c && !(s.fifo c).isEmpty

/-- Set a flag of BRDL_CH_ERR. -/
def brdlFlag (s : State) (c i : Nat) : State := s.setBit (Reg.brdlChErr c) i true

/-- The kinds a channel enables: Classical, and CAN FD, and CAN XL (BRDL_CH_CTRL.proto). -/
def State.kindEnabled (s : State) (c kind : Nat) : Bool :=
  kind < 2 || (kind < 4 && 1 ≤ s.bits (Reg.brdlChCtrl c) 3 2) || (kind == 4 && 2 ≤ s.bits (Reg.brdlChCtrl c) 3 2)

/-! Error confinement (R353). -/

/-- Write the error counters and the state they give, with the entries of R353: error passive above 127, bus off above
255 transmit errors. -/
def setCounters (s : State) (c tec rcv : Nat) : State :=
  let old := s.bits (Reg.brdlChStatus c) 31 30
  let s := s.setBits (Reg.brdlChStatus c) 22 14 (min tec 511)
  let s := s.setBits (Reg.brdlChStatus c) 13 6 (min rcv 255)
  if 2 ≤ old then s
  else if 256 ≤ tec then
    let s := brdlFlag (s.setBits (Reg.brdlChStatus c) 31 30 2) c 31
    s.raise { code := 0x0805, cls := 2, inst := c }
  else if 128 ≤ tec ∨ 128 ≤ rcv then
    if old = 1 then s
    else
      let s := brdlFlag (s.setBits (Reg.brdlChStatus c) 31 30 1) c 30
      s.raise { code := 0x0804, cls := 0, inst := c }
  else s.setBits (Reg.brdlChStatus c) 31 30 0

/-- The counters after a good reception: the standard lowers the receive counter by one, and above 127 sets it to a value
from 119 to 127, which it leaves open (DESIGN CHOICE, unsafe, log 15). -/
def goodReception (s : State) (c : Nat) : State :=
  let tec := s.bits (Reg.brdlChStatus c) 22 14
  let rcv := s.bits (Reg.brdlChStatus c) 13 6
  if rcv = 0 then s
  else if 127 < rcv then
    let (v, s) := s.takeFree
    setCounters s c tec (119 + v.toNat % 9)
  else setCounters s c tec (rcv - 1)

/-! Reception (R354 to R357). -/

/-- The object that the acceptance table gives a frame's key on a channel (R354, R408 BRIDLE table 0). -/
def State.objectFor (s : State) (c : Nat) (f : CanFrame) : Option Nat :=
  (s.tables.find? fun (k, e) =>
    tableKey 10 0 0 ≤ k && k < tableKey 10 0 4096 && leAt e 1 1 == c && leAt e 2 1 == f.kind &&
      leAt e 4 4 == f.ident && (f.kind != 4 || leAt e 3 1 == f.vcid.toNat)).map fun (_, e) => leAt e 8 2

/-- Data bytes an object can hold (R354). -/
def objectSize (o : Nat) : Nat := if o < 1920 then 64 else 2048

/-- Store a matched frame in its object (R355 to R357). -/
def storeObject (s : State) (c o : Nat) (f : CanFrame) : State :=
  let x := s.object o
  let xl := f.kind == 4
  let s := s.setObject o
    { tick := f.tick, ident := BitVec.ofNat 32 (f.ident % 2 ^ 29 + f.kind * 2 ^ 29)
      af := if xl then f.af else 0, len := f.data.length, sdt := if xl then f.sdt else 0
      vcid := if xl then f.vcid else 0, new := true, lost := x.new, brs := f.brs, esi := f.esi, sec := f.sec
      valid := true, channel := c, seq := (x.seq + 1) % 65536, data := f.data }
  arrive s 4 o f.tick

/-- A valid received frame (R351, R354, R355). -/
def receiveFrame (s : State) (c : Nat) (f : CanFrame) : State :=
  if s.bits (Reg.brdlChCtrl c) 1 0 = 0 ∨ s.brdlOff c then s
  else
    let s := goodReception s c
    match if f.remote then none else s.objectFor c f with
    | none => s.addSat (Reg.brdlChCount c) 31 16
    | some o =>
      if objectSize o < f.data.length then (brdlFlag s c 28).raise { code := 0x0807, cls := 0, inst := c }
      else storeObject s c o f

/-- The 32 header bytes of an object (R356). -/
def BridleObject.header (o : BridleObject) : List Byte :=
  leBytes 8 o.tick ++ leBytes 4 o.ident.toNat ++ leBytes 4 o.af.toNat ++ leBytes 2 o.len ++ [o.sdt, o.vcid] ++
    leBytes 1 (bval o.new + 2 * bval o.lost + 4 * bval o.brs + 8 * bval o.esi + 16 * bval o.sec + 32 * bval o.valid) ++
    leBytes 1 o.channel ++ leBytes 2 o.seq ++ leBytes 8 0

/-! Transmission (R360 to R362). -/

/-- The frame that an entry's descriptor and data describe (R361). -/
def entryFrame (e : FifoEntry) : CanFrame :=
  let id := leAt e.desc 0 4
  { kind := id / 2 ^ 29, ident := id % 2 ^ 29, remote := false, af := BitVec.ofNat 32 (leAt e.desc 4 4)
    sdt := (e.desc[10]?).getD 0, vcid := (e.desc[11]?).getD 0, brs := bitOf (leAt e.desc 12 1) 0, esi := false
    sec := bitOf (leAt e.desc 12 1) 1, tick := 0, data := e.data.take (leAt e.desc 8 2) }

/-- Count one aborted entry (R362). -/
def countAborted (s : State) (c : Nat) : State :=
  ((brdlFlag s c 26).addSat (Reg.brdlChCount c) 15 0).raise { code := 0x0809, cls := 0, inst := c }

/-- An entry is checked as it leaves the FIFO (R366); true: it is uncorrectable. -/
def checkEntry (s : State) (c : Nat) (e : FifoEntry) : State × Bool :=
  match e.mark with
  | .clean => (s, false)
  | .single => ((brdlFlag s c 25).raise { code := 0x080B, cls := 1, inst := c }, false)
  | _ => ((brdlFlag s c 24).raise { code := 0x0803, cls := 2, inst := c }, true)

/-- The head leaves the FIFO without being sent: aborted and counted, or discarded (R362, R364). -/
def removeHead (s : State) (c : Nat) (e : FifoEntry) (rest : List FifoEntry) (counted : Bool) : State :=
  let s := (checkEntry (s.setFifo c rest) c e).1
  if counted then countAborted s c else s

/-- The end of an attempt that did not send the head: an entry to be aborted or dropped leaves now (R362, R364). -/
def endAttempt (s : State) (c : Nat) : State :=
  match s.fifo c with
  | e :: rest => if e.drop || e.abort then removeHead s c e rest (!e.drop) else s
  | [] => s

/-- The head frame is sent: SEC-DED as it leaves the FIFO, readback, BRDL_CH_TX_DONE (R360, R366, R384). -/
def frameSent (s : State) (c : Nat) (readbackOk : Bool) : State :=
  if !s.sending c then s
  else
    match s.fifo c with
    | [] => s
    | e :: rest =>
      match checkEntry (s.setFifo c rest) c e with
      | (s, true) => s
      | (s, false) =>
        let s := s.emit (.canFrame c (entryFrame e))
        let s := s.setBits (Reg.brdlChTxDone c) 31 16 (leAt e.desc 14 2)
        let s := s.addWrap (Reg.brdlChTxDone c) 15 0
        let s := setCounters s c (s.bits (Reg.brdlChStatus c) 22 14 - 1) (s.bits (Reg.brdlChStatus c) 13 6)
        s.raiseIf (!readbackOk) { code := 0x080A, cls := if e.rein then 4 else 2, inst := c }

/-- A frame error seen on the bus: the standard's increments, given by what was on the bus (R353). -/
def busError (s : State) (c : Nat) (transmitting : Bool) (tecUp recUp : Nat) : State :=
  if s.bits (Reg.brdlChCtrl c) 1 0 = 0 then s
  else
    let s := (brdlFlag s c 29).raise { code := 0x0806, cls := 0, inst := c }
    let s := setCounters s c (s.bits (Reg.brdlChStatus c) 22 14 + tecUp) (s.bits (Reg.brdlChStatus c) 13 6 + recUp)
    if transmitting then endAttempt s c else s

/-- The data lengths that may be sent: 0 to 8, up to 64 for CAN FD, 1 to 64 for CAN XL (R351). -/
def lengthOk (kind len : Nat) : Bool :=
  if kind < 2 then len ≤ 8 else if kind < 4 then len ≤ 64 else 1 ≤ len && len ≤ 64

/-- The stage of a channel (BRDL_CH_TX_STAGE). -/
def stageBase (c : Nat) : Nat := 0x5000081080 + 0x100 * c

/-- Post the staged descriptor and data, or refuse (R361). -/
def post (s : State) (c : Nat) : State :=
  let d := s.bytes (stageBase c) 16
  let kind := leAt d 0 4 / 2 ^ 29
  let len := leAt d 8 2
  if 64 ≤ (s.fifo c).length || !s.kindEnabled c kind || !lengthOk kind len || leAt d 13 1 != 0 ||
      leAt d 12 1 / 4 != 0 || !s.brdlNormal c || s.bit Reg.safeStatus 2 then
    (brdlFlag s c 27).raise { code := 0x0808, cls := 0, inst := c }
  else
    s.setFifo c (s.fifo c ++ [{ desc := d, data := s.bytes (stageBase c + 16) 64, rein := false }])

/-- BRDL_CH_CMD.abort_head (R362). -/
def abortHead (s : State) (c : Nat) : State :=
  match s.fifo c with
  | [] => s
  | e :: rest =>
    if s.sending c then s.setFifo c ({ e with abort := true } :: rest) else removeHead s c e rest true

/-- BRDL_CH_CMD.abort_all (R362). -/
def abortAll (s : State) (c : Nat) : State :=
  match s.fifo c with
  | [] => s
  | e :: rest =>
    let s := rest.foldl (fun s x => countAborted (checkEntry s c x).1 c) s
    abortHead (s.setFifo c [e]) c

/-- The safe-state frames of a channel, in order (R364, R408 BRIDLE table 1). -/
def State.safeFrames (s : State) (c : Nat) : List FifoEntry :=
  (List.range 4).filterMap fun k =>
    let e := s.entry 10 1 (4 * c + k)
    if e = [] then none else some { desc := slice e 8 16, data := slice e 24 64, rein := false }

/-- The reaction of a channel to device safe state (R364): its entries leave, an entry in transmission after its attempt, then its
safe-state frames queue. -/
def bridleSafe (s : State) (c : Nat) : State :=
  let now := if s.sending c then 1 else 0
  let kept := (s.fifo c).take now |>.map fun e => { e with drop := true }
  let t := ((s.fifo c).drop now).foldl (fun s e => (checkEntry s c e).1) s
  t.setFifo c (kept ++ s.safeFrames c)

/-! Release of Rein commands (R329, R330). -/

/-- A command leaves for its chute or FIFO; false: there is no room (R329, R330, R360). -/
def placeCommand (s : State) (n dest : Nat) (data : List Byte) : Bool × State :=
  let target := bitsOf dest 29 26
  if bitsOf dest 31 30 = 1 then
    let c := 2 * target + 1
    let x := s.chute c
    if 32 ≤ x.words.length then (false, s)
    else (true, s.setChute c { x with words := x.words ++ [{ data := BitVec.ofNat 64 (leAt data 0 8) }] })
  else if 64 ≤ (s.fifo target).length || !s.brdlNormal target then (false, s)
  else
    let desc := data.take 14 ++ leBytes 2 (0xFF00 + n)
    (true, s.setFifo target (s.fifo target ++ [{ desc := desc, data := slice data 16 64, rein := true }]))

/-- The tick at which a waiting command enters its chute or FIFO: the delay line of R44 places it at its release tick, or at the
value to which a forward correction carried TIME_NOW past it; a u_safe enters when it can be placed (R329 to R331). -/
def State.entryTick (s : State) (r : ReinRelease) : Nat := if r.safe then s.now else max r.tick s.time.stepTo

/-- The command of a rein enters its chute or FIFO, or is dropped when there is no room. A u_safe that cannot be placed yet goes
on waiting (R329 to R331). -/
def releaseOne (s : State) (n : Nat) (r : ReinRelease) : State :=
  let gone := s.setRein n { s.reinRec n with release := none }
  if s.rein.silent && !r.safe then gone
  else
    match placeCommand gone n r.dest r.data with
    | (true, s) =>
      s.setReg64 (Reg.reinChRelTickLo n) (Reg.reinChRelTickHi n) (s.entryTick r)
    | (false, t) => if r.safe then s else t.raise { code := 0x0706, cls := 2, inst := n }

/-- Insert a waiting command by its release tick, after those of the same tick. -/
def insertRelease (x : Nat × ReinRelease) : List (Nat × ReinRelease) → List (Nat × ReinRelease)
  | [] => [x]
  | y :: ys => if x.2.tick < y.2.tick then x :: y :: ys else y :: insertRelease x ys

/-- The commands to a destination that enter it before rein n's: earlier ticks first, those of one tick in ascending rein number
(R329). -/
def State.releasesBefore (s : State) (n : Nat) (r : ReinRelease) : List (Nat × ReinRelease) :=
  (s.rein.reins.filterMap fun (m, x) =>
    x.release.bind fun q =>
      if m != n && bitsOf q.dest 31 26 == bitsOf r.dest 31 26 && (q.tick < r.tick || (q.tick == r.tick && m < n)) then some (m, q)
      else none).foldl (fun l x => insertRelease x l) []

/-- At its release tick a rein's command enters its chute or FIFO, after those that enter it before (R329, R330). -/
def releaseCommand (s : State) (n : Nat) : State :=
  match (s.reinRec n).release with
  | none => s
  | some r =>
    let s := runUntil s r.tick
    releaseOne ((s.releasesBefore n r).foldl (fun s (m, q) => releaseOne s m q) s) n r

/-- The safety controller loads a rein that is not off and has a destination with u_safe, and releases it at the first tick it can
place it. The evaluation that the failed pipeline holds is discarded with its command register, a rein that was leaving off stays off
(R331; DESIGN CHOICE, unsafe, log 88, for an evaluation whose cycle 6 lies after the mismatch). -/
def releaseSafe (s : State) (n : Nat) : State :=
  let dest := (s.reg (Reg.reinChDest n)).toNat
  let s := s.setRein n { s.reinRec n with eval := none, pending := false }
  if s.reinState n = 0 then s
  else
    let s := setReinState s n 4
    let s := s.setRein n { s.reinRec n with release := none }
    if bitsOf dest 31 30 = 0 then s
    else
      let u := s.sreg (Reg.reinChSafe n)
      let s := s.setReg (Reg.reinChU n) (BitVec.ofNat 32 (unsignedOf u 32))
      let r : ReinRelease := { tick := s.now, late := false, dest := dest, data := encodeCommand s n u, safe := true }
      releaseOne (s.setRein n { s.reinRec n with release := some r }) n r

/-- A Rein lockstep mismatch (R331): F4 0x0707, u_safe once for every rein not off, then the engine is silent. -/
def reinMismatch (s : State) : State :=
  if s.rein.silent then s
  else
    let s := s.setBit Reg.reinStatus 0 true
    let s := forUpTo 256 (fun n s => releaseSafe s n) s
    let s := { s with rein := { s.rein with silent := true } }
    s.raise { code := 0x0707, cls := 4 }

/-! Meanings. -/

/-- At its release tick a command leaves (R329). -/
def execReinCommandRelease (n : Nat) (s : State) : Result := live s <| withUnit s 256 n fun s n => releaseCommand s n

/-- A Rein lockstep mismatch (R331). -/
def execReinLockstepMismatch (s : State) : Result := live s <| reinMismatch s

/-- A valid received CAN frame (R355). -/
def execCanFrameRx (channel : Nat) (frame : CanFrame) (s : State) : Result := live s <|
  withUnit s 8 channel fun s channel => receiveFrame s channel frame

/-- The head frame is sent (R360). -/
def execCanFrameTxDone (channel : Nat) (readbackOk : Bool) (s : State) : Result := live s <|
  withUnit s 8 channel fun s channel => frameSent s channel readbackOk

/-- The head entry loses arbitration and is retried; one to be aborted leaves (R360, R362). -/
def execCanArbitrationLoss (channel : Nat) (s : State) : Result := live s <|
  withUnit s 8 channel fun s channel => if s.sending channel then endAttempt s channel else s

/-- A frame error on the bus (R353). -/
def execCanBusError (channel : Nat) (transmitting : Bool) (tecUp recUp : Nat) (s : State) : Result := live s <|
  withUnit s 8 channel fun s channel => busError s channel transmitting tecUp recUp

/-- BRDL_CH_CMD.post (R361). -/
def execBrdlPost (channel : Nat) (s : State) : Result := live s <| withUnit s 8 channel fun s channel => post s channel

/-- BRDL_CH_CMD.abort_head (R362). -/
def execBrdlAbortHead (channel : Nat) (s : State) : Result := live s <| withUnit s 8 channel fun s channel =>
  abortHead s channel

/-- BRDL_CH_CMD.abort_all (R362). -/
def execBrdlAbortAll (channel : Nat) (s : State) : Result := live s <| withUnit s 8 channel fun s channel =>
  abortAll s channel

/-- BRDL_CH_CMD.recover starts the recovery of a bus-off channel (R353). -/
def recoverChannel (s : State) (c : Nat) : State :=
  if s.bits (Reg.brdlChStatus c) 31 30 = 2 then s.setBits (Reg.brdlChStatus c) 31 30 3 else s

/-- BRDL_CH_CMD.recover (R353). -/
def execBrdlRecover (channel : Nat) (s : State) : Result := live s <| withUnit s 8 channel fun s channel =>
  recoverChannel s channel

/-- 128 occurrences of 11 recessive bits: the channel is error active again, its counters at 0 (R353). -/
def finishRecovery (s : State) (c : Nat) : State :=
  if s.bits (Reg.brdlChStatus c) 31 30 = 3 then
    ((s.setBits (Reg.brdlChStatus c) 31 30 0).setBits (Reg.brdlChStatus c) 22 14 0).setBits (Reg.brdlChStatus c) 13 6 0
  else s

/-- Bus-off recovery is done (R353). -/
def execBusOffRecoveryDone (channel : Nat) (s : State) : Result := live s <| withUnit s 8 channel fun s channel =>
  finishRecovery s channel

/-- Clear NEW and LOST of an object (R357). -/
def ackObject (s : State) (o : Nat) : State := s.setObject o { s.object o with new := false, lost := false }

/-- A write to BRDL_OBJ_ACK (R357). -/
def execBrdlObjAck (object : Nat) (s : State) : Result := live s <| withUnit s 2048 object fun s object =>
  ackObject s object

/-- BRDL_CTRL.cnt_clear clears every BRDL_CH_COUNT (R362). -/
def execBrdlCntClear (s : State) : Result := live s <| forUpTo 8 (fun c s => s.setReg (Reg.brdlChCount c) 0) s

end Sys2Proof.Machine
end

