-- ==== Sys2Proof/Machine/ChainLink.lean ====
section
/-! DEFINITION. Sending on the Trace chain (R452 to R455), reports of a peer to be fenced (R241), and notices (R242). -/

namespace Sys2Proof.Machine

/-- An address is held. -/
def State.addressed (s : State) : Bool := s.bit Reg.reeveChain 31

/-- This chip's Trace chain address, which is its chip ID (R224). -/
def State.chipId (s : State) : Nat := s.bits Reg.reeveChain 3 0

/-- The bytes of a chain frame after its comma (R453). -/
def chainBytes (kind src dst : Nat) (payload : List Byte) : List Byte :=
  let b := leBytes 1 kind ++ leBytes 1 src ++ leBytes 1 dst ++ leBytes 1 payload.length ++ payload
  b ++ leBytes 4 (crc32c b).toNat

/-- Put a frame on one link, if it is up. -/
def chainOn (s : State) (up : Bool) (bytes : List Byte) : State :=
  if s.bit Reg.reeveChain (if up then 27 else 26) then s.emit (.chainFrame up bytes) else s

/-- The source byte of this chip's frames. -/
def State.chainSrc (s : State) : Nat := if s.addressed then s.chipId else 16

/-- Broadcast a message in both directions. -/
def chainBroadcast (s : State) (kind : Nat) (payload : List Byte) : State :=
  let b := chainBytes kind s.chainSrc 16 payload
  chainOn (chainOn s true b) false b

/-- Send a message towards one address: lower addresses lie upstream. A chip without an address does not know on which side the
destination lies and sends on both links (DESIGN CHOICE, unsafe, log 24). -/
def chainUnicast (s : State) (kind dst : Nat) (payload : List Byte) : State :=
  let b := chainBytes kind s.chainSrc dst payload
  if !s.addressed then chainOn (chainOn s true b) false b
  else if dst = s.chipId then s else chainOn s (dst < s.chipId) b

/-- Send a link-local message. -/
def chainLocal (s : State) (up : Bool) (kind : Nat) (payload : List Byte) : State :=
  chainOn s up (chainBytes kind s.chainSrc 32 payload)

/-- Schedule a fence for the next management tick (R242). -/
def fenceDue (s : State) (p : Nat) : State :=
  { s with chain := { s.chain with due := mapSet none s.chain.due p (some (s.tickNumber + 1)) } }

/-- A peer of the unit that is not fenced. -/
def State.livePeer (s : State) (p : Nat) : Bool :=
  p != s.chipId && s.bit (Reg.drovePeer p) 0 && !s.bit (Reg.drovePeer p) 2

/-- The chain head takes a report: its notice is due at the next management tick after the first report (R242). -/
def headReport (s : State) (p : Nat) : State :=
  if s.chain.reports.contains p ∨ s.chain.noticed.contains p ∨ s.bit (Reg.drovePeer p) 2 then s
  else { s with chain := { s.chain with reports := s.chain.reports ++ [p] } }

/-- Report a peer for fencing (R241); a chip whose chain is down, the head's downstream link or another chip's upstream one,
applies its own report at the next management tick (R242). -/
def reportFence (s : State) (p : Nat) : State :=
  if !s.livePeer p then s
  else if s.addressed && s.chipId == 0 && s.bit Reg.reeveChain 26 then headReport s p
  else if s.addressed && s.chipId != 0 && s.bit Reg.reeveChain 27 then chainUnicast s 0x05 0 (leBytes 1 p)
  else fenceDue s p

/-- The Fields that own a receive buffer (R236). -/
def State.bufferOwners (s : State) : List Nat :=
  (List.range 8).filter fun f => (List.range 1024).any fun x => s.hasEntry 0xD 2 x && s.entryAt 0xD 2 x 1 1 == f

/-- A notice that names this chip: every Field that owns a receive buffer stops, with an F3 entry (R242). The entry's
instance index has no rule for this cause: a free value (DESIGN CHOICE, safe, log 6). -/
def fencedSelf (s : State) : State :=
  let (v, s) := s.takeFree
  let s := s.raise { code := 0x060A, cls := 3, inst := v.toNat % 65536 }
  s.bufferOwners.foldl (fun s f => stopField s f 0x060A) s

/-- A fence notice for chip p (R242). -/
def takeNotice (s : State) (p : Nat) : State := if p = s.chipId then fencedSelf s else fenceDue s p

/-- The chain head's notices at a management tick (R242). -/
def sendNotices (s : State) : State :=
  let ps := s.chain.reports
  let s := { s with chain := { s.chain with reports := [], noticed := s.chain.noticed ++ ps } }
  ps.foldl (fun s p => takeNotice (chainBroadcast s 0x06 (leBytes 1 p)) p) s

end Sys2Proof.Machine
end

