-- ==== Sys2Proof/Machine/Droveway.lean ====
section
/-! DEFINITION. The Droveway (spec 09_droveway.md): messages, streams, retransmission, receive buffers, fencing. A frame
that is none of R227 is dropped and counted, a PAUSE frame among them (R223). -/

namespace Sys2Proof.Machine

/-! Records. -/

/-- The stream of port q and peer p. -/
def State.stream (s : State) (q p : Nat) : Stream := mapGet {} s.drove.streams (16 * q + p)

/-- Replace a stream. -/
def State.setStream (s : State) (q p : Nat) (t : Stream) : State :=
  { s with drove := { s.drove with streams := mapSet {} s.drove.streams (16 * q + p) t } }

/-- Port q. -/
def State.drovePort (s : State) (q : Nat) : DrovePort := mapGet {} s.drove.ports q

/-- Replace port q. -/
def State.setPort (s : State) (q : Nat) (x : DrovePort) : State :=
  { s with drove := { s.drove with ports := mapSet {} s.drove.ports q x } }

/-- Peer p. -/
def State.drovePeer (s : State) (p : Nat) : DrovePeer := mapGet {} s.drove.peers p

/-- Replace peer p. -/
def State.setPeer (s : State) (p : Nat) (x : DrovePeer) : State :=
  { s with drove := { s.drove with peers := mapSet {} s.drove.peers p x } }

/-- Receive buffer x. -/
def State.rxBuffer (s : State) (x : Nat) : RxBuffer := mapGet {} s.drove.buffers x

/-- Replace receive buffer x. -/
def State.setRxBuffer (s : State) (x : Nat) (b : RxBuffer) : State :=
  { s with drove := { s.drove with buffers := mapSet {} s.drove.buffers x b } }

/-- A message group. -/
def State.group (s : State) (g : Nat) : MsgGroup := mapGet {} s.drove.groups g

/-- Replace a message group. -/
def State.setGroup (s : State) (g : Nat) (x : MsgGroup) : State :=
  { s with drove := { s.drove with groups := mapSet {} s.drove.groups g x } }

/-- A new message group. -/
def newGroup (s : State) : Nat × State :=
  (s.drove.nextGroup, { s with drove := { s.drove with nextGroup := s.drove.nextGroup + 1 } })

/-- The stream of port q to peer p is open on its sending side. -/
def State.streamUp (s : State) (q p : Nat) : Bool := s.bit (Reg.drovePortStatus q) (4 + p)

/-- Show a stream as open or not, in both registers that show it. -/
def setStreamUp (s : State) (q p : Nat) (b : Bool) : State :=
  (s.setBit (Reg.drovePortStatus q) (4 + p) b).setBit (Reg.drovePeer p) (4 + q) b

/-- DROVE_RTO in ticks (R233): values below 6,400 act as 6,400. -/
def State.rto (s : State) : Nat := max 6400 (s.bits Reg.droveRto 23 0)

/-- The maximum payload (R227, DROVEWAY table 0). -/
def State.maxPayload (s : State) : Nat := 1024 * 2 ^ (s.entryAt 0xD 0 0 2 1 % 4)

/-- A peer is marked fenced. -/
def State.isFenced (s : State) (p : Nat) : Bool := s.bit (Reg.drovePeer p) 2

/-- The chips of the unit: this one and the members. -/
def State.inUnit (s : State) (p : Nat) : Bool := p == s.chipId || s.bit (Reg.drovePeer p) 0

/-! Frames (R227, R228). -/

/-- The 32-byte header. -/
def droveHeader (kind src dst seq msgId flags reason len buffer round offset aux aux2 : Nat) : List Byte :=
  leBytes 1 1 ++ leBytes 1 kind ++ leBytes 1 src ++ leBytes 1 dst ++ leBytes 4 seq ++ leBytes 4 msgId ++
    leBytes 1 flags ++ leBytes 1 reason ++ leBytes 2 len ++ leBytes 2 buffer ++ leBytes 2 round ++
    leBytes 4 offset ++ leBytes 4 aux ++ leBytes 4 aux2

/-- The EtherType of the frames: the harness-set one, 0x88B5 where no harness has set it (R227). -/
def State.etherType (s : State) : Nat := if s.hasEntry 0xD 0 0 then s.entryAt 0xD 0 0 6 2 else 0x88B5

/-- A frame from port q to peer p around header, tag and payload, without the FCS. -/
def frameAround (s : State) (q p : Nat) (body pad : List Byte) : List Byte :=
  let own := s.entry 0xD 0 0
  let tci := leAt own 3 1 % 8 * 0x2000 + leAt own 4 2 % 0x1000
  slice (s.entry 0xD 1 p) (8 + 6 * q) 6 ++ slice own (8 + 6 * q) 6 ++ [0x81, 0x00] ++
    (leBytes 2 tci).reverse ++ (leBytes 2 s.etherType).reverse ++ body ++ leBytes 4 (crc32c body).toNat ++ pad

/-- A data frame. -/
def dataFrame (s : State) (q seq : Nat) (m : Message) : List Byte :=
  frameAround s q m.dst
    (droveHeader m.kind (s.chipId + 16 * q) m.dst seq m.msgId
      (m.field + bval m.last * 8 + bval m.resp * 16) 0 m.payload.length m.buffer m.round m.offset m.aux m.aux2 ++
      m.tag ++ m.payload) []

/-- An ACK or NACK frame. -/
def controlFrame (s : State) (q : Nat) (c : ControlFrame) : List Byte :=
  frameAround s q c.peer
    (droveHeader (if c.nack then 7 else 6) (s.chipId + 16 * q) c.peer c.seq c.msgId (bval c.openIt * 32) c.reason
      0 0 0 0 0 0) (leBytes 6 0)

/-- Queue an ACK or NACK. -/
def sendControl (s : State) (q : Nat) (c : ControlFrame) : State :=
  let x := s.drovePort q
  s.setPort q { x with control := x.control ++ [c] }

/-! Message groups of tasks (R247). -/

/-- One message of a group is over: acknowledged, lost or rejected. -/
def groupOver (s : State) (m : Message) (lost rejected : Bool) : State :=
  match m.group with
  | none => s
  | some g =>
    let x := s.group g
    s.setGroup g { x with outstanding := x.outstanding - 1, lost := x.lost || lost, rejected := x.rejected || rejected }

/-- A message to a fenced peer: of a DISPATCH it counts as acknowledged and lost, of a PUT, GET or BALE_PUSH it ends
its task faulted (R243, R257). -/
def groupFenced (s : State) (m : Message) : State :=
  let s := undeliver s m
  if m.kind ≤ 2 then groupOver s m true false else groupOver s m false true

/-! Receive buffers (R236 to R240). -/

/-- The current round of buffer x. -/
def State.roundOf (s : State) (x : Nat) : Nat := s.bits (Reg.droveRxbStatus x) 31 16

/-- The chips of the unit that are fenced, as a mask. -/
def State.fencedMask (s : State) : Nat :=
  sumNat ((List.range 16).map fun p => if s.isFenced p then 2 ^ p else 0)

/-- Set buffer x to a round with nothing received (R236, R240). -/
def startRound (s : State) (x c : Nat) : State :=
  let m := Nat.land s.fencedMask (s.entryAt 0xD 2 x 4 2)
  let s := s.setReg (Reg.droveRxbStatus x) (BitVec.ofNat 32 (c % 65536 * 65536 + m))
  let s := s.setReg (Reg.droveRxbLast x) 0
  s.setRxBuffer x { fencedNext := m }

/-- LAST has been recorded from a sender for round c (next = false) or c + 1. -/
def State.lastFrom (s : State) (x : Nat) (next : Bool) (p : Nat) : Bool :=
  s.bit (Reg.droveRxbLast x) (p + if next then 16 else 0)

/-- A sender counts as fenced for round c or c + 1. -/
def State.fencedFor (s : State) (x : Nat) (next : Bool) (p : Nat) : Bool :=
  if next then bitOf (s.rxBuffer x).fencedNext p else s.bit (Reg.droveRxbStatus x) p

/-- A sender has delivered everything it announced for a round. -/
def State.delivered (s : State) (x r p : Nat) : Bool :=
  let next := r != s.roundOf x
  let b := s.rxBuffer x
  let k := 16 * (r % 2) + p
  s.lastFrom x next p && mapGet 0 b.received k == mapGet 0 b.totals k

/-- Round r is one of the two rounds that buffer x accepts. -/
def State.roundOpen (s : State) (x r : Nat) : Bool := r == s.roundOf x || r == (s.roundOf x + 1) % 65536

/-- Round r of buffer x is complete (R238). -/
def State.roundComplete (s : State) (x r : Nat) : Bool :=
  s.hasEntry 0xD 2 x && s.roundOpen x r &&
    (List.range 16).all fun p =>
      !bitOf (s.entryAt 0xD 2 x 4 2) p || s.fencedFor x (r != s.roundOf x) p || s.delivered x r p

/-- Round r has already been released (R99). -/
def State.roundReleased (s : State) (x r : Nat) : Bool :=
  let d := (s.roundOf x + 65536 - r) % 65536
  s.hasEntry 0xD 2 x && d != 0 && d < 32768

/-- Release round c: c rises by one and the old half's counters and LAST records are cleared (R238). -/
def releaseRound (s : State) (x : Nat) : State :=
  let c := s.roundOf x
  let b := s.rxBuffer x
  let old (k : Nat) : Bool := k / 16 == c % 2
  let m := Nat.land s.fencedMask (s.entryAt 0xD 2 x 4 2)
  let s := s.setReg (Reg.droveRxbStatus x) (BitVec.ofNat 32 ((c + 1) % 65536 * 65536 + b.fencedNext))
  let s := s.setReg (Reg.droveRxbLast x) (BitVec.ofNat 32 (s.bits (Reg.droveRxbLast x) 31 16))
  s.setRxBuffer x
    { received := b.received.filter fun (k, _) => !old k
      totals := b.totals.filter fun (k, _) => !old k
      ended := mapSet 0 b.ended (c % 2) 0
      fencedNext := m }

/-- Release rounds while their consumers have ended. -/
def releaseRounds (s : State) (x : Nat) : Nat → State
  | 0 => s
  | n + 1 =>
    let k := mapGet 0 (s.rxBuffer x).ended (s.roundOf x % 2)
    if k ≠ 0 ∧ s.entryAt 0xD 2 x 2 1 ≤ k then releaseRounds (releaseRound s x) x n else s

/-- A consumer of round r of buffer x has ended done (R238). -/
def consumeRound (s : State) (x r : Nat) : State :=
  if s.hasEntry 0xD 2 x ∧ s.roundOpen x r then
    let b := s.rxBuffer x
    releaseRounds (s.setRxBuffer x { b with ended := mapSet 0 b.ended (r % 2) (mapGet 0 b.ended (r % 2) + 1) }) x 2
  else s

/-- Write an accepted message into its half and count it (R237). -/
def acceptMessage (s : State) (src : Nat) (m : Message) : State :=
  let x := m.buffer
  let e := s.entry 0xD 2 x
  let s := s.store (leAt e 16 8 + m.round % 2 * leAt e 8 4 + m.offset) m.payload
  let b := s.rxBuffer x
  let k := 16 * (m.round % 2) + src
  let b := { b with received := mapSet 0 b.received k (mapGet 0 b.received k + m.payload.length) }
  if m.last then
    let s := s.setBit (Reg.droveRxbLast x) (src + if m.round = s.roundOf x then 0 else 16) true
    s.setRxBuffer x { b with totals := mapSet 0 b.totals k m.aux }
  else s.setRxBuffer x b

/-- A standby buffer adopts a later round (R240). -/
def State.adopts (s : State) (x r : Nat) : Bool :=
  let d := (r + 65536 - s.roundOf x) % 65536
  s.entryAt 0xD 2 x 3 1 == 1 && 2 ≤ d && d ≤ 32768 && (s.rxBuffer x).received.isEmpty &&
    s.reg (Reg.droveRxbLast x) == 0

/-- The reason for rejecting a data message, if any (R237). -/
def State.rejects (s : State) (m : Message) : Option Nat :=
  let e := s.entry 0xD 2 m.buffer
  let st := s.fieldState (leAt e 1 1)
  if e = [] ∨ leAt e 8 4 < m.offset + m.payload.length then some 3
  else if st ≠ fldRunning ∧ st ≠ fldQuiescing then some 5
  else if !s.roundOpen m.buffer m.round && !s.adopts m.buffer m.round then some 4
  else none

/-- A message has been rejected: an F0 entry; the port is its instance, which a message of this chip to itself lacks
(a free value, DESIGN CHOICE, safe, log 6). -/
def rejectEntry (s : State) (port : Option Nat) : State :=
  match port with
  | some q => s.raise { code := 0x0606, cls := 0, inst := q }
  | none =>
    let (v, s) := s.takeFree
    s.raise { code := 0x0606, cls := 0, inst := v.toNat % 65536 }

/-- A stream delivers a frame, so its cumulative ACK comes nearer (R232). -/
def countForAck (s : State) (q p : Nat) : State :=
  let t := s.stream q p
  if t.sinceAck + 1 < 16 then
    s.setStream q p { t with sinceAck := t.sinceAck + 1, firstTick := if t.sinceAck = 0 then s.now else t.firstTick }
  else
    sendControl (s.setStream q p { t with sinceAck := 0 }) q { peer := p, nack := false, seq := t.expected }

/-- The record of delivered messages already holds a msg_id, or it lies more than 2,048 below the highest (R234). -/
def DrovePeer.duplicate (x : DrovePeer) (id : Nat) : Bool :=
  match x.highest with
  | none => false
  | some h =>
    let d := (h + 2 ^ 32 - id) % 2 ^ 32
    x.seen.contains id || (2048 < d && d < 2 ^ 31)

/-- Record a delivered msg_id (R234). -/
def DrovePeer.record (x : DrovePeer) (id : Nat) : DrovePeer :=
  let h := match x.highest with
    | none => id
    | some h => if (id + 2 ^ 32 - h) % 2 ^ 32 < 2 ^ 31 then id else h
  { x with highest := some h, seen := (id :: x.seen).filter fun k => (h + 2 ^ 32 - k) % 2 ^ 32 ≤ 2048 }

/-- A data message other than a GET is rejected (R237): an F0 entry, and a NACK to its sender; one of this chip to itself ends its
group's message. -/
def refuseMessage (s : State) (port : Option Nat) (src : Nat) (m : Message) (why : Nat) : State :=
  let s := rejectEntry s port
  match port with
  | some q => sendControl s q { peer := src, nack := true, seq := (s.stream q src).expected, reason := why, msgId := m.msgId }
  | none => groupOver (undeliver s m) m false true

/-- A data message other than a GET is accepted; a standby buffer may adopt its round (R237, R240). -/
def takeMessage (s : State) (port : Option Nat) (src : Nat) (m : Message) : State :=
  let s := if s.roundOpen m.buffer m.round then s else startRound s m.buffer m.round
  let s := acceptMessage s src m
  match port with
  | some q => countForAck (s.setPeer src ((s.drovePeer src).record m.msgId)) q src
  | none => groupOver s m false false

/-- A cycle of CLK_IO, 8 ticks (R38, R239). -/
def State.ioCycle (s : State) : Nat := s.now / 8

/-- The cycle of a message for round c + 2 is over: it is accepted if a release in that cycle has opened its round (R239). -/
def settleLate (s : State) : State :=
  match s.drove.late with
  | none => s
  | some l =>
    let s := { s with drove := { s.drove with late := none } }
    if s.roundOpen l.msg.buffer l.msg.round then takeMessage s l.port l.src l.msg else refuseMessage s l.port l.src l.msg 4

/-- A data message other than a GET at its buffer (R237). One for round c + 2 is judged at the end of its cycle of CLK_IO, because a
release in the same cycle applies first (R239); the model judges it at the next Droveway command, transmission or
management tick, or at a release (DESIGN CHOICE, safe, log 93). -/
def arriveMessage (s : State) (port : Option Nat) (src : Nat) (m : Message) : State :=
  match s.rejects m with
  | none => takeMessage s port src m
  | some why =>
    if why = 4 ∧ m.round = (s.roundOf m.buffer + 2) % 65536 then
      { s with drove := { s.drove with late := some ⟨port, src, m, s.ioCycle⟩ } }
    else refuseMessage s port src m why

/-- A consumer of round r of buffer x has ended done: a release comes before a message of the same cycle (R238, R239). -/
def endConsumer (s : State) (x r : Nat) : State :=
  match s.drove.late with
  | none => consumeRound s x r
  | some l =>
    if l.cycle = s.ioCycle then
      let s := consumeRound s x r
      if s.roundOpen l.msg.buffer l.msg.round then settleLate s else s
    else consumeRound (settleLate s) x r

/-! GET (R252). -/

/-- The reason for rejecting a GET, if any: the window is not exported to the requester; its extent; its Field. -/
def State.getRejects (s : State) (src : Nat) (m : Message) : Option Nat :=
  let e := s.entry 0xD 3 m.buffer
  let st := s.fieldState (leAt e 1 1)
  if e = [] ∨ !bitOf (leAt e 4 2) src ∨ !bitOf (leAt e 2 1) m.field then some 6
  else if leAt e 8 4 < m.offset + m.aux then some 3
  else if st ≠ fldRunning ∧ st ≠ fldQuiescing then some 5
  else none

/-- 32 free bytes: the provenance tag of a GET's response, which no rule gives (DESIGN CHOICE, safe, log 6). -/
def freeTag (s : State) : List Byte × State :=
  let (a, s) := s.takeFree
  let (b, s) := s.takeFree
  let (c, s) := s.takeFree
  let (d, s) := s.takeFree
  (leBytes 8 a.toNat ++ leBytes 8 b.toNat ++ leBytes 8 c.toNat ++ leBytes 8 d.toNat, s)

/-- Cut bytes into pieces of the maximum payload; no bytes make one empty piece. -/
def piecesOf (n : Nat) (bs : List Byte) : List (Nat × List Byte) :=
  (List.range (max 1 (ceilDiv bs.length n))).map fun k => (k * n, (bs.drop (k * n)).take n)

/-- The PUT messages that answer a GET. No task of this chip sends them: they carry the Field that owns the export window, whose
yoke they are charged to (DESIGN CHOICE, unsafe, log 79). -/
def responses (s : State) (src : Nat) (m : Message) : List Message × State :=
  let e := s.entry 0xD 3 m.buffer
  let (tag, s) := freeTag s
  let ps := piecesOf s.maxPayload (s.view (leAt e 16 8 + m.offset) m.aux)
  (ps.map fun (off, bs) =>
    { kind := 3, dst := src, field := leAt e 1 1, last := off + s.maxPayload ≥ m.aux, resp := true
      buffer := bitsOf m.aux2 9 0, round := bitsOf m.aux2 31 16, offset := off
      aux := if off + s.maxPayload ≥ m.aux then m.aux else 0, tag := tag, payload := bs }, s)

/-! Assignment to streams (R225). -/

/-- Frames of a stream that its window holds or will hold. -/
def State.windowUse (s : State) (q p : Nat) : Nat :=
  (s.stream q p).window.length + ((s.drovePort q).ready.filter fun m => m.dst == p).length

/-- The next port of a peer's round robin whose stream is up and not full. -/
def State.nextPort (s : State) (p : Nat) : Option Nat :=
  ((List.range 4).map fun i => ((s.drovePeer p).rr + i) % 4).find? fun q => s.streamUp q p && s.windowUse q p < 256

/-- Ask the Field's bucket 2 for a message's next transmission: its frame's bytes with the FCS (R215, R226). -/
def askFrame (s : State) (m : Message) : State :=
  yokeRequest s m.field 2 ⟨90 + m.payload.length, .frame m.uid⟩

/-- Assign the messages held for a peer to its streams while one can take them; each is written into the port's buffers. -/
def assignHeld (s : State) (p : Nat) : Nat → State
  | 0 => s
  | n + 1 =>
    let x := s.drovePeer p
    match x.held, s.nextPort p with
    | m :: rest, some q =>
      let s := s.setPeer p { x with held := rest, rr := (q + 1) % 4 }
      let y := s.drovePort q
      let s := (s.setPort q { y with ready := y.ready ++ [{ m with asked := true }] }).rewriteWords .drove q
      let s := if m.asked then s else askFrame s m
      assignHeld s p n
    | _, _ => s

/-- Assign what is held for peer p. -/
def assignAll (s : State) (p : Nat) : State := assignHeld s p (s.drovePeer p).held.length

/-- Give a message its numbers: its per-peer msg_id, and its place in its group. -/
def numberMessage (s : State) (m : Message) : Message × State :=
  let x := s.drovePeer m.dst
  let m := { m with msgId := x.nextMsg, uid := s.drove.nextUid }
  let s := { s with drove := { s.drove with nextUid := s.drove.nextUid + 1 } }
  let s := s.setPeer m.dst { x with nextMsg := (x.nextMsg + 1) % 2 ^ 32 }
  match m.group with
  | none => (m, s)
  | some g =>
    let y := s.group g
    (m, s.setGroup g { y with outstanding := y.outstanding + 1, issued := y.issued + 1, lastId := m.msgId
                              firstId := if y.issued = 0 then m.msgId else y.firstId })

/-- Issue a message to a peer. -/
def issueRemote (s : State) (m : Message) : State :=
  let (m, s) := numberMessage s m
  if s.isFenced m.dst then groupFenced s m
  else
    let x := s.drovePeer m.dst
    assignAll (s.setPeer m.dst { x with held := x.held ++ [m] }) m.dst

/-- A message to this chip itself waits for bucket 1 of its Field (R225). -/
def queueSelf (s : State) (m : Message) : State :=
  let (m, s) := numberMessage s m
  let s := { s with drove := { s.drove with own := s.drove.own ++ [m] } }
  yokeRequest s m.field 1 ⟨ceilDiv m.payload.length 64, .frame m.uid⟩

/-- The bytes delivered to a chip's buffer for a round, a message's own included: the total of its LAST (R228). A message counts from its
issue until it is known not to be delivered (`undeliver`). Rounds that are no longer open at the buffer are forgotten
(DEDUCED, safe, log 78). -/
def totalMessage (s : State) (m : Message) : Message × State :=
  if m.kind = 4 then (m, s)
  else
    let key := 1024 * m.dst + m.buffer
    let old := mapGet [] s.drove.totals key
    let n := mapGet 0 old m.round + m.payload.length
    let near := old.filter fun (r, _) => r == (m.round + 65535) % 65536 || r == (m.round + 1) % 65536
    let s := { s with drove := { s.drove with totals := mapSet [] s.drove.totals key (mapSet 0 near m.round n) } }
    (if m.last then { m with aux := n } else m, s)

/-- Give a message its total and queue it (R225). -/
def queueMessage (s : State) (m : Message) : State :=
  let (m, s) := totalMessage s m
  if m.dst = s.chipId then queueSelf s m else issueRemote s m

/-- A message to this chip itself that bucket 1 has admitted reaches its buffer or window over the Headland (R225). -/
def deliverSelf (s : State) (m : Message) : State :=
  if m.kind = 4 then
    match s.getRejects s.chipId m with
    | some _ => groupOver (rejectEntry s none) m false true
    | none =>
      let (rs, s) := responses s s.chipId m
      rs.foldl queueMessage (groupOver s m false false)
  else arriveMessage (settleLate s) none s.chipId m

/-- Deliver the admitted messages at the head of the queue of messages to this chip; `fuel` bounds them. -/
def deliverOwn : Nat → State → State
  | 0, s => s
  | fuel + 1, s =>
    match s.drove.own with
    | m :: rest =>
      if m.admitted then deliverOwn fuel (deliverSelf { s with drove := { s.drove with own := rest } } m) else s
    | [] => s

/-- Everything that the queue of messages to this chip lets go now, the answers to its GETs included. -/
def drainOwn (s : State) : State :=
  let s := deliverOwn s.drove.own.length s
  deliverOwn s.drove.own.length s

/-- Issue a message (R225). -/
def issueMessage (s : State) (m : Message) : State := drainOwn (queueMessage s m)

/-! Transmission (R226). -/

/-- A sequence number lies at or above n, modulo 2^32 (R230). -/
def seqFrom (n k : Nat) : Bool := decide ((k + 2 ^ 32 - n) % 2 ^ 32 < 2 ^ 31)

/-- Mark a stream's window frames from sequence number n for retransmission and ask for their admission (R233). -/
def retransmitFrom (s : State) (q p n : Nat) : State :=
  let t := s.stream q p
  let asks := t.window.filter fun w => seqFrom n w.seq && !w.msg.asked
  let again (w : WindowFrame) : WindowFrame :=
    if seqFrom n w.seq then
      { w with again := true, msg := { w.msg with asked := true, admitted := w.msg.asked && w.msg.admitted } }
    else w
  let s := s.setStream q p { t with window := t.window.map again }
  asks.foldl (fun s w => askFrame s w.msg) s

/-- A data frame leaves port q; how poison travels in it the manual leaves open (DESIGN CHOICE, unsafe, log 28). -/
def frameOut (q : Nat) (poison : Bool) (bytes : List Byte) : Output :=
  if poison then .poisonedFrame q bytes else .frame q bytes

/-- Send the window frame that is due for retransmission on a stream, if its Field's yoke has admitted it. -/
def resendOn (s : State) (q p : Nat) : Option State :=
  let t := s.stream q p
  match t.window.find? (·.again) with
  | some w =>
    if w.msg.admitted then
      let sent (v : WindowFrame) : WindowFrame :=
        if v.seq = w.seq then { v with again := false, msg := { v.msg with asked := false, admitted := false } } else v
      let s := s.setStream q p { t with window := t.window.map sent }
      some ((s.addSat (Reg.drovePeerRetx p) 31 0).emit (frameOut q w.msg.poison (dataFrame s q w.seq w.msg)))
    else none
  | none => none

/-- The next new frame of a port: one per Field in round robin, each admitted by its Field's bucket 2. -/
def State.nextNew (s : State) (q : Nat) : Option Message :=
  let x := s.drovePort q
  ((List.range 8).map fun i => (x.rr + i) % 8).findSome? fun f => x.ready.find? fun m => m.field == f && m.admitted

/-- Send a new frame: it takes the stream's next sequence number and enters its window (R230). -/
def sendNew (s : State) (q : Nat) (m : Message) : State :=
  let x := s.drovePort q
  let s := s.setPort q { x with ready := x.ready.filter fun k => k.uid != m.uid, rr := (m.field + 1) % 8 }
  let t := s.stream q m.dst
  let w : WindowFrame := { seq := t.nextSeq, msg := { m with asked := false, admitted := false, sent := true } }
  let frame := dataFrame s q t.nextSeq m
  let s := s.setStream q m.dst { t with
    nextSeq := (t.nextSeq + 1) % 2 ^ 32, window := t.window ++ [w]
    lastAdvance := if t.window.isEmpty then s.now else t.lastAdvance }
  let s := if m.sent then s.addSat (Reg.drovePeerRetx m.dst) 31 0 else s
  s.emit (frameOut q m.poison frame)

/-- Port q sends its next frame: control frames, then retransmissions, then new frames (R226). -/
def transmit (s : State) (q : Nat) : State :=
  if !s.bit (Reg.drovePortStatus q) 0 then s
  else
    let x := s.drovePort q
    match x.control with
    | c :: cs => (s.setPort q { x with control := cs }).emit (.frame q (controlFrame s q c))
    | [] =>
      match (List.range 16).findSome? (resendOn s q) with
      | some t => t
      | none =>
        match s.nextNew q with
        | some m => sendNew s q m
        | none => s

/-! Streams going up and down (R230, R233, R235). -/

/-- Insert a message by ascending msg_id. -/
def insertById : List Message → Message → List Message
  | [], m => [m]
  | k :: ks, m => if m.msgId < k.msgId then m :: k :: ks else k :: insertById ks m

/-- A stream's sending side goes down: its frames go to the peer's other streams in msg_id order; with none left the
peer is reported (R233, R235, R241). -/
def streamDown (s : State) (q p : Nat) : State :=
  let t := s.stream q p
  let x := s.drovePort q
  let fresh := x.ready.filter fun m => m.dst == p
  let again := t.window.map fun w => { w.msg with asked := false, admitted := false }
  let s := s.setPort q { x with ready := x.ready.filter fun m => m.dst != p }
  let s := s.setStream q p { t with window := [], timeouts := 0 }
  let s := setStreamUp s q p false
  let y := s.drovePeer p
  let s := s.setPeer p { y with held := (again ++ fresh ++ y.held).foldl insertById [] }
  let s := assignAll s p
  if (List.range 4).any fun r => s.streamUp r p then s else reportFence s p

/-- Send an ACK with OPEN (R230). -/
def sendOpen (s : State) (q p : Nat) : State :=
  let s := s.setStream q p { s.stream q p with openAt := some s.now }
  sendControl s q { peer := p, nack := false, seq := 0, openIt := true }

/-- A port opens its streams: an ACK with OPEN to every peer of the unit (R230). -/
def openStreams (s : State) (q : Nat) : State :=
  forUpTo 16 (fun p s =>
    if p != s.chipId && s.bit (Reg.drovePeer p) 0 && s.bit (Reg.drovePortStatus q) 0 && !s.streamUp q p then sendOpen s q p
    else s) s

/-- Number a window's frames again from 0, in order. -/
def renumber : Nat → List WindowFrame → List WindowFrame
  | _, [] => []
  | n, w :: ws => { w with seq := n } :: renumber (n + 1) ws

/-- An ACK with OPEN is the answer to one that this chip has sent within DROVE_RTO on a receiving side that is open and expects frame 0
(DEDUCED, unsafe, log 16). -/
def State.openAnswered (s : State) (q p : Nat) : Bool :=
  let t := s.stream q p
  t.rxOpen && t.expected == 0 && t.openAt.any fun k => s.now ≤ k + s.rto

/-- An ACK with OPEN from peer p on port q: it sets the number expected from p to 0 and is answered, unless it is itself an answer; the
stream to p is open, and what its window holds is sent again from 0 (R230). -/
def receiveOpen (s : State) (q p : Nat) : State :=
  let answered := s.openAnswered q p
  let s := if answered then s.setStream q p { s.stream q p with openAt := none }
    else sendOpen (s.setStream q p { s.stream q p with sinceAck := 0 }) q p
  let t := s.stream q p
  let s := s.setStream q p { t with
    rxOpen := true, expected := 0, nackTick := none
    window := renumber 0 t.window, nextSeq := t.window.length, timeouts := 0, lastAdvance := s.now }
  assignAll (retransmitFrom (setStreamUp s q p true) q p 0) p

/-- The link of port q goes down (R233). -/
def portDown (s : State) (q : Nat) : State :=
  if !s.bit (Reg.drovePortStatus q) 0 then s
  else
    let s := s.raise { code := 0x0604, cls := 2, inst := q }
    let s := s.setBits (Reg.drovePortStatus q) 2 2 0
    let s := s.setBit (Reg.drovePortStatus q) 3 true
    let s := s.setBit (Reg.drovePortStatus q) 0 false
    let s := s.setPort q { s.drovePort q with control := [] }
    forUpTo 16 (fun p s =>
      let s := if s.streamUp q p then streamDown s q p else s
      s.setStream q p { s.stream q p with rxOpen := false, sinceAck := 0, nackTick := none, openAt := none }) s

/-- The link of port q comes up (R230). -/
def portUp (s : State) (q : Nat) : State :=
  openStreams ((s.setBit (Reg.drovePortStatus q) 0 true).setBit (Reg.drovePortStatus q) 2 true) q

/-! Receiving (R229 to R235). -/

/-- A received frame's fields. -/
structure DroveHeader where
  kind   : Nat
  src    : Nat
  seq    : Nat
  msgId  : Nat
  flags  : Nat
  reason : Nat
  msg    : Message
  deriving DecidableEq, Repr

/-- Read a frame's header, tag and payload (R227, R228). -/
def readHeader (bs : List Byte) : DroveHeader :=
  let h (off n : Nat) : Nat := leAt bs (18 + off) n
  let flags := h 12 1
  { kind := h 1 1, src := h 2 1 % 16, seq := h 4 4, msgId := h 8 4, flags := flags, reason := h 13 1
    msg := { kind := h 1 1, dst := h 3 1 % 16, msgId := h 8 4, field := flags % 8, last := bitOf flags 3
             resp := bitOf flags 4, buffer := h 16 2, round := h 18 2, offset := h 20 4, aux := h 24 4, aux2 := h 28 4
             tag := slice bs 50 32, payload := slice bs 82 (h 14 2) } }

/-- Bytes covered by a frame's end-to-end CRC: header, and tag and payload of a data message. -/
def coveredBytes (bs : List Byte) : Nat := if 6 ≤ leAt bs 19 1 then 32 else 64 + leAt bs 32 2

/-- How a received frame is discarded: not; counted in DROVE_PORT_DROP.other; for its end-to-end CRC (R229, R35). -/
inductive DroveCheck where
  | good | other | crc
  deriving DecidableEq, Repr

/-- The checks of R229, and of R35 as part of it. -/
def State.droveCheck (s : State) (f : DroveFrame) : DroveCheck :=
  let own := s.entry 0xD 0 0
  let n := coveredBytes f.bytes
  if !f.fcsOk then .other
  else if f.bytes.take 6 ≠ slice own (8 + 6 * f.port) 6 ∨ beNat (slice f.bytes 12 2) ≠ 0x8100 ∨
      beNat (slice f.bytes 16 2) ≠ s.etherType then .other
  else if leAt f.bytes (18 + n) 4 ≠ (crc32c (slice f.bytes 18 n)).toNat then .crc
  else if leAt f.bytes 18 1 ≠ 1 ∨ leAt f.bytes 21 1 ≠ s.chipId ∨ !s.inUnit (leAt f.bytes 20 1 % 16) then .other
  else .good

/-- The frame with the expected number: the number rises by one once it is processed (R231, R232, R237). -/
def receiveNext (s : State) (q : Nat) (h : DroveHeader) : State :=
  let p := h.src
  let t := s.stream q p
  let s := s.setStream q p { t with expected := (t.expected + 1) % 2 ^ 32, nackTick := none }
  let x := s.drovePeer p
  if x.duplicate h.msgId then countForAck (s.raise { code := 0x0607, cls := 0, inst := p }) q p
  else
    if h.kind = 4 then
      match s.getRejects p h.msg with
      | some why => refuseMessage s (some q) p h.msg why
      | none =>
        let s := s.setPeer p (x.record h.msgId)
        let (rs, s) := responses s p h.msg
        rs.foldl issueMessage (countForAck s q p)
    else arriveMessage s (some q) p h.msg

/-- A data frame on its stream (R231). -/
def receiveData (s : State) (q : Nat) (h : DroveHeader) : State :=
  let t := s.stream q h.src
  if !t.rxOpen then s
  else if h.seq = t.expected then receiveNext s q h
  else if seqFrom t.expected h.seq then
    let again := match t.nackTick with
      | none => true
      | some n => n + s.rto ≤ s.now
    if again then
      sendControl (s.setStream q h.src { t with nackTick := some s.now }) q
        { peer := h.src, nack := true, seq := t.expected, reason := 1 }
    else s
  else s

/-- A cumulative acknowledgement of every frame below n, and of the message that a NACK rejects (R232, R233). -/
def acknowledge (s : State) (q p n : Nat) (rejected : Option Nat) : State :=
  let t := s.stream q p
  let below (w : WindowFrame) : Bool := (w.seq != n && seqFrom w.seq n) || rejected == some w.msg.msgId
  let acked := t.window.filter below
  let s := if acked.isEmpty then s else
    s.setStream q p { t with window := t.window.filter fun w => !below w, timeouts := 0, lastAdvance := s.now }
  let s := acked.foldl (fun s w =>
    let no := rejected == some w.msg.msgId
    groupOver (if no then undeliver s w.msg else s) w.msg false no) s
  assignAll s p

/-- A NACK (R233). -/
def receiveNack (s : State) (q : Nat) (h : DroveHeader) : State :=
  let s := acknowledge s q h.src h.seq (if 3 ≤ h.reason ∧ h.reason ≤ 6 then some h.msgId else none)
  if h.reason = 1 then retransmitFrom s q h.src h.seq else s

/-- A received frame of one of the kinds that a command's row names: the checks of R229, then its effect on its
stream. A frame of another kind is not this command's. -/
def receiveDrove (s : State) (f : DroveFrame) (mine : DroveHeader → Bool) (act : State → Nat → DroveHeader → State) :
    State :=
  match s.droveCheck f with
  | .other => s.addSat (Reg.drovePortDrop f.port) 15 0
  | .crc => (s.addSat (Reg.drovePortDrop f.port) 31 16).raise { code := 0x0601, cls := 1, inst := f.port }
  | .good =>
    let h := readHeader f.bytes
    if mine h then act s f.port h else s

/-! Timers. -/

/-- 6,400 ticks after the first frame delivered since the last ACK (R232). -/
def ackTimer (s : State) (q p : Nat) : State :=
  let t := s.stream q p
  if t.sinceAck = 0 then s
  else
    let s := runUntil s (t.firstTick + 6400)
    sendControl (s.setStream q p { t with sinceAck := 0 }) q { peer := p, nack := false, seq := t.expected }

/-- DROVE_RTO ticks with no ACK advance while the window is not empty (R233). -/
def rtoExpiry (s : State) (q p : Nat) : State :=
  let t := s.stream q p
  match t.window with
  | [] => s
  | w :: _ =>
    let s := runUntil s (t.lastAdvance + s.rto)
    if 8 ≤ t.timeouts + 1 then streamDown (s.raise { code := 0x0603, cls := 2, inst := p }) q p
    else
      let s := s.setStream q p { t with timeouts := t.timeouts + 1, lastAdvance := s.now }
      retransmitFrom (s.raise { code := 0x0602, cls := 0, inst := q }) q p w.seq

/-! Fencing (R241 to R244). -/

/-- Discard the messages queued for and unacknowledged by a peer (R243). -/
def discardMessages (s : State) (p : Nat) : State :=
  let held := (s.drovePeer p).held
  let ready := (List.range 4).flatMap fun q => (s.drovePort q).ready.filter fun m => m.dst == p
  let window := (List.range 4).flatMap fun q => (s.stream q p).window.map (·.msg)
  let s := (held ++ ready ++ window).foldl groupFenced s
  let s := s.setPeer p { s.drovePeer p with held := [] }
  forUpTo 4 (fun q s =>
    let x := s.drovePort q
    let s := s.setPort q { x with ready := x.ready.filter fun m => m.dst != p }
    s.setStream q p { s.stream q p with window := [] }) s

/-- Count a sender as fenced in every receive buffer that names it, for rounds c and c + 1 (R243). -/
def fenceBuffers (s : State) (p : Nat) : State :=
  forUpTo 1024 (fun x s =>
    if s.hasEntry 0xD 2 x ∧ bitOf (s.entryAt 0xD 2 x 4 2) p then
      let s := s.setBit (Reg.droveRxbStatus x) p true
      let b := s.rxBuffer x
      s.setRxBuffer x { b with fencedNext := Nat.lor b.fencedNext (2 ^ p) }
    else s) s

/-- Peer p is marked fenced (R242, R243). -/
def markFenced (s : State) (p : Nat) : State :=
  let s := { s with chain := { s.chain with due := mapSet none s.chain.due p none, noticed := s.chain.noticed.filter (· != p) } }
  if s.isFenced p then s
  else
    let s := s.setBit (Reg.drovePeer p) 2 true
    let s := s.raise { code := 0x0605, cls := 2, inst := p }
    discardMessages (fenceBuffers s p) p

/-- The fences that a management tick puts in force (R242). -/
def applyFences (s : State) : State :=
  ((s.chain.due.filter fun (_, d) =>
    match d with
    | some t => t ≤ s.tickNumber
    | none => false).map (·.1)).foldl markFenced s

/-- A buckle writes DROVE_PEER.fenced to 0: the peer rejoins if a stream to it is up, and is counted again from the
next round that each buffer reaches (R244). -/
def rejoin (s : State) (p : Nat) : State :=
  if s.isFenced p && s.bits (Reg.drovePeer p) 7 4 != 0 then
    let s := s.setBit (Reg.drovePeer p) 2 false
    forUpTo 1024 (fun x s =>
      let b := s.rxBuffer x
      if bitOf b.fencedNext p then s.setRxBuffer x { b with fencedNext := b.fencedNext - 2 ^ p } else s) s
  else s

/-! Commands. -/

/-- A frame arrives at one of the four ports. -/
def onPort (s : State) (frame : DroveFrame) (f : State → DroveFrame → State) : State :=
  withUnit s 4 frame.port fun s q => f (settleLate s) { frame with port := q }

/-- DROVE_FRAME_TX. -/
def execDroveFrameTx (port : Nat) (s : State) : Result := live s <| withUnit s 4 port fun s port => transmit (settleLate s) port

/-- DROVE_DISPATCH_RX. -/
def execDroveDispatchRx (frame : DroveFrame) (s : State) : Result := live s <|
  onPort s frame fun s frame => receiveDrove s frame (fun h => h.kind == 1) receiveData

/-- DROVE_COMBINE_RX. -/
def execDroveCombineRx (frame : DroveFrame) (s : State) : Result := live s <|
  onPort s frame fun s frame => receiveDrove s frame (fun h => h.kind == 2) receiveData

/-- DROVE_PUT_RX. -/
def execDrovePutRx (frame : DroveFrame) (s : State) : Result := live s <|
  onPort s frame fun s frame => receiveDrove s frame (fun h => h.kind == 3) receiveData

/-- DROVE_BALE_PUSH_RX. -/
def execDroveBalePushRx (frame : DroveFrame) (s : State) : Result := live s <|
  onPort s frame fun s frame => receiveDrove s frame (fun h => h.kind == 5) receiveData

/-- DROVE_GET_RX. -/
def execDroveGetRx (frame : DroveFrame) (s : State) : Result := live s <|
  onPort s frame fun s frame => receiveDrove s frame (fun h => h.kind == 4) receiveData

/-- DROVE_ACK_RX: an ACK without OPEN. -/
def execDroveAckRx (frame : DroveFrame) (s : State) : Result := live s <|
  onPort s frame fun s frame => receiveDrove s frame (fun h => h.kind == 6 && !bitOf h.flags 5)
    fun s q h => acknowledge s q h.src h.seq none

/-- DROVE_OPEN_RX: an ACK with OPEN. -/
def execDroveOpenRx (frame : DroveFrame) (s : State) : Result := live s <|
  onPort s frame fun s frame => receiveDrove s frame (fun h => h.kind == 6 && bitOf h.flags 5)
    fun s q h => receiveOpen s q h.src

/-- DROVE_NACK_RX. -/
def execDroveNackRx (frame : DroveFrame) (s : State) : Result := live s <|
  onPort s frame fun s frame => receiveDrove s frame (fun h => h.kind == 7) receiveNack

/-- DROVE_ACK_TIMER. -/
def execDroveAckTimer (port peer : Nat) (s : State) : Result := live s <|
  withUnit s 4 port fun s port => withUnit s 16 peer fun s peer => ackTimer (settleLate s) port peer

/-- DROVE_RTO_EXPIRY. -/
def execDroveRtoExpiry (port peer : Nat) (s : State) : Result := live s <|
  withUnit s 4 port fun s port => withUnit s 16 peer fun s peer => rtoExpiry (settleLate s) port peer

/-- DROVE_PORT_LINK_DOWN. -/
def execDrovePortLinkDown (port : Nat) (s : State) : Result := live s <| withUnit s 4 port fun s port => portDown (settleLate s) port

/-- DROVE_PORT_LINK_UP. -/
def execDrovePortLinkUp (port : Nat) (s : State) : Result := live s <| withUnit s 4 port fun s port => portUp (settleLate s) port

/-- DROVE_PEER.fence_req (R241). -/
def execDroveFenceReq (peer : Nat) (s : State) : Result := live s <| withUnit s 16 peer fun s peer => reportFence s peer

/-- A peer's heartbeat has been missing for 3 management ticks (R241). -/
def heartbeatLost (s : State) (p : Nat) : State :=
  if 3 ≤ mapGet 0 s.chain.missed p then reportFence s p else s

/-- PEER_HEARTBEAT_TIMEOUT. -/
def execPeerHeartbeatTimeout (peer : Nat) (s : State) : Result := live s <| withUnit s 16 peer fun s peer =>
  heartbeatLost s peer

/-- DROVE_CTRL.cnt_clear. -/
def clearDroveCounters (s : State) : State :=
  let s := forUpTo 4 (fun q s => s.setReg (Reg.drovePortDrop q) 0) s
  let s := forUpTo 16 (fun p s => s.setReg (Reg.drovePeerRetx p) 0) s
  forUpTo 256 (fun e s => s.setReg (Reg.droveResid e) 0) s

/-- DROVE_CNT_CLEAR. -/
def execDroveCntClear (s : State) : Result := live s <| clearDroveCounters s

end Sys2Proof.Machine
end

