-- ==== Sys2Proof/Machine/Plan.lean ====
section
/-! DEFINITION. What an op gives the sequencer (R101 to R107): its format check, the plan that its parameter block
makes (checks, extents, cycle count), and its work on the operands. -/

namespace Sys2Proof.Machine

/-- An op's plan for a descriptor: the cause of the first failing parameter check, 0 for none; what it reads and
writes; the extents its guards name; its cycles. -/
structure Plan where
  cause    : Nat := 0
  reads    : List (Nat × Nat) := []
  writes   : List (Nat × Nat) := []
  extA     : Nat × Nat := (0, 0)
  extB     : Nat × Nat := (0, 0)
  extDst   : Nat × Nat := (0, 0)
  outliers : Nat := 0                -- reduction length an outlier list must stay below, 0 for no list (R68)
  sizeBad  : Bool := false           -- cause 0x08
  unaligned : Bool := false          -- a further alignment rule of the op fails: cause 0x06
  cycles   : Nat := 0
  wait     : Wait := .none           -- a condition that the operands' reading awaits
  get      : Option Message := none  -- the GET that a fetch sends at once (R252)
  deriving DecidableEq, Repr

/-- What an op makes of its operands. -/
structure Work where
  reads  : List (Nat × Nat) := []    -- what every tile depends on
  tiles  : List Tile := []
  macs   : Nat := 0
  gated  : Nat := 0
  cause  : Nat := 0                  -- a fault met while working
  cycles : Option Nat := none        -- the cycle count, where the operands decide it
  drafts : List Message := []
  groups : List Nat := []
  resid  : List (Nat × Nat × Nat) := []  -- DROVE_RESID counts: expert, 0 over, 1 none, 2 lost; pairs
  snapshots : List (Nat × Nat) := []
  stores : List (Nat × List Byte) := []  -- seedbed rows that a kernel has stored (R88)
  unbucketed : Nat := 0              -- Harrow counts (R174, R188)
  skipped : Nat := 0
  deriving DecidableEq, Repr

/-- The Furrow on which a task runs. -/
def Reach.fur : Reach → Nat
  | .task n _ => n
  | .check n => n
  | .glean n => n
  | _ => 0

/-- One op of R96. -/
structure OpDef where
  formats : Desc → Bool
  plan    : State → Reach → Desc → Plan
  work    : State → Reach → Desc → Work × State

/-- Cut a list into pieces of n; `fuel` bounds the pieces. -/
def chunks {α : Type} (n : Nat) : Nat → List α → List (List α)
  | 0, _ => []
  | fuel + 1, l => if l.isEmpty then [] else l.take n :: chunks n fuel (l.drop n)

/-- Pieces of n of a list. -/
def piecesBy {α : Type} (n : Nat) (l : List α) : List (List α) := chunks n l.length l

/-- A plan that fails its parameter block (cause 0x07). -/
def badParam : Plan := { cause := 0x07 }

/-- Extents without the empty ones. -/
def realExtents (xs : List (Nat × Nat)) : List (Nat × Nat) := xs.filter fun e => e.2 != 0

/-- The extent of `rows` rows of n bytes at a stride. -/
def stridedExtent (a rows stride n : Nat) : Nat × Nat := (a, if rows = 0 then 0 else (rows - 1) * stride + n)

/-- Rows as single reads. -/
def rowReads (a rows stride n : Nat) : List (Nat × Nat) := (List.range rows).map fun r => (a + r * stride, n)

/-- The number of 128-byte seedbed rows that n bytes from a touch (R100). -/
def rowsTouched (a n : Nat) : Nat := if n = 0 then 0 else (a + n - 1) / 128 + 1 - a / 128

/-- The cost of one tile commit (R100). -/
def tileCommitCycles : Nat := 16

/-- A destination format: any code with a value, E8M0 apart (R52). -/
def storable (code : Nat) : Bool := code < 13

/-- A format that the Coulters load and store (R52, R89). -/
def coulterFmt (code : Nat) : Bool :=
  code == 1 || code == 2 || code == 3 || code == 4 || code == 8 || code == 9 || code == 10 || code == 11 || code == 12

/-- Bytes of a row of n elements, in whole granules. -/
def rowGranules (fmt n : Nat) : Nat := roundUp (rowBytes (fmtWidth fmt) n) 32

/-- Rows of tile j: first and count. -/
def tileRows (rows tr j : Nat) : Nat × Nat := (j * tr, min ((j + 1) * tr) rows - j * tr)

/-- Narrow a row of values into a destination format, from element index i on: bytes padded to granules, events. -/
def narrowRow (d : Desc) (i : Nat) (vs : List (Val × Significand)) : List Byte × List Nat :=
  let ns := vs.zipIdx.map fun ((v, lsb), k) => narrow d.fmtOut (roundingOf d.round d.seed d.tag (i + k)) v lsb
  (padGranules (packElems (fmtWidth d.fmtOut) (ns.map (·.bits))),
    ns.foldl (fun ev n => addEvent ev n.event) [0, 0, 0, 0])

/-- The elements of a row in memory. -/
def State.rowElems (s : State) (fmt a n : Nat) : List Nat :=
  let bs := s.view a (rowBytes (fmtWidth fmt) n)
  (List.range n).map fun k => elemAt bs (fmtWidth fmt) k

end Sys2Proof.Machine
end

