-- ==== Sys2Proof/Machine/Compression.lean ====
section
/-! DEFINITION. The zero compression of the Tedder (R159 to R162) and its rows as operands and destinations. -/

namespace Sys2Proof.Machine

/-- The granules of a block with n non-zero elements of width w. -/
def zcGranules (w n : Nat) : Nat := ceilDiv (64 + w * n) 256

/-- The worst-case bytes of a compressed row of e elements (R160). -/
def zcCapacity (w e : Nat) : Nat := 32 * (e / 64 * zcGranules w 64 + if e % 64 = 0 then 0 else zcGranules w (e % 64))

/-- One block of up to 64 elements (R159). -/
def zcBlock (w : Nat) (es : List Nat) : List Byte :=
  let mask := es.zipIdx.foldl (fun t (e, k) => if e = 0 then t else t + 2 ^ k) 0
  padGranules (leBytes 8 mask ++ packElems w (es.filter (· != 0)))

/-- A compressed row: its blocks as written. -/
def zcRow (w : Nat) (es : List Nat) : List Byte := (piecesBy 64 es).flatMap (zcBlock w)

/-- The elements of one block of n positions and the bytes it takes. -/
def zcRead (s : State) (w a n : Nat) : List Nat × Nat :=
  let mask := s.le a 8 % 2 ^ n
  let bs := s.view (a + 8) (32 * zcGranules w 64)
  let (es, k) := (List.range n).foldl (fun (es, k) i =>
    if bitOf mask i then (es ++ [elemAt bs w k], k + 1) else (es ++ [0], k)) ([], 0)
  (es, 32 * zcGranules w k)

/-- The blocks of a compressed row, from one block's address on: elements, and (address, bytes) per block. -/
def zcBlocks (s : State) (w : Nat) : Nat → Nat → Nat → List Nat × List (Nat × Nat)
  | 0, _, _ => ([], [])
  | fuel + 1, a, e =>
    if e = 0 then ([], [])
    else
      let (es, len) := zcRead s w a (min 64 e)
      let (rest, spans) := zcBlocks s w fuel (a + len) (e - 64)
      (es ++ rest, (a, len) :: spans)

/-- A row of e elements in memory, compressed or not. -/
def readRow (s : State) (zc : Bool) (fmt a e : Nat) : List Nat :=
  if zc then (zcBlocks s (fmtWidth fmt) (ceilDiv e 64) a e).1 else s.rowElems fmt a e

/-- What reading that row reads. -/
def readSpans (s : State) (zc : Bool) (fmt a e : Nat) : List (Nat × Nat) :=
  if zc then (zcBlocks s (fmtWidth fmt) (ceilDiv e 64) a e).2 else [(a, rowBytes (fmtWidth fmt) e)]

/-- A destination row as written: whole granules, or its compressed blocks. -/
def writeRow (zc : Bool) (fmt : Nat) (es : List Nat) : List Byte :=
  if zc then zcRow (fmtWidth fmt) es else padGranules (packElems (fmtWidth fmt) es)

/-- The bytes that a row may take: its capacity, or its granules. -/
def rowRoom (zc : Bool) (fmt e : Nat) : Nat := if zc then zcCapacity (fmtWidth fmt) e else rowGranules fmt e

/-- A compressed operand or destination: outside the own seedbed, at a pitch that is a multiple of 32 and holds the
worst case (R160, R162). -/
def zcAllowed (n a fmt e ld : Nat) : Bool :=
  seedbedOf a != some n && ld % 32 == 0 && zcCapacity (fmtWidth fmt) e ≤ ld

/-- The flags' conditions for tensor rows of e elements at pitches lda and ldd. -/
def zcFlagsOk (n : Nat) (d : Desc) (ea lda ed ldd : Nat) : Bool :=
  (!d.zcA || zcAllowed n d.aAddr d.fmtA ea lda) && (!d.zcDst || zcAllowed n d.dstAddr d.fmtOut ed ldd)

/-- The granules that rows of e elements take uncompressed, and those of the bytes moved for them (FUR_ZC_RAW, FUR_ZC_MOVED). -/
def zcCount (zc : Bool) (fmt e rows : Nat) (bytes : List Nat) : Nat × Nat :=
  if zc then (rows * (rowGranules fmt e / 32), sumNat bytes / 32) else (0, 0)

/-- The sum of two such counts. -/
def zcAdd (x y : Nat × Nat) : Nat × Nat := (x.1 + y.1, x.2 + y.2)

/-! Extents in ascending address order (R107, R151). -/

/-- Pieces rise from an address and do not meet. -/
def risingFrom : Nat → List (Nat × Nat) → Bool
  | _, [] => true
  | lo, (a, n) :: l => lo ≤ a && risingFrom (a + n) l

/-- Enter a piece's granules into a map from granules; `join` takes what an earlier piece has there, and the new bytes. -/
def addGranules (join : List Byte → List Byte → List Byte) (m : SMap (List Byte)) (p : Nat × List Byte) : SMap (List Byte) :=
  (piecesBy 32 p.2).zipIdx.foldl (fun m (b, i) =>
    let g := p.1 / 32 + i
    mapInsert m g (match mapFind m g with
      | some o => join o b
      | none => b)) m

/-- A tile's pieces in ascending address order: pieces that interleave are taken granule by granule. -/
def orderPieces (join : List Byte → List Byte → List Byte) (ps : List (Nat × List Byte)) : List (Nat × List Byte) :=
  if risingFrom 0 (ps.map fun p => (p.1, p.2.length)) then ps
  else (ps.foldl (addGranules join) []).map fun (g, b) => (32 * g, b)

/-- Interleaved image rows share granules, in which each row has zeros where it has no pixel (R142); where rows overlap, their
bytes are joined bit by bit (DESIGN CHOICE, unsafe, log 71). -/
def joinPixels (x y : List Byte) : List Byte := List.zipWith (fun a b => a ||| b) x y

/-- An extent in ascending address order, each granule once. -/
def orderExtent (e : List (Nat × Nat)) : List (Nat × Nat) :=
  if risingFrom 0 e then e
  else (e.foldl (fun (m : SMap Nat) (a, n) => forUpTo (ceilDiv n 32) (fun i m => mapInsert m (a / 32 + i) 32) m) []).map
    fun (g, n) => (32 * g, n)

end Sys2Proof.Machine
end

