-- ==== Sys2Proof/Machine/Matmul.lean ====
section
/-! DEFINITION. The Share, the side lane and the output stage: MATMUL (R61 to R70, R83 to R87, R94, R487). -/

namespace Sys2Proof.Machine

/-- The Share modes of R61, by weight format and activation format. -/
inductive ShareMode where
  | bits4 | bits8 | bits16
  deriving DecidableEq, Repr

/-- The pairings of R61. -/
def shareMode (w a : Nat) : Option ShareMode :=
  if (w = 10 ∨ w = 11) ∧ (a = 10 ∨ a = 11) then some .bits16
  else if (w = 0 ∨ w = 5) ∧ (a = 0 ∨ a = 5) then some .bits4
  else if (w = 0 ∨ w = 1 ∨ (5 ≤ w ∧ w ≤ 9)) ∧ (a = 1 ∨ a = 2 ∨ (6 ≤ a ∧ a ≤ 9)) then some .bits8
  else none

/-- The reduction depth D (R83). -/
def ShareMode.depth : ShareMode → Nat
  | .bits4 => 128
  | .bits8 => 64
  | .bits16 => 16

/-- The weight load L_w (R83). -/
def ShareMode.load : ShareMode → Nat
  | .bits16 => 32
  | _ => 64

/-- emax of R70 by destination format; none where G_out may not be declared. -/
def emaxOf (fmt : Nat) : Option Nat :=
  match fmt with
  | 0 => some 2 | 1 => some 6 | 5 => some 2 | 6 => some 2 | 7 => some 4 | 8 => some 8 | 9 => some 15
  | _ => none

/-- An output group size is declared only with a destination that has one (R70). -/
def outGroupOk (d : Desc) : Bool := d.gOut == 0 || (emaxOf d.fmtOut).isSome

/-- The format checks that every op with the Share shares (R52, R61, R68, R70, R71; g = 3). -/
def shareFormats (d : Desc) : Bool :=
  (shareMode d.fmtB d.fmtA).isSome && storable d.fmtOut && d.round != 3 && d.g != 3 && d.nOut ≤ 64 && outGroupOk d

/-! Arithmetic. -/

/-- A product that R86 gates: a zero operand against a finite one. -/
def gatedPair (x w : Val) : Bool := (x.isZero && w.isFinite) || (w.isZero && x.isFinite)

/-- The exact sum of the products of pairs. -/
def sumProducts (ps : List (Val × Val)) : Val := ps.foldl (fun t (x, w) => t.add (x.mul w)) Val.zero

/-- One group's term and whether it counts as a NaN input (R62 to R65, R78): the sum of special products replaces P·S;
a NaN scale makes the term NaN. -/
def groupTerm (ps : List (Val × Val)) (sa sw : Val) : Val × Bool :=
  let special := ps.filter fun (x, w) => !x.isFinite || !w.isFinite
  let nanScale := sa.isNan || sw.isNan
  if special.isEmpty then (if nanScale then .nan else (sumProducts ps).mul (sw.mul sa), false)
  else
    let nan := nanScale || special.any fun (x, w) => x.isNan || w.isNan
    (if nan then .nan else sumProducts special, nan)

/-- The accumulator after all groups in ascending order, with one rne40 per group, and the count of NaN inputs (R65). -/
def accumulateGroups (g : Nat) (ps : List (Val × Val)) (sa sw : List Val) : Val × Nat :=
  (piecesBy g ps).zipIdx.foldl (fun (acc, n) (grp, i) =>
    let (t, nan) := groupTerm grp ((sa[i]?).getD (.ofNat 1)) ((sw[i]?).getD (.ofNat 1))
    (rne40 (acc.add t), n + bval nan)) (Val.zero, 0)

/-- The accumulator of the 16-bit mode and of the side lane: exact blocks of 16 (R66, R68). -/
def accumulateBlocks (ps : List (Val × Val)) : Val :=
  (piecesBy 16 ps).foldl (fun acc blk => rne40 (acc.add (sumProducts blk))) Val.zero

/-- The output stage of one element (R69). -/
def outputStage (share side sOut bias : Val) : Val := rne40 (((rne40 (share.add side)).mul sOut).add bias)

/-- The largest magnitude of finite values, as a value. -/
def amaxOf (ys : List Val) : Val :=
  ys.foldl (fun t y =>
    match y with
    | .fin _ m e => if t.lt (.fin false m e) then .fin false m e else t
    | _ => t) Val.zero

/-- The E8M0 scale byte of one output group (R70). -/
def groupScale (fmt : Nat) (ys : List Val) : Nat :=
  if ys.any fun y => !y.isFinite then 0xFF
  else
    match amaxOf ys with
    | .fin _ m e =>
      if m = 0 then 0
      else
        let x : Int := (Nat.log2 m : Int) + e - (emaxOf fmt).getD 0
        (min (max x (-127)) 127 + 127).toNat
    | _ => 0xFF

/-- Narrow one output group under its scale (R70): each value with its source significand; i is the index of its first
element. The elements of a group that holds a NaN or an infinity are written as +0, not narrowed, so they raise no R78
event (DESIGN CHOICE, unsafe, log 65). -/
def narrowGroup (d : Desc) (i : Nat) (ys : List (Val × Significand)) : Nat × List Nat × List Nat :=
  let x := groupScale d.fmtOut (ys.map (·.1))
  if x = 0xFF then (x, ys.map fun _ => 0, [0, 0, 0, 0])
  else
    let e : Int := if x = 0 ∧ ys.all fun y => y.1.isZero then 0 else (x : Int) - 127
    let ns := ys.zipIdx.map fun ((y, src), k) =>
      narrow d.fmtOut (roundingOf d.round d.seed d.tag (i + k)) (y.mul (.fin false 1 (-e))) ⟨src.lsb - e, src.bits⟩
    (x, ns.map (·.bits), ns.foldl (fun ev n => addEvent ev n.event) [0, 0, 0, 0])

/-- Narrow a row's values, from element index i on: elements, scale bytes, events (R69, R70). -/
def narrowRowOutputs (d : Desc) (i : Nat) (ys : List (Val × Significand)) : List Nat × List Nat × List Nat :=
  if d.outGroup = 0 then
    let ns := ys.zipIdx.map fun ((y, src), k) => narrow d.fmtOut (roundingOf d.round d.seed d.tag (i + k)) y src
    (ns.map (·.bits), [], ns.foldl (fun ev n => addEvent ev n.event) [0, 0, 0, 0])
  else
    (piecesBy d.outGroup ys).zipIdx.foldl (fun (es, ss, ev) (grp, g) =>
      let (x, bs, e) := narrowGroup d (i + d.outGroup * g) grp
      (es ++ bs, ss ++ [x], addEvents ev e)) ([], [], [0, 0, 0, 0])

/-- The same for values of y1, held in W40. -/
def narrowOutputs (d : Desc) (i : Nat) (ys : List Val) : List Nat × List Nat × List Nat :=
  narrowRowOutputs d i (ys.map fun y => (y, w40Lsb y))

/-! Layout (R94). -/

/-- MATMUL's parameters. -/
structure MatmulDims where
  m : Nat
  k : Nat
  n : Nat
  lda : Nat
  ldb : Nat
  ldd : Nat
  tileRows : Nat
  reserved : Nat
  deriving DecidableEq, Repr

/-- Read them from granule 3. -/
def matmulDims (s : State) (d : Desc) : MatmulDims :=
  ⟨s.param d 0, s.param d 1, s.param d 2, s.param d 3, s.param d 4, s.param d 5, s.param d 6, s.param d 7⟩

/-- Column blocks of 128. -/
def MatmulDims.blocks (x : MatmulDims) : Nat := ceilDiv x.n 128

/-- The width in bytes of a group scale. -/
def scaleWidth (bf16 : Bool) : Nat := if bf16 then 2 else 1

/-- The pitch ls_a of scale_a's rows. -/
def scalePitch (d : Desc) (k : Nat) : Nat := roundUp (ceilDiv k d.groupSize * scaleWidth d.scaleABf16) 32

/-- The bytes of one scale_b row of 128 columns. -/
def scaleBRow (d : Desc) : Nat := 128 * scaleWidth d.scaleBBf16

/-- The offset E_s of the scales in an output row (R487). -/
def scaleOffset (d : Desc) (blocks : Nat) : Nat := 16 * fmtWidth d.fmtOut * blocks

/-- The reads of optional operands that a Share op takes from its header: scales, output scale, bias, outliers. -/
def shareHeaderReads (s : State) (d : Desc) (m k n : Nat) : List (Nat × Nat) :=
  let nb := ceilDiv n 128
  let at_ (i len : Nat) : Nat × Nat := (s.header d i, if s.header d i = 0 then 0 else len)
  realExtents
    ([at_ 4 (m * scalePitch d k), at_ 5 (nb * ceilDiv k d.groupSize * scaleBRow d)] ++
      (if d.hasScale then [at_ 6 (4 * n)] else []) ++ (if d.hasBias then [at_ 7 (4 * n)] else []) ++
      (if d.nOut = 0 then [] else
        [at_ 9 (4 * d.nOut), at_ 10 (m * roundUp (2 * d.nOut) 32), at_ 11 (nb * d.nOut * 256)]))

/-- The header entries that a Share op needs are present, and the 16-bit mode has no group scales (R93, R94). -/
def shareHeaderOk (s : State) (d : Desc) : Bool :=
  (!d.hasScale || s.header d 6 != 0) && (!d.hasBias || s.header d 7 != 0) &&
    (d.nOut == 0 || (s.header d 9 != 0 && s.header d 10 != 0 && s.header d 11 != 0)) &&
    (shareMode d.fmtB d.fmtA != some .bits16 || (s.header d 4 == 0 && s.header d 5 == 0))

/-- T of R85. -/
def shareCycles (mode : ShareMode) (m k n nOut : Nat) : Nat :=
  160 + mode.load + ceilDiv n 128 * max (ceilDiv k mode.depth * max m mode.load) (ceilDiv nOut 16 * m)

/-- MATMUL's plan (R94, R487). Output scales beside a compressed destination, whose place the manual does not give, end the
task with 0x07 (DESIGN CHOICE, unsafe, log 66). A value out of range ends it with 0x07 before the outlier list is read,
and R487's bound on ldd holds where scales are declared (DESIGN CHOICE, unsafe, log 94). -/
def matmulPlan (s : State) (r : Reach) (d : Desc) : Plan :=
  let x := matmulDims s d
  match shareMode d.fmtB d.fmtA with
  | none => badParam
  | some mode =>
    let scales := d.outGroup != 0
    let ok := 4 ≤ d.paramLen && 1 ≤ x.m && x.m ≤ 256 && 1 ≤ x.k && x.k ≤ 16777216 && 1 ≤ x.n && x.n ≤ 65536 &&
      x.lda % 32 == 0 && x.ldd % 32 == 0 && x.tileRows == x.m && x.reserved == 0 && d.tiles == x.blocks &&
      d.bAddr != 0 && shareHeaderOk s d && zcFlagsOk r.fur d x.k x.lda x.n x.ldd &&
      (!d.zcDst || !scales) && (!scales || scaleOffset d x.blocks + 32 * x.blocks ≤ x.ldd)
    if !ok then badParam
    else
      let a := stridedExtent d.aAddr x.m x.lda (rowRoom d.zcA d.fmtA x.k)
      let b := (d.bAddr, (x.blocks - 1) * x.ldb + ceilDiv x.k mode.depth * mode.depth * 16 * fmtWidth d.fmtB)
      let dst := stridedExtent d.dstAddr x.m x.ldd (if d.zcDst then
        zcCapacity (fmtWidth d.fmtOut) x.n else scaleOffset d x.blocks + if scales then 32 * x.blocks else 0)
      { reads := [a, b] ++ shareHeaderReads s d x.m x.k x.n, writes := [dst], extA := a, extB := b, extDst := dst
        outliers := if d.nOut = 0 then 0 else x.k, cycles := shareCycles mode x.m x.k x.n d.nOut }

/-- An activation row with its group scales and outlier activations. -/
structure ActRow where
  xs : List Val
  scales : List Val
  side : List Val
  deriving DecidableEq, Repr

/-- A weight column with its group scales, outlier weights, output scale and bias. -/
structure WeightCol where
  ws : List Val
  scales : List Val
  side : List Val
  sOut : Val
  bias : Val
  deriving DecidableEq, Repr

/-- A group scale from its bytes: E8M0 or BF16. -/
def scaleVal (bf16 : Bool) (v : Nat) : Val := if bf16 then decodeElem 11 v else decodeElem 13 v

/-- The scales and outliers of activation row m. -/
def actSide (s : State) (d : Desc) (m k : Nat) : List Val × List Val :=
  let w := scaleWidth d.scaleABf16
  let scales := if s.header d 4 = 0 then [] else
    (List.range (ceilDiv k d.groupSize)).map fun g =>
      scaleVal d.scaleABf16 (s.le (s.header d 4 + m * scalePitch d k + g * w) w)
  let side := (List.range d.nOut).map fun j =>
    decodeElem 11 (s.le (s.header d 10 + m * roundUp (2 * d.nOut) 32 + 2 * j) 2)
  (scales, side)

/-- The FP32 value at an index of an optional per-channel vector. -/
def channelVal (s : State) (use : Bool) (a i : Nat) (absent : Val) : Val :=
  if use then decodeElem 12 (s.le (a + 4 * i) 4) else absent

/-- Weight column j of block c; `b` is the address of the block's first weight row. -/
def weightCol (s : State) (d : Desc) (b c j k : Nat) : WeightCol :=
  let w := fmtWidth d.fmtB
  let ng := ceilDiv k d.groupSize
  let sw := scaleWidth d.scaleBBf16
  { ws := (List.range k).map fun i => decodeElem d.fmtB (elemAt (s.view (b + 16 * w * i) (16 * w)) w j)
    scales := if s.header d 5 = 0 then [] else (List.range ng).map fun g =>
      scaleVal d.scaleBBf16 (s.le (s.header d 5 + ((c * ng + g) * 128 + j) * sw) sw)
    side := (List.range d.nOut).map fun i => decodeElem 11 (s.le (s.header d 11 + (c * d.nOut + i) * 256 + 2 * j) 2)
    sOut := channelVal s d.hasScale (s.header d 6) (128 * c + j) (.ofNat 1)
    bias := channelVal s d.hasBias (s.header d 7) (128 * c + j) Val.zero }

/-- The outlier list (R68). -/
def outlierList (s : State) (d : Desc) : List Nat := (List.range d.nOut).map fun i => s.le (s.header d 9 + 4 * i) 4

/-- y1 of one output element with its NaN-input and gated-MAC counts (R65 to R69, R86). -/
def shareElement (d : Desc) (listed : List Nat) (a : ActRow) (w : WeightCol) : Val × Nat × Nat :=
  let zero (i : Nat) (p : Val × Val) : Val × Val := if listed.contains i then (Val.zero, Val.zero) else p
  let ps := (List.zip a.xs w.ws).zipIdx.map fun (p, i) => zero i p
  let (share, nans) := if shareMode d.fmtB d.fmtA = some .bits16 then (accumulateBlocks ps, 0)
    else accumulateGroups d.groupSize ps a.scales w.scales
  let sp := List.zip a.side w.side
  let gated := ((ps ++ sp).filter fun (x, v) => gatedPair x v).length
  (outputStage share (accumulateBlocks sp) w.sOut w.bias, nans, gated)

/-- One output row of one column block: y1 values, NaN inputs, gated MACs. -/
def shareRow (d : Desc) (listed : List Nat) (a : ActRow) (ws : List WeightCol) : List Val × Nat × Nat :=
  ws.foldl (fun (ys, n, g) w =>
    let (y, nan, gated) := shareElement d listed a w
    (ys ++ [y], n + nan, g + gated)) ([], 0, 0)

/-- The pieces of one row of one column block (R487), with their events. -/
def blockPieces (d : Desc) (blocks c rowAddr i : Nat) (ys : List Val) : List (Nat × List Byte) × List Nat :=
  let (es, ss, ev) := narrowOutputs d i ys
  let w := fmtWidth d.fmtOut
  let elems := packElems w (es ++ List.replicate (128 - es.length) 0)
  let scale := if ss.isEmpty then [] else
    [(rowAddr + scaleOffset d blocks + 32 * c, padGranules (ss.map fun x => BitVec.ofNat 8 x))]
  ((rowAddr + 16 * w * c, elems) :: scale, ev)

/-- The compressed blocks of a row's elements in one column block, `off` bytes after the row's start: two blocks of R159 follow
those of the column blocks before (R160, DESIGN CHOICE, unsafe, log 66). -/
def zcPiece (d : Desc) (rowAddr off i : Nat) (ys : List Val) : List (Nat × List Byte) × List Nat :=
  let (es, _, ev) := narrowOutputs d i ys
  ([(rowAddr + off, zcRow (fmtWidth d.fmtOut) es)], ev)

/-- Column block c of a MATMUL, whose compressed rows continue at `offs`: its tile and its gated MACs. -/
def matmulTile (s : State) (d : Desc) (x : MatmulDims) (mode : ShareMode) (rows : List ActRow) (offs : List Nat) (c : Nat) :
    Tile × Nat :=
  let b := d.bAddr + c * x.ldb
  let ws := (List.range (min 128 (x.n - 128 * c))).map fun j => weightCol s d b c j x.k
  let (pieces, ev, gated) := rows.zipIdx.foldl (fun (ps, ev, g) (a, m) =>
    let (ys, nans, gated) := shareRow d (outlierList s d) a ws
    let row := d.dstAddr + m * x.ldd
    let i := m * x.n + 128 * c
    let (p, e) := if d.zcDst then zcPiece d row ((offs[m]?).getD 0) i ys else blockPieces d x.blocks c row i ys
    (ps ++ p, addEvents (addEvents ev e) [0, 0, 0, nans], g + gated)) ([], [0, 0, 0, 0], 0)
  let ng := ceilDiv x.k d.groupSize
  let reads := [(b, ceilDiv x.k mode.depth * mode.depth * 16 * fmtWidth d.fmtB)] ++ realExtents
    [(s.header d 5 + c * ng * scaleBRow d, if s.header d 5 = 0 then 0 else ng * scaleBRow d),
     (s.header d 6 + 512 * c, if d.hasScale then 4 * min 128 (x.n - 128 * c) else 0),
     (s.header d 7 + 512 * c, if d.hasBias then 4 * min 128 (x.n - 128 * c) else 0),
     (s.header d 11 + c * d.nOut * 256, d.nOut * 256)]
  let zc := zcCount d.zcDst d.fmtOut (min 128 (x.n - 128 * c)) x.m (pieces.map (·.2.length))
  ({ pieces := pieces, events := ev, reads := reads, zc := zc }, gated)

/-- All column blocks of a MATMUL in order. -/
def matmulTiles (s : State) (d : Desc) (x : MatmulDims) (mode : ShareMode) (rows : List ActRow) : List (Tile × Nat) :=
  ((List.range x.blocks).foldl (fun (offs, out) c =>
    let t := matmulTile s d x mode rows offs c
    let offs := if d.zcDst then List.zipWith (fun o p => o + p.2.length) offs t.1.pieces else offs
    (offs, out ++ [t])) (rows.map fun _ => 0, [])).2

/-- Reads of the activations, their scales and outliers. -/
def actReads (s : State) (d : Desc) (m k lda : Nat) : List (Nat × Nat) :=
  ((List.range m).flatMap fun r => readSpans s d.zcA d.fmtA (d.aAddr + r * lda) k) ++ realExtents
    [(s.header d 4, if s.header d 4 = 0 then 0 else m * scalePitch d k),
     (s.header d 9, 4 * d.nOut), (s.header d 10, m * roundUp (2 * d.nOut) 32 * bval (d.nOut != 0))]

/-- MATMUL (R85, R94). The activations, read once for all column blocks, are counted with the first tile (log 71). Its MACs are the products
of real rows, columns and reduction indices and of the outliers; the zero rows and columns that pad a block are none
(R86; DESIGN CHOICE, unsafe, log 95). -/
def matmulWork (s : State) (_ : Reach) (d : Desc) : Work × State :=
  let x := matmulDims s d
  match shareMode d.fmtB d.fmtA with
  | none => ({ cause := 0x02 }, s)
  | some mode =>
    let rows := (List.range x.m).map fun m =>
      let (scales, side) := actSide s d m x.k
      { xs := (readRow s d.zcA d.fmtA (d.aAddr + m * x.lda) x.k).map (decodeElem d.fmtA), scales := scales
        side := side : ActRow }
    let tiles := matmulTiles s d x mode rows
    let zin := zcCount d.zcA d.fmtA x.k x.m (((List.range x.m).flatMap fun r =>
      readSpans s d.zcA d.fmtA (d.aAddr + r * x.lda) x.k).map (·.2))
    ({ reads := actReads s d x.m x.k x.lda, macs := x.m * x.n * (x.k + d.nOut), gated := sumNat (tiles.map (·.2))
       tiles := tiles.zipIdx.map fun ((t, _), c) => if c = 0 then { t with zc := zcAdd zin t.zc } else t }, s)

/-- MATMUL. -/
def matmulOp : OpDef := ⟨shareFormats, matmulPlan, matmulWork⟩

end Sys2Proof.Machine
end

