-- ==== Sys2Proof/Machine/Rake.lean ====
section
/-! DEFINITION. The Rake: CONV, POOL and RESAMPLE over image tensors (spec 06_rake_windows.md). -/

namespace Sys2Proof.Machine

/-! Image tensors (R141, R142). -/

/-- An image tensor in memory. -/
structure Image where
  base : Nat
  h    : Nat
  w    : Nat
  c    : Nat
  fmt  : Nat
  ld   : Nat
  ps   : Nat
  zc   : Bool
  deriving DecidableEq, Repr

/-- Bytes of a pixel's channels. -/
def Image.pixel (m : Image) : Nat := m.c * fmtWidth m.fmt / 8

/-- The rules of R141 and of R160 for a compressed image; n is the task's Furrow. -/
def Image.ok (m : Image) (n : Nat) : Bool :=
  m.ld % 32 == 0 && m.c * fmtWidth m.fmt % 8 == 0 && m.pixel ≤ m.ps &&
    (!m.zc || zcAllowed n m.base m.fmt (m.w * m.c) m.ld)

/-- Bytes of a stored row from its first byte to the end of the granule with its last pixel's last byte (R142). -/
def Image.rowBytes (m : Image) : Nat :=
  if m.zc then zcCapacity (fmtWidth m.fmt) (m.w * m.c) else roundUp ((m.w - 1) * m.ps + m.pixel) 32

/-- The elements of one image row, channel-innermost. -/
def Image.row (m : Image) (s : State) (y : Nat) : List Nat :=
  let a := m.base + y * m.ld
  if m.zc then readRow s true m.fmt a (m.w * m.c)
  else (List.range m.w).flatMap fun x => s.rowElems m.fmt (a + x * m.ps) m.c

/-- What reading a strip's pixels of a row reads: the pixels' bytes, or every block of a compressed row up to the last one
needed, and of those wholly before the strip the first granule (R146, R162). -/
def Image.spans (m : Image) (s : State) (y : Nat) (cols : List Nat) : List (Nat × Nat) :=
  let a := m.base + y * m.ld
  if cols.isEmpty then []
  else if m.zc then
    let last := cols.foldl max 0
    let first := cols.foldl min (cols.head?.getD 0) * m.c / 64
    ((readSpans s true m.fmt a (m.w * m.c)).take ((last * m.c + m.c - 1) / 64 + 1)).zipIdx.map fun ((a, n), q) =>
      if q < first then (a, 32) else (a, n)
  else cols.map fun x => (a + x * m.ps, m.pixel)

/-- Rows as values, by row number. -/
def Image.rows (m : Image) (s : State) (ys : List Nat) : List (Nat × List Val) :=
  ys.map fun y => (y, (m.row s y).map (decodeElem m.fmt))

/-- Element (y, x, c) of rows read. -/
def Image.at (m : Image) (rows : List (Nat × List Val)) (y x c : Nat) : Val :=
  match mapFind rows y with
  | some r => (r[x * m.c + c]?).getD Val.zero
  | none => Val.zero

/-- The bytes of a stored row from its pixels' channels: zero in every byte of no pixel (R142). -/
def Image.rowOut (m : Image) (pixels : List (List Nat)) : List Byte :=
  if m.zc then zcRow (fmtWidth m.fmt) pixels.flatten
  else
    let one (p : List Nat) : List Byte :=
      let b := packElems (fmtWidth m.fmt) p
      b ++ List.replicate (m.ps - b.length) 0
    slice (pixels.flatMap one) 0 m.rowBytes

/-! Windows (R143 to R145). -/

/-- One axis of a window: extent, kernel, stride, dilation, padding before and after, padding mode. -/
structure Axis where
  n : Nat
  k : Nat
  s : Nat
  d : Nat
  p0 : Nat
  p1 : Nat
  mode : Nat
  deriving DecidableEq, Repr

/-- The effective kernel k_e. -/
def Axis.ke (a : Axis) : Nat := a.d * (a.k - 1) + 1

/-- n_out; it may be zero or less (R143). -/
def Axis.out (a : Axis) : Int := ((a.n + a.p0 + a.p1 : Nat) - (a.ke : Int)) / a.s + 1

/-- Reflect needs padding below the extent (R145). -/
def Axis.padOk (a : Axis) : Bool := a.mode != 2 || (a.p0 < a.n && a.p1 < a.n)

/-- The stored coordinate of tap j of output o; none: a padded tap in zero mode (R144). -/
def Axis.tap (a : Axis) (o j : Nat) : Option Nat :=
  let v : Int := (o * a.s + j * a.d : Nat) - (a.p0 : Int)
  if 0 ≤ v ∧ v < a.n then some v.toNat
  else if a.mode = 0 then none
  else if a.mode = 1 then some (min (max v 0) ((a.n : Int) - 1)).toNat
  else if v < 0 then some (-v).toNat
  else some (2 * ((a.n : Int) - 1) - v).toNat

/-- The coordinates that the taps of a range of outputs reach, each once. -/
def Axis.reached (a : Axis) (o n : Nat) : List Nat :=
  ((List.range n).flatMap fun i => (List.range a.k).filterMap fun j => a.tap (o + i) j).eraseDups

/-- The stored coordinates of a folded coordinate: f of them, inside the image (R147). -/
def foldCoords (f n : Nat) (ys : List Nat) : List Nat :=
  ys.flatMap fun y => ((List.range f).map fun i => f * y + i).filter (· < n)

/-! Batches and cycles (R152, R153). -/

/-- The seedbed rows that one image row's requested bytes touch, or the granules fetched of a compressed row. -/
def rowLoad (s : State) (m : Image) (y : Nat) (cols : List Nat) : Nat :=
  let sp := m.spans s y cols
  if m.zc then sumNat (sp.map (·.2)) / 32
  else
    (sp.flatMap fun (a, n) => (List.range (rowsTouched a n)).map fun i => a / 128 + i).eraseDups.length

/-- load_b for a batch that reaches given stored rows and columns. -/
def batchLoad (s : State) (m : Image) (ys xs : List Nat) : Nat :=
  if xs.isEmpty then 0 else sumNat (ys.map fun y => rowLoad s m y xs)

/-- The compressed granules that a tile's batches read of an image, each given by the rows and columns it reaches: every reading of
a row counts, uncompressed as its whole row (DESIGN CHOICE, unsafe, log 71). -/
def Image.zcRead (m : Image) (s : State) (batches : List (List Nat × List Nat)) : Nat × Nat :=
  let bs := batches.filter fun b => !b.2.isEmpty
  zcCount m.zc m.fmt (m.w * m.c) (sumNat (bs.map (·.1.length)))
    (if m.zc then bs.map fun (ys, xs) => 32 * batchLoad s m ys xs else [])

/-- The compressed granules that a tile writes of an image, in rows. -/
def Image.zcWritten (m : Image) (rows : Nat) (pieces : List (Nat × List Byte)) : Nat × Nat :=
  zcCount m.zc m.fmt (m.w * m.c) rows (pieces.map (·.2.length))

/-- The rows and tiles that a task asks for, of ho output rows and `blocks` tiles per band; without an output row there is no
bound to hold the rows against (R150, R154, R156, R143; DESIGN CHOICE, unsafe, log 70). -/
def bandsOk (d : Desc) (ho outY0 outRows tileRows blocks : Nat) : Bool :=
  1 ≤ outRows && (ho == 0 || outY0 + outRows ≤ ho) && 1 ≤ tileRows && tileRows ≤ outRows &&
    d.tiles == ceilDiv outRows tileRows * blocks

/-- T of R153 over the batches' (load, compute) cycles, after the fixed part. -/
def batchCycles (fixed : Nat) (bs : List (Nat × Nat)) : Nat :=
  match bs with
  | [] => fixed
  | (l, c) :: rest =>
    (rest.foldl (fun (t, prev) (l, c) => (t + c + (l - prev), c)) (fixed + l + c, c)).1

/-- The (first, count) pieces of n by k. -/
def ranges (first n k : Nat) : List (Nat × Nat) :=
  (List.range (ceilDiv n k)).map fun i => (first + i * k, min k (n - i * k))

/-! CONV (R147 to R152). -/

/-- CONV's parameters (R150). -/
structure ConvDims where
  h : Nat
  w : Nat
  cIn : Nat
  n : Nat
  kh : Nat
  kw : Nat
  sh : Nat
  sw : Nat
  pad : Nat
  dil : Nat
  mode : Nat
  ldi : Nat
  pi : Nat
  ldo : Nat
  po : Nat
  outY0 : Nat
  outRows : Nat
  tileRows : Nat
  ws : Nat
  rb : Nat
  ldb : Nat
  reserved : Bool
  deriving DecidableEq, Repr

/-- Read them. -/
def convDims (s : State) (d : Desc) : ConvDims :=
  let p := s.param d
  ⟨p 0, p 1, p 2, p 3, p 4, p 5, p 6, p 7, p 8, p 9, p 10, p 11, p 12, p 13, p 14, p 15, p 16, p 17, p 18, p 19, p 20,
    p 21 != 0 || p 22 != 0 || p 23 != 0⟩

/-- A fold or unfold code as a factor. -/
def foldFactor (code : Nat) : Nat := 2 ^ code

/-- The fold factor f. -/
def ConvDims.fold (x : ConvDims) : Nat := foldFactor (bitsOf x.mode 3 2)
/-- The unfold factor u. -/
def ConvDims.unfold (x : ConvDims) : Nat := foldFactor (bitsOf x.mode 5 4)
/-- Channels after the fold, C_f. -/
def ConvDims.cf (x : ConvDims) : Nat := x.fold * x.fold * x.cIn

/-- C' of R149: C_f rounded up to a group, or to 16 in the 16-bit mode. -/
def ConvDims.cPad (x : ConvDims) (d : Desc) : Nat :=
  roundUp x.cf (if shareMode d.fmtB d.fmtA = some .bits16 then 16 else d.groupSize)

/-- The reduction length K. -/
def ConvDims.red (x : ConvDims) (d : Desc) : Nat := x.kh * x.kw * x.cPad d

/-- The vertical axis, on the folded tensor. -/
def ConvDims.axisY (x : ConvDims) : Axis :=
  ⟨ceilDiv x.h x.fold, x.kh, x.sh, bitsOf x.dil 3 0, bitsOf x.pad 7 0, bitsOf x.pad 15 8, bitsOf x.mode 1 0⟩

/-- The horizontal axis. -/
def ConvDims.axisX (x : ConvDims) : Axis :=
  ⟨ceilDiv x.w x.fold, x.kw, x.sw, bitsOf x.dil 7 4, bitsOf x.pad 23 16, bitsOf x.pad 31 24, bitsOf x.mode 1 0⟩

/-- Computed columns Wo. -/
def ConvDims.wo (x : ConvDims) : Nat := x.axisX.out.toNat
/-- Computed rows Ho. -/
def ConvDims.ho (x : ConvDims) : Nat := x.axisY.out.toNat

/-- The stored input. -/
def ConvDims.input (x : ConvDims) (d : Desc) : Image := ⟨d.aAddr, x.h, x.w, x.cIn, d.fmtA, x.ldi, x.pi, d.zcA⟩

/-- The stored output. -/
def ConvDims.output (x : ConvDims) (d : Desc) : Image :=
  ⟨d.dstAddr, x.unfold * x.ho, x.unfold * x.wo, x.n / (x.unfold * x.unfold), d.fmtOut, x.ldo, x.po, d.zcDst⟩

/-- The column blocks that tiles split (R151): one with unfold. -/
def ConvDims.tileBlocks (x : ConvDims) : Nat := if x.unfold = 1 then ceilDiv x.n 128 else 1

/-- The footprint F of a batch (R152). -/
def ConvDims.footprint (x : ConvDims) : Nat :=
  ((x.rb - 1) * x.sh + x.axisY.ke) * x.fold * (((x.ws - 1) * x.sw + x.axisX.ke) * x.fold) * x.pi

/-- The values that do not depend on the output size are in range (R141, R145, R148, R150, R152). -/
def ConvDims.valuesOk (x : ConvDims) : Bool :=
  let r (v lo hi : Nat) : Bool := lo ≤ v && v ≤ hi
  r x.h 1 65536 && r x.w 1 65536 && r x.cIn 1 65536 && r x.n 1 65536 && r x.kh 1 31 && r x.kw 1 31 &&
    r x.sh 1 16 && r x.sw 1 16 && x.dil / 256 == 0 && r (bitsOf x.dil 3 0) 1 8 && r (bitsOf x.dil 7 4) 1 8 &&
    x.mode / 64 == 0 && bitsOf x.mode 1 0 != 3 && bitsOf x.mode 3 2 != 3 && bitsOf x.mode 5 4 != 3 &&
    x.axisY.padOk && x.axisX.padOk && r x.ws 1 256 && r x.rb 1 256 && x.rb * x.ws ≤ 256 && !x.reserved &&
    x.n % (x.unfold * x.unfold) == 0 && x.footprint ≤ 32768

/-- The stored rows and columns that a batch of computed rows and columns reaches. -/
def ConvDims.reach (x : ConvDims) (y ny c nc : Nat) : List Nat × List Nat :=
  (foldCoords x.fold x.h (x.axisY.reached y ny), foldCoords x.fold x.w (x.axisX.reached c nc))

/-- The batches of a task in order, as (load_b, c_b). -/
def convBatches (s : State) (d : Desc) (x : ConvDims) (mode : ShareMode) : List (Nat × Nat) :=
  (ranges x.outY0 x.outRows x.tileRows).flatMap fun (y0, ny) =>
    (List.range x.tileBlocks).flatMap fun _ =>
      (ranges 0 x.wo x.ws).flatMap fun (c0, nc) =>
        (ranges y0 ny x.rb).map fun (y, n) =>
          let (ys, xs) := x.reach y n c0 nc
          (batchLoad s (x.input d) ys xs,
            (if x.unfold = 1 then 1 else ceilDiv x.n 128) * ceilDiv (x.red d) mode.depth * max (n * nc) mode.load)

/-- The extent of operand A: the input rows that taps reach, whole at ldi (R152). -/
def reachedExtent (base ld : Nat) (ys : List Nat) : Nat × Nat :=
  match ys with
  | [] => (base, 0)
  | y :: rest =>
    let lo := rest.foldl min y
    (base + lo * ld, (rest.foldl max y + 1 - lo) * ld)

/-- The extent of the destination rows. -/
def outputExtent (m : Image) (y n : Nat) : Nat × Nat :=
  (m.base + y * m.ld, if n = 0 then 0 else (n - 1) * m.ld + m.rowBytes)

/-- CONV's plan. -/
def convPlan (s : State) (r : Reach) (d : Desc) : Plan :=
  let x := convDims s d
  match shareMode d.fmtB d.fmtA with
  | none => badParam
  | some mode =>
    let split := x.unfold == 1 && 128 < x.n
    let small := decide (x.axisY.out ≤ 0) || decide (x.axisX.out ≤ 0)
    let ok := 6 ≤ d.paramLen && d.bAddr != 0 && d.gOut == 0 && d.nOut == 0 && shareHeaderOk s d && s.header d 4 == 0 &&
      x.valuesOk && (x.input d).ok r.fur && (x.output d).ok r.fur &&
      bandsOk d x.ho x.outY0 x.outRows x.tileRows x.tileBlocks &&
      (!split || (x.po % 32 == 0 && !d.zcDst))
    if !ok then badParam
    else if small then { sizeBad := true }
    else
      let k := x.red d
      let ys := foldCoords x.fold x.h (x.axisY.reached x.outY0 x.outRows)
      let a := reachedExtent d.aAddr x.ldi ys
      let b := (d.bAddr, (ceilDiv x.n 128 - 1) * x.ldb + ceilDiv k mode.depth * mode.depth * 16 * fmtWidth d.fmtB)
      let dst := outputExtent (x.output d) (x.unfold * x.outY0) (x.unfold * x.outRows)
      { reads := [a, b] ++ shareHeaderReads s d 0 k x.n, writes := [dst], extA := a, extB := b, extDst := dst
        cycles := batchCycles (160 + mode.load) (convBatches s d x mode) }

/-- The reduction vector of computed pixel (y, x) (R147, R149). -/
def convVector (x : ConvDims) (d : Desc) (rows : List (Nat × List Val)) (y c : Nat) : List Val :=
  let m := x.input d
  let f := x.fold
  (List.range x.kh).flatMap fun ky => (List.range x.kw).flatMap fun kx =>
    (List.range (x.cPad d)).map fun ch =>
      if x.cf ≤ ch then Val.zero
      else
        match x.axisY.tap y ky, x.axisX.tap c kx with
        | some v, some h =>
          let sub := ch / x.cIn
          let sy := f * v + sub / f
          let sx := f * h + sub % f
          if sy < x.h ∧ sx < x.w then m.at rows sy sx (ch % x.cIn) else Val.zero
        | _, _ => Val.zero

/-- y1 of computed pixel (y, c) for a list of weight columns: values, NaN inputs, gated MACs. -/
def convPixel (x : ConvDims) (d : Desc) (rows : List (Nat × List Val)) (ws : List WeightCol) (y c : Nat) :
    List Val × Nat × Nat :=
  shareRow d [] ⟨convVector x d rows y c, [], []⟩ ws

/-- The element index of R74 over the whole stored output (R151). -/
def storedIndex (m : Image) (y x c : Nat) : Nat := (y * m.w + x) * m.c + c

/-- Narrow one pixel's channels from element index i on. -/
def narrowPixel (d : Desc) (i : Nat) (ys : List Val) : List Nat × List Nat :=
  let (es, _, ev) := narrowOutputs { d with gOut := 0 } i ys
  (es, ev)

/-- The columns of a row, folded: results with event and gated counts. -/
def convRow (x : ConvDims) (d : Desc) (rows : List (Nat × List Val)) (ws : List WeightCol) (first : Nat) (y : Nat) :
    List (List Nat) × List Nat × Nat :=
  (List.range x.wo).foldl (fun (ps, ev, g) c =>
    let (ys, nans, gated) := convPixel x d rows ws y c
    let (es, e) := narrowPixel d (storedIndex (x.output d) y c first) ys
    (ps ++ [es], addEvents (addEvents ev e) [0, 0, 0, nans], g + gated)) ([], [0, 0, 0, 0], 0)

/-- One stored row of an unfolded output: row u·y + dy from computed row y (R148). -/
def unfoldRow (x : ConvDims) (d : Desc) (grid : List (List Val)) (y dy : Nat) : List (List Nat) × List Nat :=
  let m := x.output d
  (List.range m.w).foldl (fun (ps, ev) sx =>
    let vals := (grid[sx / x.unfold]?).getD []
    let ch := (dy * x.unfold + sx % x.unfold) * m.c
    let (es, e) := narrowPixel d (storedIndex m (x.unfold * y + dy) sx 0) ((vals.drop ch).take m.c)
    (ps ++ [es], addEvents ev e)) ([], [0, 0, 0, 0])

/-- The weight columns of channels first .. first + n - 1. -/
def convWeights (s : State) (d : Desc) (x : ConvDims) (first n : Nat) : List WeightCol :=
  (List.range n).map fun j =>
    let c := (first + j) / 128
    weightCol s d (d.bAddr + c * x.ldb) c ((first + j) % 128) (x.red d)

/-- The pixels of one row of one column block, where N > 128 splits them: granules of its own channels (R142). -/
def splitPieces (m : Image) (y first : Nat) (pixels : List (List Nat)) : List (Nat × List Byte) :=
  pixels.zipIdx.map fun (p, x) =>
    (m.base + y * m.ld + x * m.ps + first * fmtWidth m.fmt / 8, padGranules (packElems (fmtWidth m.fmt) p))

/-- Tile (band, block) of a CONV: pieces, events, gated MACs. -/
def convTile (s : State) (d : Desc) (x : ConvDims) (mode : ShareMode) (band : Nat × Nat) (block : Nat) : Tile × Nat :=
  let m := x.output d
  let inp := x.input d
  let strips := ranges 0 x.wo x.ws
  let rows := inp.rows s (x.reach band.1 band.2 0 x.wo).1
  let split := x.unfold == 1 && 128 < x.n
  let first := if split then 128 * block else 0
  let ws := convWeights s d x first (if split then min 128 (x.n - first) else x.n)
  let (pieces, ev, gated) := (List.range band.2).foldl (fun (ps, ev, g) r =>
    let y := band.1 + r
    if x.unfold = 1 then
      let (pixels, e, k) := convRow x d rows ws first y
      let p := if split then splitPieces m y first pixels else [(m.base + y * m.ld, m.rowOut pixels)]
      (ps ++ p, addEvents ev e, g + k)
    else
      let outs := (List.range x.wo).map fun c => convPixel x d rows ws y c
      let k := sumNat (outs.map fun o => o.2.2)
      let nans := sumNat (outs.map fun o => o.2.1)
      let stored := (List.range x.unfold).map fun dy => (dy, unfoldRow x d (outs.map (·.1)) y dy)
      (ps ++ stored.map fun (dy, o) => (m.base + (x.unfold * y + dy) * m.ld, m.rowOut o.1),
        stored.foldl (fun e (_, o) => addEvents e o.2) (addEvents ev [0, 0, 0, nans]), g + k))
    ([], [0, 0, 0, 0], 0)
  let wbytes := ceilDiv (x.red d) mode.depth * mode.depth * 16 * fmtWidth d.fmtB
  let wreads := if split then [(d.bAddr + block * x.ldb, wbytes)] else rowReads d.bAddr (ceilDiv x.n 128) x.ldb wbytes
  let reads := strips.flatMap fun (c0, nc) =>
    let (ys, xs) := x.reach band.1 band.2 c0 nc
    ys.flatMap fun y => inp.spans s y xs
  let batches := strips.flatMap fun (c0, nc) => (ranges band.1 band.2 x.rb).map fun (y, n) => x.reach y n c0 nc
  let zc := zcAdd (inp.zcRead s batches) (m.zcWritten (x.unfold * band.2) pieces)
  ({ pieces := orderPieces joinPixels pieces, events := ev, reads := reads ++ wreads, zc := zc }, gated)

/-- CONV (R149 to R152). -/
def convWork (s : State) (_ : Reach) (d : Desc) : Work × State :=
  let x := convDims s d
  match shareMode d.fmtB d.fmtA with
  | none => ({ cause := 0x02 }, s)
  | some mode =>
    let tiles := (ranges x.outY0 x.outRows x.tileRows).flatMap fun band =>
      (List.range x.tileBlocks).map fun b => convTile s d x mode band b
    ({ reads := shareHeaderReads s d 0 (x.red d) x.n, tiles := tiles.map (·.1)
       macs := x.outRows * x.wo * x.n * x.red d, gated := sumNat (tiles.map (·.2)) }, s)

/-- CONV. -/
def convOp : OpDef := ⟨shareFormats, convPlan, convWork⟩

/-! POOL (R154, R155). -/

/-- The formats of POOL and RESAMPLE (R155, R156, R70, R71). -/
def windowFormats (d : Desc) : Bool := storable d.fmtA && d.fmtA != 4 && storable d.fmtOut && d.round != 3 && outGroupOk d

/-- POOL's parameters. -/
structure PoolDims where
  h : Nat
  w : Nat
  c : Nat
  kh : Nat
  kw : Nat
  sh : Nat
  sw : Nat
  pad : Nat
  mode : Nat
  ldi : Nat
  pi : Nat
  ldo : Nat
  po : Nat
  outY0 : Nat
  outRows : Nat
  tileRows : Nat
  ws : Nat
  rb : Nat
  reserved : Bool
  deriving DecidableEq, Repr

/-- Read them. -/
def poolDims (s : State) (d : Desc) : PoolDims :=
  let p := s.param d
  ⟨p 0, p 1, p 2, p 3, p 4, p 5, p 6, p 7, p 8, p 9, p 10, p 11, p 12, p 13, p 14, p 15, p 16, p 17,
    (List.range 6).any fun i => p (18 + i) != 0⟩

/-- The vertical axis. -/
def PoolDims.axisY (x : PoolDims) : Axis := ⟨x.h, x.kh, x.sh, 1, bitsOf x.pad 7 0, bitsOf x.pad 15 8, bitsOf x.mode 1 0⟩
/-- The horizontal axis. -/
def PoolDims.axisX (x : PoolDims) : Axis := ⟨x.w, x.kw, x.sw, 1, bitsOf x.pad 23 16, bitsOf x.pad 31 24, bitsOf x.mode 1 0⟩
/-- Output columns. -/
def PoolDims.wo (x : PoolDims) : Nat := x.axisX.out.toNat
/-- Output rows. -/
def PoolDims.ho (x : PoolDims) : Nat := x.axisY.out.toNat
/-- The input image. -/
def PoolDims.input (x : PoolDims) (d : Desc) : Image := ⟨d.aAddr, x.h, x.w, x.c, d.fmtA, x.ldi, x.pi, d.zcA⟩
/-- The output image. -/
def PoolDims.output (x : PoolDims) (d : Desc) : Image := ⟨d.dstAddr, x.ho, x.wo, x.c, d.fmtOut, x.ldo, x.po, d.zcDst⟩
/-- Average pooling. -/
def PoolDims.average (x : PoolDims) : Bool := bitOf x.mode 2

/-- Values in range, apart from those that depend on the output size (R154, R155; the footprint of R152). -/
def PoolDims.valuesOk (x : PoolDims) : Bool :=
  let r (v lo hi : Nat) : Bool := lo ≤ v && v ≤ hi
  r x.h 1 65536 && r x.w 1 65536 && r x.c 1 65536 && r x.kh 1 31 && r x.kw 1 31 && r x.sh 1 16 && r x.sw 1 16 &&
    x.mode / 16 == 0 && bitsOf x.mode 1 0 != 3 && x.axisY.padOk && x.axisX.padOk &&
    (bitsOf x.mode 1 0 != 0 ||
      (x.axisY.p0 < x.kh && x.axisY.p1 < x.kh && x.axisX.p0 < x.kw && x.axisX.p1 < x.kw)) &&
    r x.ws 1 256 && r x.rb 1 256 && x.rb * x.ws ≤ 256 && !x.reserved &&
    ((x.rb - 1) * x.sh + x.kh) * ((x.ws - 1) * x.sw + x.kw) * x.pi ≤ 32768

/-- The (load_b, c_b) of a POOL's batches (R155). -/
def poolBatches (s : State) (d : Desc) (x : PoolDims) : List (Nat × Nat) :=
  (ranges x.outY0 x.outRows x.tileRows).flatMap fun (y0, ny) =>
    (ranges 0 x.wo x.ws).flatMap fun (c0, nc) =>
      (ranges y0 ny x.rb).map fun (y, n) =>
        (batchLoad s (x.input d) (x.axisY.reached y n) (x.axisX.reached c0 nc),
          (x.kh * x.kw + bval x.average) * ceilDiv (n * nc * x.c) 256)

/-- POOL's plan. -/
def poolPlan (s : State) (r : Reach) (d : Desc) : Plan :=
  let x := poolDims s d
  let small := decide (x.axisY.out ≤ 0) || decide (x.axisX.out ≤ 0)
  let ok := 6 ≤ d.paramLen && d.gOut == 0 && s.header d 4 == 0 && s.header d 5 == 0 && x.valuesOk &&
    (x.input d).ok r.fur && (x.output d).ok r.fur && bandsOk d x.ho x.outY0 x.outRows x.tileRows 1
  if !ok then badParam
  else if small then { sizeBad := true }
  else
    let a := reachedExtent d.aAddr x.ldi (x.axisY.reached x.outY0 x.outRows)
    let dst := outputExtent (x.output d) x.outY0 x.outRows
    { reads := realExtents [a], writes := [dst], extA := a, extDst := dst
      cycles := batchCycles 160 (poolBatches s d x) }

/-- The taps of one window that count, in ascending (ky, kx): a value, or +0 for a counted padded tap (R155). -/
def poolTaps (x : PoolDims) (m : Image) (rows : List (Nat × List Val)) (y c ch : Nat) : List Val :=
  (List.range x.kh).flatMap fun ky => (List.range x.kw).filterMap fun kx =>
    match x.axisY.tap y ky, x.axisX.tap c kx with
    | some v, some h => some (m.at rows v h ch)
    | _, _ => if x.average && bitOf x.mode 3 then some Val.zero else none

/-- One pooled value (R155, R89). -/
def poolValue (average : Bool) (taps : List Val) : Val :=
  match taps with
  | [] => Val.zero
  | v :: vs =>
    if average then fpMul (vs.foldl fpAdd v) (fpDiv (.ofNat 1) (.ofNat (vs.length + 1)))
    else vs.foldl Val.max v

/-- The tiles of an op whose output rows are computed pixel by pixel as FP32 values. -/
def imageTiles (d : Desc) (m : Image) (bands : List (Nat × Nat)) (pixel : Nat → Nat → Nat → Val)
    (reads : Nat × Nat → List (Nat × Nat)) (zin : Nat × Nat → Nat × Nat) : List Tile :=
  bands.map fun band =>
    let (pieces, ev) := (List.range band.2).foldl (fun (ps, ev) r =>
      let y := band.1 + r
      let (pixels, e) := (List.range m.w).foldl (fun (px, ev) c =>
        let ns := (List.range m.c).map fun ch =>
          let v := pixel y c ch
          narrow d.fmtOut (roundingOf d.round d.seed d.tag (storedIndex m y c ch)) v (fp32Lsb v)
        (px ++ [ns.map (·.bits)], ns.foldl (fun ev n => addEvent ev n.event) ev)) ([], [0, 0, 0, 0])
      (ps ++ [(m.base + y * m.ld, m.rowOut pixels)], addEvents ev e)) ([], [0, 0, 0, 0])
    { pieces := orderPieces joinPixels pieces, events := ev, reads := reads band
      zc := zcAdd (zin band) (m.zcWritten band.2 pieces) }

/-- POOL. -/
def poolWork (s : State) (_ : Reach) (d : Desc) : Work × State :=
  let x := poolDims s d
  let m := x.input d
  let rows := m.rows s (x.axisY.reached x.outY0 x.outRows)
  let strips := ranges 0 x.wo x.ws
  let reads (b : Nat × Nat) : List (Nat × Nat) := strips.flatMap fun (c0, nc) =>
    (x.axisY.reached b.1 b.2).flatMap fun y => m.spans s y (x.axisX.reached c0 nc)
  let zin (b : Nat × Nat) : Nat × Nat := m.zcRead s (strips.flatMap fun (c0, nc) =>
    (ranges b.1 b.2 x.rb).map fun (y, n) => (x.axisY.reached y n, x.axisX.reached c0 nc))
  ({ tiles := imageTiles d (x.output d) (ranges x.outY0 x.outRows x.tileRows)
       (fun y c ch => poolValue x.average (poolTaps x m rows y c ch)) reads zin }, s)

/-- POOL. -/
def poolOp : OpDef := ⟨windowFormats, poolPlan, poolWork⟩

/-! RESAMPLE (R156 to R158). -/

/-- RESAMPLE's parameters. -/
structure ResampleDims where
  h : Nat
  w : Nat
  c : Nat
  ho : Nat
  wo : Nat
  mode : Nat
  ldi : Nat
  pi : Nat
  ldo : Nat
  po : Nat
  outY0 : Nat
  outRows : Nat
  tileRows : Nat
  reserved : Bool
  deriving DecidableEq, Repr

/-- Read them. -/
def resampleDims (s : State) (d : Desc) : ResampleDims :=
  let p := s.param d
  ⟨p 0, p 1, p 2, p 3, p 4, p 5, p 6, p 7, p 8, p 9, p 10, p 11, p 12, p 13 != 0 || p 14 != 0 || p 15 != 0⟩

/-- round_half_up(a / b) (R157). -/
def roundHalfUp (a : Int) (b : Nat) : Int := (2 * a + b) / (2 * b)

/-- The two taps and λ in 1/65,536 of a bilinear position (R157). -/
def bilinear (corners : Bool) (n m j : Nat) : Nat × Nat × Nat :=
  let p : Int :=
    if corners then (if 1 < m then roundHalfUp (j * (n - 1) * 65536 : Nat) (m - 1) else 0)
    else roundHalfUp ((((2 * j + 1) * n : Nat) - (m : Int)) * 65536) (2 * m)
  let q := (max p 0).toNat
  if n - 1 ≤ q / 65536 then (n - 1, n - 1, 0) else (q / 65536, q / 65536 + 1, q % 65536)

/-- The index of a nearest position (R157). -/
def nearest (corners : Bool) (n m j : Nat) : Nat :=
  if corners then (if 1 < m then (2 * j * (n - 1) + (m - 1)) / (2 * (m - 1)) else 0)
  else min ((2 * j + 1) * n / (2 * m)) (n - 1)

/-- Bilinear method. -/
def ResampleDims.isBilinear (x : ResampleDims) : Bool := bitOf x.mode 0
/-- Align-corners coordinates. -/
def ResampleDims.corners (x : ResampleDims) : Bool := bitOf x.mode 1
/-- The input image. -/
def ResampleDims.input (x : ResampleDims) (d : Desc) : Image := ⟨d.aAddr, x.h, x.w, x.c, d.fmtA, x.ldi, x.pi, d.zcA⟩
/-- The output image. -/
def ResampleDims.output (x : ResampleDims) (d : Desc) : Image :=
  ⟨d.dstAddr, x.ho, x.wo, x.c, d.fmtOut, x.ldo, x.po, d.zcDst⟩

/-- The coordinates that an output coordinate reads on an axis, each once. -/
def ResampleDims.taps (x : ResampleDims) (n m j : Nat) : List Nat :=
  if x.isBilinear then
    let (a, b, _) := bilinear x.corners n m j
    if a = b then [a] else [a, b]
  else [nearest x.corners n m j]

/-- The rows that a range of output rows reads. -/
def ResampleDims.rowsOf (x : ResampleDims) (y n : Nat) : List Nat :=
  ((List.range n).flatMap fun i => x.taps x.h x.ho (y + i)).eraseDups

/-- The columns that the output reads. -/
def ResampleDims.cols (x : ResampleDims) : List Nat :=
  ((List.range x.wo).flatMap fun j => x.taps x.w x.wo j).eraseDups

/-- RESAMPLE's plan. -/
def resamplePlan (s : State) (r : Reach) (d : Desc) : Plan :=
  let x := resampleDims s d
  let within (v : Nat) : Bool := 1 ≤ v && v ≤ 65536
  let small := x.ho == 0 || x.wo == 0
  let ok := 5 ≤ d.paramLen && d.gOut == 0 && s.header d 4 == 0 && s.header d 5 == 0 && within x.h &&
    within x.w && within x.c && x.ho ≤ 65536 && x.wo ≤ 65536 && x.mode / 4 == 0 && !x.reserved &&
    (x.input d).ok r.fur && (x.output d).ok r.fur && bandsOk d x.ho x.outY0 x.outRows x.tileRows 1 &&
    (x.ho == 0 || (List.range x.outRows).all fun i => (x.taps x.h x.ho (x.outY0 + i)).length * x.w * x.pi ≤ 32768)
  if !ok then badParam
  else if small then { sizeBad := true }
  else
    let a := reachedExtent d.aAddr x.ldi (x.rowsOf x.outY0 x.outRows)
    let dst := outputExtent (x.output d) x.outY0 x.outRows
    let cols := x.cols
    { reads := realExtents [a], writes := [dst], extA := a, extDst := dst
      cycles := batchCycles 160 ((List.range x.outRows).map fun i =>
        (batchLoad s (x.input d) (x.rowsOf (x.outY0 + i) 1) cols,
          (if x.isBilinear then 6 else 1) * ceilDiv (x.wo * x.c) 256)) }

/-- Round v·λ + a once to FP32, with λ in 1/65,536. -/
def fmaQ16 (v : Val) (l : Nat) (a : Val) : Val := rne32 ((v.mul (.fin false l (-16))).add a)

/-- One interpolated value between two taps: a := rne32(v0·(1 − λ)); fma(v1, λ, a) (R158). -/
def lerp (v0 v1 : Val) (l : Nat) : Val := fmaQ16 v1 l (rne32 (v0.mul (.fin false (65536 - l) (-16))))

/-- One resampled value (R157, R158). -/
def resampleValue (x : ResampleDims) (m : Image) (rows : List (Nat × List Val)) (y c ch : Nat) : Val :=
  if x.isBilinear then
    let (y0, y1, ly) := bilinear x.corners x.h x.ho y
    let (x0, x1, lx) := bilinear x.corners x.w x.wo c
    lerp (lerp (m.at rows y0 x0 ch) (m.at rows y0 x1 ch) lx) (lerp (m.at rows y1 x0 ch) (m.at rows y1 x1 ch) lx) ly
  else m.at rows (nearest x.corners x.h x.ho y) (nearest x.corners x.w x.wo c) ch

/-- RESAMPLE. -/
def resampleWork (s : State) (_ : Reach) (d : Desc) : Work × State :=
  let x := resampleDims s d
  let m := x.input d
  let rows := m.rows s (x.rowsOf x.outY0 x.outRows)
  let cols := x.cols
  let reads (b : Nat × Nat) : List (Nat × Nat) := (x.rowsOf b.1 b.2).flatMap fun y => m.spans s y cols
  let zin (b : Nat × Nat) : Nat × Nat := m.zcRead s ((List.range b.2).map fun i => (x.rowsOf (b.1 + i) 1, cols))
  ({ tiles := imageTiles d (x.output d) (ranges x.outY0 x.outRows x.tileRows)
       (fun y c ch => resampleValue x m rows y c ch) reads zin }, s)

/-- RESAMPLE. -/
def resampleOp : OpDef := ⟨windowFormats, resamplePlan, resampleWork⟩

/-! COMPRESS and DECOMPRESS (R161). -/

/-- Their parameters. -/
structure PackDims where
  e : Nat
  rows : Nat
  lda : Nat
  ldd : Nat
  tileRows : Nat
  reserved : Bool
  deriving DecidableEq, Repr

/-- Read them. -/
def packDims (s : State) (d : Desc) : PackDims :=
  let p := s.param d
  ⟨p 0, p 1, p 2, p 3, p 4, p 5 != 0 || p 6 != 0 || p 7 != 0⟩

/-- The format check: fmt_out equals fmt_a, both stored formats. Nothing is narrowed, and the rounding mode is not judged (DESIGN
CHOICE, unsafe, log 69). -/
def packFormats (d : Desc) : Bool := storable d.fmtA && d.fmtA == d.fmtOut

/-- The plan of either, with the compressed side named. -/
def packPlan (compress : Bool) (s : State) (_ : Reach) (d : Desc) : Plan :=
  let x := packDims s d
  let w := fmtWidth d.fmtA
  let packedLd := if compress then x.ldd else x.lda
  let ok := 4 ≤ d.paramLen && 1 ≤ x.e && x.e ≤ 1048576 && 1 ≤ x.rows && x.rows ≤ 65536 && 1 ≤ x.tileRows &&
    !x.reserved && !d.zcA && !d.zcDst && d.tiles == ceilDiv x.rows x.tileRows && packedLd % 32 == 0 &&
    zcCapacity w x.e ≤ packedLd && x.ldd % 32 == 0
  if !ok then badParam
  else
    let a := stridedExtent d.aAddr x.rows x.lda (if compress then rowGranules d.fmtA x.e else zcCapacity w x.e)
    let dst := stridedExtent d.dstAddr x.rows x.ldd (if compress then zcCapacity w x.e else rowGranules d.fmtA x.e)
    { reads := [a], writes := [dst], extA := a, extDst := dst, cycles := 160 + x.rows * ceilDiv x.e 64 }

/-- The work of either; rows that overlap are written in order, each over those before it. -/
def packWork (compress : Bool) (s : State) (_ : Reach) (d : Desc) : Work × State :=
  let x := packDims s d
  let tiles : List Tile := (ranges 0 x.rows x.tileRows).map fun (r0, n) =>
    let pieces := (List.range n).map fun i =>
      (d.dstAddr + (r0 + i) * x.ldd,
        writeRow compress d.fmtA (readRow s (!compress) d.fmtA (d.aAddr + (r0 + i) * x.lda) x.e))
    let reads := (List.range n).flatMap fun i => readSpans s (!compress) d.fmtA (d.aAddr + (r0 + i) * x.lda) x.e
    { pieces := orderPieces (fun _ b => b) pieces, reads := reads
      zc := zcCount true d.fmtA x.e n (if compress then pieces.map (·.2.length) else reads.map (·.2)) }
  ({ tiles := tiles }, s)

/-- COMPRESS. -/
def compressOp : OpDef := ⟨packFormats, packPlan true, packWork true⟩

/-- DECOMPRESS. -/
def decompressOp : OpDef := ⟨packFormats, packPlan false, packWork false⟩

end Sys2Proof.Machine
end

