-- ==== Sys2Proof/Machine/Harrow.lean ====
section
/-! DEFINITION. The Harrow: ATTN_BLOCK and KV_APPEND over key/value sequences (spec 07_harrow_attention.md). -/

namespace Sys2Proof.Machine

/-! Sequences, windrows and bales (R164 to R168). -/

/-- A sequence header with its windrow record. -/
structure Sequence where
  h      : Nat                       -- header address
  table  : Nat
  gen    : Nat
  first  : Nat                       -- first_bale
  cap    : Nat
  fmtK   : Nat
  fmtV   : Nat
  g      : Nat                       -- code of G
  heads  : Nat                       -- h_kv
  d      : Nat
  nTok   : Nat
  headerOk : Bool
  recordOk : Bool
  deriving DecidableEq, Repr

/-- The formats a key/value cache may hold. -/
def cacheFmt (code : Nat) : Bool := code == 1 || code == 8 || code == 9 || code == 10 || code == 11

/-- Read the header and the windrow record at h (R165, R167). -/
def readSequence (s : State) (h : Nat) : Sequence :=
  let b := s.bytes h 32
  let r := s.bytes (h + 32) 32
  let shape := leAt b 19 1
  let dim := leAt b 20 1
  let first := leAt b 12 4
  let nTok := leAt r 0 4
  { h := h, table := leAt b 0 5, gen := leAt b 8 4, first := first, cap := leAt b 16 2
    fmtK := leAt b 18 1 % 16, fmtV := leAt b 18 1 / 16, g := shape % 4, heads := shape / 4 % 8 + 1, d := (dim % 16 + 1) * 16
    nTok := nTok
    headerOk := leAt b 28 4 == (crc32c (b.take 28)).toNat && leAt b 5 3 == 0 && first ≤ 65535 && 1 ≤ leAt b 16 2 &&
      cacheFmt (leAt b 18 1 % 16) && cacheFmt (leAt b 18 1 / 16) && shape % 4 != 3 && shape / 32 == 0 && dim / 16 == 0 &&
      leAt b 21 7 == 0
    recordOk := leAt r 28 4 == (crc32c (r.take 28)).toNat && nTok ≤ 4194304 && 64 * first ≤ nTok }

/-- The group size of a header's code. -/
def Sequence.groupSize (q : Sequence) : Nat := 32 * 2 ^ q.g

/-- A format with E8M0 scales in the cache. -/
def scaledFmt (code : Nat) : Bool := code == 1 || code == 8 || code == 9

/-- Bytes of one K or V row (R166). -/
def kvRow (d fmt : Nat) : Nat := 32 * ceilDiv (d * fmtWidth fmt) 256

/-- Scales per row. -/
def Sequence.scaleBytes (q : Sequence) : Nat := ceilDiv q.d q.groupSize

/-- Bytes of a section of rows, and of its scales. -/
def Sequence.rowsBytes (q : Sequence) (fmt : Nat) : Nat := 64 * q.heads * kvRow q.d fmt

/-- Bytes of a scale section, whole granules; none for an unscaled format. -/
def Sequence.scalesBytes (q : Sequence) (fmt : Nat) : Nat :=
  if scaledFmt fmt then roundUp (64 * q.heads * q.scaleBytes) 32 else 0

/-- Offset of the V rows in a bale. -/
def Sequence.vOffset (q : Sequence) : Nat := q.rowsBytes q.fmtK + q.scalesBytes q.fmtK

/-- The bale size Z. -/
def Sequence.baleBytes (q : Sequence) : Nat := q.vOffset + q.rowsBytes q.fmtV + q.scalesBytes q.fmtV

/-- Offset and length of the row of token t and head hd in a bale, and of its scales. -/
def Sequence.rowAt (q : Sequence) (v : Bool) (t hd : Nat) : (Nat × Nat) × (Nat × Nat) :=
  let fmt := if v then q.fmtV else q.fmtK
  let base := if v then q.vOffset else 0
  let k := t * q.heads + hd
  ((base + k * kvRow q.d fmt, kvRow q.d fmt),
    (base + q.rowsBytes fmt + k * q.scaleBytes, if scaledFmt fmt then q.scaleBytes else 0))

/-- Present keys n_k (R168). -/
def Sequence.present (q : Sequence) : Nat := q.nTok - 64 * q.first

/-- Full bales that hold present keys. -/
def Sequence.fullBales (q : Sequence) : Nat := q.nTok / 64 - q.first

/-- A page-table entry. -/
def Sequence.entry (q : Sequence) (s : State) (i : Nat) : Nat := s.le (q.table + 8 * i) 8

/-- Where present key j lies: the address of its bale or of the windrow image, and its slot (R168). -/
def Sequence.place (q : Sequence) (s : State) (j : Nat) : Nat × Nat :=
  if j < 64 * q.fullBales then (q.entry s (j / 64), j % 64) else (q.h + 64, (64 * q.first + j) % 64)

/-- The sequence block lies in the Field range or headroom of one seedbed that the task reaches, in one of the ranges
of R136 (R164); for a check plot the own system slice stands in for them (R388). -/
def sequenceBlockOk (s : State) (r : Reach) (h z : Nat) : Bool :=
  let n := 64 + z
  h % 32 == 0 && s.reaches r h n true &&
    (match seedbedOf h with
     | some m =>
       seedbedOf (h + n - 1) == some m && s.seedRange m h 1 == s.seedRange m (h + n - 1) 1 &&
         (s.seedRange m h 1 != 2 || (match r with
           | .check _ => true
           | _ => false))
     | none => false)

/-- A page-table entry that names a bale the task can use (R166, R181). -/
def baleOk (s : State) (r : Reach) (q : Sequence) (i : Nat) (write : Bool) : Bool :=
  let e := q.entry s i
  i < q.cap && s.reaches r (q.table + 8 * i) 8 false && e != 0 && e < 2 ^ 40 && e % 32 == 0 &&
    (s.extentRegion e q.baleBytes).isSome && s.reaches r e q.baleBytes write

/-! ATTN_BLOCK (R169 to R179). -/

/-- ATTN_BLOCK's parameters (R170). -/
structure AttnDims where
  entries : Nat
  flags : Nat
  d : Nat
  rep : Nat
  window : Nat
  scale : Nat
  kFirst : Nat
  kCount : Nat
  ldq : Nat
  ldo : Nat
  lds : Nat
  reserved : Bool
  deriving DecidableEq, Repr

/-- Read them. -/
def attnDims (s : State) (d : Desc) : AttnDims :=
  let p := s.param d
  ⟨p 0, p 1, p 2, p 3, p 4, p 5, p 6, p 7, p 8, p 9, p 10, (List.range 5).any fun i => p (11 + i) != 0⟩

/-- Causal masking. -/
def AttnDims.causal (x : AttnDims) : Bool := bitOf x.flags 0
/-- Rows start from state rows. -/
def AttnDims.stateIn (x : AttnDims) : Bool := bitOf x.flags 1
/-- Rows end as state rows. -/
def AttnDims.stateOut (x : AttnDims) : Bool := bitOf x.flags 2

/-- The format checks of R169 that the descriptor alone decides. -/
def attnFormats (d : Desc) : Bool :=
  storable d.fmtA && d.fmtA != 3 && d.fmtA != 4 && d.fmtA != 12 && d.round != 3 && coulterFmt d.fmtOut && d.fmtOut != 4 &&
    (d.gOut == 0 || (emaxOf d.fmtOut).isSome)

/-- An output row: its element granules, and its scale granule with G_out (R487). -/
def attnRowBytes (d : Desc) (n : Nat) : Nat := rowGranules d.fmtOut n + if d.gOut = 0 then 0 else 32

/-- A state row (R177). -/
def stateRowBytes (n : Nat) : Nat := roundUp (8 + 4 * n) 32

/-- Bytes of the sequence block at h as its header gives them; its first two granules where the header is bad. -/
def sequenceBlockBytes (s : State) (h : Nat) : Nat :=
  let q := readSequence s h
  if q.headerOk then 64 + q.baleBytes else 64

/-- ATTN_BLOCK's plan. -/
def attnPlan (s : State) (_ : Reach) (d : Desc) : Plan :=
  let x := attnDims s d
  let ok := 5 ≤ d.paramLen && 1 ≤ x.entries && x.entries ≤ 128 && x.flags / 128 == 0 && 16 ≤ x.d && x.d ≤ 256 &&
    x.d % 16 == 0 && 1 ≤ x.rep && x.rep ≤ 128 && x.window ≤ 4194304 && !x.reserved && x.ldq % 32 == 0 &&
    x.ldo % 32 == 0 && x.lds % 32 == 0 && d.tiles == x.entries && d.fmtB == 0 && !d.scaleBBf16 && d.g == 0 &&
    d.nOut == 0 && !d.hasScale && !d.hasBias && !d.zcA && !d.zcDst && (d.bAddr == 0 || x.entries == 1) &&
    ([1, 2, 4, 5, 6, 7, 9, 10, 11].all fun i => s.header d i == 0) &&
    (d.gOut == 0 || attnRowBytes d x.d ≤ x.ldo)
  if !ok then badParam
  else
    let a := (d.aAddr, 64 * x.entries)
    let dst := (d.dstAddr, 32 * x.entries)
    let b := if d.bAddr = 0 then (0, 0) else (d.bAddr, sequenceBlockBytes s d.bAddr)
    { reads := realExtents [a, b], writes := [dst], extA := a, extB := b, extDst := dst, cycles := 160 }

/-- One entry of the list with its snapshot (R171, R172). -/
structure AttnEntry where
  q     : Nat
  qScale : Nat
  out   : Nat
  state : Nat
  pos0  : Nat
  mq    : Nat
  head  : Nat
  reservedSet : Bool
  seqHigh : Bool
  seq   : Sequence
  deriving DecidableEq, Repr

/-- Read entry j and its sequence. -/
def attnEntry (s : State) (d : Desc) (j : Nat) : AttnEntry :=
  let b := s.bytes (d.aAddr + 64 * j) 64
  { q := leAt b 8 8, qScale := leAt b 16 8, out := leAt b 24 8, state := leAt b 32 8, pos0 := leAt b 40 4
    mq := leAt b 44 2, head := leAt b 46 1, reservedSet := leAt b 47 8 != 0 || leAt b 55 8 != 0 || leAt b 63 1 != 0
    seqHigh := leAt b 5 3 != 0, seq := readSequence s (leAt b 0 5) }

/-- The bucket of n_k keys: the least bound at or above it; none above every bound (R188). -/
def State.bucketOf (s : State) (fur k : Nat) : Option Nat :=
  (List.range 8).find? fun b => k ≤ s.bits (Reg.furHwBucket fur b) 22 0

/-- An extent that an entry names: aligned, inside one mapped range, and reached. -/
def entryExtentOk (s : State) (r : Reach) (a n : Nat) (write : Bool) : Bool :=
  a != 0 && a % 32 == 0 && a < 2 ^ 40 && (s.extentRegion a n).isSome && s.reaches r a n write

/-- The K blocks that the task takes of an entry: first and one past the last (R175). -/
def AttnDims.blocks (x : AttnDims) (q : Sequence) : List Nat :=
  ((List.range (ceilDiv q.present 128)).filter fun k => x.kFirst ≤ k && (x.kCount == 0 || k < x.kFirst + x.kCount))

/-- Present key j is masked for query row r (R174). -/
def AttnDims.masked (x : AttnDims) (e : AttnEntry) (r j : Nat) : Bool :=
  let p := 64 * e.seq.first + j
  let q := e.pos0 + r / x.rep
  (x.causal && q < p) || (x.window != 0 && p + x.window ≤ q)

/-- The present keys of K block k. -/
def Sequence.blockKeys (q : Sequence) (k : Nat) : List Nat :=
  (List.range (min 128 (q.present - 128 * k))).map fun i => 128 * k + i

/-- A K block masked for every row is skipped (R174). -/
def AttnDims.skips (x : AttnDims) (e : AttnEntry) (k : Nat) : Bool :=
  (e.seq.blockKeys k).all fun j => (List.range e.mq).all fun r => x.masked e r j

/-- The page-table entries that a list of K blocks needs. -/
def Sequence.balesOf (q : Sequence) (ks : List Nat) : List Nat :=
  (ks.flatMap fun k => [2 * k, 2 * k + 1]).filter (· < q.fullBales)

/-- The snapshot checks of an entry (R164, R165, R167, R169, R171, R190): its sequence, and itself against the task. -/
def attnEntryOk (s : State) (r : Reach) (d : Desc) (x : AttnDims) (e : AttnEntry) : Bool :=
  let q := e.seq
  let narrow := shareMode q.fmtK d.fmtA == some .bits8
  !e.seqHigh && q.headerOk && q.recordOk && sequenceBlockOk s r q.h q.baleBytes && q.d == x.d &&
    (shareMode q.fmtK d.fmtA).isSome && 1 ≤ e.mq && e.mq ≤ 128 && e.head < q.heads && !e.reservedSet &&
    entryExtentOk s r e.q ((e.mq - 1) * x.ldq + rowBytes (fmtWidth d.fmtA) x.d) false &&
    (if narrow then entryExtentOk s r e.qScale (e.mq * q.scaleBytes * scaleWidth d.scaleABf16) false else e.qScale == 0) &&
    (if x.stateOut then e.out == 0 else entryExtentOk s r e.out ((e.mq - 1) * x.ldo + attnRowBytes d x.d) true) &&
    (if x.stateIn || x.stateOut then
       entryExtentOk s r e.state ((e.mq - 1) * x.lds + stateRowBytes x.d) x.stateOut
     else e.state == 0)

/-- One key or value row of a present key: elements, each under its E8M0 group scale. -/
def kvValues (s : State) (q : Sequence) (v : Bool) (hd j : Nat) : List Val × List Val :=
  let (base, slot) := q.place s j
  let ((ro, _), (so, sn)) := q.rowAt v slot hd
  let fmt := if v then q.fmtV else q.fmtK
  ((s.rowElems fmt (base + ro) q.d).map (decodeElem fmt), (s.view (base + so) sn).map fun b => decodeElem 13 b.toNat)

/-- V elements as BF16: the stored value times its group scale, narrowed (R175). -/
def vValues (s : State) (q : Sequence) (hd j : Nat) : List Val :=
  let (xs, ss) := kvValues s q true hd j
  xs.zipIdx.map fun (x, i) => rneBf16 (x.mul ((ss[i / q.groupSize]?).getD (.ofNat 1)))

/-- The events of narrowing the V elements of a key to BF16 (R78, R175). -/
def vEvents (s : State) (q : Sequence) (hd j : Nat) : List Nat :=
  let (xs, ss) := kvValues s q true hd j
  xs.zipIdx.foldl (fun ev (x, i) =>
    let v := x.mul ((ss[i / q.groupSize]?).getD (.ofNat 1))
    addEvent ev (narrow 11 .rne v (w40Lsb v)).event) [0, 0, 0, 0]

/-- The running state of a query row (R175); `bad`: a score was NaN or infinite without masking (R176); the NaN inputs of its
scores (R78) and its gated MACs (R86). -/
structure AttnRow where
  m   : Val := .inf true
  l   : Val := Val.zero
  o   : List Val
  bad : Bool := false
  nans : Nat := 0
  gated : Nat := 0
  deriving DecidableEq, Repr

/-- The state of a row from its state row (R177). -/
def readStateRow (s : State) (a n : Nat) : AttnRow :=
  let f (i : Nat) : Val := decodeElem 12 (s.le (a + 4 * i) 4)
  { m := f 0, l := f 1, o := (List.range n).map fun i => f (i + 2) }

/-- A state row (R177), with the events of narrowing O to FP32 (R78). -/
def stateRow (r : AttnRow) : List Byte × List Nat :=
  let os := r.o.map fun v => narrow 12 .rne v (w40Lsb v)
  (padGranules (([r.m, r.l].map fp32Bits ++ os.map (·.bits)).flatMap (leBytes 4)),
    os.foldl (fun ev n => addEvent ev n.event) [0, 0, 0, 0])

/-- One rounding step of the pairwise sum: 2k with 2k + 1. -/
def pairRound : List Val → List Val
  | x :: y :: rest => fpAdd x y :: pairRound rest
  | l => l

/-- The pairwise sum of 128 values in seven rounds (R175). -/
def pairSum (vs : List Val) : Val :=
  let l := vs ++ List.replicate (128 - vs.length) Val.zero
  ((pairRound <| pairRound <| pairRound <| pairRound <| pairRound <| pairRound <| pairRound l).head?).getD Val.zero

/-- One K block for one query row: scores s[c] with the masked columns at −∞, and V rows (R175). -/
def attnStep (r : AttnRow) (scores : List (Val × Bool)) (vs : List (List Val)) : AttnRow :=
  let s := scores.map (·.1)
  let bad := r.bad || scores.any fun (v, masked) => !masked && !v.isFinite
  let mb := s.foldl Val.max (.inf true)
  let mn := r.m.max mb
  if mn = .inf true then { r with bad := bad }
  else
    let al := if r.m = .inf true then Val.zero else fpExp2 (rne32 (r.m.sub mn))
    let p := s.map fun v => if v = .inf true then Val.zero else rneBf16 (fpExp2 (rne32 (v.sub mn)))
    let l := fpFma r.l al (pairSum p)
    let o := r.o.zipIdx.map fun (x, e) =>
      let t := accumulateBlocks (List.zip p (vs.map fun v => (v[e]?).getD Val.zero))
      rne40 ((rne40 (x.mul al)).add t)
    let gated := sumNat ((List.zip p vs).map fun (x, v) => (v.filter fun y => gatedPair x y).length)
    { r with m := mn, l := l, o := o, bad := bad, gated := r.gated + gated }

/-- The scaled scores of query row r against the keys of a block (R175), with the NaN inputs and the gated MACs of its products. -/
def attnScores (d : Desc) (x : AttnDims) (e : AttnEntry) (qs : List Val) (qScales : List Val) (r : Nat)
    (keys : List (Nat × List Val × List Val)) : List (Val × Bool) × Nat × Nat :=
  let sm := decodeElem 12 x.scale
  let one (k : Nat × List Val × List Val) : (Val × Bool) × Nat × Nat :=
    let ps := List.zip qs k.2.1
    let (a, nans) := if shareMode e.seq.fmtK d.fmtA = some .bits16 then (accumulateBlocks ps, 0)
      else accumulateGroups e.seq.groupSize ps qScales k.2.2
    let score := if x.masked e r k.1 then (.inf true, true) else (rne32 ((rne32 a).mul sm), false)
    (score, nans, (ps.filter fun (u, v) => gatedPair u v).length)
  let out := keys.map one
  (out.map (·.1), sumNat (out.map (·.2.1)), sumNat (out.map (·.2.2)))

/-- The query row r of an entry: elements and scales. -/
def queryRow (s : State) (d : Desc) (x : AttnDims) (e : AttnEntry) (r : Nat) : List Val × List Val :=
  let w := scaleWidth d.scaleABf16
  ((s.rowElems d.fmtA (e.q + r * x.ldq) x.d).map (decodeElem d.fmtA),
    if e.qScale = 0 then [] else (List.range e.seq.scaleBytes).map fun g =>
      scaleVal d.scaleABf16 (s.le (e.qScale + (r * e.seq.scaleBytes + g) * w) w))

/-- A row after all its blocks. -/
def attnRow (s : State) (d : Desc) (x : AttnDims) (e : AttnEntry) (ks : List Nat) (r : Nat) : AttnRow :=
  let (qs, scales) := queryRow s d x e r
  let start : AttnRow := if x.stateIn then readStateRow s (e.state + r * x.lds) x.d
    else { o := List.replicate x.d Val.zero }
  ks.foldl (fun row k =>
    let keys := (e.seq.blockKeys k).map fun j => (j, kvValues s e.seq false e.head j)
    let (scores, nans, gated) := attnScores d x e qs scales r keys
    let row := attnStep row scores ((e.seq.blockKeys k).map fun j => vValues s e.seq e.head j)
    { row with nans := row.nans + nans, gated := row.gated + gated }) start

/-- y1 of a finished row (R176). -/
def finishRow (r : AttnRow) : List Val :=
  if r.bad then r.o.map fun _ => .nan
  else if r.l.isZero then r.o.map fun _ => Val.zero
  else r.o.map fun v => rne40 (v.div r.l)

/-- An output row's bytes and events: elements, then the scale granule with G_out (R176, R487). -/
def outputRow (d : Desc) (i : Nat) (r : AttnRow) : List Byte × List Nat :=
  let (es, ss, ev) := narrowOutputs d i (finishRow r)
  (padGranules (packElems (fmtWidth d.fmtOut) es) ++
      (if d.gOut = 0 then [] else padGranules (ss.map fun x => BitVec.ofNat 8 x)),
    addEvents ev [0, 0, 0, r.nans + bval r.bad])

/-- An entry's record (R173). -/
def attnRecord (q : Sequence) (bucket : Option Nat) (computed : Bool) (blocks skipped : Nat) : List Byte :=
  leBytes 4 q.present ++ leBytes 4 q.gen ++ leBytes 1 (bucket.getD 0xFF) ++ leBytes 1 (bval computed) ++
    leBytes 2 blocks ++ leBytes 2 skipped ++ leBytes 18 0

/-- What an entry's computation reads: query rows and scales, state rows, and the K and V rows of its blocks. -/
def attnReads (s : State) (d : Desc) (x : AttnDims) (e : AttnEntry) (ks : List Nat) : List (Nat × Nat) :=
  let rows := (ks.flatMap e.seq.blockKeys).flatMap fun j =>
    let (base, slot) := e.seq.place s j
    [false, true].flatMap fun v =>
      let ((ro, rn), (so, sn)) := e.seq.rowAt v slot e.head
      realExtents [(base + ro, rn), (base + so, sn)]
  rowReads e.q e.mq x.ldq (rowBytes (fmtWidth d.fmtA) x.d) ++
    realExtents [(e.qScale, if e.qScale = 0 then 0 else e.mq * e.seq.scaleBytes * scaleWidth d.scaleABf16)] ++
    (if x.stateIn then rowReads e.state e.mq x.lds (8 + 4 * x.d) else []) ++ rows

/-- The cycles of a computed entry (R179). -/
def attnCycles (d : Desc) (x : AttnDims) (e : AttnEntry) (blocks : Nat) : Nat :=
  match shareMode e.seq.fmtK d.fmtA with
  | none => 0
  | some m =>
    48 + blocks * (ceilDiv x.d m.depth * max e.mq m.load + (16 + 2 * e.mq) + 8 * ceilDiv x.d 128 * max e.mq 32) +
      (16 + ceilDiv (e.mq * x.d) 128)

/-- One entry's tile with its MACs, cycles and skipped blocks. -/
structure AttnTile where
  tile    : Tile
  macs    : Nat := 0
  gated   : Nat := 0
  cycles  : Nat := 8
  skipped : Nat := 0
  deriving DecidableEq, Repr

/-- Entry j (R173 to R177, R188). A key's V row is narrowed once for all query rows of the entry, and the products of masked
columns are formed and counted (R174, R175; DESIGN CHOICE, unsafe, log 73). -/
def attnTile (s : State) (fur : Nat) (d : Desc) (x : AttnDims) (j : Nat) (e : AttnEntry) : AttnTile :=
  let bucket := s.bucketOf fur e.seq.present
  let computed := bucket.isSome && (bitOf x.flags 6 || bucket == some (bitsOf x.flags 5 3))
  let rec_ (blocks skipped : Nat) : Nat × List Byte :=
    (d.dstAddr + 32 * j, attnRecord e.seq bucket computed blocks skipped)
  if !computed then { tile := { pieces := [rec_ 0 0] } }
  else
    let all := x.blocks e.seq
    let ks := all.filter fun k => !x.skips e k
    let rows := (List.range e.mq).map fun r => (r, attnRow s d x e ks r)
    let outs := rows.map fun (r, row) =>
      if x.stateOut then
        let (bs, ev) := stateRow row
        ((e.state + r * x.lds, bs), addEvents ev [0, 0, 0, row.nans + bval row.bad])
      else
        let (bs, ev) := outputRow d ((128 * j + r) * x.d) row
        ((e.out + r * x.ldo, bs), ev)
    let skipped := all.length - ks.length
    let keys := ks.flatMap e.seq.blockKeys
    { tile :=
        { pieces := outs.map (·.1) ++ [rec_ ks.length skipped]
          events := outs.foldl (fun ev o => addEvents ev o.2)
            (keys.foldl (fun ev j => addEvents ev (vEvents s e.seq e.head j)) [0, 0, 0, 0])
          reads := attnReads s d x e ks }
      macs := 2 * e.mq * keys.length * x.d, gated := sumNat (rows.map (·.2.gated))
      cycles := attnCycles d x e ks.length, skipped := skipped }

/-- What taking an entry's snapshot reads: its header and record, and where they and the entry pass, the page-table entries of the blocks
that it takes (R172). -/
def attnSnapshot (s : State) (r : Reach) (d : Desc) (x : AttnDims) (e : AttnEntry) (bales : List Nat) : List (Nat × Nat) :=
  if !s.reaches r e.seq.h 64 false then []
  else (e.seq.h, 64) :: if attnEntryOk s r d x e then
    (bales.map fun i => (e.seq.table + 8 * i, 8)).filter fun (a, n) => s.reaches r a n false else []

/-- ATTN_BLOCK (R172 to R179). A snapshot that fails has read what it judges, whose poison comes before its cause (R126). -/
def attnWork (s : State) (r : Reach) (d : Desc) : Work × State :=
  let x := attnDims s d
  let es := (List.range x.entries).map (attnEntry s d)
  let needs (e : AttnEntry) : List Nat := e.seq.balesOf ((x.blocks e.seq).filter fun k => !x.skips e k)
  let list := (d.aAddr, 64 * x.entries)
  let reads := list :: es.flatMap fun e => attnSnapshot s r d x e (needs e)
  if d.bAddr ≠ 0 ∧ es.any fun e => e.seq.h != d.bAddr then ({ cause := 0x07, reads := [list] }, s)
  else if es.any fun e => !attnEntryOk s r d x e || (needs e).any fun i => !baleOk s r e.seq i false then
    ({ cause := 0x0E, reads := reads }, s)
  else
    let ts := es.zipIdx.map fun (e, j) => attnTile s r.fur d x j e
    ({ reads := reads
       tiles := ts.map (·.tile), macs := sumNat (ts.map (·.macs)), gated := sumNat (ts.map (·.gated))
       cycles := some (160 + sumNat (ts.map (·.cycles)))
       snapshots := es.map fun e => (e.seq.h, e.seq.gen)
       unbucketed := (es.filter fun e => (s.bucketOf r.fur e.seq.present).isNone).length
       skipped := sumNat (ts.map (·.skipped)) }, s)

/-- ATTN_BLOCK. -/
def attnOp : OpDef := ⟨attnFormats, attnPlan, attnWork⟩

/-! KV_APPEND (R180 to R184). -/

/-- KV_APPEND's formats. -/
def kvFormats (d : Desc) : Bool :=
  let src (f : Nat) : Bool := f == 10 || f == 11 || f == 12
  src d.fmtA && src d.fmtB && d.round != 3 && outGroupOk d

/-- KV_APPEND's plan; extents that depend on the header are taken from it where it is valid. New K rows may be compressed, as rows
of d elements (R162); a sequence block has no compressed form, so zc_dst is a violation (DESIGN CHOICE, unsafe, log 72). -/
def kvPlan (s : State) (r : Reach) (d : Desc) : Plan :=
  let t := s.param d 0
  let ldk := s.param d 1
  let ldv := s.param d 2
  let ok := 4 ≤ d.paramLen && 1 ≤ t && t ≤ 64 && ldk % 32 == 0 && ldv % 32 == 0 &&
    (!(List.range 5).any fun i => s.param d (3 + i) != 0) && d.tiles == t && d.bAddr != 0 && d.fmtOut == 0 &&
    d.g == 0 && d.gOut == 0 && ([0, 1, 2, 3, 4, 5, 6, 7, 9, 10, 11].all fun i => s.header d i == 0) && !d.zcDst &&
    (!d.zcA || zcAllowed r.fur d.aAddr d.fmtA (readSequence s d.dstAddr).d ldk)
  if !ok then badParam
  else
    let q := readSequence s d.dstAddr
    let rows := if q.headerOk then t * q.heads else 1
    let n := if q.headerOk then q.d else 1
    let a := stridedExtent d.aAddr rows ldk (if d.zcA then rowRoom true d.fmtA n else rowBytes (fmtWidth d.fmtA) n)
    let b := stridedExtent d.bAddr rows ldv (rowBytes (fmtWidth d.fmtB) n)
    let dst := (d.dstAddr, sequenceBlockBytes s d.dstAddr)
    let flush := if q.headerOk ∧ 64 ≤ q.nTok % 64 + t then ceilDiv q.baleBytes 128 else 0
    { reads := [a, b], writes := [dst], extA := a, extB := b, extDst := dst
      cycles := 160 + t * (16 + 2 * q.heads * ceilDiv q.d 64) + flush }

/-- Narrow one new row into the cache's format: element bytes, scale bytes, events (R180). -/
def kvNarrow (s : State) (d : Desc) (q : Sequence) (v : Bool) (a i : Nat) : List Byte × List Byte × List Nat :=
  let src := if v then d.fmtB else d.fmtA
  let fmt := if v then q.fmtV else q.fmtK
  let ys := (readRow s (!v && d.zcA) src a q.d).map fun b => (decodeElem src b, srcLsb src b)
  let (es, ss, ev) := narrowRowOutputs { d with fmtOut := fmt, gOut := if scaledFmt fmt then q.g + 1 else 0 } i ys
  let bs := packElems (fmtWidth fmt) es
  (bs ++ List.replicate (kvRow q.d fmt - bs.length) 0, ss.map fun x => BitVec.ofNat 8 x, ev)

/-- Replace bytes of an image from an offset. -/
def patch (img : List Byte) (off : Nat) (bs : List Byte) : List Byte :=
  img.take off ++ bs ++ img.drop (off + bs.length)

/-- The granules of an image that hold n bytes from an offset. -/
def granulesIn (img : List Byte) (base off n : Nat) : List (Nat × List Byte) :=
  if n = 0 then [] else
    let lo := off / 32 * 32
    [(base + lo, slice img lo (roundUp (off + n) 32 - lo))]

/-- A windrow record (R167). -/
def windrowRecord (nTok nBase tag : Nat) : List Byte :=
  let b := leBytes 4 nTok ++ leBytes 4 nBase ++ leBytes 4 tag ++ leBytes 16 0
  b ++ leBytes 4 (crc32c b).toNat

/-- Append token t to the windrow image: the new image and the tile's pieces and events (R181). -/
def kvToken (s : State) (d : Desc) (q : Sequence) (img : List Byte) (t : Nat) :
    List Byte × List (Nat × List Byte) × List Nat :=
  let p := q.nTok + t
  let slot := p % 64
  let half (img : List Byte) (v : Bool) : List Byte × List Nat :=
    (List.range q.heads).foldl (fun (img, ev) hd =>
      let src := if v then d.bAddr + (t * q.heads + hd) * s.param d 2 else d.aAddr + (t * q.heads + hd) * s.param d 1
      let (bs, ss, e) := kvNarrow s d q v src (((p * q.heads + hd) * q.d + if v then 2 ^ 31 else 0) % 2 ^ 32)
      let ((ro, _), (so, _)) := q.rowAt v slot hd
      (patch (patch img ro bs) so ss, addEvents ev e)) (img, [0, 0, 0, 0])
  let (img, evK) := half img false
  let (img, evV) := half img true
  let pieces := [false, true].flatMap fun v =>
    let fmt := if v then q.fmtV else q.fmtK
    let ((ro, _), (so, sn)) := q.rowAt v slot 0
    granulesIn img (q.h + 64) ro (q.heads * kvRow q.d fmt) ++ granulesIn img (q.h + 64) so (q.heads * sn)
  let flush := if slot = 63 then [(q.entry s (p / 64 - q.first), img)] else []
  (img, pieces ++ flush ++ [(q.h + 32, windrowRecord (p + 1) q.nTok d.tag)], addEvents evK evV)

/-- The granule that n bytes at an offset of the windrow image share with other rows' bytes: it is read and merged (R117). -/
def mergedGranules (base off n : Nat) : List (Nat × Nat) :=
  if n = 0 ∨ (off % 32 = 0 ∧ n % 32 = 0) then [] else [(base + off / 32 * 32, roundUp (off + n) 32 - off / 32 * 32)]

/-- The granules of a token's scales that its tile merges. -/
def kvMerges (q : Sequence) (t : Nat) : List (Nat × Nat) :=
  [false, true].flatMap fun v =>
    let (_, (so, sn)) := q.rowAt v ((q.nTok + t) % 64) 0
    mergedGranules (q.h + 64) so (q.heads * sn)

/-- The tiles of a KV_APPEND, token by token. -/
def kvTiles (s : State) (d : Desc) (q : Sequence) : Nat → Nat → List Byte → List Tile
  | 0, _, _ => []
  | n + 1, t, img =>
    let (next, pieces, ev) := kvToken s d q img t
    let read := (List.range q.heads).flatMap fun hd =>
      readSpans s d.zcA d.fmtA (d.aAddr + (t * q.heads + hd) * s.param d 1) q.d
    { pieces := pieces, events := ev, zc := zcCount d.zcA d.fmtA q.d q.heads (read.map (·.2))
      reads := read ++ kvMerges q t ++
        rowReads (d.bAddr + t * q.heads * s.param d 2) q.heads (s.param d 2) (rowBytes (fmtWidth d.fmtB) q.d) } ::
      kvTiles s d q n (t + 1) next

/-- The page-table entry that a flush needs may be used, and its bale lies outside the sequence block (R181). -/
def flushOk (s : State) (r : Reach) (q : Sequence) (t : Nat) : Bool :=
  q.nTok % 64 + t < 64 ||
    (let i := q.nTok / 64 - q.first
     let e := q.entry s i
     baleOk s r q i true && (e + q.baleBytes ≤ q.h || q.h + 64 + q.baleBytes ≤ e))

/-- What KV_APPEND reads before its rows: the header and record, the page-table entry of a flush, and the image that a flush writes (R181).
-/
def kvReads (s : State) (r : Reach) (q : Sequence) (t : Nat) (ok : Bool) : List (Nat × Nat) :=
  let flush := q.headerOk && q.recordOk && decide (64 ≤ q.nTok % 64 + t)
  let entry := q.table + 8 * (q.nTok / 64 - q.first)
  (if s.reaches r q.h 64 false then [(q.h, 64)] else []) ++
    (if flush && s.reaches r entry 8 false then [(entry, 8)] else []) ++ if flush && ok then [(q.h + 64, q.baleBytes)] else []

/-- KV_APPEND. A check that fails has read what it judges, whose poison comes before its cause (R126). -/
def kvWork (s : State) (r : Reach) (d : Desc) : Work × State :=
  let q := readSequence s d.dstAddr
  let t := s.param d 0
  if !(q.headerOk && q.recordOk && sequenceBlockOk s r q.h q.baleBytes && q.nTok + t ≤ 4194304 && flushOk s r q t) then
    ({ cause := 0x0E, reads := kvReads s r q t false }, s)
  else
    ({ reads := kvReads s r q t true
       tiles := kvTiles s d q t 0 (s.bytes (q.h + 64) q.baleBytes), snapshots := [(q.h, q.gen)] }, s)

/-- KV_APPEND. -/
def kvOp : OpDef := ⟨kvFormats, kvPlan, kvWork⟩

/-! Reclaim fences (R186, R187). -/

/-- A write of FUR_HW_FENCE_GEN starts a fence request. -/
def requestFence (s : State) (n : Nat) (gen : Word) : State := showFence (s.setReg (Reg.furHwFenceGen n) gen) n

/-- FENCE_REQUEST. -/
def execFenceRequest (n : Nat) (gen : Word) (s : State) : Result := live s <| withUnit s 64 n fun s n =>
  requestFence s n gen

/-- FUR_HW_CTRL.cnt_clear. -/
def clearHarrowCounters (s : State) (n : Nat) : State :=
  let s := s.setReg (Reg.furHwUnbucketed n) 0
  let s := s.setReg (Reg.furHwSkipped n) 0
  s.setBits (Reg.furHwEcc n) 23 0 0

/-- FUR_HW_CNT_CLEAR. -/
def execFurHwCntClear (n : Nat) (s : State) : Result := live s <| withUnit s 64 n fun s n => clearHarrowCounters s n

/-- FUR_ZC_CTRL.cnt_clear. -/
def clearRakeCounters (s : State) (n : Nat) : State :=
  let s := s.setReg (Reg.furZcRaw n) 0
  let s := s.setReg (Reg.furZcMoved n) 0
  s.setBits (Reg.furRkEcc n) 23 0 0

/-- FUR_ZC_CNT_CLEAR. -/
def execFurZcCntClear (n : Nat) (s : State) : Result := live s <| withUnit s 64 n fun s n => clearRakeCounters s n

end Sys2Proof.Machine
end

