-- ==== Sys2Proof/Machine/Kernel.lean ====
section
/-! DEFINITION. The Coulters' operations (R88, R89), and a kernel's run over one vector of 64 lanes. -/

namespace Sys2Proof.Machine

/-! Correctly rounded functions (R88). -/

/-- The integer square root, from a bit count down. -/
def isqrt (n : Nat) : Nat → Nat → Nat
  | 0, r => r
  | k + 1, r => isqrt n k (if (r + 2 ^ k) * (r + 2 ^ k) ≤ n then r + 2 ^ k else r)

/-- sqrt of a magnitude m·2^e, as a value that rounds as the exact root does. -/
def rootVal (m : Nat) (e : Int) : Val :=
  let odd := e % 2 != 0
  let n := (if odd then 2 * m else m) * 2 ^ 160
  let r := isqrt n (Nat.log2 n / 2 + 1) 0
  .fin false (2 * r + bval (r * r != n)) ((if odd then e - 1 else e) / 2 - 81)

/-- Fraction bits of the logarithm's working numbers. -/
def logBits : Nat := 384

/-- The next bits of log2 y, y in [1, 2) in fixed point: square, and take a bit where the square reaches 2. -/
def log2Frac : Nat → Nat → Nat → Nat
  | 0, _, acc => acc
  | n + 1, y, acc =>
    let z := y * y / 2 ^ logBits
    if 2 ^ (logBits + 1) ≤ z then log2Frac n (z / 2) (2 * acc + 1) else log2Frac n z (2 * acc)

/-- log2 of a magnitude m·2^e above zero, with 128 fraction bits and a sticky bit. -/
def logVal (m : Nat) (e : Int) : Val :=
  let k := Nat.log2 m
  let n : Int := (k : Int) + e
  if m = 2 ^ k then .ofInt n
  else
    let f := log2Frac 128 (m * 2 ^ (logBits - k)) 0
    let v : Int := n * (2 ^ 129 : Nat) + ((2 * f + 1 : Nat) : Int)
    .fin (v < 0) v.natAbs (-129)

/-- What the manual leaves unstated of an operation. -/
def openLane (op : Nat) (x y : Word) : Val := decodeElem 12 (Config.coulterOpen op x y).toNat

/-- A one-operand operation on a lane; x is the operand's encoding (R88). Roots and reciprocals of zeros and infinities whose value is
exact are those of IEEE 754 (R75); poles and operands outside the domain are open. -/
def fp1Val (f : Config.Fp1) (x : Word) : Val :=
  let v := decodeElem 12 x.toNat
  match f, v with
  | _, .nan => .nan
  | .abs, .fin _ m e => .fin false m e
  | .abs, .inf _ => .inf false
  | .neg, v => v.neg
  | .exp, v => fpExp v
  | .exp2, v => fpExp2 v
  | .log2, .fin false m e => if m = 0 then openLane 0 x 0 else rne32 (logVal m e)
  | .log2, .inf false => .inf false
  | .log2, _ => openLane 0 x 0
  | .rcp, .fin _ m _ => if m = 0 then openLane 1 x 0 else fpDiv (.ofNat 1) v
  | .rcp, .inf _ => fpDiv (.ofNat 1) v
  | .sqrt, .fin neg m e => if m = 0 then v else if neg then openLane 2 x 0 else rne32 (rootVal m e)
  | .sqrt, .inf false => .inf false
  | .sqrt, _ => openLane 2 x 0
  | .rsqrt, .fin false m e =>
    if m = 0 then openLane 3 x 0
    else
      let odd := e % 2 != 0
      let n := if odd then 2 * m else m
      let q := 2 ^ (2 * 128 + 2 * Nat.log2 n) / n
      let r := isqrt q (Nat.log2 q / 2 + 1) 0
      let exact := r * r * n == 2 ^ (2 * 128 + 2 * Nat.log2 n)
      rne32 (.fin false (2 * r + bval (!exact)) (-(128 : Int) - Nat.log2 n - 1 - (if odd then e - 1 else e) / 2))
  | .rsqrt, .inf false => .fin false 0 0
  | .rsqrt, _ => openLane 3 x 0

/-- A two-operand operation on values (R88, R89). -/
def fp2Val (f : Config.Fp2) (x y : Val) : Val :=
  match f with
  | .add => fpAdd x y
  | .sub => rne32 (x.sub y)
  | .mul => fpMul x y
  | .min => x.min y
  | .max => x.max y

/-- An integer saturated to INT32. -/
def satInt (v : Int) : Word := BitVec.ofInt 32 (min (max v (-2147483648)) 2147483647)

/-- An integer operation on lanes (R88). -/
def int2Lane (f : Config.Int2) (x y : Word) : Word :=
  let shift (g : Nat → Word) : Word := if y.toNat < 32 then g y.toNat else Config.coulterOpen 4 x y
  match f with
  | .add => x + y
  | .sub => x - y
  | .mul => x * y
  | .shl => shift fun n => x <<< n
  | .shr => shift fun n => x >>> n
  | .sar => shift fun n => x.sshiftRight n
  | .and => x &&& y
  | .or => x ||| y
  | .xor => x ^^^ y
  | .min => if y.toInt < x.toInt then y else x
  | .max => if x.toInt < y.toInt then y else x
  | .addSat => satInt (x.toInt + y.toInt)
  | .subSat => satInt (x.toInt - y.toInt)

/-- A value as an FP32 lane. -/
def fpLane (v : Val) : Word := BitVec.ofNat 32 (fp32Bits v)

/-- A lane as its FP32 value. -/
def laneVal (x : Word) : Val := decodeElem 12 x.toNat

/-- Two FP32 values compare; a comparison with a NaN is false (DESIGN CHOICE, unsafe, log 9). -/
def fpCompare (f : Config.Cmp) (x y : Val) : Bool :=
  if x.isNan || y.isNan then false
  else
    let eq := (x.isZero && y.isZero) || (!x.lt y && !y.lt x)
    match f with
    | .eq => eq
    | .lt => !eq && x.lt y
    | .le => eq || x.lt y

/-- Two INT32 lanes compare. -/
def intCompare (f : Config.Cmp) (x y : Word) : Bool :=
  match f with
  | .eq => x == y
  | .lt => decide (x.toInt < y.toInt)
  | .le => decide (x.toInt ≤ y.toInt)

/-- An element as a Coulter holds it: FP32 for a floating format, INT32 for an integer one (R89). The 32-bit formats are held as they are
stored (R88). -/
def coulterWord (fmt v : Nat) : Word :=
  if fmt = 4 ∨ fmt = 12 then BitVec.ofNat 32 v
  else if fmtIsInt fmt then
    match decodeElem fmt v with
    | .fin neg m _ => BitVec.ofInt 32 (if neg then -(m : Int) else m)
    | _ => 0
  else BitVec.ofNat 32 (fp32Bits (decodeElem fmt v))

/-! A kernel's run. -/

/-- What a kernel is given besides its operands: the immediate, the tensor's rounding by element index (R80), and the rows of the own
seedbed as they are stored. -/
structure KernelEnv where
  imm   : Word
  round : Nat → Rounding
  row   : Nat → List Byte

/-- A Coulter while it runs a kernel on one vector: 32 vector registers of 64 lanes, 8 predicate registers, the stored result, the turns
left of its loops, the events of its conversions (R78), the seedbed rows that it has stored and the numbers of those that
it has loaded; a kernel starts with registers of zeros (DESIGN CHOICE, unsafe, log 9). -/
structure Coulter where
  regs  : List (List Word) := List.replicate 32 (List.replicate 64 0)
  preds : List (List Bool) := List.replicate 8 (List.replicate 64 false)
  out   : List Word := List.replicate 64 0
  loops : SMap Nat := []
  events : List Nat := [0, 0, 0, 0]
  rows  : SMap (List Byte) := []
  loads : List Nat := []
  deriving DecidableEq, Repr

/-- A vector register; none for a number that there is not. -/
def Coulter.vec (c : Coulter) (a : Nat) : Option (List Word) := c.regs[a]?

/-- The lanes that an instruction works on. -/
def Coulter.lanes (c : Coulter) (pred : Option Nat) : Option (List Bool) :=
  match pred with
  | none => some (List.replicate 64 true)
  | some p => c.preds[p]?

/-- Write a vector register in the lanes of a mask. -/
def Coulter.put (c : Coulter) (mask : List Bool) (d : Nat) (vs : List Word) : Option Coulter :=
  (c.vec d).map fun old => { c with regs := c.regs.set d ((List.zip mask (List.zip vs old)).map fun (m, v, o) => if m then v else o) }

/-- Write a predicate register in the lanes of a mask. -/
def Coulter.putPred (c : Coulter) (mask : List Bool) (p : Nat) (bs : List Bool) : Option Coulter :=
  (c.preds[p]?).map fun old => { c with preds := c.preds.set p ((List.zip mask (List.zip bs old)).map fun (m, v, o) => if m then v else o) }

/-- One lane-wise operation of one register. -/
def Coulter.map1 (c : Coulter) (mask : List Bool) (d a : Nat) (f : Word → Word) : Option Coulter := do
  let x ← c.vec a
  c.put mask d (x.map f)

/-- One lane-wise operation of two registers. -/
def Coulter.map2 (c : Coulter) (mask : List Bool) (d a b : Nat) (f : Word → Word → Word) : Option Coulter := do
  let x ← c.vec a
  let y ← c.vec b
  c.put mask d (List.zipWith f x y)

/-- One comparison of two registers. -/
def Coulter.compare (c : Coulter) (mask : List Bool) (p a b : Nat) (f : Word → Word → Bool) : Option Coulter := do
  let x ← c.vec a
  let y ← c.vec b
  c.putPred mask p (List.zipWith f x y)

/-- Narrow a register's FP32 lanes, counting the events of the first n lanes, those of elements (R72 to R78). -/
def Coulter.convert (c : Coulter) (mask : List Bool) (n d a : Nat) (f : Nat → Val → Narrowed) : Option Coulter := do
  let x ← c.vec a
  let ns := x.zipIdx.map fun (x, k) => f k (laneVal x)
  let c ← c.put mask d (ns.map fun r => BitVec.ofNat 32 r.bits)
  some { c with events := ((List.zip mask ns).take n).foldl (fun ev (m, r) => if m then addEvent ev r.event else ev) c.events }

/-- Seedbed row k as the kernel sees it: as it has stored it, else as it lies in the seedbed. -/
def Coulter.rowAt (c : Coulter) (env : KernelEnv) (k : Nat) : List Byte := (mapFind c.rows k).getD (env.row k)

/-- The seedbed offset that lane 0 of a register gives (DESIGN CHOICE, unsafe, log 9). -/
def Coulter.address (c : Coulter) (b : Nat) : Option Nat := (c.vec b).map fun x => ((x[0]?).getD 0).toNat % 0x400000

/-- Load 32 lanes of 32 bits from the addressed seedbed row, or 64 lanes of 8 bits from the half of it, as stored (R88). -/
def Coulter.loadRow (c : Coulter) (env : KernelEnv) (mask : List Bool) (wide : Bool) (d b : Nat) : Option Coulter := do
  let a ← c.address b
  let row := c.rowAt env (a / 128)
  let lane (k : Nat) : Word := BitVec.ofNat 32 (if wide then leAt row (4 * k) 4 else leAt row (a % 128 / 64 * 64 + k) 1)
  let c ← c.put (mask.zipIdx.map fun (m, k) => m && (!wide || k < 32)) d ((List.range 64).map lane)
  some { c with loads := c.loads ++ [a / 128] }

/-- Store lanes to the addressed seedbed row, as they are (R88). -/
def Coulter.storeRow (c : Coulter) (env : KernelEnv) (mask : List Bool) (wide : Bool) (a b : Nat) : Option Coulter := do
  let off ← c.address b
  let x ← c.vec a
  let w := if wide then 4 else 1
  let start := if wide then 0 else off % 128 / 64 * 64
  let byte (i : Nat) (o : Byte) : Byte :=
    let k := (i - start) / w
    if start ≤ i ∧ k < (if wide then 32 else 64) ∧ (mask[k]?).getD false then
      BitVec.ofNat 8 (((x[k]?).getD 0).toNat / 256 ^ ((i - start) % w))
    else o
  some { c with rows := mapInsert c.rows (off / 128) ((c.rowAt env (off / 128)).zipIdx.map fun (o, i) => byte i o) }

/-- A pairwise reduction step: lane k takes lanes 2k and 2k + 1; the other half is open. -/
def reduceLanes (f : Word → Word → Word) (x : List Word) : List Word :=
  (List.range 64).map fun k =>
    if k < 32 then f ((x[2 * k]?).getD 0) ((x[2 * k + 1]?).getD 0) else Config.coulterOpen 5 ((x[k]?).getD 0) (BitVec.ofNat 32 k)

/-- A compare-exchange: the lesser of each lane to d, the greater to e. -/
def Coulter.exchange (c : Coulter) (mask : List Bool) (d e a b : Nat) (lo hi : Word → Word → Word) : Option Coulter := do
  let x ← c.vec a
  let y ← c.vec b
  let c ← c.put mask d (List.zipWith lo x y)
  c.put mask e (List.zipWith hi x y)

/-- What one instruction does on a vector whose first lane is element i and whose first n lanes are elements, and where the program goes
on; none: an illegal instruction (R103 cause 0x0C). A scalar branch on a predicate is taken when a lane of it is set
(DESIGN CHOICE, unsafe, log 9). -/
def Coulter.exec (c : Coulter) (env : KernelEnv) (as bs : List Word) (i n pc : Nat) (instr : Config.KernelInstr) :
    Option (Coulter × Nat) := do
  let mask ← c.lanes instr.pred
  let on (c : Option Coulter) : Option (Coulter × Nat) := c.map fun c => (c, pc + 1)
  let fp (f : Config.Fp2) (x y : Word) : Word := fpLane (fp2Val f (laneVal x) (laneVal y))
  let narrowed (fmt k : Nat) (v : Val) : Narrowed := narrow fmt (env.round (i + k)) v (fp32Lsb v)
  match instr.op with
  | .loadA d => on (c.put mask d as)
  | .loadB d => on (c.put mask d bs)
  | .loadImm d => on (c.put mask d (List.replicate 64 env.imm))
  | .store a => on ((c.vec a).map fun x => { c with out := (List.zip mask (List.zip x c.out)).map fun (m, v, o) => if m then v else o })
  | .loadRow wide d b => on (c.loadRow env mask wide d b)
  | .storeRow wide a b => on (c.storeRow env mask wide a b)
  | .fp1 f d a => on (c.map1 mask d a fun x => fpLane (fp1Val f x))
  | .fp2 f d a b => on (c.map2 mask d a b (fp f))
  | .fma d a b k =>
    let z ← c.vec k
    let x ← c.vec a
    let y ← c.vec b
    on (c.put mask d ((List.zip x (List.zip y z)).map fun (x, y, z) => fpLane (fpFma (laneVal x) (laneVal y) (laneVal z))))
  | .fpCmp f p a b => on (c.compare mask p a b fun x y => fpCompare f (laneVal x) (laneVal y))
  | .int2 f d a b => on (c.map2 mask d a b (int2Lane f))
  | .intCmp f p a b => on (c.compare mask p a b (intCompare f))
  | .widen fmt d a => if coulterFmt fmt then on (c.map1 mask d a fun x => coulterWord fmt x.toNat) else none
  | .narrow fmt d a => if storable fmt then on (c.convert mask n d a (narrowed fmt)) else none
  | .toInt d a => on (c.convert mask n d a (narrowed 4))
  | .toFp d a => on (c.map1 mask d a fun x => fpLane (rne32 (.ofInt x.toInt)))
  | .broadcast l d a =>
    let x ← c.vec a
    let v ← x[l]?
    on (c.put mask d (List.replicate 64 v))
  | .permute d a b =>
    let x ← c.vec a
    let y ← c.vec b
    on (c.put mask d (y.map fun k => (x[k.toNat % 64]?).getD 0))
  | .reduceFp f d a =>
    let x ← c.vec a
    on (c.put mask d (reduceLanes (fp f) x))
  | .reduceInt f d a =>
    let x ← c.vec a
    on (c.put mask d (reduceLanes (int2Lane f) x))
  | .exchangeFp d e a b => on (c.exchange mask d e a b (fp .min) (fp .max))
  | .exchangeInt d e a b => on (c.exchange mask d e a b (int2Lane .min) (int2Lane .max))
  | .setPredicate p m => on (c.putPred mask p ((List.range 64).map m.getLsbD))
  | .branch p target =>
    let ps ← c.lanes p
    some (c, if ps.any id then target else pc + 1)
  | .loop times target =>
    let left := (mapFind c.loops pc).getD times
    some (if left = 0 then ({ c with loops := mapErase c.loops pc }, pc + 1)
      else ({ c with loops := mapInsert c.loops pc (left - 1) }, target))
  | .waitEngine => some (c, pc + 1)

/-- Run a kernel's code from an instruction on, each at least one cycle; none: it meets an illegal instruction or has not finished
in the cycles that it declares (R100). -/
def Coulter.run (env : KernelEnv) (code : List Config.KernelInstr) (as bs : List Word) (i n : Nat) :
    Nat → Nat → Coulter → Option Coulter
  | fuel, pc, c =>
    match code[pc]? with
    | none => some c
    | some instr =>
      match fuel with
      | 0 => none
      | fuel + 1 =>
        match c.exec env as bs i n pc instr with
        | none => none
        | some (c, pc) => Coulter.run env code as bs i n fuel pc c

/-- What a kernel has made of its vectors so far: result lanes, conversion events, seedbed rows stored and loaded. -/
structure KernelOut where
  lanes  : List Word := []
  events : List Nat := [0, 0, 0, 0]
  rows   : SMap (List Byte) := []
  loads  : List Nat := []
  deriving DecidableEq, Repr

/-- A kernel's run on one vector of up to 64 lanes from element i on; lanes beyond a row's end are computed on zeros and dropped. -/
def kernelVector (env : KernelEnv) (code : List Config.KernelInstr) (cycles i : Nat) (o : KernelOut) (as bs : List Word) :
    Option KernelOut :=
  let pad (l : List Word) : List Word := l ++ List.replicate (64 - l.length) 0
  (Coulter.run env code (pad as) (pad bs) i as.length cycles 0 { rows := o.rows }).map fun c =>
    { lanes := o.lanes ++ c.out.take as.length, events := addEvents o.events c.events, rows := c.rows, loads := o.loads ++ c.loads }

/-- A kernel's run on a row, vector by vector, from element i on. -/
def kernelRow (env : KernelEnv) (code : List Config.KernelInstr) (cycles : Nat) :
    Nat → KernelOut → List (List Word) → List (List Word) → Option KernelOut
  | _, o, [], _ => some o
  | i, o, a :: as, bs => do
    let o ← kernelVector env code cycles i o a (bs.headD [])
    kernelRow env code cycles (i + a.length) o as bs.tail

end Sys2Proof.Machine
end

