-- ==== Sys2Proof/Machine/Coulter.lean ====
section
/-! DEFINITION. The Coulters' and the Tedder's row ops: ELTWISE (R96, R100), REDUCE (R97), ROUTE (R98), MOVE (R96, R107,
R276), and the sequencer's SYNC (R99). -/

namespace Sys2Proof.Machine

/-! Rows and tiles (R95, R107). -/

/-- The tiles of an op whose destination rows are computed one by one: `row` gives a row's elements and events, `inA` what it
reads of operand A, a row of ea elements, `more` what else it reads; `bases` the destination copies, the first of which
carries the checksum; ed elements make a destination row. -/
def rowTiles (d : Desc) (ea ed rows tileRows ld : Nat) (bases : List Nat) (row : Nat → List Nat × List Nat)
    (inA more : Nat → List (Nat × Nat)) : List Tile :=
  (ranges 0 rows tileRows).map fun (r0, n) =>
    let out := (List.range n).map fun i => (r0 + i, row (r0 + i))
    let at' (b : Nat) : List (Nat × List Byte) := out.map fun (r, es, _) => (b + r * ld, writeRow d.zcDst d.fmtOut es)
    let pieces := at' (bases.headD d.dstAddr)
    let read := (List.range n).flatMap fun i => inA (r0 + i)
    { pieces := pieces, copies := bases.tail.flatMap at'
      events := out.foldl (fun ev (_, _, e) => addEvents ev e) [0, 0, 0, 0]
      reads := read ++ (List.range n).flatMap fun i => more (r0 + i)
      zc := zcAdd (zcCount d.zcA d.fmtA ea n (read.map (·.2))) (zcCount d.zcDst d.fmtOut ed n (pieces.map (·.2.length))) }

/-- Rows, tile rows and the tile count agree (R95). -/
def rowsOk (d : Desc) (rows tileRows : Nat) : Bool :=
  4 ≤ d.paramLen && 1 ≤ rows && rows ≤ 65536 && 1 ≤ tileRows && d.tiles == ceilDiv rows tileRows

/-- The formats of an op of the Coulters: a format that they load, and a stored destination (R52, R71). A destination of a
format whose Uses name it as stored but not for the Coulters (INT4, FP4, FP6) is accepted (DESIGN CHOICE, unsafe, log 67). -/
def coulterFormats (d : Desc) : Bool := coulterFmt d.fmtA && storable d.fmtOut && d.round != 3

/-- Narrow values into the destination's elements with no group scale (R80). -/
def narrowElems (d : Desc) (i : Nat) (ys : List (Val × Significand)) : List Nat × List Nat :=
  let (es, _, ev) := narrowRowOutputs { d with gOut := 0 } i ys
  (es, ev)

/-! ELTWISE. -/

/-- A result lane as a value with its significand. -/
def laneValue (int : Bool) (w : Word) : Val × Significand :=
  if int then (.ofInt w.toInt, int32Lsb)
  else
    let v := decodeElem 12 w.toNat
    (v, fp32Lsb v)

/-- ELTWISE's parameters. -/
structure EltDims where
  e : Nat
  rows : Nat
  lda : Nat
  ldb : Nat
  ldd : Nat
  kernel : Nat
  tileRows : Nat
  imm : Nat
  deriving DecidableEq, Repr

/-- Read them. -/
def eltDims (s : State) (d : Desc) : EltDims :=
  let p := s.param d
  ⟨p 0, p 1, p 2, p 3, p 4, p 5, p 6, p 7⟩

/-- The kernel table's entry (R437); empty where the kernel is not loaded. -/
def State.kernel (s : State) (k : Nat) : List Byte := (s.firmware.kernels[k]?).getD []

/-- ELTWISE's plan (R95, R100). R95 states the multiple of 32 for MOVE's strides; the rows that R107 writes need it here too
(DESIGN CHOICE, unsafe, log 68). -/
def eltPlan (s : State) (r : Reach) (d : Desc) : Plan :=
  let x := eltDims s d
  let ok := rowsOk d x.rows x.tileRows && 1 ≤ x.e && x.e ≤ 1048576 && x.ldd % 32 == 0 && x.kernel ≤ 1023 &&
    zcFlagsOk r.fur d x.e x.lda x.e x.ldd
  if !ok then badParam
  else
    let k := s.kernel x.kernel
    let a := stridedExtent d.aAddr x.rows x.lda (if d.zcA then rowRoom true d.fmtA x.e else rowBytes (fmtWidth d.fmtA) x.e)
    let b := if d.bAddr = 0 then (0, 0) else stridedExtent d.bAddr x.rows x.ldb (rowBytes (fmtWidth d.fmtB) x.e)
    let dst := stridedExtent d.dstAddr x.rows x.ldd (rowRoom d.zcDst d.fmtOut x.e)
    { reads := realExtents [a, b], writes := [dst], extA := a, extB := b, extDst := dst
      cycles := 160 + leAt k 4 2 + ceilDiv (x.rows * ceilDiv x.e 64) 4 * leAt k 6 2 + tileCommitCycles * d.tiles }

/-- What the kernel makes of one row of ELTWISE; none: it overruns or is illegal. -/
def eltLanes (s : State) (n : Nat) (d : Desc) (x : EltDims) (o : KernelOut) (r : Nat) : Option KernelOut :=
  let bs := if d.bAddr = 0 then [] else s.rowElems d.fmtB (d.bAddr + r * x.ldb) x.e
  let lanes (fmt : Nat) (vs : List Nat) : List (List Word) := piecesBy 64 (vs.map (coulterWord fmt))
  let env : KernelEnv := { imm := BitVec.ofNat 32 x.imm, round := roundingOf d.round d.seed d.tag
                           row := fun k => s.view (seedbedBase n + 128 * k) 128 }
  kernelRow env (Config.kernelCode s.firmware.image x.kernel) (leAt (s.kernel x.kernel) 6 2) (r * x.e)
    { rows := o.rows, loads := o.loads } (lanes d.fmtA (readRow s d.zcA d.fmtA (d.aAddr + r * x.lda) x.e)) (lanes d.fmtB bs)

/-- The kernel's run over all rows, the seedbed rows that it stores carried from one to the next. -/
def eltRows (s : State) (n : Nat) (d : Desc) (x : EltDims) : KernelOut → List Nat → Option (List KernelOut)
  | _, [] => some []
  | o, r :: rs => do
    let o ← eltLanes s n d x o r
    let os ← eltRows s n d x o rs
    some (o :: os)

/-- The result lanes of a row as elements with their events: FP32 lanes of an FP32 tensor are stored as they are (R88), others narrowed
(R80). -/
def eltElems (d : Desc) (i : Nat) (lanes : List Word) : List Nat × List Nat :=
  if d.fmtOut = 12 && !fmtIsInt d.fmtA then (lanes.map (·.toNat), [0, 0, 0, 0])
  else narrowElems d i (lanes.map (laneValue (fmtIsInt d.fmtA)))

/-- What ELTWISE reads of its operands: row r of A, and of B. -/
def eltReads (s : State) (d : Desc) (x : EltDims) (r : Nat) : List (Nat × Nat) × List (Nat × Nat) :=
  (readSpans s d.zcA d.fmtA (d.aAddr + r * x.lda) x.e,
    if d.bAddr = 0 then [] else [(d.bAddr + r * x.ldb, rowBytes (fmtWidth d.fmtB) x.e)])

/-- ELTWISE: the named kernel over each element of A, and of B if present. The kernels are programs of the firmware image: what
they are is free, what their instructions do is R88 (DESIGN CHOICE, safe, log 9). A kernel that may not run reads nothing;
one that overruns has read its operands. The rows that it stores itself must lie within the task's reach (R34). -/
def eltWork (s : State) (r : Reach) (d : Desc) : Work × State :=
  let x := eltDims s d
  let k := s.kernel x.kernel
  let read := (List.range x.rows).flatMap fun r => (eltReads s d x r).1 ++ (eltReads s d x r).2
  if k = [] ∨ !bitOf (leAt k 8 1) 0 then ({ cause := 0x0C }, s)
  else
    match if Config.kernelFits s.firmware.image x.kernel then eltRows s r.fur d x {} (List.range x.rows) else none with
    | none => ({ cause := 0x0C, reads := read }, s)
    | some out =>
      let last := (out.getLast?).getD {}
      let at' (k : Nat) : Nat × Nat := (seedbedBase r.fur + 128 * k, 128)
      let good := last.loads.all (fun k => s.reaches r (at' k).1 128 false) && last.rows.all fun (k, _) => s.reaches r (at' k).1 128 true
      let row (i : Nat) : List Nat × List Nat :=
        let o := (out[i]?).getD {}
        let (es, ev) := eltElems d (i * x.e) o.lanes
        (es, addEvents o.events ev)
      if !good then ({ cause := 0x05, reads := read }, s)
      else
        ({ reads := last.loads.map at', stores := last.rows.map fun (k, bs) => ((at' k).1, bs)
           tiles := rowTiles d x.e x.e x.rows x.tileRows x.ldd [d.dstAddr] row (fun r => (eltReads s d x r).1)
             fun r => (eltReads s d x r).2 }, s)

/-- ELTWISE. -/
def eltOp : OpDef := ⟨fun d => coulterFormats d && (d.bAddr == 0 || coulterFmt d.fmtB), eltPlan, eltWork⟩

/-! REDUCE (R97). -/

/-- The reduction functions of R95. -/
inductive Reduction where
  | sum | max | min | mean | squares
  deriving DecidableEq, Repr

/-- A function's code. -/
def reductionOf : Nat → Option Reduction
  | 0 => some .sum
  | 1 => some .max
  | 2 => some .min
  | 3 => some .mean
  | 4 => some .squares
  | _ => none

/-- What a lane holds before its first element: the function's neutral value (DESIGN CHOICE, unsafe, log 20). -/
def Reduction.neutral (f : Reduction) (int : Bool) : Val :=
  match f with
  | .max => if int then .ofInt (-2147483648) else .inf true
  | .min => if int then .ofInt 2147483647 else .inf false
  | _ => Val.zero

/-- An integer result modulo 2^32. -/
def wrap32 (v : Val) : Val :=
  match v with
  | .fin neg m e => .ofInt (signedOf (unsignedOf (scaled neg m e 0) 32) 32)
  | x => x

/-- Combine two partial results. -/
def Reduction.combine (f : Reduction) (int : Bool) (x y : Val) : Val :=
  match f with
  | .max => x.max y
  | .min => x.min y
  | _ => if int then wrap32 (x.add y) else fpAdd x y

/-- Take one element into a lane; a square is added by one fma (DESIGN CHOICE, unsafe, log 20). -/
def Reduction.take (f : Reduction) (int : Bool) (acc v : Val) : Val :=
  match f with
  | .squares => if int then wrap32 (acc.add (v.mul v)) else fpFma v v acc
  | _ => f.combine int acc v

/-- One pairwise round: lane 2k with lane 2k + 1. -/
def reduceRound (f : Reduction) (int : Bool) : List Val → List Val
  | x :: y :: l => f.combine int x y :: reduceRound f int l
  | l => l

/-- Reduce a row (R97). -/
def reduceRow (f : Reduction) (int : Bool) (vs : List Val) : Val :=
  let lanes := (List.range 64).map fun i =>
    (vs.zipIdx.filter fun (_, j) => j % 64 == i).foldl (fun acc (v, _) => f.take int acc v) (f.neutral int)
  let r := reduceRound f int <| reduceRound f int <| reduceRound f int <| reduceRound f int <| reduceRound f int <|
    reduceRound f int lanes
  let x := r.headD Val.zero
  if f = .mean then rne32 (x.mul (fpDiv (.ofNat 1) (.ofNat vs.length))) else x

/-- REDUCE's parameters. -/
structure ReduceDims where
  len : Nat
  rows : Nat
  lda : Nat
  ldd : Nat
  fn : Nat
  tileRows : Nat
  reserved : Bool
  deriving DecidableEq, Repr

/-- Read them. -/
def reduceDims (s : State) (d : Desc) : ReduceDims :=
  let p := s.param d
  ⟨p 0, p 1, p 2, p 3, p 4, p 5, p 6 != 0 || p 7 != 0⟩

/-- REDUCE's plan (R95, R100); ldd as in ELTWISE (DESIGN CHOICE, unsafe, log 68). -/
def reducePlan (s : State) (r : Reach) (d : Desc) : Plan :=
  let x := reduceDims s d
  let ok := rowsOk d x.rows x.tileRows && 1 ≤ x.len && x.len ≤ 1048576 && x.ldd % 32 == 0 && x.fn ≤ 4 && !x.reserved &&
    zcFlagsOk r.fur d x.len x.lda 1 x.ldd
  if !ok then badParam
  else
    let a := stridedExtent d.aAddr x.rows x.lda
      (if d.zcA then rowRoom true d.fmtA x.len else rowBytes (fmtWidth d.fmtA) x.len)
    let dst := stridedExtent d.dstAddr x.rows x.ldd (rowRoom d.zcDst d.fmtOut 1)
    { reads := [a], writes := [dst], extA := a, extDst := dst
      cycles := 160 + ceilDiv x.rows 4 *
          ((ceilDiv x.len 64 + 6) * (if fmtIsInt d.fmtA then 2 else 4) + 12 + (if x.fn = 3 then 4 else 0)) +
        tileCommitCycles * d.tiles }

/-- REDUCE. -/
def reduceWork (s : State) (_ : Reach) (d : Desc) : Work × State :=
  let x := reduceDims s d
  let f := (reductionOf x.fn).getD .sum
  let int := fmtIsInt d.fmtA
  let row (r : Nat) : List Nat × List Nat :=
    let v := reduceRow f int ((readRow s d.zcA d.fmtA (d.aAddr + r * x.lda) x.len).map (decodeElem d.fmtA))
    narrowElems d r [(v, if int && f != .mean then int32Lsb else fp32Lsb v)]
  ({ tiles := rowTiles d x.len 1 x.rows x.tileRows x.ldd [d.dstAddr] row
       (fun r => readSpans s d.zcA d.fmtA (d.aAddr + r * x.lda) x.len) fun _ => [] }, s)

/-- REDUCE. -/
def reduceOp : OpDef := ⟨coulterFormats, reducePlan, reduceWork⟩

/-! ROUTE (R98). -/

/-- ROUTE's parameters. -/
structure RouteDims where
  experts : Nat
  tokens : Nat
  lda : Nat
  ldd : Nat
  k : Nat
  tileRows : Nat
  reserved : Bool
  deriving DecidableEq, Repr

/-- Read them. -/
def routeDims (s : State) (d : Desc) : RouteDims :=
  let p := s.param d
  ⟨p 0, p 1, p 2, p 3, p 4, p 5, p 6 != 0 || p 7 != 0⟩

/-- ROUTE's formats. Its records are not narrowed, yet a rounding mode of 3 is refused, as R71 says of every output tensor
(DESIGN CHOICE, unsafe, log 69). -/
def routeFormats (d : Desc) : Bool := (d.fmtA == 10 || d.fmtA == 11 || d.fmtA == 12) && d.fmtOut == 12 && d.round != 3

/-- ROUTE's plan (R95, R100); ldd as in ELTWISE. A k above E selects more experts than there are: a value out of range (DESIGN
CHOICE, unsafe, log 68). -/
def routePlan (s : State) (r : Reach) (d : Desc) : Plan :=
  let x := routeDims s d
  let ok := rowsOk d x.tokens x.tileRows && 2 ≤ x.experts && x.experts ≤ 256 && x.tokens ≤ 4096 && 1 ≤ x.k && x.k ≤ 8 &&
    x.k ≤ x.experts && x.ldd % 32 == 0 && !x.reserved && zcFlagsOk r.fur d x.experts x.lda (2 * x.k) x.ldd
  if !ok then badParam
  else
    let a := stridedExtent d.aAddr x.tokens x.lda
      (if d.zcA then rowRoom true d.fmtA x.experts else rowBytes (fmtWidth d.fmtA) x.experts)
    let dst := stridedExtent d.dstAddr x.tokens x.ldd (rowRoom d.zcDst 12 (2 * x.k))
    { reads := [a], writes := [dst], extA := a, extDst := dst
      cycles := 160 + ceilDiv x.tokens 4 * (4 * ceilDiv x.experts 64 + 40 * x.k + 20) + tileCommitCycles * d.tiles }

/-- The larger logit of two, ties to the lower index; NaN counts as −infinity. A zero of either sign ties. -/
def routeBefore (x y : Nat × Val) : Bool :=
  match x.2.add y.2.neg with
  | .nan => false
  | .inf neg => !neg
  | .fin neg m _ => !neg && m != 0

/-- The best of a list of experts, and the others. -/
def takeBest : List (Nat × Val) → Option ((Nat × Val) × List (Nat × Val))
  | [] => none
  | x :: l =>
    let b := l.foldl (fun b y => if routeBefore y b then y else b) x
    some (b, (x :: l).filter fun y => y.1 != b.1)

/-- The k best in rank order. -/
def topK : Nat → List (Nat × Val) → List (Nat × Val)
  | 0, _ => []
  | k + 1, l =>
    match takeBest l with
    | some (b, rest) => b :: topK k rest
    | none => []

/-- The gates of the selected experts: every step rounded to FP32, the sum in descending rank order, read as
from the largest logit down (DESIGN CHOICE, unsafe, log 20). -/
def routeGates (ls : List Val) : List Val :=
  let m := ls.headD Val.zero
  let es := ls.map fun l => fpExp (rne32 (l.sub m))
  let sum := es.foldl fpAdd Val.zero
  es.map fun e => fpDiv e sum

/-- One token's records and its events. -/
def routeRow (fmt k : Nat) (es : List Nat) : List Nat × List Nat :=
  let vs := es.map (decodeElem fmt)
  let nans := (vs.filter (·.isNan)).length
  let best := topK k (vs.zipIdx.map fun (v, i) => (i, if v.isNan then .inf true else v))
  let gs := routeGates (best.map (·.2))
  ((best.zip gs).flatMap fun ((i, _), g) => [i, fp32Bits g], [0, 0, 0, nans])

/-- ROUTE. -/
def routeWork (s : State) (_ : Reach) (d : Desc) : Work × State :=
  let x := routeDims s d
  let row (r : Nat) : List Nat × List Nat :=
    routeRow d.fmtA x.k (readRow s d.zcA d.fmtA (d.aAddr + r * x.lda) x.experts)
  ({ tiles := rowTiles d x.experts (2 * x.k) x.tokens x.tileRows x.ldd [d.dstAddr] row
       (fun r => readSpans s d.zcA d.fmtA (d.aAddr + r * x.lda) x.experts) fun _ => [] }, s)

/-- ROUTE. -/
def routeOp : OpDef := ⟨routeFormats, routePlan, routeWork⟩

/-! MOVE (R95, R100, R276). -/

/-- MOVE's parameters. -/
structure MoveDims where
  e : Nat
  rows : Nat
  src : Nat
  dst : Nat
  mask : Nat
  tileRows : Nat
  reserved : Nat
  deriving DecidableEq, Repr

/-- Read them. -/
def moveDims (s : State) (d : Desc) : MoveDims :=
  let p := s.param d
  ⟨p 0, p 1, p 2, p 3, p 4 + 2 ^ 32 * p 5, p 6, p 7⟩

/-- The mesh position of logical Furrow n (R271). -/
def furrowAt (n : Nat) : Nat × Nat := (n % 8, if n < 32 then n / 8 else n / 8 + 1)

/-- What is attached to the memory and I/O nodes besides DRAM channels (R271). -/
inductive Attachment where
  | pcie | safetyIsland | reeve | flash | harness | csiReceiver (r : Nat) | sensorEthernet | drovePort (q : Nat)
  | reinMailbox | bridle | chutes | tackPorts | timeBase
  deriving DecidableEq, Repr

/-- The node of an attachment; node m sits at (m, 4) (R271). -/
def attachedNode : Attachment → Nat
  | .pcie => 0
  | .safetyIsland => 1
  | .reeve => 1
  | .flash => 1
  | .harness => 1
  | .csiReceiver r => if r < 4 then 2 else 3
  | .sensorEthernet => 3
  | .drovePort q => if q < 2 then 4 else 5
  | .reinMailbox => 6
  | .bridle => 6
  | .chutes => 7
  | .tackPorts => 7
  | .timeBase => 7

/-- Hops between two Furrows' routers. -/
def meshHops (n m : Nat) : Nat :=
  let (x, y) := furrowAt n
  let (u, v) := furrowAt m
  (x - u) + (u - x) + (y - v) + (v - y)

/-- The destinations of a MOVE: dst_addr, or its offset in every seedbed of the mask. -/
def moveBases (x : MoveDims) (d : Desc) : List Nat :=
  if x.mask = 0 then [d.dstAddr]
  else ((List.range 64).filter (bitOf x.mask)).map fun n => seedbedBase n + d.dstAddr % 0x1000000

/-- The transit of a multicast's last write (R273). -/
def moveTransit (n : Nat) (x : MoveDims) (bytes : Nat) : Nat :=
  if x.mask = 0 then 0
  else ((List.range 64).filter (bitOf x.mask)).foldl (fun t m => max t (3 + 2 * meshHops n m + 1 + ceilDiv bytes 64)) 0

/-- The cycles of a MOVE whose rows touch the given bytes at source and destination (R100). -/
def moveCycles (n : Nat) (d : Desc) (x : MoveDims) (bytes : List (Nat × Nat)) : Nat :=
  let blocks := if d.zcA || d.zcDst then ceilDiv x.e 64 else 0
  160 + sumNat (bytes.zipIdx.map fun ((na, nd), i) =>
      max (max (rowsTouched (d.aAddr + i * x.src) na) (rowsTouched (d.dstAddr + i * x.dst) nd)) blocks) +
    (tileCommitCycles + moveTransit n x (rowRoom d.zcDst d.fmtOut x.e)) * d.tiles

/-- MOVE's plan; every copy of a multicast is a destination (R162). -/
def movePlan (s : State) (r : Reach) (d : Desc) : Plan :=
  let x := moveDims s d
  let ok := rowsOk d x.rows x.tileRows && 1 ≤ x.e && x.e ≤ 1048576 && x.dst % 32 == 0 && x.reserved == 0 &&
    (x.mask == 0 || (seedbedOf d.dstAddr).isSome) &&
    (moveBases x d).all fun b => zcFlagsOk r.fur { d with dstAddr := b } x.e x.src x.e x.dst
  if !ok then badParam
  else
    let na := if d.zcA then rowRoom true d.fmtA x.e else rowBytes (fmtWidth d.fmtA) x.e
    let nd := rowRoom d.zcDst d.fmtOut x.e
    let a := stridedExtent d.aAddr x.rows x.src na
    let dst := stridedExtent d.dstAddr x.rows x.dst nd
    { reads := [a], writes := dst :: (moveBases x d).map fun b => (b, dst.2), extA := a, extDst := dst
      cycles := moveCycles r.fur d x (List.replicate x.rows (na, nd)) }

/-- MOVE: elements copied, or converted where the formats differ; an infinity or a NaN that it converts counts as an event of R78 in a
wider destination too (DESIGN CHOICE, unsafe, log 95). The bytes of compressed rows, and with them the cycles, are
those actually touched (R100). -/
def moveWork (s : State) (r : Reach) (d : Desc) : Work × State :=
  let x := moveDims s d
  let row (r : Nat) : List Nat × List Nat :=
    let es := readRow s d.zcA d.fmtA (d.aAddr + r * x.src) x.e
    if d.fmtA = d.fmtOut then (es, [0, 0, 0, 0])
    else narrowElems d (r * x.e) (es.map fun v => (decodeElem d.fmtA v, srcLsb d.fmtA v))
  let spans (r : Nat) : List (Nat × Nat) := readSpans s d.zcA d.fmtA (d.aAddr + r * x.src) x.e
  let tiles := rowTiles d x.e x.e x.rows x.tileRows x.dst (moveBases x d) row spans fun _ => []
  let written := tiles.flatMap fun t => t.pieces.map fun (_, bs) => bs.length
  let read := (List.range x.rows).map fun r => sumNat ((spans r).map (·.2))
  ({ tiles := tiles, cycles := some (moveCycles r.fur d x (List.zip read written)) }, s)

/-- MOVE. A rounding mode of 3 is refused between equal formats too (DESIGN CHOICE, unsafe, log 69). -/
def moveOp : OpDef := ⟨fun d => storable d.fmtA && storable d.fmtOut && d.round != 3, movePlan, moveWork⟩

/-! SYNC (R99). -/

/-- The slot of seedbed n that holds an extent wholly (R128, R132). -/
def State.slotOf (s : State) (n a len : Nat) : Option Nat :=
  let first := a % 0x400000 / 128
  let last := (a % 0x400000 + (len - 1)) / 128
  (List.range 256).find? fun k =>
    let r := Reg.furSbSlotRange n k
    s.bit r 0 && s.bits r 16 2 ≤ first && last ≤ s.bits r 31 17

/-- SYNC's plan for a kind. -/
def syncPlan (s : State) (_ : Reach) (d : Desc) : Plan :=
  let p := s.param d
  let kind := p 0
  let ok := 4 ≤ d.paramLen && kind ≤ 2 && d.tiles == 0 && ((List.range 5).all fun i => p (3 + i) == 0) &&
    (kind != 1 || p 1 ≤ 1023) && (kind != 2 || p 1 ≤ 32767)
  if !ok then badParam
  else
    let w := match kind with
      | 0 => match seedbedOf d.aAddr with
        | some n => match s.slotOf n d.aAddr 32 with
          | some k => Wait.slotGen n k
          | none => .none
        | none => .none
      | 1 => .round (p 1) (p 2 % 65536)
      | _ => .completions (p 1) (p 2)
    { reads := if kind = 0 then [(d.aAddr, 32)] else [], unaligned := kind == 0 && (w == .none || d.aAddr % 32 != 0), cycles := 160, wait := w }

/-- SYNC has no operands. -/
def syncWork (s : State) (_ : Reach) (_ : Desc) : Work × State := ({}, s)

/-- SYNC. -/
def syncOp : OpDef := ⟨fun _ => true, syncPlan, syncWork⟩

end Sys2Proof.Machine
end

