-- ==== Sys2Proof/Machine/Exchange.lean ====
section
/-! DEFINITION. DISPATCH (R245 to R249) and COMBINE (R250 to R252) as ops of the sequencer. -/

namespace Sys2Proof.Machine

/-! The expert map (R245, R246). -/

/-- The expert map's entry of expert e and source chip c. -/
def State.expertEntry (s : State) (e c : Nat) : List Byte := s.entry 0xE 0 (16 * e + c)

/-- The largest quota of an expert. -/
def State.quotaMax (s : State) (e : Nat) : Nat :=
  (List.range 16).foldl (fun q c => max q (leAt (s.expertEntry e c) 8 2)) 0

/-- Bytes of a region's index array. -/
def indexBytes (q : Nat) : Nat := 32 * ceilDiv (4 * q) 32

/-- R_e for a row size. -/
def regionBytes (q rb : Nat) : Nat := q * rb + indexBytes q

/-- An index entry (R246). -/
def indexEntry (token rank : Nat) : List Byte := leBytes 4 (token % 65536 + rank % 256 * 65536 + 2 ^ 31)

/-- Where an expert's rows go: chip, buffer, kind 1 owner or 2 replica; none: no live destination (R247). An expert that
the map does not name has none (DESIGN CHOICE, unsafe, log 17). -/
def State.expertDest (s : State) (e : Nat) : Option (Nat × Nat × Nat) :=
  let x := s.expertEntry e s.chipId
  if x = [] then none
  else if !s.isFenced (leAt x 1 1) then some (leAt x 1 1, leAt x 4 2, 1)
  else if leAt x 2 1 != 0xFF && !s.isFenced (leAt x 2 1) then some (leAt x 2 1, leAt x 6 2, 2)
  else none

/-- The expert whose rows a local receive buffer takes (R245). -/
def State.expertOf (s : State) (buffer : Nat) : Option Nat :=
  (List.range 256).find? fun e => (List.range 16).any fun c =>
    let x := s.expertEntry e c
    x != [] && ((leAt x 1 1 == s.chipId && leAt x 4 2 == buffer) || (leAt x 2 1 == s.chipId && leAt x 6 2 == buffer))

/-- The half of a receive buffer for a round: address and size (R236); none where the buffer is undefined. -/
def State.bufferHalf (s : State) (x r : Nat) : Option (Nat × Nat) :=
  let e := s.entry 0xD 2 x
  if e = [] then none else some (leAt e 16 8 + r % 2 * leAt e 8 4, leAt e 8 4)

/-! Parameters (R247, R250). -/

/-- DISPATCH's and COMBINE's eight values. -/
structure ExchangeDims where
  mode : Nat
  t : Nat
  k : Nat
  rb : Nat
  ld : Nat
  v5 : Nat                           -- round
  v6 : Nat                           -- DISPATCH: target; COMBINE: buffer
  v7 : Nat                           -- DISPATCH: the eighth value; COMBINE: tile_rows
  deriving DecidableEq, Repr

/-- Read them. -/
def exchangeDims (s : State) (d : Desc) : ExchangeDims :=
  let p := s.param d
  ⟨p 0, p 1, p 2, p 3, p 4, p 5, p 6, p 7⟩

/-- The ranges that every mode with rows shares. -/
def ExchangeDims.rowsGood (x : ExchangeDims) : Bool :=
  1 ≤ x.t && x.t ≤ 4096 && 32 ≤ x.rb && x.rb ≤ 8192 && x.rb % 32 == 0 && x.v5 < 65536

/-- k is in range. -/
def ExchangeDims.kGood (x : ExchangeDims) : Bool := 1 ≤ x.k && x.k ≤ 8

/-- The stride of ROUTE's records, which start a granule each (R98, R107; DESIGN CHOICE, unsafe, log 17). -/
def recordStride (k : Nat) : Nat := roundUp (8 * k) 32

/-- The extent of the ROUTE records of T tokens. -/
def recordExtent (a t k : Nat) : Nat × Nat := stridedExtent a t (recordStride k) (8 * k)

/-- Expert and gate of a token's rank; a compressed record is a row of 2k 32-bit elements (R162). -/
def State.routeRecord (s : State) (zc : Bool) (a k t r : Nat) : Nat × Val :=
  let es := readRow s zc 12 (a + t * recordStride k) (2 * k)
  ((es[2 * r]?).getD 0 % 65536, decodeElem 12 ((es[2 * r + 1]?).getD 0))

/-- What reading a token's record reads. -/
def recordReads (s : State) (zc : Bool) (a k t : Nat) : List (Nat × Nat) :=
  if zc then readSpans s true 12 (a + t * recordStride k) (2 * k) else [(a + t * recordStride k, 8 * k)]

/-! Tags (R111). -/

/-- The provenance tag with the oldest capture tick among a task's inputs, ties to the lower entry: its bytes. -/
def State.oldestTag (s : State) (d : Desc) : Option (List Byte) :=
  ((List.range 3).filter fun i => s.header d i != 0).foldl (fun (best : Option (List Byte)) i =>
    let b := s.view (s.header d i) 32
    match best with
    | some o => if leAt b 8 8 < leAt o 8 8 then some b else some o
    | none => some b) none

/-- The tag that a task's messages carry: its own, or free bytes where it has none. -/
def State.messageTag (s : State) (d : Desc) : List Byte × State :=
  match s.oldestTag d with
  | some b => (b, s)
  | none => freeTag s

/-! DISPATCH. -/

/-- Elements of a row of DISPATCH in fmt_a's width, as its zero compression takes them (R162). -/
def ExchangeDims.elemsA (x : ExchangeDims) (d : Desc) : Nat := x.rb * 8 / fmtWidth d.fmtA

/-- Row r of DISPATCH's operand A: its r_b bytes. -/
def ExchangeDims.rowOf (x : ExchangeDims) (s : State) (d : Desc) (r : Nat) : List Byte :=
  if d.zcA then packElems (fmtWidth d.fmtA) (readRow s true d.fmtA (d.aAddr + r * x.ld) (x.elemsA d))
  else s.view (d.aAddr + r * x.ld) x.rb

/-- What reading that row reads. -/
def ExchangeDims.spansOf (x : ExchangeDims) (s : State) (d : Desc) (r : Nat) : List (Nat × Nat) :=
  if d.zcA then readSpans s true d.fmtA (d.aAddr + r * x.ld) (x.elemsA d) else [(d.aAddr + r * x.ld, x.rb)]

/-- The compressed granules of the rows that a tile sends. -/
def ExchangeDims.zcOf (x : ExchangeDims) (s : State) (d : Desc) (rows : List Nat) : Nat × Nat :=
  zcCount d.zcA d.fmtA (x.elemsA d) rows.length ((rows.flatMap (x.spansOf s d)).map (·.2))

/-- DISPATCH's flags (R162): compressed rows of a stored format lie outside the own seedbed, at a stride that holds them; send
records and the status array have no compressed form, so zc_dst is a violation (DESIGN CHOICE, unsafe, log 72). -/
def ExchangeDims.zcOk (x : ExchangeDims) (n : Nat) (d : Desc) : Bool :=
  !d.zcDst && (!d.zcA || zcAllowed n d.aAddr d.fmtA (x.elemsA d) x.ld)

/-- The extent of DISPATCH's operand A. -/
def ExchangeDims.extentOf (x : ExchangeDims) (d : Desc) : Nat × Nat :=
  stridedExtent d.aAddr x.t x.ld (if d.zcA then rowRoom true d.fmtA (x.elemsA d) else x.rb)

/-- A send record (R248). -/
def sendRecord (chip kind buffer rows excess dead first last : Nat) : List Byte :=
  leBytes 2 (chip % 16 + kind % 4 * 16) ++ leBytes 2 buffer ++ leBytes 4 rows ++ leBytes 4 excess ++ leBytes 4 dead ++
    leBytes 4 first ++ leBytes 4 last ++ leBytes 8 0

/-- Messages of one stretch of bytes to a buffer, and a LAST after or on them. -/
def dataDrafts (max : Nat) (m : Message) (off : Nat) (bs : List Byte) : List Message :=
  if bs = [] then [] else (piecesOf max bs).map fun (o, b) => { m with offset := off + o, payload := b }

/-- Set LAST on the last of a list of messages; its total is known when it is issued. -/
def markLast : List Message → List Message
  | [] => []
  | [m] => [{ m with last := true }]
  | m :: ms => m :: markLast ms

/-- The cycles of a list of messages (R253). -/
def draftCycles (ms : List Message) : Nat := sumNat (ms.map fun m => 8 + ceilDiv m.payload.length 128)

/-- One expert's placement so far: pairs sent, pairs over quota, pairs with no live destination. -/
structure Placement where
  rows : List (Nat × Nat) := []
  excess : Nat := 0
  dead : Nat := 0
  deriving DecidableEq, Repr

/-- Place one pair (R247): its status byte; a pair without a destination has a free chip field. -/
def placePair (s : State) (experts : Nat) (places : SMap Placement) (t r e : Nat) : SMap Placement × Nat × State :=
  let p := mapGet {} places e
  let q := leAt (s.expertEntry e s.chipId) 8 2
  let dest := if e < experts then s.expertDest e else none
  match dest with
  | none =>
    let (v, s) := s.takeFree
    (mapSet {} places e { p with dead := p.dead + 1 }, 3 * 16 + v.toNat % 16, s)
  | some (chip, _, kind) =>
    if p.rows.length < q then (mapSet {} places e { p with rows := p.rows ++ [(t, r)] }, kind * 16 + chip, s)
    else
      let (v, s) := s.takeFree
      (mapSet {} places e { p with excess := p.excess + 1 }, v.toNat % 16, s)

/-- All pairs in ascending token and rank: placements and the status array. -/
def placeAll (s : State) (d : Desc) (x : ExchangeDims) : SMap Placement × List Nat × State :=
  ((List.range x.t).flatMap fun t => (List.range x.k).map fun r => (t, r)).foldl (fun (places, st, s) (t, r) =>
    let (places, b, s) := placePair s x.v7 places t r (s.routeRecord false d.bAddr x.k t r).1
    (places, st ++ [b], s)) ([], [], s)

/-- One expert's messages and send record; without messages the record's message numbers are free. -/
def expertSend (s : State) (d : Desc) (x : ExchangeDims) (tag : List Byte) (fld e : Nat) (p : Placement) :
    Tile × List Message × State :=
  let a := d.dstAddr + 32 * e
  match s.expertDest e with
  | none =>
    let (v, s) := s.takeFree
    let (w, s) := s.takeFree
    ({ pieces := [(a, sendRecord v.toNat 3 (v.toNat / 16 % 65536) 0 p.excess p.dead w.toNat (w.toNat / 2 ^ 32))] }, [], s)
  | some (chip, buffer, kind) =>
    let (g, s) := newGroup s
    let q := s.quotaMax e
    let base := s.chipId * regionBytes q x.rb
    let m : Message := { kind := 1, dst := chip, field := fld, buffer := buffer, round := x.v5, tag := tag, group := some g }
    let rows := p.rows.flatMap fun (t, _) => x.rowOf s d t
    let index := slice (p.rows.flatMap fun (t, r) => indexEntry t r) 0 (indexBytes q)
    let last := if index = [] then [{ m with offset := base + q * x.rb }]
      else dataDrafts s.maxPayload m (base + q * x.rb) index
    ({ pieces := [(a, sendRecord chip kind buffer p.rows.length p.excess p.dead 0 0)], group := some g
       zc := x.zcOf s d (p.rows.map (·.1)) },
      dataDrafts s.maxPayload m base rows ++ markLast last, s)

/-- DISPATCH forward. -/
def forwardWork (s : State) (fld : Nat) (d : Desc) (x : ExchangeDims) : Work × State :=
  let (tag, s) := s.messageTag d
  let (places, st, s) := placeAll s d x
  let (tiles, ms, s) := (List.range x.v7).foldl (fun (ts, ms, s) e =>
    let (t, m, s) := expertSend s d x tag fld e (mapGet {} places e)
    (ts ++ [t], ms ++ m, s)) ([], [], s)
  let status : Tile := { pieces := [(d.dstAddr + 32 * x.v7, padGranules (st.map fun b => BitVec.ofNat 8 b))] }
  let sent := (places.flatMap fun (_, p) => p.rows).flatMap fun (t, _) => x.spansOf s d t
  ({ reads := recordExtent d.bAddr x.t x.k :: sent, tiles := status :: tiles, drafts := ms
     groups := tiles.filterMap (·.group)
     resid := places.flatMap fun (e, p) => [(e, 0, p.excess), (e, 1, p.dead)]
     cycles := some (160 + 2 * x.t * x.k + draftCycles ms + tileCommitCycles * d.tiles) }, s)

/-- The valid rows of source chip c's regions: result row number, token, rank; and the index arrays read. -/
def validRows (s : State) (d : Desc) (x : ExchangeDims) (c : Nat) : List (Nat × Nat × Nat) × List (Nat × Nat) :=
  let (rows, reads, _) := (List.range x.v7).foldl (fun (rows, reads, base) i =>
    let buf := s.le (d.bAddr + 2 * i) 2
    match s.expertOf buf, s.bufferHalf buf x.v5 with
    | some e, some (half, _) =>
      let q := s.quotaMax e
      let at' := half + c * regionBytes q x.rb + q * x.rb
      let mine := (List.range q).filterMap fun j =>
        let w := s.le (at' + 4 * j) 4
        if bitOf w 31 ∧ base + c * q + j < x.t then some (base + c * q + j, w % 65536, w / 65536 % 256) else none
      (rows ++ mine, reads ++ [(at', 4 * q)], base + 16 * q)
    | _, _ => (rows, reads, base)) ([], [], 0)
  (rows, reads)

/-- One source chip's messages and its send record (R247). -/
def sourceSend (s : State) (d : Desc) (x : ExchangeDims) (tag : List Byte) (fld c : Nat) :
    Tile × List Message × List (Nat × Nat) × State :=
  let a := d.dstAddr + 32 * c
  let (v, s) := s.takeFree
  if !bitOf (s.entryAt 0xD 2 x.v6 4 2) c || s.isFenced c then
    let (w, s) := s.takeFree
    ({ pieces := [(a, sendRecord c v.toNat x.v6 0 0 0 w.toNat (w.toNat / 2 ^ 32))] }, [], [], s)
  else
    let (g, s) := newGroup s
    let m : Message := { kind := 2, dst := c, field := fld, buffer := x.v6, round := x.v5, tag := tag, group := some g }
    let (rows, reads) := validRows s d x c
    let ms := rows.flatMap fun (i, t, r) =>
      dataDrafts s.maxPayload m ((t * x.k + r) * x.rb) (x.rowOf s d i)
    ({ pieces := [(a, sendRecord c v.toNat x.v6 rows.length 0 0 0 0)], group := some g
       zc := x.zcOf s d (rows.map (·.1)) },
      ms ++ markLast [m], reads ++ rows.flatMap fun (i, _, _) => x.spansOf s d i, s)

/-- DISPATCH return. -/
def returnWork (s : State) (fld : Nat) (d : Desc) (x : ExchangeDims) : Work × State :=
  let (tag, s) := s.messageTag d
  let (tiles, ms, reads, s) := (List.range 16).foldl (fun (ts, ms, rs, s) c =>
    let (t, m, r, s) := sourceSend s d x tag fld c
    (ts ++ [t], ms ++ m, rs ++ r, s)) ([], [], [], s)
  ({ reads := (d.bAddr, 2 * x.v7) :: reads, tiles := tiles, drafts := ms, groups := tiles.filterMap (·.group)
     cycles := some (160 + draftCycles ms + tileCommitCycles * d.tiles) }, s)

/-- DISPATCH PUT and BALE_PUSH. -/
def putWork (s : State) (fld : Nat) (d : Desc) (x : ExchangeDims) : Work × State :=
  let (tag, s) := s.messageTag d
  let (v, s) := s.takeFree
  let (g, s) := newGroup s
  let chip := x.v6 / 65536 % 16
  let m : Message := { kind := if x.mode = 2 then 3 else 5, dst := chip, field := fld, buffer := x.v6 % 1024
                       round := x.v5, tag := tag, group := some g }
  let rows := (List.range x.t).flatMap (x.rowOf s d)
  let ms := markLast (dataDrafts s.maxPayload m x.v7 rows)
  ({ reads := (List.range x.t).flatMap (x.spansOf s d)
     tiles := [{ pieces := [(d.dstAddr, sendRecord chip v.toNat (x.v6 % 1024) x.t 0 0 0 0)], group := some g
                 zc := x.zcOf s d (List.range x.t) }]
     drafts := ms, groups := [g], cycles := some (160 + draftCycles ms + tileCommitCycles * d.tiles) }, s)

/-- A sequence of a layout that R165 allows, for its bale size alone. -/
def layoutOf (fmtK fmtV g heads d : Nat) : Sequence :=
  { h := 0, table := 0, gen := 0, first := 0, cap := 1, fmtK := fmtK, fmtV := fmtV, g := g, heads := heads, d := d, nTok := 0
    headerOk := true, recordOk := true }

/-- z is the bale size Z of some layout: formats, group size, heads and d in the ranges of R165 (R166). -/
def isBaleSize (z : Nat) : Bool :=
  let fmts := (List.range 13).filter cacheFmt
  fmts.any fun fk => fmts.any fun fv => (List.range 3).any fun g => (List.range 8).any fun h => (List.range 16).any fun d =>
    (layoutOf fk fv g (h + 1) (16 * (d + 1))).baleBytes == z

/-- DISPATCH's plan (R247). Nothing that the sending chip holds names the destination layout of BALE_PUSH: T·r_b must be the bale size of
some layout, and is taken for that of the destination (DESIGN CHOICE, unsafe, log 85). -/
def dispatchPlan (s : State) (r : Reach) (d : Desc) : Plan :=
  let x := exchangeDims s d
  let good := 4 ≤ d.paramLen && x.mode ≤ 3 && x.rowsGood && x.kGood && x.zcOk r.fur d
  let a := x.extentOf d
  match x.mode with
  | 0 =>
    let b := recordExtent d.bAddr x.t x.k
    let dst := (d.dstAddr, 32 * x.v7 + roundUp (x.t * x.k) 32)
    if good && x.v6 == 0 && 1 ≤ x.v7 && x.v7 ≤ 256 && d.tiles == x.v7 + 1 && d.bAddr != 0 then
      { reads := [a, b], writes := [dst], extA := a, extB := b, extDst := dst }
    else badParam
  | 1 =>
    let b := (d.bAddr, 2 * x.v7)
    let dst := (d.dstAddr, 512)
    if good && x.v6 ≤ 1023 && x.v7 ≤ 32 && d.tiles == 16 && d.bAddr != 0 then
      { reads := realExtents [a, b], writes := [dst], extA := a, extB := b, extDst := dst }
    else badParam
  | _ =>
    let dst := (d.dstAddr, 32)
    if good && s.inUnit (x.v6 / 65536 % 16) && x.v6 == x.v6 % 1024 + x.v6 / 65536 % 16 * 65536 && x.v7 % 32 == 0 &&
        (x.mode == 2 || (isBaleSize (x.t * x.rb) && x.v7 % (x.t * x.rb) == 0)) && d.tiles == 1 then
      { reads := [a], writes := [dst], extA := a, extDst := dst }
    else badParam

/-- DISPATCH. -/
def dispatchWork (s : State) (r : Reach) (d : Desc) : Work × State :=
  let x := exchangeDims s d
  let fld := (s.fieldOf r.fur).getD 0
  match x.mode with
  | 0 => forwardWork s fld d x
  | 1 => returnWork s fld d x
  | _ => putWork s fld d x

/-- DISPATCH uses no format field but fmt_a of a compressed operand A, a stored format (R52, R162). -/
def dispatchOp : OpDef := ⟨fun d => !d.zcA || storable d.fmtA, dispatchPlan, dispatchWork⟩

/-! COMBINE. -/

/-- The formats of combine mode, judged with the parameter block, which holds the mode (DESIGN CHOICE, unsafe, log 17). A stored
fmt_out outside the Coulters' Uses is accepted (DESIGN CHOICE, unsafe, log 67). -/
def combineFormats (d : Desc) : Bool := coulterFmt d.fmtA && storable d.fmtOut && d.round != 3

/-- Elements per row. -/
def ExchangeDims.elems (x : ExchangeDims) (d : Desc) : Nat := x.rb * 8 / fmtWidth d.fmtA

/-- COMBINE's plan (R250). -/
def combinePlan (s : State) (r : Reach) (d : Desc) : Plan :=
  let x := exchangeDims s d
  let fld := (s.fieldOf r.fur).getD 0
  match x.mode with
  | 0 =>
    let n := x.elems d
    if !combineFormats d then { cause := 0x02 }
    else if !(4 ≤ d.paramLen && x.rowsGood && x.kGood && x.ld % 32 == 0 && x.v6 ≤ 1023 && 1 ≤ x.v7 &&
        d.tiles == ceilDiv x.t x.v7 && d.bAddr != 0 && zcFlagsOk r.fur { d with fmtA := 12 } (2 * x.k) (recordStride x.k) n x.ld)
    then badParam
    else
      let a := recordExtent d.aAddr x.t x.k
      let b := (d.bAddr, x.t * x.k)
      let dst := stridedExtent d.dstAddr x.t x.ld (rowRoom d.zcDst d.fmtOut n)
      let half := match s.bufferHalf x.v6 x.v5 with
        | some (h, _) => [(h, x.t * x.k * x.rb)]
        | none => []
      { reads := [a, b] ++ half, writes := [dst], extA := a, extB := b, extDst := dst, wait := .round x.v6 x.v5
        cycles := 160 + ceilDiv x.t 4 * (4 * x.k * ceilDiv n 64 + 8) + tileCommitCycles * d.tiles }
  | 1 =>
    let peer := x.v7 / 65536 % 16
    match s.bufferHalf x.v6 x.v5 with
    | some (h, size) =>
      if 4 ≤ d.paramLen && x.v5 < 65536 && x.ld % 32 == 0 && x.ld ≤ size && s.inUnit peer && d.tiles == 1 &&
          x.v7 == x.v7 % 1024 + peer * 65536 then
        { reads := realExtents [(h, x.ld)], wait := .fetch x.v6 x.v5 peer, cycles := 160 + tileCommitCycles
          get := some { kind := 4, dst := peer, field := fld, buffer := x.v7 % 1024, round := 0, aux := x.ld
                        aux2 := x.v6 + x.v5 * 65536, tag := [] } }
      else badParam
    | none => badParam
  | _ => badParam

/-- One token's output (R251): values, and the expert of each pair lost to a fenced sender. -/
def combineToken (s : State) (d : Desc) (x : ExchangeDims) (half t : Nat) : List Val × List Nat :=
  let n := x.elems d
  let w := fmtWidth d.fmtA
  (List.range x.k).foldl (fun (ys, lost) r =>
    let st := (s.byte (d.bAddr + t * x.k + r)).toNat
    let kind := st / 16 % 4
    let (e, gate) := s.routeRecord d.zcA d.aAddr x.k t r
    if kind = 1 ∨ kind = 2 then
      if s.fencedFor x.v6 (x.v5 != s.roundOf x.v6) (st % 16) then (ys, lost ++ [e])
      else
        let row := s.view (half + (t * x.k + r) * x.rb) x.rb
        (ys.zipIdx.map fun (y, i) => fpFma gate (decodeElem d.fmtA (elemAt row w i)) y, lost)
    else (ys, lost)) (List.replicate n Val.zero, [])

/-- What a token's output reads besides the records: the rows of its pairs that count. -/
def combineReads (s : State) (d : Desc) (x : ExchangeDims) (half t : Nat) : List (Nat × Nat) :=
  (List.range x.k).filterMap fun r =>
    let st := (s.byte (d.bAddr + t * x.k + r)).toNat
    if (st / 16 % 4 = 1 ∨ st / 16 % 4 = 2) ∧ !s.fencedFor x.v6 (x.v5 != s.roundOf x.v6) (st % 16) then
      some (half + (t * x.k + r) * x.rb, x.rb)
    else none

/-- COMBINE. -/
def combineWork (s : State) (_ : Reach) (d : Desc) : Work × State :=
  let x := exchangeDims s d
  let half := ((s.bufferHalf x.v6 x.v5).map (·.1)).getD 0
  if x.mode = 0 then
    let n := x.elems d
    let outs := (List.range x.t).map fun t => combineToken s d x half t
    let row (t : Nat) : List Nat × List Nat :=
      narrowElems d (t * n) ((((outs[t]?).map (·.1)).getD []).map fun v => (v, fp32Lsb v))
    let tiles := rowTiles { d with fmtA := 12 } (2 * x.k) n x.t x.v7 x.ld [d.dstAddr] row
      (recordReads s d.zcA d.aAddr x.k) fun t => (d.bAddr + t * x.k, x.k) :: combineReads s d x half t
    ({ tiles := tiles, resid := (outs.flatMap (·.2)).map fun e => (e, 2, 1) }, s)
  else
    ({ tiles := [{ pieces := [(half, s.view half x.ld)], reads := [(half, x.ld)] }] }, s)

/-- COMBINE. -/
def combineOp : OpDef := ⟨fun _ => true, combinePlan, combineWork⟩

end Sys2Proof.Machine
end

