-- ==== Sys2Proof/Machine/Sequencer.lean ====
section
/-! DEFINITION. The sequencer's checks (R101 to R103, R132), the acceptance of a task (R205, R206) and the reading of its
operands (spec 04_furrow_cores.md). -/

namespace Sys2Proof.Machine

/-! Ops (R96). -/

/-- The op of a code, CHECK_PLOT apart. -/
def opDefOf : Nat → Option OpDef
  | 0x01 => some matmulOp
  | 0x02 => some convOp
  | 0x03 => some poolOp
  | 0x04 => some resampleOp
  | 0x05 => some attnOp
  | 0x06 => some kvOp
  | 0x07 => some eltOp
  | 0x08 => some reduceOp
  | 0x09 => some routeOp
  | 0x0A => some dispatchOp
  | 0x0B => some combineOp
  | 0x0C => some moveOp
  | 0x0D => some compressOp
  | 0x0E => some decompressOp
  | 0x0F => some syncOp
  | _ => none

/-- CHECK_PLOT's op code. -/
def opCheckPlot : Nat := 0x10

/-- CHECK_PLOT's plan (R388). -/
def checkPlotPlan (s : State) (_ : Reach) (d : Desc) : Plan :=
  let p := s.param d
  if 4 ≤ d.paramLen && d.bAddr == 0 && d.dstAddr == 0 && d.tiles == 0 && p 1 ≤ 255 && p 2 ≤ 7 && p 3 ≤ 1 && p 4 == 0 &&
      p 5 == 0 && p 6 == 0 && p 7 == 0 then
    { reads := [(d.aAddr, 64)], extA := (d.aAddr, 64) }
  else badParam

/-- CHECK_PLOT as its outer descriptor is checked. -/
def checkPlotOp : OpDef := ⟨fun _ => true, checkPlotPlan, fun s _ _ => ({}, s)⟩

/-- The op that a descriptor names on a hopper; CHECK_PLOT only in the system hopper and not inside another (R96). -/
def opFor (system inner : Bool) (code : Nat) : Option OpDef :=
  if code = opCheckPlot then (if system && !inner then some checkPlotOp else none) else opDefOf code

/-! Checks (R101 to R103). -/

/-- What the checks find: the first failing cause, 0 for none; the plan; whether the stubble word may be written; the
guarded uses. -/
structure Checked where
  cause   : Nat := 0
  plan    : Plan := {}
  stubble : Bool := false
  uses    : List SlotUse := []
  deriving DecidableEq, Repr

/-- The cause of an extent that is not wholly reachable: crossing a mapped range is 0x06, anything else 0x05 (R102). -/
def extentCause (s : State) (r : Reach) (e : Nat × Nat) (write : Bool) : Nat :=
  if s.reaches r e.1 e.2 write then 0
  else if (s.extentRegion e.1 e.2).isNone && s.reaches r e.1 1 write && s.reaches r (e.1 + e.2 - 1) 1 write then 0x06
  else 0x05

/-- Reads that the header names: the tags in. -/
def tagReads (s : State) (d : Desc) : List (Nat × Nat) :=
  ((List.range 3).filter fun i => s.header d i != 0).map fun i => (s.header d i, 32)

/-- Writes that the header names: the tag out and the checksum array. -/
def headerWrites (s : State) (d : Desc) : List (Nat × Nat) :=
  (if (tagReads s d).isEmpty then [] else [(s.header d 3, 32)]) ++
    (if d.tiles = 0 then [] else [(s.header d 8, 32 * ceilDiv d.tiles 8)])

/-- The parameter block's checks that every op shares (R93). -/
def headerOk (s : State) (d : Desc) : Bool :=
  ((List.range 12).all fun i => decide (s.header d i < 2 ^ 40)) && (d.tiles == 0 || s.header d 8 != 0) &&
    ((tagReads s d).isEmpty || s.header d 3 != 0)

/-- A strictly ascending list below a bound. -/
def ascendingBelow (k : Nat) : List Nat → Bool
  | [] => true
  | [a] => a < k
  | a :: b :: l => a < b && a < k && ascendingBelow k (b :: l)

/-- The outlier list's format check (R68), where the sequencer can read the list. -/
def outliersOk (s : State) (r : Reach) (d : Desc) (p : Plan) : Bool :=
  let a := s.header d 9
  p.outliers == 0 || a == 0 || !s.reaches r a (4 * d.nOut) false || s.poisoned a (4 * d.nOut) ||
    ascendingBelow p.outliers (outlierList s d)

/-- The outlier list that the sequencer reads as it checks a descriptor, if its check fails there; where it passes, the op reads it. -/
def badList (s : State) (r : Reach) (d : Desc) : List (Nat × Nat) :=
  match opDefOf d.op with
  | some o => if outliersOk s r d (o.plan s r d) then [] else [(s.header d 9, 4 * d.nOut)]
  | none => []

/-- A guarded extent as a use of the slot that holds it. -/
def guardUse (s : State) (guard : Bool) (ext : Nat × Nat) (gen : Nat) (write : Bool) : Option (Option SlotUse) :=
  if !guard || ext.2 == 0 then some none
  else
    match seedbedOf ext.1 with
    | none => none
    | some m =>
      match s.slotOf m ext.1 ext.2 with
      | none => none
      | some k => some (some { furrow := m, slot := k, gen := gen, write := write })

/-- The guards of a descriptor: none where one of them has no slot or two share a slot (R132). -/
def guardUses (s : State) (d : Desc) (p : Plan) : Option (List SlotUse) :=
  match guardUse s d.guardA p.extA d.aGen false, guardUse s d.guardB p.extB d.bGen false,
      guardUse s d.guardDst p.extDst d.dstGen true with
  | some a, some b, some c =>
    let us := [a, b, c].filterMap id
    let keys := us.map fun u => (u.furrow, u.slot)
    if keys.eraseDups.length = keys.length then some us else none
  | _, _, _ => none

/-- The alignment checks (R102). -/
def alignedOk (s : State) (d : Desc) (p : Plan) : Bool :=
  ([p.extA, p.extB, p.extDst].all fun e => e.2 == 0 || e.1 % 32 == 0) &&
    ((List.range 12).all fun i => s.header d i % 32 == 0) && d.stubbleAddr % 32 == 0 && !p.unaligned

/-- The checks after the parameter block: reach, then alignment and guards, then the output size. -/
def checkExtents (s : State) (r : Reach) (d : Desc) (p : Plan) : Nat × List SlotUse :=
  let causes := ((p.reads ++ tagReads s d).map fun e => extentCause s r e false) ++
    ((p.writes ++ headerWrites s d ++ [(d.stubbleAddr, 32)]).map fun e => extentCause s r e true)
  if causes.contains 0x05 then (0x05, [])
  else if causes.contains 0x06 || !alignedOk s d p then (0x06, [])
  else
    match guardUses s d p with
    | none => (0x06, [])
    | some us => (if p.sizeBad then 0x08 else 0, us)

/-- The checks up to param_addr (R101): the cause of the first that fails, 0 for none. -/
def headCause (s : State) (r : Reach) (system inner poisoned : Bool) (d : Desc) : Nat :=
  if poisoned then 0x0A
  else if !d.crcOk then 0x04
  else
    match opFor system inner d.op with
    | none => 0x01
    | some o =>
      let param := (d.paramAddr, 32 * d.paramLen)
      if !o.formats d then 0x02
      else if d.budget = 0 ∨ 25600 < d.budget then 0x03
      else if extentCause s r param false ≠ 0 then extentCause s r param false
      else if d.paramAddr % 32 ≠ 0 then 0x06
      else 0

/-- The checks of cause 0x07 that need no read: the descriptor's reserved bits, an absent operand B, and a block shorter
than its header (R91, R93). -/
def descCause (d : Desc) : Nat :=
  if d.reservedSet ∨ d.paramLen < 3 ∨ ((d.op = 0x01 ∨ d.op = 0x06) ∧ d.bAddr = 0) then 0x07 else 0

/-- The sequencer comes to read the parameter block. -/
def readsParam (s : State) (r : Reach) (system inner poisoned : Bool) (d : Desc) : Bool :=
  headCause s r system inner poisoned d == 0 && descCause d == 0

/-- The checks of the parameter block: its poison, its formats, the outlier list's (where `lists`) and its values. -/
def paramCause (s : State) (r : Reach) (d : Desc) (p : Plan) (lists : Bool) : Nat :=
  if s.poisoned d.paramAddr (32 * d.paramLen) then 0x0A
  else if p.cause = 0x02 then 0x02
  else if lists && !outliersOk s r d p then 0x02
  else if p.cause ≠ 0 ∨ !headerOk s d then 0x07
  else 0

/-- The stubble word may be written: the descriptor passed its poison and CRC checks, and stubble_addr is reachable and
aligned (R101). -/
def stubbleOk (s : State) (r : Reach) (poisoned : Bool) (d : Desc) : Bool :=
  !poisoned && d.crcOk && s.reaches r d.stubbleAddr 32 true && d.stubbleAddr % 32 == 0

/-- The checks of a descriptor in the order of R101 and R103. -/
def checkDesc (s : State) (r : Reach) (system inner poisoned : Bool) (d : Desc) : Checked :=
  let stub := stubbleOk s r poisoned d
  let bad (c : Nat) : Checked := { cause := c, stubble := stub }
  let head := headCause s r system inner poisoned d
  if head ≠ 0 then bad head
  else if descCause d ≠ 0 then bad (descCause d)
  else
    match opFor system inner d.op with
    | none => bad 0x01
    | some o =>
      let p := o.plan s r d
      let param := paramCause s r d p true
      if param ≠ 0 then bad param
      else
        let (c, us) := checkExtents s r d p
        { cause := c, plan := p, stubble := stub, uses := us }

/-! Waits. -/

/-- The generation of slot k of seedbed m (R130). -/
def State.slotGen (s : State) (m k : Nat) : Nat := s.bits (Reg.furSbSlotGen m k) 15 0

/-- A guarded access passes the gate (R129). -/
def State.useReady (s : State) (u : SlotUse) : Bool :=
  s.slotGen u.furrow u.slot == u.gen && (u.gen % 2 == 1) == !u.write

/-- The guard of a list that holds the task. Only a task that states a generation has one; every other access passes (R133). -/
def State.unmetGuard (s : State) (us : List SlotUse) (write : Bool) : Option SlotUse :=
  us.find? fun u => u.write == write && !s.useReady u

/-- A fetch's bytes have arrived from its peer (R252). -/
def State.fetched (s : State) (x r p : Nat) : Bool := s.roundOpen x r && s.delivered x r p

/-- A wait's condition holds (R99, R249, R251, R252); a fetch from a fenced peer waits no more (R257). -/
def State.waitHolds (s : State) (d : Desc) : Wait → Bool
  | .none => true
  | .gate _ _ => true
  | .slotGen m k => s.slotGen m k == d.aGen
  | .round x r => s.roundComplete x r || (d.op == 0x0F && s.roundReleased x r)
  | .completions h c => c ≤ (s.hopper h).done
  | .fetch x r p => s.fetched x r p || s.isFenced p
  | .messages g => (s.group g).outstanding == 0 || (s.group g).rejected

/-- The reach of a task of hopper h on Furrow n. -/
def State.taskReach (s : State) (n h : Nat) : Reach := if isSystem h then .check n else .task n (s.hopper h).cls

/-- What a running or parked task awaits now: the gate of a guard, or its op's condition (none: nothing). -/
def State.nextWait (s : State) (n : Nat) (t : Task) : Wait :=
  match t.stage with
  | .ending _ => .none
  | .checking => .none
  | .starting => .none
  | .reading =>
    match s.unmetGuard t.uses false with
    | some u => .gate u.furrow u.slot
    | none =>
      match opDefOf t.desc.op with
      | some o =>
        let w := (o.plan s (s.taskReach n t.hopper) t.desc).wait
        if s.waitHolds t.desc w then .none else w
      | none => .none
  | .committing =>
    match t.tilesLeft with
    | [] => .none
    | tile :: _ =>
      match s.unmetGuard t.uses true with
      | some u => .gate u.furrow u.slot
      | none =>
        match tile.group with
        | some g => if s.waitHolds t.desc (.messages g) then .none else .messages g
        | none => .none

/-- A message of the task was rejected (R257). -/
def State.messageRejected (s : State) (t : Task) : Bool := t.groups.any fun g => (s.group g).rejected

/-- The task ends with cause 0x10: a message of it was rejected, or its fetch finds the peer fenced before the bytes have arrived
(R257). -/
def State.taskRejected (s : State) (n : Nat) (t : Task) : Bool :=
  s.messageRejected t || t.stage == .reading && match opDefOf t.desc.op with
    | some o => match (o.plan s (s.taskReach n t.hopper) t.desc).wait with
      | .fetch x r p => s.isFenced p && !s.fetched x r p
      | _ => false
    | none => false

/-! The running task. -/

/-- Replace Furrow n's running task. -/
def setTask (s : State) (n : Nat) (t : Option Task) : State := s.setFurrow n { s.furrow n with task := t }

/-- The running task is to end with a fault cause. -/
def toEnding (s : State) (n : Nat) (t : Task) (cause : Nat) : State :=
  releaseYoke (setTask s n (some { t with stage := .ending cause, wait := .none, tilesLeft := [], charged := false })) n

/-- Charge an access of a task (R215); system tasks are charged to no yoke. -/
def taskCharge (s : State) (n : Nat) (t : Task) (xs : List (Nat × Nat)) : State := chargeAll s n (isSystem t.hopper) xs

/-- A wait of the op itself, which its cycle count includes (R100, R253). -/
def Wait.ofOp : Wait → Bool
  | .round _ _ => true
  | .fetch _ _ _ => true
  | .messages _ => true
  | _ => false

/-- A task's wait is over, or it is parked: the cycles that it has waited for its op's condition are part of those its op takes
(R253). -/
def State.endWait (s : State) (t : Task) : Task :=
  if t.wait.ofOp then { t with wait := .none, extra := t.extra + (s.now - t.waitTick) / max s.coreTicks 1 }
  else { t with wait := .none }

/-- Record what a task waits for, and since when. -/
def noteWait (s : State) (n : Nat) (t : Task) (w : Wait) : State :=
  if t.wait = w then setTask s n (some t) else setTask s n (some { s.endWait t with wait := w, waitTick := s.now })

/-- Add to a 64-bit counter over two registers. -/
def addCount (s : State) (lo hi k : Nat) : State := s.setReg64 lo hi ((s.reg64 lo hi + k) % 2 ^ 64)

/-- Count what a task's work counts: MACs, gated MACs, Harrow counts, residual pairs. -/
def countWork (s : State) (n : Nat) (w : Work) : State :=
  let s := addCount s (Reg.furMacLo n) (Reg.furMacHi n) w.macs
  let s := addCount s (Reg.furGatedLo n) (Reg.furGatedHi n) w.gated
  let s := s.addSat (Reg.furHwUnbucketed n) 31 0 w.unbucketed
  let s := s.addSat (Reg.furHwSkipped n) 31 0 w.skipped
  w.resid.foldl (fun s (e, kind, k) =>
    if 256 ≤ e ∨ k = 0 then s
    else
      match kind with
      | 0 => s.addSat (Reg.droveResid e) 11 0 k
      | 1 => s.addSat (Reg.droveResid e) 23 12 k
      | _ => s.addSat (Reg.droveResid e) 31 24 k) s

/-- Some of a list of reads is poisoned (R126). -/
def State.readsPoisoned (s : State) (xs : List (Nat × Nat)) : Bool := xs.any fun (a, k) => s.poisoned a k

/-- A DISPATCH in forward mode issues its messages once its status array is committed (R247). -/
def issuesLate (s : State) (d : Desc) : Bool := d.op == 0x0A && s.param d 0 == 0

/-- Whole cycles of CLK_CORE that a task has been running up to now (R109). TIME_NOW moves 4 ticks at a time (R43), so the
clock passes a cycle of 5, 6 or 8 ticks by less than one of them. -/
def State.ranCycles (s : State) (t : Task) : Nat := (s.now - (t.start + t.paused)) / max s.coreTicks 1

/-- The words of the Rake's line buffers or of the score buffer are written anew by a task that uses them (R138, R385). -/
def useBuffers (s : State) (n op : Nat) : State :=
  if op = 2 ∨ op = 3 ∨ op = 4 then s.rewriteWords .line n else if op = 5 then s.rewriteWords .score n else s

/-- The task reads its operands and computes its tiles. A SYNC takes the cycles it has waited besides (R100). -/
def runWork (s : State) (n : Nat) (t : Task) (o : OpDef) : State :=
  let r := s.taskReach n t.hopper
  let plan := o.plan s r t.desc
  let (w, s) := o.work s r t.desc
  let s := noteReads s w.reads
  let s := noteReads s (w.tiles.flatMap (·.reads))
  if s.readsPoisoned w.reads then toEnding s n t 0x0A
  else if w.cause ≠ 0 then toEnding s n t w.cause
  else
    let tiles := w.tiles.map fun k => { k with poison := k.poison || s.readsPoisoned k.reads }
    let s := w.stores.foldl (fun s (a, bs) => s.store a bs) (countWork (useBuffers s n t.desc.op) n w)
    let late := issuesLate s t.desc
    let s := if late then s else w.drafts.foldl issueMessage s
    let t := { t with stage := .committing, wait := .none, charged := false, tilesLeft := tiles
                      groups := t.groups ++ w.groups, drafts := if late then w.drafts else []
                      cycles := if t.desc.op = 0x0F then plan.cycles + s.ranCycles t else w.cycles.getD plan.cycles
                      extra := if t.desc.op = 0x0F then 0 else t.extra, snapshots := w.snapshots
                      reads := w.reads }
    showFence (setTask s n (some t)) n

/-- The accesses that reading a task's operands makes, for the yoke (R215): its plan's extents, and what its work reads besides them. -/
def operandReads (s : State) (n : Nat) (t : Task) (o : OpDef) : List (Nat × Nat) :=
  let r := s.taskReach n t.hopper
  let plan := (o.plan s r t.desc).reads
  let w := (o.work s r t.desc).1
  let inside (e : Nat × Nat) : Bool := plan.any fun (a, k) => a ≤ e.1 && e.1 + e.2 ≤ a + k
  plan ++ (w.reads ++ w.tiles.flatMap (·.reads)).filter fun e => !inside e

/-- The reading stage: guards, the op's condition and the yoke permitting, the operands are read. -/
def tryRead (s : State) (n : Nat) (t : Task) : State :=
  if s.taskRejected n t then toEnding s n t 0x10
  else
    let w := s.nextWait n t
    if w ≠ .none then noteWait s n t w
    else
      match opDefOf t.desc.op with
      | none => s
      | some o =>
        let s := if t.charged || isSystem t.hopper then s else taskCharge s n t (operandReads s n t o)
        let t := { s.endWait t with charged := true }
        if s.yokeWaits n then setTask s n (some t) else runWork s n t o

/-! Acceptance. -/

/-- The receive-buffer rounds that a wait makes its task consume (R238). -/
def Wait.consumed : Wait → List (Nat × Nat)
  | .round x r => [(x, r)]
  | .fetch x r _ => [(x, r)]
  | _ => []

/-- A fetch sends its GET (R252). -/
def sendGet (s : State) (n : Nat) (t : Task) (p : Plan) : State :=
  match p.get with
  | none => setTask s n (some t)
  | some m =>
    let (tag, s) := s.messageTag t.desc
    let (g, s) := newGroup s
    setTask (issueMessage s { m with tag := tag, group := some g }) n (some { t with groups := [g] })

/-- A final stubble write of the Furrow to this granule is not acknowledged yet (R106). -/
def State.awaitsAck (s : State) (n a : Nat) : Bool :=
  (s.furrow n).unacked.any fun u => match u.word with
    | some (b, _) => b == a && !u.lost
    | none => false

/-- The running stubble write, once an earlier write of the word is acknowledged (R106) and the yoke admits it (R217); then
a fetch's GET and the operands. -/
def tryStart (s : State) (n : Nat) (t : Task) : State :=
  if s.awaitsAck n t.desc.stubbleAddr then setTask s n (some t)
  else
    let s := if t.charged then s else taskCharge s n t [(t.desc.stubbleAddr, 32)]
    if s.yokeWaits n then setTask s n (some { t with charged := true })
    else
      match opDefOf t.desc.op with
      | none => s
      | some o =>
        let s := writeStubble s t.desc 0 0 1 []
        if inMailbox t.desc.stubbleAddr then toEnding s n t 0x05
        else
        let s := sendGet s n { t with stage := .reading, charged := false } (o.plan s (s.taskReach n t.hopper) t.desc)
        match (s.furrow n).task with
        | some t => tryRead s n t
        | none => s

/-- Start a checked task: its running stubble word, then its operands (R106). -/
def beginTask (s : State) (n : Nat) (t : Task) (c : Checked) : State :=
  if c.cause ≠ 0 then setTask s n (some { t with stage := .ending c.cause, stubble := c.stubble, charged := false })
  else
    tryStart s n { t with stage := .starting, charged := false, stubble := c.stubble, uses := c.uses
                          buffers := c.plan.wait.consumed, cycles := c.plan.cycles }

/-- The sequencer reads the parameter block, once the yoke admits it, and checks the descriptor (R101, R124, R125). -/
def tryCheck (s : State) (n : Nat) (t : Task) : State :=
  let param := (t.desc.paramAddr, 32 * t.desc.paramLen)
  let s := if t.charged then s else taskCharge s n t [param]
  if s.yokeWaits n then setTask s n (some { t with charged := true })
  else
    let c := checkDesc s (s.taskReach n t.hopper) (isSystem t.hopper) false false t.desc
    let s := noteReads s (param :: if c.cause = 0x02 then badList s (s.taskReach n t.hopper) t.desc else [])
    beginTask s n t c

/-- A resumed task's running stubble write, once the yoke admits it (R211, R217). -/
def tryResume (s : State) (n : Nat) (t : Task) : State :=
  let s := if t.charged then s else taskCharge s n t [(t.desc.stubbleAddr, 32)]
  if s.yokeWaits n then setTask s n (some { t with charged := true })
  else setTask (writeStubble s t.desc t.committed 0 1 t.events) n (some { t with resuming := false, charged := false })

/-- A checked task ends where an instruction store of its Furrow holds an uncorrectable word (R90). -/
def storeFault (s : State) (n : Nat) : State :=
  match (s.furrow n).task with
  | some t =>
    match t.stage with
    | .checking => s
    | .ending _ => s
    | _ => if (s.furrow n).stores.isEmpty then s else toEnding s n t 0x0B
  | none => s

/-- The task has its cause and only waits for its end. -/
def Task.isEnding (t : Task) : Bool :=
  match t.stage with
  | .ending _ => true
  | _ => false

/-- The running task goes on towards its tile commits. -/
def advanceTask (s : State) (n : Nat) : State :=
  let s := storeFault s n
  let s := match (s.furrow n).task with
    | some t => if t.resuming && !t.isEnding then tryResume s n t else s
    | none => s
  match (s.furrow n).task with
  | none => s
  | some t =>
    if t.resuming then s
    else
      match t.stage with
      | .checking => tryCheck s n t
      | .starting => tryStart s n t
      | .reading => tryRead s n t
      | _ => s

/-- The events of the read of a parameter block, where the checks come to it. -/
def noteParam (s : State) (r : Reach) (system inner poisoned : Bool) (d : Desc) : State :=
  let param := (d.paramAddr, 32 * d.paramLen)
  if readsParam s r system inner poisoned d then
    noteReads s (param :: if (checkDesc s r system inner poisoned d).cause = 0x02 then badList s r d else [])
  else s

/-- Begin a CHECK_PLOT: the outer descriptor's checks, then its inner task (R388). -/
def beginCheck (s : State) (n : Nat) (t : Task) (c : Checked) : State :=
  if c.cause ≠ 0 then setTask s n (some { t with stage := .ending c.cause, stubble := c.stubble })
  else
    let d := t.desc
    let s := writeStubble s d 0 0 1 []
    let s := noteRead s d.aAddr 64
    let inner := s.descAt d.aAddr
    let bad := s.poisoned d.aAddr 64
    let c := checkDesc s (.check n) true true bad inner
    beginTask (noteParam s (.check n) true true bad inner) n { t with desc := inner, outer := some d } c

/-- The check-plot run takes its next task (R390). -/
def noteRunStart (s : State) (n h : Nat) : State :=
  let f := s.furrow n
  let r := f.run
  let r := if r.active then r else { r with active := true, due := false, nextK := r.nextK + 1, rerun := 0, started := false }
  let r := if r.started then r else { r with started := true, startTick := s.now, firstHead := (s.hopper h).head }
  s.setFurrow n { f with run := r }

/-- The round robin of a class goes on after the hopper accepted from (R205). -/
def noteRobin (s : State) (n h : Nat) : State :=
  let f := s.furrow n
  s.setFurrow n { f with rr := mapSet 0 f.rr (s.hopper h).cls (h + 1) }

/-- The registers and the hopper's state entry of an accepted task (R106, R198, R199). -/
def showAccepted (s : State) (n h : Nat) (d : Desc) : State :=
  let x := s.hopper h
  let s := s.setHopper h { x with stage := .running, inflight := true, tries := if x.inflight then x.tries else 0 }
  let s := s.setBits (Reg.furStatus n) 2 0 (if isSystem h then 2 else 1)
  let s := s.setReg (Reg.furTask n) (BitVec.ofNat 32 (0x80000000 + h))
  let s := s.setReg (Reg.furTaskTag n) (BitVec.ofNat 32 d.tag)
  let s := s.setReg (Reg.furTiles n) (BitVec.ofNat 32 (d.tiles * 65536))
  s.setReg (Reg.furTaskCycles n) 0

/-- Furrow n accepts a descriptor of hopper h as fetched (R206): a check-plot run's at once, another task's parameter block
is then read. -/
def acceptDesc (s : State) (n h : Nat) (d : Desc) (poisoned : Bool) : State :=
  let r := s.taskReach n h
  let t : Task := { hopper := h, desc := d, start := s.now, stage := .checking, stubble := stubbleOk s r poisoned d }
  let s := if isSystem h then
      let c := checkDesc s r true false poisoned d
      let s := noteParam s r true false poisoned d
      if d.op = opCheckPlot then beginCheck s n t c else beginTask s n t c
    else
      let cause := if headCause s r false false poisoned d ≠ 0 then headCause s r false false poisoned d else descCause d
      if cause ≠ 0 then setTask s n (some { t with stage := .ending cause }) else tryCheck s n t
  showAccepted s n h d

/-- A Furrow takes one task at a time (R82). The check plot's head descriptor is read from the system slice, charged to no yoke; another hopper's comes from the
Furrow's buffer, which holds it no longer. -/
def acceptTask (s : State) (n h : Nat) : State :=
  if isSystem h then
    let a := (s.hopper h).headSlot
    let s := noteRead (noteRunStart s n h) a 64
    acceptDesc s n h (s.descAt a) (s.poisoned a 64)
  else
    match (s.furrow n).buffer with
    | some b =>
      match b.data with
      | some (bs, poisoned) =>
        let s := noteRobin (s.setFurrow n { s.furrow n with buffer := none }) n h
        acceptDesc s n h (decodeDesc bs) poisoned
      | none => s
    | none => s

/-- A parked task's condition holds, or a rejection has ended its wait (R211, R257). -/
def parkedHolds (s : State) (n : Nat) (t : Task) : Bool := s.nextWait n t == .none || s.taskRejected n t

/-- The hopper that Furrow n's scheduler takes next, if it takes a new task. -/
def State.nextHopper (s : State) (n : Nat) : Option Nat :=
  if (s.furrow n).task.isSome || s.bits (Reg.furStatus n) 2 0 != 0 || !s.bit (Reg.furSbStatus n) 0 then none
  else
    match s.choice n parkedHolds with
    | .check h => some h
    | .hopper h => some h
    | _ => none

/-! The descriptor buffer (R206). -/

/-- The hopper that step 2 of R205 would choose now. -/
def State.bufferChoice (s : State) (n : Nat) : Option Nat :=
  match s.fieldOf n with
  | some f =>
    match s.chooseClass n f parkedHolds 4 0 with
    | .hopper h => some h
    | _ => none
  | none => none

/-- The fetch of the buffered descriptor completes once the yoke has admitted it. -/
def fillBuffer (s : State) (n : Nat) : State :=
  match (s.furrow n).buffer with
  | some b =>
    if b.data.isSome || s.userWaits (.fetch n) then s
    else
      let s := noteRead s b.slot 64
      s.setFurrow n { s.furrow n with buffer := some { b with data := some (s.bytes b.slot 64, s.poisoned b.slot 64) } }
  | none => s

/-- The buffer holds what it is to hold: the head descriptor of a hopper. -/
def Furrow.buffers (f : Furrow) (h slot : Nat) : Bool :=
  match f.buffer with
  | some b => b.hopper == h && b.slot == slot
  | none => false

/-- The buffer follows the scheduler's choice: a changed choice is fetched, and the fetch charged to the Field's yoke
(R206, R215). The model follows the choice at the commands that change it: a doorbell, a start, a task's end, a park, a
resumption, and an acceptance (DESIGN CHOICE, unsafe, log 63). -/
def refreshBuffer (s : State) (n : Nat) : State :=
  match s.bufferChoice n with
  | some h =>
    let slot := (s.hopper h).headSlot
    if (s.furrow n).buffers h slot then fillBuffer s n
    else
      let s := s.setFurrow n { s.furrow n with buffer := some { hopper := h, slot := slot } }
      fillBuffer (chargeAccess s (.fetch n) n false slot 64) n
  | none => s

/-- The descriptor that Furrow n would accept next from a hopper: none while its fetch has not completed. -/
def State.nextDesc (s : State) (n h : Nat) : Option Desc :=
  if isSystem h then some (s.descAt (s.hopper h).headSlot)
  else
    match (s.furrow n).buffer with
    | some b => if (s.furrow n).buffers h (s.hopper h).headSlot then b.data.map fun (bs, _) => decodeDesc bs else none
    | none => none

/-- Furrow n accepts its next task when the head descriptor is in its buffer and is one that a command's row names; another
descriptor is not this command's. The choice that follows the acceptance is fetched then (R206). -/
def acceptIf (s : State) (n : Nat) (mine : State → Bool → Desc → Bool) : State :=
  match s.nextHopper n with
  | some h =>
    let s := if isSystem h then s else refreshBuffer s n
    match s.nextDesc n h with
    | some d => if mine s (isSystem h) d then refreshBuffer (acceptTask s n h) n else s
    | none => s
  | none => s

/-- The command of an op code. -/
def acceptOp (code n : Nat) (s : State) : State := withUnit s 64 n fun s n => acceptIf s n fun _ _ d => d.op == code

/-- The command of an op code whose first parameter selects among its rows; a value that names no mode goes with mode 0. -/
def acceptMode (code mode modes n : Nat) (s : State) : State :=
  withUnit s 64 n fun s n => acceptIf s n fun s _ d =>
    d.op == code && (if s.param d 0 < modes then s.param d 0 else 0) == mode

end Sys2Proof.Machine
end

