-- ==== Sys2Proof/Machine/Tasks.lean ====
section
/-! DEFINITION. A task's life after acceptance (spec 04_furrow_cores.md, 08_hoppers_and_fields.md): tile commits, the end
of a task, acknowledgement, parking, budgets and gate timeouts, and the check-plot run (R387 to R393). -/

namespace Sys2Proof.Machine

/-! Tile commits (R107). -/

/-- Write one piece of a task's output: a mailbox slot takes only whole-slot writes (R312); false where it is dropped. -/
def writePiece (s : State) (n : Nat) (a : Nat) (bs : List Byte) : State × Bool :=
  if inMailbox a then
    let m := (a - mailboxBase) / 64
    let off := (a - mailboxBase) % 64
    (mailboxWrite s (.furrow n) m off bs, off == 0 && bs.length == 64 && s.mayMail (.furrow n) m)
  else (s.store a bs, true)

/-- Write a list of pieces; false where one is dropped. -/
def writePieces (s : State) (n : Nat) (ps : List (Nat × List Byte)) : State × Bool :=
  ps.foldl (fun (s, ok) (a, bs) => if ok then writePiece s n a bs else (s, false)) (s, true)

/-- A send record with its message numbers and its lost bit (R248). -/
def patchRecord (bs : List Byte) (g : MsgGroup) : List Byte :=
  bs.take 16 ++ leBytes 4 g.firstId ++ leBytes 4 g.lastId ++ leBytes 1 (bval g.lost) ++ bs.drop 25

/-- A tile as it is written. -/
def State.finalTile (s : State) (k : Tile) : Tile :=
  match k.group with
  | some g => { k with pieces := k.pieces.map fun (a, bs) => (a, patchRecord bs (s.group g)) }
  | none => k

/-- The checksum granule that holds the checksum of tile j: slots of tiles not yet committed are zero (R107). -/
def crcGranule (crcs : List Word) (j : Nat) : List Byte :=
  slice (((crcs.drop (j / 8 * 8)).take 8).flatMap fun c => leBytes 4 c.toNat) 0 32

/-- A tile's writes as the yoke is charged for them: a multicast once, at its injected size, unless its one copy is the own seedbed's
(R276). -/
def chargedPieces (n : Nat) (k : Tile) : List (Nat × Nat) :=
  let own (a : Nat) : Bool := seedbedOf a == some n
  let outer := k.copies.filter fun (a, _) => !own a
  k.pieces.map fun (a, bs) =>
    (if own a then ((outer.find? fun (b, _) => b % 0x1000000 == a % 0x1000000).map (·.1)).getD a else a, bs.length)

/-- The accesses that committing a tile makes, for the yoke. -/
def tileAccesses (s : State) (n : Nat) (t : Task) (k : Tile) : List (Nat × Nat) :=
  chargedPieces n k ++
    [(s.header t.desc 8 + 32 * (t.committed / 8), 32), (t.desc.stubbleAddr, 32)]

/-- Write tile, checksum granule and stubble word of the next tile (R107); a write that the mailbox drops ends the task (R312).
Its compressed granules, read and written, are counted as it commits (DESIGN CHOICE, unsafe, log 71). -/
def commitTile (s : State) (n : Nat) (t : Task) (k : Tile) (rest : List Tile) : State :=
  let k := s.finalTile k
  let j := t.committed
  let (s, ok) := writePieces s n (k.pieces ++ k.copies)
  if !ok then toEnding s n t 0x05
  else
    let crcs := t.crcs ++ [crc32c (k.pieces.flatMap (·.2))]
    let events := addEvents t.events k.events
    let slot := s.header t.desc 8 + 32 * (j / 8)
    let s := storeGranule s slot (crcGranule crcs j)
    if inMailbox slot then toEnding s n t 0x05
    else
    let s := writeStubble s t.desc (j + 1) 0 1 events
    let s := t.drafts.foldl issueMessage s
    let s := s.setBits (Reg.furTiles n) 15 0 (j + 1)
    let s := (s.addSat (Reg.furZcRaw n) 31 0 k.zc.1).addSat (Reg.furZcMoved n) 31 0 k.zc.2
    setTask s n (some { t with committed := j + 1, tilesLeft := rest, crcs := crcs, events := events, drafts := []
                               wait := .none, charged := false })

/-- Commit the next tile where nothing holds it. -/
def commitNext (s : State) (n : Nat) (t : Task) : State :=
  match t.tilesLeft with
  | [] => s
  | k :: rest =>
    if s.taskRejected n t then toEnding s n t 0x10
    else if k.poison then toEnding s n t 0x0A
    else
      let w := s.nextWait n t
      if w ≠ .none then noteWait s n t w
      else
        let s := if t.charged then s else taskCharge s n t (tileAccesses s n t k)
        let t := { s.endWait t with charged := true }
        if s.yokeWaits n then setTask s n (some t) else commitTile s n t k rest

/-- A task goes on as far as its next tile commit; one of the concurrent checks that finds a mismatch as the tile is computed ends
the task with cause 0x23 (R383). -/
def tileCommit (s : State) (n : Nat) (mismatch : Bool) : State :=
  match (s.furrow n).task with
  | none => s
  | some t =>
    match t.stage with
    | .ending _ => s
    | _ =>
      let s := advanceTask s n
      match (s.furrow n).task with
      | some t =>
        if t.stage = .committing ∧ !t.resuming then
          if mismatch && !t.tilesLeft.isEmpty then toEnding s n t 0x23 else commitNext s n t
        else s
      | none => s

/-- TILE_COMMIT. -/
def execTileCommit (tile : TileCheck) (s : State) : Result := live s <|
  withUnit s 64 tile.furrow fun s n => tileCommit s n tile.mismatch

/-! The check-plot run (R390 to R393). -/

/-- The safety controller rewrites the stubble word of the inner task of the CHECK_PLOT at a ring slot (R387, R105). -/
def rewriteInner (s : State) (n slot : Nat) : State :=
  let d := s.descAt slot
  let i := s.descAt d.aAddr
  if d.op = opCheckPlot ∧ inSystemSlice n d.aAddr 64 ∧ inSystemSlice n i.stubbleAddr 32 then
    writeStubble s i 0 0 0 []
  else s

/-- Rewrite the inner stubble words of every descriptor from the head to the tail. -/
def rewriteRun (s : State) (n : Nat) : State :=
  let x := s.hopper (sysHopper + n)
  forUpTo ((x.tail + 65536 - x.head) % 65536) (fun i s => rewriteInner s n (x.base + 64 * ((x.head + i) % 2 ^ x.k))) s

/-- A descriptor of a ring is a CHECK_PLOT with last-of-run set: its index j (R388). -/
def State.lastOfRun (s : State) (slot : Nat) : Option Nat :=
  let d := s.descAt slot
  if d.op = opCheckPlot ∧ s.param d 3 = 1 then some (s.param d 2) else none

/-- The first slot from a ring index on that ends a run, counted from it; `fuel` slots are looked at. -/
def State.runEnd (s : State) (x : Hopper) (i : Nat) : Nat → Option Nat
  | 0 => none
  | fuel + 1 =>
    match s.lastOfRun (x.base + 64 * (i % 2 ^ x.k)) with
    | some _ => some 1
    | none => (s.runEnd x (i + 1) fuel).map (· + 1)

/-- The safety controller places the run from the system hopper's head on and posts it, unless it is posted (R387). A
run shorter than the ring follows its predecessor, from which its descriptors are copied (DESIGN CHOICE, unsafe, log
19). -/
def postRun (s : State) (n : Nat) : State :=
  let h := sysHopper + n
  let x := s.hopper h
  if x.tail ≠ x.head then rewriteRun s n
  else
    let slot (i : Nat) : Nat := x.base + 64 * (i % 2 ^ x.k)
    let before := (s.lastOfRun (slot (x.head + 65535))).map (· + 1)
    match before with
    | some m =>
      let ds := (List.range m).map fun i => s.bytes (slot (x.head + 65536 - m + i)) 64
      let s := ds.zipIdx.foldl (fun s (d, i) => s.store (slot (x.head + i)) d) s
      rewriteRun (doorbell s (.req .safety) h ((x.head + m) % 65536)) n
    | none =>
      match s.runEnd x x.head 8 with
      | some m => rewriteRun (doorbell s (.req .safety) h ((x.head + m) % 65536)) n
      | none => s

/-- A rerun: the system hopper goes back to the first descriptor of its run (R392). -/
def rewindRun (s : State) (n rerun : Nat) : State :=
  let f := s.furrow n
  let h := sysHopper + n
  let s := s.setHopper h { s.hopper h with head := f.run.firstHead, stage := .idle, inflight := false, tries := 0 }
  let s := s.setFurrow n { f with run := { f.run with active := true, rerun := rerun, started := false } }
  let s := s.setBits (Reg.safeFurCp n) 2 0 2
  rewriteRun s n

/-- The run is over, and the next one is posted, so that a boundary of its early window can take it (R390, DESIGN
CHOICE, unsafe, log 19). -/
def endRun (s : State) (n status : Nat) : State :=
  let f := s.furrow n
  let s := s.setFurrow n { f with run := { f.run with active := false, rerun := 0, started := false } }
  let s := s.setBits (Reg.safeFurCp n) 2 0 status
  postRun s n

/-- A passing run is recorded with its start tick. -/
def notePass (s : State) (n : Nat) : State :=
  let s := s.setReg64 (Reg.safeFurPassLo n) (Reg.safeFurPassHi n) (s.furrow n).run.startTick
  s.addWrap (Reg.safeFurCp n) 31 16

/-- Both reruns passed: a transient (R392). -/
def noteTransient (s : State) (n : Nat) : State :=
  let s := s.raise { code := 0x2021, cls := 2, inst := n }
  let span := max 1 (s.bits Reg.safeCpTransient 31 8)
  let f := s.furrow n
  let ts := (f.run.transients ++ [s.tickNumber]).filter fun t => s.tickNumber < t + span
  let s := s.setFurrow n { f with run := { f.run with transients := ts } }
  let s := s.setBits (Reg.safeFurCp n) 11 8 (min ts.length 15)
  let limit := s.bits Reg.safeCpTransient 7 0
  if limit ≠ 0 ∧ limit ≤ ts.length then fenceFault s n 2 else endRun s n 3

/-- A task of the run mismatched: the run stops and is rerun, or the Furrow is fenced (R392). -/
def runMismatch (s : State) (n : Nat) : State :=
  if (s.furrow n).run.rerun = 0 then
    let info := s.reg64 (Reg.safeFurPassLo n) (Reg.safeFurPassHi n)
    rewindRun (s.raise { code := 0x2020, cls := 2, inst := n, info := some info }) n 1
  else fenceFault s n 1

/-- Every task of the run has matched. -/
def runPassed (s : State) (n : Nat) : State :=
  let s := notePass s n
  match (s.furrow n).run.rerun with
  | 0 => endRun s n 1
  | 1 => rewindRun s n 2
  | _ => noteTransient s n

/-! The end of a task (R106, R108, R109). -/

/-- The tick at which a task has run c cycles. -/
def State.cycleTick (s : State) (t : Task) (c : Nat) : Nat := t.start + t.paused + c * s.coreTicks

/-- The Furrow is free again: its status registers and the counts of the last ended task. -/
def freeFurrow (s : State) (n cycles : Nat) (events : List Nat) : State :=
  let s := setTask s n none
  let s := if s.bits (Reg.furStatus n) 2 0 = 3 then s else s.setBits (Reg.furStatus n) 2 0 0
  let s := s.setBit (Reg.furTask n) 31 false
  let s := s.setBits (Reg.furTaskCycles n) 14 0 (min cycles 32767)
  showFence (showEvents s n events) n

/-- The provenance tag at the end of a task: written to tag_out, its capture tick kept (R111). -/
def writeTag (s : State) (t : Task) : State × Option Nat :=
  match s.oldestTag t.desc with
  | none => (s, none)
  | some b => (storeGranule s (s.header t.desc 3) b, some (leAt b 8 8))

/-- The final stubble write of a task that ends done, and its record until it is acknowledged. -/
def writeDone (s : State) (n : Nat) (t : Task) (capture : Option Nat) : State :=
  issueFinal s n t 0 3 { hopper := t.hopper, done := true, uses := t.uses, stageNo := t.desc.stage, capture := capture
                         buffers := t.buffers }

/-- The hopper after a done task (R198). -/
def hopperDone (s : State) (h : Nat) : State :=
  let x := s.hopper h
  s.setHopper h { x with head := (x.head + 1) % 65536, done := (x.done + 1) % 2 ^ 32, inflight := false, tries := 0
                         stage := .idle }

/-- The hopper after a faulted task: an F2 cause is retried while tries are left (R199); otherwise it holds the task. -/
def hopperFaulted (s : State) (h cause : Nat) : State :=
  let x := s.hopper h
  if causeClass cause = 2 ∧ s.fieldState x.field ≠ fldStopping then
    if x.tries < x.retries then s.setHopper h { x with tries := x.tries + 1, stage := .idle }
    else (s.setHopper h { x with stage := .frozen }).raise { code := 0x2204, cls := 3, inst := h, field := some x.field }
  else s.setHopper h { x with stage := .frozen }

/-- The Field of a task, for its fault entry. -/
def State.taskField (s : State) (n : Nat) (t : Task) : Option Nat := if isSystem t.hopper then none else s.fieldOf n

/-- A task without a CHECK_PLOT around it ends faulted. -/
def endTaskFaulted (s : State) (n : Nat) (t : Task) (cause : Nat) : State :=
  let s := endFaulted s n t cause (s.taskField n t)
  let s := freeFurrow s n (s.ranCycles t) t.events
  if isSystem t.hopper then runMismatch s n else hopperFaulted s t.hopper cause

/-- A task without a CHECK_PLOT around it ends done. -/
def endTaskDone (s : State) (n : Nat) (t : Task) (capture : Option Nat) : State :=
  let s := writeDone s n t capture
  let s := freeFurrow s n (max (t.cycles + t.extra) (s.ranCycles t)) t.events
  hopperDone s t.hopper

/-- The check of R388 step 3 on a done inner task. -/
def goldenMatch (s : State) (outer : Desc) (t : Task) : Bool :=
  t.committed == t.desc.tiles && (crc32c (t.crcs.flatMap fun c => leBytes 4 c.toNat)).toNat == s.param outer 0 &&
    min (sumNat t.events) 255 == s.param outer 1

/-- A CHECK_PLOT ends after `count` cycles, its inner task's and 32 of comparison, or at its budget, if that is less; the last task of a
run that has matched ends the run (R388, R392). -/
def endOuter (s : State) (n : Nat) (t : Task) (d : Desc) (pass : Bool) (count : Nat) : State :=
  let outer : Task := { t with desc := d, committed := 0, uses := [], buffers := [], outer := none, stubble := true }
  let s := runUntil s (s.cycleTick t (min count d.budget))
  let cause := if t.outerCause ≠ 0 then t.outerCause else if d.budget < count then 0x09 else 0
  if cause ≠ 0 then
    let s := endFaulted s n outer cause none
    runMismatch (freeFurrow s n (s.ranCycles t) t.events) n
  else
    let s := writeDone s n outer none
    let s := freeFurrow s n (s.ranCycles t) t.events
    let s := hopperDone s t.hopper
    if !pass then runMismatch s n
    else if s.param d 3 = 1 then runPassed s n
    else s

/-- A task ends faulted, alone or inside a CHECK_PLOT, which its own budget ends with it at once (R388). -/
def finishFaulted (s : State) (n : Nat) (t : Task) (cause : Nat) : State :=
  match t.outer with
  | none => endTaskFaulted s n t cause
  | some d => endOuter (endFaulted s n t cause none) n t d false (s.ranCycles t + if t.outerCause = 0 then 32 else 0)

/-- The budget that ends a task: its own, or that of the CHECK_PLOT around it (R109, R388). -/
def Task.limit (t : Task) : Nat :=
  match t.outer with
  | some d => min t.desc.budget d.budget
  | none => t.desc.budget

/-- The task's budget ends; where it is the CHECK_PLOT's, that ends too, by the same cause (R388). -/
def Task.spent (t : Task) : Task :=
  match t.outer with
  | some d => if d.budget ≤ t.desc.budget then { t with outerCause := 0x09 } else t
  | none => t

/-- The cycles after which a task whose tiles are committed issues its done write: those its op takes and those of its
resumptions (R100, R109, R211). -/
def Task.length (t : Task) : Nat := t.cycles + t.extra

/-- The accesses of a task's end before its done write: the tags in and the tag out (R111). -/
def tagAccesses (s : State) (d : Desc) : List (Nat × Nat) :=
  let ts := tagReads s d
  if ts.isEmpty then [] else ts ++ [(s.header d 3, 32)]

/-- The done write of a task whose tag is written, at the cycle its op takes; its budget is reached first where the op takes
more (R108, R109). -/
def finishTagged (s : State) (n : Nat) (t : Task) : State :=
  if t.limit < max t.length (s.ranCycles t) then finishFaulted (runUntil s (s.cycleTick t t.limit)) n t.spent 0x09
  else
    let s := noteReads (runUntil s (s.cycleTick t t.length)) (tagReads s t.desc)
    let (s, capture) := writeTag s t
    if capture.isSome && inMailbox (s.header t.desc 3) then finishFaulted s n t 0x05
    else
    match t.outer with
    | none => endTaskDone s n t capture
    | some d => endOuter (writeDone s n t capture) n t d (goldenMatch s d t) (s.ranCycles t + 32)

/-- A task whose tiles are all committed ends: its tag, once the yoke admits its reads and its write, then its done write. -/
def finishDone (s : State) (n : Nat) (t : Task) : State :=
  if s.taskRejected n t then finishFaulted s n t 0x10
  else if s.readsPoisoned (tagReads s t.desc) then finishFaulted (noteReads s (tagReads s t.desc)) n t 0x0A
  else
    let s := if t.charged then s else taskCharge s n t (tagAccesses s t.desc)
    if s.yokeWaits n then setTask s n (some { t with charged := true }) else finishTagged s n t

/-- The running task issues its final stubble write, where it has come to its end; the issue is a boundary (R206). -/
def taskDone (s : State) (n : Nat) : State :=
  let s := advanceTask s n
  match (s.furrow n).task with
  | none => s
  | some t =>
    match t.stage with
    | .ending cause => refreshBuffer (finishFaulted s n t cause) n
    | .committing => if t.tilesLeft = [] ∧ !t.resuming then refreshBuffer (finishDone s n t) n else s
    | _ => s

/-- TASK_DONE. -/
def execTaskDone (n : Nat) (s : State) : Result := live s <| withUnit s 64 n fun s n => taskDone s n

/-! Acknowledgement (R130, R238, R395). -/

/-- A slot's generation after a done use of it (R130). -/
def advanceSlot (s : State) (u : SlotUse) : State :=
  let r := Reg.furSbSlotGen u.furrow u.slot
  if u.write then (s.addWrap r 15 0).setBits r 19 16 (s.bits r 23 20)
  else if s.bits r 19 16 ≤ 1 then (s.addWrap r 15 0).setBits r 19 16 0
  else s.setBits r 19 16 (s.bits r 19 16 - 1)

/-- A final stubble write that can be acknowledged: its request is neither discarded nor waiting at the yoke. -/
def State.ackable (s : State) (n : Nat) (u : Unacked) : Bool := !u.lost && !s.userWaits (.posted n u.uid)

/-- The slots' changes of this acknowledgement, noted in their seedbeds with the cycle they take effect in, beside those of this
cycle and the next (R130, R135). -/
def noteAdvance (s : State) (u : SlotUse) : State :=
  let f := s.furrow u.furrow
  let c := s.now / max s.coreTicks 1
  let left := s.bits (Reg.furSbSlotGen u.furrow u.slot) 19 16
  let x : SlotAdvance := { slot := u.slot, cycle := c + 1, left := left, write := u.write, moves := u.write || left ≤ 1 }
  s.setFurrow u.furrow { f with advanced := (f.advanced.filter fun y => c ≤ y.cycle) ++ [x] }

/-- The oldest final stubble write of a Furrow that can be acknowledged is: a Field task's word lands, and after a done
write the slots' generations, the rounds and the stage's check-in follow. -/
def stubbleAck (s : State) (n : Nat) : State :=
  let f := s.furrow n
  match f.unacked.find? (s.ackable n) with
  | none => s
  | some u =>
    let s := s.setFurrow n { f with unacked := f.unacked.erase u }
    let s := match u.word with
      | some (a, w) => storeGranule s a w
      | none => s
    if !u.done then s
    else
      let s := checkInTask s u.stageNo s.now u.capture
      let s := u.buffers.foldl (fun s (x, r) => endConsumer s x r) s
      u.uses.foldl (fun s x => advanceSlot (noteAdvance s x) x) s

/-- STUBBLE_WRITE_ACK. -/
def execStubbleWriteAck (n : Nat) (s : State) : Result := live s <| withUnit s 64 n fun s n => stubbleAck s n

/-! Budgets and gates. -/

/-- The running task reaches its budget, its own or its CHECK_PLOT's (R109, R388). -/
def budgetExpiry (s : State) (n : Nat) : State :=
  match (s.furrow n).task with
  | none => s
  | some t =>
    match t.stage with
    | .ending _ => s
    | _ =>
      toEnding (runUntil s (s.cycleTick t t.limit)) n t.spent 0x09

/-- BUDGET_EXPIRY. -/
def execBudgetExpiry (n : Nat) (s : State) : Result := live s <| withUnit s 64 n fun s n => budgetExpiry s n

/-- The gate timeout of seedbed n in cycles: 0 and values above 25,600 act as 25,600 (R134). -/
def State.gateTimeout (s : State) (n : Nat) : Nat :=
  let v := s.bits (Reg.furSbCtrl n) 14 0
  if v = 0 ∨ 25600 < v then 25600 else v

/-- What Furrow m's task is held for at gate n, whether by a guard or by a SYNC: the slot and since when. -/
def heldAt (s : State) (n m : Nat) : Option (Nat × Nat) :=
  match (s.furrow m).task with
  | none => none
  | some t =>
    let w := s.nextWait m t
    let since := if t.wait = w then t.waitTick else s.now
    match w with
    | .gate g k => if g = n then some (k, since) else none
    | .slotGen g k => if g = n then some (k, since) else none
    | _ => none

/-- The Furrow held longest at gate n, with the slot and since when. -/
def State.oldestHeld (s : State) (n : Nat) : Option (Nat × Nat × Nat) :=
  ((List.range 64).filterMap fun m => (heldAt s n m).map fun (k, t) => (m, k, t)).foldl
    (fun (b : Option (Nat × Nat × Nat)) x =>
      match b with
      | some y => if x.2.2 < y.2.2 then some x else b
      | none => some x) none

/-- The tick at which the running task of Furrow m reaches its budget. -/
def State.budgetTick (s : State) (m : Nat) : Option Nat :=
  (s.furrow m).task.map fun t => s.cycleTick t t.limit

/-- SYNC_FAULT: an access has been held at gate n for the full timeout; a budget that ends in the same cycle is reported
instead (R134). -/
def gateTimeout (s : State) (n : Nat) : State :=
  match s.oldestHeld n with
  | none => s
  | some (m, k, since) =>
    let due := since + s.gateTimeout n * s.coreTicks
    let cycle (t : Nat) : Nat := t / max s.coreTicks 1
    if (s.budgetTick m).any fun b => cycle b ≤ cycle due then budgetExpiry s m
    else
      let fld := match (s.furrow m).task with
        | some t => s.taskField m t
        | none => none
      let s := (runUntil s due).raise { code := 0x2105, cls := 3, inst := n, info := some k }
      let s := match fld with
        | some f => stopField s f 0x2105
        | none => s
      (s.setBit (Reg.furSbStatus n) 2 true).setBits (Reg.furSbGate n) 23 16 k

/-- GATE_TIMEOUT. -/
def execGateTimeout (n : Nat) (s : State) : Result := live s <| withUnit s 64 n fun s n => gateTimeout s n

/-! Parking (R209 to R214). -/

/-- A wait is parkable (R209): a SYNC of kind 1, the receive waits of COMBINE, and DISPATCH's acknowledgement wait. -/
def Wait.parkable : Wait → Bool
  | .round _ _ => true
  | .fetch _ _ _ => true
  | .messages _ => true
  | _ => false

/-- The scheduler has a ready task of a class at or above c for Furrow n (R209). -/
def State.readyAbove (s : State) (n c : Nat) : Bool :=
  match s.fieldOf n with
  | some f => s.chooseClass n f parkedHolds (c + 1) 0 != .nothing
  | none => false

/-- The lowest free park slot (DESIGN CHOICE, unsafe, log 97). -/
def Furrow.freeSlot (f : Furrow) : Option Nat := (List.range 8).find? fun k => (mapGet none f.slots k).isNone

/-- Park a task in a slot (R210). -/
def parkIn (s : State) (n k : Nat) (t : Task) : State :=
  let s := postWrite s n t.desc.stubbleAddr (stubbleWord t.desc t.committed 0 2 t.events)
  let s := s.setHopper t.hopper { s.hopper t.hopper with stage := .parked, park := k }
  let f := s.furrow n
  let p : ParkSlot := { task := s.endWait t, tick := s.now, order := f.parks }
  let s := s.setFurrow n { f with task := none, slots := mapSet none f.slots k (some p), parks := f.parks + 1 }
  let s := s.setBits (Reg.furStatus n) 2 0 0
  let s := s.setBit (Reg.furTask n) 31 false
  showFence (s.setBits (Reg.furTaskCycles n) 14 0 (min (s.ranCycles t) 32767)) n

/-- Park the running task where R209 has it parked; one whose count has reached its budget ends instead (R214). -/
def taskPark (s : State) (n : Nat) : State :=
  match (s.furrow n).task, s.fieldOf n with
  | some t, some f =>
    let w := s.nextWait n t
    if !isSystem t.hopper && !t.resuming && w.parkable && s.fieldState f == fldRunning &&
        s.readyAbove n (s.hopper t.hopper).cls then
      if t.desc.budget ≤ s.ranCycles t then budgetExpiry s n
      else
        match (s.furrow n).freeSlot with
        | some k => refreshBuffer (parkIn s n k t) n
        | none => s
    else s
  | _, _ => s

/-- TASK_PARK. -/
def execTaskPark (n : Nat) (s : State) : Result := live s <| withUnit s 64 n fun s n => taskPark s n

/-- Resume the task of a park slot: its running stubble write, and 24 cycles that count (R211). -/
def resumeFrom (s : State) (n k : Nat) (p : ParkSlot) : State :=
  let t := { p.task with paused := p.task.paused + (s.now - p.tick), extra := p.task.extra + 24, resuming := true
                         charged := false }
  let s := s.setHopper t.hopper { s.hopper t.hopper with stage := .running, park := 0 }
  let f := s.furrow n
  let s := s.setFurrow n { f with task := some t, slots := mapSet none f.slots k none }
  let s := s.setBits (Reg.furStatus n) 2 0 1
  let s := s.setReg (Reg.furTask n) (BitVec.ofNat 32 (0x80000000 + t.hopper))
  let s := s.setReg (Reg.furTaskTag n) (BitVec.ofNat 32 t.desc.tag)
  let s := s.setReg (Reg.furTiles n) (BitVec.ofNat 32 (t.desc.tiles * 65536 + t.committed))
  let s := showFence (runUntil s (s.now + 24 * s.coreTicks)) n
  refreshBuffer (tryResume s n t) n

/-- Resume the parked task that the scheduler takes next (R205). -/
def taskResume (s : State) (n : Nat) : State :=
  if (s.furrow n).task.isSome ∨ s.bits (Reg.furStatus n) 2 0 ≠ 0 then s
  else
    match s.choice n parkedHolds with
    | .resume k =>
      match mapGet none (s.furrow n).slots k with
      | some p => resumeFrom s n k p
      | none => s
    | _ => s

/-- TASK_RESUME. -/
def execTaskResume (n : Nat) (s : State) : Result := live s <| withUnit s 64 n fun s n => taskResume s n

/-- A task has stayed parked for the limit: it ends faulted unless it can resume (R213, R214). -/
def parkLimit (s : State) (n k : Nat) : State :=
  match mapGet none (s.furrow n).slots k, s.fieldOf n with
  | some p, some f =>
    let limit := s.bits (Reg.fldPark f) 19 0
    if limit = 0 then s
    else
      let s := runUntil s (p.tick + limit * 6400)
      if parkedHolds s n p.task then s
      else
        let s := s.setFurrow n { s.furrow n with slots := mapSet none (s.furrow n).slots k none }
        let s := endFaulted s n p.task 0x0F (some f)
        s.setHopper p.task.hopper { s.hopper p.task.hopper with stage := .frozen }
  | _, _ => s

/-- PARK_LIMIT_EXPIRY. -/
def execParkLimitExpiry (n slot : Nat) (s : State) : Result := live s <| withUnit s 64 n fun s n => withUnit s 8 slot fun s slot =>
  parkLimit s n slot

/-! The ops' commands (R96). -/

/-- MATMUL. -/
def execMatmul (n : Nat) (s : State) : Result := live s <| acceptOp 0x01 n s
/-- CONV. -/
def execConv (n : Nat) (s : State) : Result := live s <| acceptOp 0x02 n s
/-- POOL. -/
def execPool (n : Nat) (s : State) : Result := live s <| acceptOp 0x03 n s
/-- RESAMPLE. -/
def execResample (n : Nat) (s : State) : Result := live s <| acceptOp 0x04 n s
/-- ATTN_BLOCK. -/
def execAttnBlock (n : Nat) (s : State) : Result := live s <| acceptOp 0x05 n s
/-- KV_APPEND. -/
def execKvAppend (n : Nat) (s : State) : Result := live s <| acceptOp 0x06 n s
/-- ELTWISE. -/
def execEltwise (n : Nat) (s : State) : Result := live s <| acceptOp 0x07 n s
/-- REDUCE. -/
def execReduce (n : Nat) (s : State) : Result := live s <| acceptOp 0x08 n s
/-- ROUTE. -/
def execRoute (n : Nat) (s : State) : Result := live s <| acceptOp 0x09 n s
/-- DISPATCH, mode 0: forward. -/
def execDispatchForward (n : Nat) (s : State) : Result := live s <| acceptMode 0x0A 0 4 n s
/-- DISPATCH, mode 1: return. -/
def execDispatchReturn (n : Nat) (s : State) : Result := live s <| acceptMode 0x0A 1 4 n s
/-- DISPATCH, mode 2: PUT. -/
def execDispatchPut (n : Nat) (s : State) : Result := live s <| acceptMode 0x0A 2 4 n s
/-- DISPATCH, mode 3: BALE_PUSH. -/
def execDispatchBalePush (n : Nat) (s : State) : Result := live s <| acceptMode 0x0A 3 4 n s
/-- COMBINE, mode 0. -/
def execCombine (n : Nat) (s : State) : Result := live s <| acceptMode 0x0B 0 2 n s
/-- COMBINE, mode 1: fetch. -/
def execCombineFetch (n : Nat) (s : State) : Result := live s <| acceptMode 0x0B 1 2 n s
/-- MOVE. -/
def execMove (n : Nat) (s : State) : Result := live s <| acceptOp 0x0C n s
/-- COMPRESS. -/
def execCompress (n : Nat) (s : State) : Result := live s <| acceptOp 0x0D n s
/-- DECOMPRESS. -/
def execDecompress (n : Nat) (s : State) : Result := live s <| acceptOp 0x0E n s
/-- SYNC, kind 0. -/
def execSyncLocalGeneration (n : Nat) (s : State) : Result := live s <| acceptMode 0x0F 0 3 n s
/-- SYNC, kind 1. -/
def execSyncReceiveBuffer (n : Nat) (s : State) : Result := live s <| acceptMode 0x0F 1 3 n s
/-- SYNC, kind 2. -/
def execSyncHopperCompletions (n : Nat) (s : State) : Result := live s <| acceptMode 0x0F 2 3 n s

/-- CHECK_PLOT in a system hopper (R388). -/
def execCheckPlot (n : Nat) (s : State) : Result := live s <|
  withUnit s 64 n fun s n => acceptIf s n fun _ system d => system && d.op == opCheckPlot

/-- An undefined op code, or CHECK_PLOT outside the system hopper (R96). -/
def execUndefinedOpCode (n : Nat) (s : State) : Result := live s <|
  withUnit s 64 n fun s n => acceptIf s n fun _ system d => (opFor system false d.op).isNone

/-- FUR_CTRL.cnt_clear clears the MAC counters. -/
def clearMacCounters (s : State) (n : Nat) : State :=
  (s.setReg64 (Reg.furMacLo n) (Reg.furMacHi n) 0).setReg64 (Reg.furGatedLo n) (Reg.furGatedHi n) 0

/-- FUR_CNT_CLEAR. -/
def execFurCntClear (n : Nat) (s : State) : Result := live s <| withUnit s 64 n fun s n => clearMacCounters s n

end Sys2Proof.Machine
end

