-- ==== Sys2Proof/Machine/Seedbeds.lean ====
section
/-! DEFINITION. Seedbed commands (spec 05_seedbeds.md): row accesses, scrub, slot generations. Fault codes are those of
R140; the slots, queues and bounds of R120 to R123 decide only when an access issues (timing). -/

namespace Sys2Proof.Machine

/-- An access outside the requester's reach: a host's or the Reeve's is dropped with an F0 entry, a Furrow engine's ends
its task, unless that already ends (R34). -/
def deniedAccess (s : State) (r : Requester) (a : Nat) : State :=
  match r with
  | .furrow m =>
    match (s.furrow m).task with
    | some t =>
      match t.stage with
      | .ending _ => s
      | _ => toEnding s m t 0x05
    | none => s
  | _ => denied s r a

/-- A read outside the requester's reach: the Reeve and a host receive all zeros besides the entry (R34). -/
def denyRead (s : State) (r : Requester) (a n : Nat) : State :=
  match r with
  | .furrow _ => deniedAccess s r a
  | _ => (deniedAccess s r a).emit (.row (leBytes n 0) false)

/-- A requester receives poison: a Furrow's task ends with cause 0x0A, the Reeve's bus error is set, and a host's answer
carries the flag alone (R126). -/
def receivePoison (s : State) (r : Requester) (a : Nat) : State :=
  match r with
  | .furrow m =>
    match (s.furrow m).task with
    | some t =>
      match t.stage with
      | .ending _ => s
      | _ => toEnding s m t 0x0A
    | none => s
  | .reeve => reeveBusError s a
  | _ => s

/-- What a requester reads: the row or block leaves to it, with its poison. -/
def answerRead (s : State) (r : Requester) (a n : Nat) : State :=
  let bad := s.poisoned a n
  let s := s.emit (.row (s.bytes a n) bad)
  if bad then receivePoison s r a else s

/-- Hold an access until the seedbeds are ready (R139). -/
def holdAccess (s : State) (x : HeldAccess) : State :=
  { s with boot := { s.boot with heldSeed := s.boot.heldSeed ++ [x] } }

/-- A write of a seedbed through a requester's port: a Furrow engine pads to whole granules; the Reeve's or a host's that
does not cover whole granules is dropped (R117). -/
def writeGranules (s : State) (r : Requester) (m a : Nat) (bs : List Byte) (poison : Bool) : State :=
  let whole := a % 32 = 0 ∧ bs.length % 32 = 0
  match r with
  | .furrow _ => s.store a bs poison
  | _ => if whole then s.store a bs poison else s.raise { code := 0x2107, cls := 0, inst := m }

/-- A row access of a seedbed that is ready (R116 to R119, R124 to R127). -/
def rowAccess (s : State) (x : SeedAccess) : State :=
  let a := seedbedBase x.furrow + 128 * x.row + 32 * x.first
  let n := 32 * x.count
  if x.wdata = [] then answerRead (readSeedRow s x.furrow x.row x.upsets) x.req a n
  else
    match x.req with
    | .furrow _ => s.store a (slice x.wdata 0 n) x.wpoison
    | _ => if x.wdata.length = n then s.store a x.wdata x.wpoison
      else s.raise { code := 0x2107, cls := 0, inst := x.furrow }

/-- A row access (R116 to R119, R124 to R127). One within reach that arrives before the seedbed is ready is held (R139). -/
def seedbedAccess (s : State) (x : SeedAccess) : State :=
  let a := seedbedBase x.furrow + 128 * x.row + 32 * x.first
  let n := 32 * x.count
  if !s.reaches (.req x.req) a n (x.wdata != []) then
    (if x.wdata = [] then denyRead s x.req a n else deniedAccess s x.req a)
  else if !s.bit (Reg.furSbStatus x.furrow) 0 then holdAccess s (.row x)
  else rowAccess s x

/-- A read of n bytes of a seedbed through a requester's port, as it is answered. -/
def portRead (s : State) (r : Requester) (a n : Nat) : State :=
  let s := noteRead s a n
  let bad := s.poisoned a n
  let s := if bad && r == .reeve then reeveBusError s a else s
  if bad then s.emit (.row (s.bytes a n) true) else s.emit (.readData (BitVec.ofNat 64 (leNat (s.bytes a n))))

/-- A held access issues (R139). -/
def issueAccess (s : State) : HeldAccess → State
  | .row x => rowAccess s x
  | .write r a bs poison =>
    match seedbedOf a with
    | some m => writeGranules s r m a bs poison
    | none => s
  | .read r a n => portRead s r a n

/-- The accesses that were held until the seedbeds became ready issue, oldest first (R139). -/
def issueHeld (s : State) : State :=
  s.boot.heldSeed.foldl issueAccess { s with boot := { s.boot with heldSeed := [] } }

/-- A row access at a place that the seedbeds have: a Furrow, a row, a granule or a count beyond them stands for a free one
(DESIGN CHOICE, safe, log 92). -/
def placedAccess (s : State) (x : SeedAccess) : State :=
  withUnit s 64 x.furrow fun s furrow => withUnit s 32768 x.row fun s row => withUnit s 4 x.first fun s first =>
  withUnit s (4 - first) (if x.count = 0 then 4 else x.count - 1) fun s k =>
    seedbedAccess s { x with furrow := furrow, row := row, first := first, count := k + 1 }

/-- SEEDBED_ACCESS. -/
def execSeedbedAccess (a : SeedAccess) (s : State) : Result := live s <| placedAccess s a

/-- The seedbed row of a bank row (R115). -/
def rowOfBank (bank bankrow : Nat) : Nat := bankrow * 16 + Nat.xor bank (bankrow % 16)

/-- The scrub of a row in one bank: corrected granules wait to be written back (R138). -/
def scrubRow (s : State) (n bank row : Nat) (upsets : List Upset) : State :=
  forUpTo 4 (fun i s =>
    let a := seedbedBase n + 128 * row + 32 * i
    let m := metMark (s.mark (a / 32)) ((upsets[i]?).getD .clean)
    let s := s.setMark (a / 32) m
    match m with
    | .clean => s
    | .single =>
      let s := (seedError s n (4 * row + i) false true).raise { code := 0x2102, cls := 1, inst := n }
      s.setFurrow n { s.furrow n with writeBack := (s.furrow n).writeBack ++ [(bank, a)] }
    | _ => (seedError s n (4 * row + i) true true).raise { code := 0x2104, cls := 2, inst := n }) s

/-- A bank's scrub read; after all sixteen banks the next bank row follows (R138). -/
def scrubRead (s : State) (n bank : Nat) (upsets : List Upset) : State :=
  if (s.furrow n).scrubbed.contains bank then s
  else
    let r := s.bits (Reg.furSbScrub n) 26 16
    let s := scrubRow s n bank (rowOfBank bank r) upsets
    let f := s.furrow n
    if f.scrubbed.length + 1 < 16 then s.setFurrow n { f with scrubbed := f.scrubbed ++ [bank] }
    else
      let s := s.setFurrow n { f with scrubbed := [] }
      let s := s.setBits (Reg.furSbScrub n) 26 16 ((r + 1) % 2048)
      if r + 1 < 2048 then s
      else (s.addWrap (Reg.furSbScrub n) 15 0).setBit (Reg.furSbStatus n) 1 true

/-- SEEDBED_SCRUB_READ. -/
def execSeedbedScrubRead (n bank : Nat) (upsets : List Upset) (s : State) : Result := live s <|
  withUnit s 64 n fun s n => withUnit s 16 bank fun s bank => scrubRead s n bank upsets

/-- The bank's next open slot takes its corrected granules' write-backs: the corrected data replaces what the granule then
holds; only a write to the granule cancels one (R138). -/
def scrubWriteBack (s : State) (n bank : Nat) : State :=
  let f := s.furrow n
  let (mine, rest) := f.writeBack.partition fun (b, _) => b == bank
  let s := s.setFurrow n { f with writeBack := rest }
  mine.foldl (fun s (_, a) => s.setMark (a / 32) .clean) s

/-- SEEDBED_SCRUB_WRITE_BACK. -/
def execSeedbedScrubWriteBack (n bank : Nat) (s : State) : Result := live s <|
  withUnit s 64 n fun s n => withUnit s 16 bank fun s bank => scrubWriteBack s n bank

/-- A software write of a slot's generation (R135). -/
def writeGeneration (s : State) (n k gen : Nat) : State :=
  let r := Reg.furSbSlotGen n k
  let s := s.setBits r 15 0 gen
  if gen % 2 = 1 then s.setBits r 19 16 (s.bits r 23 20) else s

/-- The changes of slot k that take effect d cycles of CLK_CORE from now, in order. -/
def State.advancesIn (s : State) (n k d : Nat) : List SlotAdvance :=
  (s.furrow n).advanced.filter fun x => x.slot == k && x.cycle == s.now / max s.coreTicks 1 + d

/-- The Reeve and the management function may write generations; a write in the cycle of an advance stands, the advance is
discarded, and an F0 entry records it. The model has applied a change at its acknowledgement, so one that takes effect in the next
cycle is applied again to what is written (R130, R135). -/
def slotGenerationWrite (s : State) (r : Requester) (n k gen : Nat) : State :=
  if (r = .reeve ∨ r = .mgmt) ∧ s.recoveryReach r (Reg.furSbSlotGen n k) then
    let due := (s.advancesIn n k 0).filter (·.moves)
    let later := s.advancesIn n k 1
    let s := match (due ++ later).head? with
      | some x => s.setBits (Reg.furSbSlotGen n k) 19 16 x.left
      | none => s
    let s := writeGeneration s n k gen
    let f := s.furrow n
    let s := if due.isEmpty then s
      else (s.setFurrow n { f with advanced := f.advanced.filter fun y => !due.contains y }).raise
        { code := 0x2106, cls := 0, inst := n }
    later.foldl (fun s x => advanceSlot s { furrow := n, slot := k, gen := 0, write := x.write }) s
  else deniedAccess s r (Reg.furSbSlotGen n k)

/-- SLOT_GENERATION_WRITE. -/
def execSlotGenerationWrite (req : Requester) (n k : Nat) (gen : BitVec 16) (s : State) : Result := live s <|
  withUnit s 64 n fun s n => withUnit s 256 k fun s k => slotGenerationWrite s req n k gen.toNat

/-- FUR_SB_CNT_CLEAR. -/
def execFurSbCntClear (n : Nat) (s : State) : Result := live s <| withUnit s 64 n fun s n =>
  s.setReg (Reg.furSbEccCnt n) 0

/-- A write to a mailbox slot by any requester: a Furrow's write that is dropped also ends its task with cause 0x05
(R312, R34). -/
def mailboxRequest (s : State) (r : Requester) (m off : Nat) (data : List Byte) : State :=
  let s' := if s.recoveryReach r mailboxBase then mailboxWrite s r m off data else denied s r (mailboxBase + 64 * m + off)
  match r with
  | .furrow _ => if off = 0 ∧ data.length = 64 ∧ s.mayMail r m then s' else deniedAccess s' r (mailboxBase + 64 * m + off)
  | _ => s'

/-- MAILBOX_WRITE. -/
def execMailboxWrite (req : Requester) (slot offset : Nat) (data : List Byte) (s : State) : Result := live s <|
  withUnit s 256 slot fun s slot => mailboxRequest s req slot offset data

end Sys2Proof.Machine
end

