-- ==== Sys2Proof/Machine/Gleaning.lean ====
section
/-! DEFINITION. Gleaning (R8, R9, R219 to R221): the tile extents of every op, and the report. -/

namespace Sys2Proof.Machine

/-- The bytes of a tile, as (address, length) in checksum order; a multicast has several copies. -/
abbrev Extent := List (Nat × Nat)

/-- A stored row of e elements: its granules, or its compressed blocks as they stand (R107, R160). -/
def rowExtent (s : State) (zc : Bool) (fmt a e : Nat) : Extent :=
  if zc then readSpans s true fmt a e else [(a, rowGranules fmt e)]

/-- The tiles of an op by rows (R107). -/
def rowExtents (s : State) (d : Desc) (bases : List Nat) (rows tileRows ld e : Nat) : List (List Extent) :=
  (ranges 0 rows tileRows).map fun (r0, n) =>
    bases.map fun b => (List.range n).flatMap fun i => rowExtent s d.zcDst d.fmtOut (b + (r0 + i) * ld) e

/-- MATMUL's tiles (R107, R487). -/
def matmulExtents (s : State) (d : Desc) : List (List Extent) :=
  let x := matmulDims s d
  let w := fmtWidth d.fmtOut
  (List.range x.blocks).map fun c =>
    [(List.range x.m).flatMap fun m =>
      let row := d.dstAddr + m * x.ldd
      if d.zcDst then ((rowExtent s true d.fmtOut row x.n).drop (2 * c)).take 2
      else (row + 16 * w * c, 16 * w) :: if d.outGroup = 0 then [] else [(row + scaleOffset d x.blocks + 32 * c, 32)]]

/-- A stored image row. -/
def imageExtent (s : State) (m : Image) (y : Nat) : Extent :=
  if m.zc then rowExtent s true m.fmt (m.base + y * m.ld) (m.w * m.c) else [(m.base + y * m.ld, m.rowBytes)]

/-- CONV's tiles (R151). -/
def convExtents (s : State) (d : Desc) : List (List Extent) :=
  let x := convDims s d
  let m := x.output d
  (ranges x.outY0 x.outRows x.tileRows).flatMap fun (y0, ny) =>
    (List.range x.tileBlocks).map fun b =>
      [orderExtent <| (List.range ny).flatMap fun r =>
        if x.unfold == 1 && 128 < x.n then
          (List.range x.wo).map fun c =>
            (m.base + (y0 + r) * m.ld + c * m.ps + 128 * b * fmtWidth m.fmt / 8, rowGranules m.fmt (min 128 (x.n - 128 * b)))
        else (List.range x.unfold).flatMap fun dy => imageExtent s m (x.unfold * (y0 + r) + dy)]

/-- The tiles of POOL and RESAMPLE: bands of output rows (R154, R156). -/
def bandExtents (s : State) (m : Image) (y0 rows tileRows : Nat) : List (List Extent) :=
  (ranges y0 rows tileRows).map fun (y, n) => [orderExtent <| (List.range n).flatMap fun i => imageExtent s m (y + i)]

/-- ATTN_BLOCK's tiles (R173). -/
def attnExtents (s : State) (n : Nat) (d : Desc) : List (List Extent) :=
  let x := attnDims s d
  (List.range x.entries).map fun j =>
    let e := attnEntry s d j
    let bucket := s.bucketOf n e.seq.present
    let rows := if bucket.isSome && (bitOf x.flags 6 || bucket == some (bitsOf x.flags 5 3)) then
        (List.range e.mq).map fun r =>
          if x.stateOut then (e.state + r * x.lds, roundUp (stateRowBytes x.d) 32)
          else (e.out + r * x.ldo, attnRowBytes d x.d)
      else []
    [rows ++ [(d.dstAddr + 32 * j, 32)]]

/-- KV_APPEND's tiles from n_base of the windrow record (R181, R182); none where the header, the record or the page-table entry of a
flush cannot be read or names no bale that gleaning reaches (R220). -/
def kvExtents (s : State) (n : Nat) (d : Desc) : Option (List (List Extent)) :=
  let q := readSequence s d.dstAddr
  let base := s.le (d.dstAddr + 36) 4
  let flushes := ((List.range (s.param d 0)).filter fun t => (base + t) % 64 == 63).map fun t => (base + t) / 64 - q.first
  let bad (i : Nat) : Bool := !baleOk s (.glean n) q i false || s.poisoned (q.table + 8 * i) 8
  if !q.headerOk || !q.recordOk || s.poisoned d.dstAddr 64 || flushes.any bad then none
  else some ((List.range (s.param d 0)).map fun t =>
    let p := base + t
    let halves := [false, true].flatMap fun v =>
      let fmt := if v then q.fmtV else q.fmtK
      let ((ro, _), (so, sn)) := q.rowAt v (p % 64) 0
      let gran (off n : Nat) : Extent :=
        if n = 0 then [] else [(q.h + 64 + off / 32 * 32, roundUp (off + n) 32 - off / 32 * 32)]
      gran ro (q.heads * kvRow q.d fmt) ++ gran so (q.heads * sn)
    let flush := if p % 64 = 63 then [(q.entry s (p / 64 - q.first), q.baleBytes)] else []
    [halves ++ flush ++ [(q.h + 32, 32)]])

/-- DISPATCH's tiles (R247, R248). -/
def dispatchExtents (s : State) (d : Desc) : List (List Extent) :=
  let x := exchangeDims s d
  match x.mode with
  | 0 => [[(d.dstAddr + 32 * x.v7, roundUp (x.t * x.k) 32)]] :: (List.range x.v7).map fun e => [[(d.dstAddr + 32 * e, 32)]]
  | 1 => (List.range 16).map fun c => [[(d.dstAddr + 32 * c, 32)]]
  | _ => [[[(d.dstAddr, 32)]]]

/-- COMBINE's tiles (R250). -/
def combineExtents (s : State) (d : Desc) : List (List Extent) :=
  let x := exchangeDims s d
  if x.mode = 0 then rowExtents s d [d.dstAddr] x.t x.v7 x.ld (x.elems d)
  else [[[(((s.bufferHalf x.v6 x.v5).map (·.1)).getD 0, x.ld)]]]

/-- The extents of a descriptor's tiles can be derived: its parameter block can be read, and what the extent rule reads
passes the checks of R101 as read now; the outlier list and the slot tables are none of it (R220). -/
def derivable (s : State) (n : Nat) (d : Desc) : Bool :=
  readsParam s (.glean n) false false false d &&
    (match opFor false false d.op with
     | some o =>
       let p := o.plan s (.glean n) d
       paramCause s (.glean n) d p false == 0 && !p.sizeBad && !p.unaligned &&
         (List.range 12).all fun i => s.header d i % 32 == 0
     | none => false)

/-- The tile extents that a descriptor's op defines, as read now; none where they cannot be derived (R220). -/
def tileExtents (s : State) (n : Nat) (d : Desc) : Option (List (List Extent)) :=
  if !derivable s n d then none
  else
    match d.op with
    | 0x01 => some (matmulExtents s d)
    | 0x02 => some (convExtents s d)
    | 0x03 =>
      let x := poolDims s d
      some (bandExtents s (x.output d) x.outY0 x.outRows x.tileRows)
    | 0x04 =>
      let x := resampleDims s d
      some (bandExtents s (x.output d) x.outY0 x.outRows x.tileRows)
    | 0x05 =>
      let es := (List.range (attnDims s d).entries).map (attnEntry s d)
      if s.poisoned d.aAddr (64 * (attnDims s d).entries) || es.any fun e => s.poisoned e.seq.h 64 || !e.seq.headerOk then none
      else some (attnExtents s n d)
    | 0x06 => kvExtents s n d
    | 0x07 =>
      let x := eltDims s d
      some (rowExtents s d [d.dstAddr] x.rows x.tileRows x.ldd x.e)
    | 0x08 =>
      let x := reduceDims s d
      some (rowExtents s d [d.dstAddr] x.rows x.tileRows x.ldd 1)
    | 0x09 =>
      let x := routeDims s d
      some (rowExtents s d [d.dstAddr] x.tokens x.tileRows x.ldd (2 * x.k))
    | 0x0A => some (dispatchExtents s d)
    | 0x0B => some (combineExtents s d)
    | 0x0C =>
      let x := moveDims s d
      some (rowExtents s d (moveBases x d) x.rows x.tileRows x.dst x.e)
    | 0x0D =>
      let x := packDims s d
      some ((rowExtents s { d with zcDst := true } [d.dstAddr] x.rows x.tileRows x.ldd x.e).map (·.map orderExtent))
    | 0x0E =>
      let x := packDims s d
      some ((rowExtents s d [d.dstAddr] x.rows x.tileRows x.ldd x.e).map (·.map orderExtent))
    | _ => some []

/-- A stored copy of a tile is not poisoned and has its checksum. -/
def copyGood (s : State) (crc : Nat) (e : Extent) : Bool :=
  !s.readsPoisoned e && (crc32c (e.flatMap fun (a, n) => s.view a n)).toNat == crc

/-- The count of leading tiles, below c, whose copies all match their checksum slots (R220). -/
def goodTiles (s : State) (d : Desc) (xs : List (List Extent)) (c : Nat) : Nat :=
  (((xs.take c).zipIdx).takeWhile fun (copies, j) => copies.all (copyGood s (s.le (s.header d 8 + 4 * j) 4))).length

/-- A report entry (R221). -/
def gleanEntry (h : Nat) (x : Hopper) (tag committed total fault state stubble : Nat) (unreadable trimmed : Bool) :
    List Byte :=
  let b := leBytes 2 h ++ leBytes 2 x.head ++ leBytes 4 tag ++ leBytes 2 committed ++ leBytes 2 total ++ leBytes 2 fault ++
    leBytes 1 state ++ leBytes 1 (bval unreadable + 2 * bval trimmed + 4 * bval x.noAck + 8 * bval x.wasParked) ++
    leBytes 8 (stubble % 2 ^ 40) ++ leBytes 4 0
  b ++ leBytes 4 (crc32c b).toNat

/-- Glean one hopper: its entry, whether a count was trimmed, and what the Reeve read for it (R220). -/
def gleanHopper (s : State) (h : Nat) : List Byte × Bool × List (Nat × Nat) :=
  let x := s.hopper h
  let a := x.headSlot
  let d := s.descAt a
  let w := s.view d.stubbleAddr 16
  if s.poisoned a 64 || !d.crcOk then (gleanEntry h x 0 0 0 0 0 0 true false, false, [(a, 64)])
  else
    let entry (c : Nat) (bad trimmed : Bool) : List Byte :=
      gleanEntry h x d.tag c d.tiles (leAt w 8 2) (leAt w 10 1 % 8) d.stubbleAddr bad trimmed
    if s.poisoned d.stubbleAddr 32 || !stubbleReadable w d || (s.extentRegion d.stubbleAddr 32).isNone then
      (entry 0 true false, false, [(a, 64), (d.stubbleAddr, 32)])
    else
      let c := leAt w 4 2
      let xs := (tileExtents s x.furrow d).getD []
      let good := goodTiles s d xs c
      (entry good false (good < c), good < c, [(a, 64), (d.stubbleAddr, 32)] ++ ((xs.take (min c (good + 1))).flatten.flatten))

/-- Gleaning of a stopped Field (R219). -/
def glean (s : State) (f : Nat) : State :=
  if s.fieldState f ≠ fldStopped ∨ s.bit (Reg.fldStatus f) 7 then s
  else
    let hs := (s.hoppersOf f).filter fun h => (s.hopper h).inflight
    let a := s.reg64 (Reg.fldGleanAddrLo f) (Reg.fldGleanAddrHi f)
    if a % 32 ≠ 0 ∨ !(s.inFieldDram f a (32 * hs.length)) then
      let s := s.raiseIf (!(s.field f).gleanFailed) { code := 0x220B, cls := 2, inst := f }
      s.setField f { s.field f with gleanFailed := true }
    else
      let s := hs.zipIdx.foldl (fun s (h, i) =>
        let (e, trimmed, reads) := gleanHopper s h
        let s := reads.foldl (fun s (a, n) => reeveRead s a n) s
        (s.store (a + 32 * i) e).raiseIf trimmed { code := 0x2209, cls := 2, inst := f }) s
      let s := s.setBits (Reg.fldGleanCount f) 15 0 hs.length
      let s := (s.setBit (Reg.fldStatus f) 7 true).setField f { s.field f with gleanFailed := false }
      (s.notify (f + 1) 1).notify 0 1

/-- A gleaning that has failed is tried again at every management tick (R219). -/
def retryGlean (s : State) (f : Nat) : State := if (s.field f).gleanFailed then glean s f else s

/-- GLEANING. -/
def execGleaning (f : Nat) (s : State) : Result := live s <| withUnit s 8 f fun s f => glean s f

/-! Commands of hoppers, Fields and yokes. -/

/-- A doorbell, and the descriptor buffer of the Furrow that the hopper is bound to (R196, R206). -/
def ring (s : State) (r : Reach) (h tail : Nat) : State :=
  let t := doorbell s r h tail
  if isSystem h || (doorbellRefusal s r h tail).isSome then t else refreshBuffer t (t.hopper h).furrow

/-- A doorbell by a requester, which in firmware recovery the Reeve alone reaches (R34, R441). -/
def ringFrom (s : State) (r : Requester) (h tail : Nat) : State :=
  if s.recoveryReach r Reg.hopDoorbell then ring s (.req r) h tail else deniedAccess s r Reg.hopDoorbell

/-- DOORBELL. An accepted one may change what the bound Furrow's scheduler would choose (R206). -/
def execDoorbell (req : Requester) (hopper : Nat) (tail : BitVec 16) (s : State) : Result := live s <|
  withUnit s 32768 hopper fun s hopper => ringFrom s req hopper tail.toNat

/-- A control write of a hopper by a requester that reaches it (R32), otherwise dropped (R34). -/
def controlHopper (s : State) (r : Requester) (h a : Nat) (f : State → Nat → State) : State :=
  if s.mayControl r h then f s h else deniedAccess s r a

/-- HOP_SKIP. -/
def execHopSkip (req : Requester) (hopper : Nat) (s : State) : Result := live s <|
  withUnit s 32768 hopper fun s hopper => controlHopper s req hopper Reg.hopSkip hopSkip

/-- HOP_CNT_RESET. -/
def execHopCntReset (req : Requester) (hopper : Nat) (s : State) : Result := live s <|
  withUnit s 32768 hopper fun s hopper => controlHopper s req hopper Reg.hopCntReset hopCntReset

/-- A control write of a Field by the Reeve, management or its own function (R32), otherwise dropped (R34). -/
def controlField (s : State) (r : Requester) (f : Nat) (g : State → Nat → State) : State :=
  if s.reaches (.req r) (Reg.fldCtrl f) 4 true then g s f else deniedAccess s r (Reg.fldCtrl f)

/-- FLD_CTRL.start: the Field runs, and its Furrows fetch what they choose. -/
def startField (s : State) (f : Nat) : State :=
  if s.mayStart f then (s.furrowsOf f).foldl refreshBuffer (runField s f) else refuseField s f

/-- FIELD_START. -/
def execFieldStart (req : Requester) (f : Nat) (s : State) : Result := live s <| withUnit s 8 f fun s f =>
  controlField s req f startField

/-- FIELD_QUIESCE. -/
def execFieldQuiesce (req : Requester) (f : Nat) (s : State) : Result := live s <| withUnit s 8 f fun s f =>
  controlField s req f quiesceField

/-- FIELD_STOP. -/
def execFieldStop (req : Requester) (f : Nat) (s : State) : Result := live s <| withUnit s 8 f fun s f =>
  controlField s req f requestStop

/-- QUIESCE_COMPLETE. -/
def execQuiesceComplete (f : Nat) (s : State) : Result := live s <| withUnit s 8 f fun s f => completeQuiesce s f

/-- QUIESCE_LIMIT_EXPIRY. -/
def execQuiesceLimitExpiry (f : Nat) (s : State) : Result := live s <| withUnit s 8 f fun s f => expireQuiesce s f

/-- FIELD_STOPPED. -/
def execFieldStopped (f : Nat) (s : State) : Result := live s <| withUnit s 8 f fun s f => completeStop s f

/-- The tick 25,600 cycles of CLK_CORE after the trigger that FLD_STOP_TICK records (R200, R203). -/
def State.stopDue (s : State) (f : Nat) : Nat := s.reg64 (Reg.fldStopTickLo f) (Reg.fldStopTickHi f) + 25600 * s.coreTicks

/-- 25,600 cycles of CLK_CORE after the trigger: a stopping Field is stopped, and writes owed since a stop from ready or quiesced are
reported (R200, R203). -/
def stopTimeout (s : State) (f : Nat) : State :=
  if s.fieldState f = fldStopping then expireStop (runUntil s (s.stopDue f)) f
  else if (s.owedHoppers f).isEmpty then s
  else expireOwed (runUntil s (s.stopDue f)) f

/-- STOP_ACK_TIMEOUT. -/
def execStopAckTimeout (f : Nat) (s : State) : Result := live s <| withUnit s 8 f fun s f => stopTimeout s f

/-- The refill of every bucket at a multiple of 6,400 (R216); each multiple reached gives one. -/
def refillAll (s : State) : State :=
  let s := if 0 < s.time.refillsDue then s else runUntil s (multipleAfter 6400 s.now)
  if 0 < s.time.refillsDue then
    let s := { s with time := { s.time with refillsDue := s.time.refillsDue - 1 } }
    forUpTo 24 (fun i s => yokeRefillOne s (i / 3) (i % 3)) s
  else s

/-- YOKE_REFILL. -/
def execYokeRefill (s : State) : Result := live s <| refillAll s

/-- YOKE_ADMIT. -/
def execYokeAdmit (f r : Nat) (s : State) : Result := live s <| withUnit s 8 f fun s f => withUnit s 3 r fun s r =>
  drainOwn (yokeAdmit s f r)

end Sys2Proof.Machine
end

