-- ==== Sys2Proof/Machine/Dram.lean ====
section
/-! DEFINITION. DRAM and the Headland (spec 10_dram_and_headland.md): block accesses, patrol scrub, retraining, packets.
Fault codes are those of R278. -/

namespace Sys2Proof.Machine

/-! Block accesses (R262 to R265). -/

/-- A read of the 64-byte block that holds an address (R34, R126). -/
def dramRead (s : State) (r : Requester) (a : Nat) (u : Upset) : State :=
  let b := a / 64 * 64
  if s.region a ≠ some .dram then denyRead s r b 64
  else if !s.reaches (.req r) a 1 false then denyRead s r b 64
  else answerRead (checkBlock s (a / 64) u false) r b 64

/-- DRAM_READ. -/
def execDramRead (req : Requester) (addr : Nat) (upset : Upset) (s : State) : Result := live s <| dramRead s req addr upset

/-- A write: whole blocks as they are, the rest as read, merge and write (R262). -/
def dramWrite (s : State) (r : Requester) (a : Nat) (bs : List Byte) (poison : Bool) (u : Upset) : State :=
  if bs = [] then s
  else if s.region a ≠ some .dram then deniedAccess s r a
  else if !s.reaches (.req r) a bs.length true then deniedAccess s r a
  else writeDram s a bs poison u (bs.length / 64 + 2)

/-- DRAM_WRITE. -/
def execDramWrite (req : Requester) (addr : Nat) (data : List Byte) (poison : Bool) (s : State) : Result := live s <|
  dramWrite s req addr data poison .clean

/-- DRAM_PARTIAL_WRITE. -/
def execDramPartialWrite (req : Requester) (addr : Nat) (data : List Byte) (upset : Upset) (s : State) : Result := live s <|
  dramWrite s req addr data false upset

/-! Patrol scrub (R270). -/

/-- The chunk of a channel at a local index (R260). -/
def chunkOf (ch loc : Nat) : Nat := loc * 32 + Nat.xor ch (loc % 32)

/-- Scrub one block: corrected and written back, or recorded. -/
def scrubBlock (s : State) (b : Nat) (u : Upset) : State :=
  let s := checkBlock s b u true
  if s.blockMark b = .single then setBlockMark s b .clean else s

/-- All channels take their next scrub block. -/
def patrolScrub (s : State) (upsets : List (Nat × Upset)) : State :=
  if s.dramInstalled = 0 then s
  else
    let loc := s.bits Reg.dramScrub 20 0
    let pos := s.dram.scrubBlock
    let s := if pos = 31 then s else
      forUpTo 32 (fun ch s =>
        let b := 31 * chunkOf ch loc + pos
        if 64 * b < s.dramMapped then
          scrubBlock s b (((upsets.find? fun u => u.1 == ch).map (·.2)).getD .clean)
        else s) s
    let s := { s with dram := { s.dram with scrubBlock := (pos + 1) % 32 } }
    if pos < 31 then s
    else if loc + 1 < s.dramInstalled / 65536 then s.setBits Reg.dramScrub 20 0 (loc + 1)
    else (s.setBits Reg.dramScrub 20 0 0).addWrap Reg.dramScrub 31 21

/-- DRAM_PATROL_SCRUB_READ. -/
def execDramPatrolScrubRead (upsets : List (Nat × Upset)) (s : State) : Result := live s <| patrolScrub s upsets

/-! Retraining (R268, R269). -/

/-- A channel may be retrained: 1,000 management ticks since its last training. -/
def State.mayTrain (s : State) (c : Nat) : Bool := mapGet 0 s.dram.lastTrained c + 1000 ≤ s.tickNumber

/-- The channel's node temperature has moved more than 10 °C since its last training. -/
def State.drifted (s : State) (c : Nat) : Bool :=
  10 < (signedOf (s.bits (Reg.dramNodeTemp (c / 4)) 7 0) 8 - signedOf (s.bits (Reg.dramChTrain c) 23 16) 8).natAbs

/-- The rotation's period in management ticks. -/
def State.trainPeriod (s : State) : Nat := max 1000 (s.bits Reg.dramTrainCtrl 19 0)

/-- The channel to retrain next, with whether it is the rotation's turn: one that has drifted comes ahead of the rotation; a turn of
the rotation goes to a channel placed first in it, else to the next in order. -/
def State.nextTrain (s : State) : Option (Nat × Bool) :=
  match (List.range 32).find? fun c => s.drifted c && s.mayTrain c with
  | some c => some (c, false)
  | none =>
    if s.dram.lastRotation + s.trainPeriod ≤ s.tickNumber then
      match s.dram.front.find? s.mayTrain with
      | some c => some (c, true)
      | none => (((List.range 32).map fun i => (s.dram.next + i) % 32).find? s.mayTrain).map fun c => (c, true)
    else none

/-- The first slice of a retraining; a channel placed first moves no place of the order. -/
def startRetrain (s : State) (c : Nat) (rotation : Bool) : State :=
  let s := (s.setBits Reg.dramStatus 4 0 c).setBit Reg.dramStatus 8 true
  let x := s.dram
  { s with dram := { x with slices := 1, front := x.front.filter (· != c)
                            next := if rotation && !x.front.contains c then (c + 1) % 32 else x.next
                            lastRotation := if rotation then s.tickNumber else x.lastRotation } }

/-- The 256th slice: the new settings, their margin and temperature. -/
def endRetrain (s : State) (c margin : Nat) (temp : Int) : State :=
  let s := s.setBits (Reg.dramChTrain c) 31 24 (min margin 255)
  let s := s.setBits (Reg.dramChTrain c) 23 16 (unsignedOf temp 8)
  let s := s.addSat (Reg.dramChTrain c) 15 0
  let s := (s.setBit Reg.dramStatus 8 false).retrained c margin temp
  let s := { s with dram := { s.dram with slices := 0, lastTrained := mapSet 0 s.dram.lastTrained c s.tickNumber } }
  if margin < s.bits Reg.dramTrainCtrl 31 24 then
    let s := (s.setBit Reg.dramStatus 9 true).raise { code := 0x0406, cls := 2, inst := c }
    { s with dram := { s.dram with front := c :: s.dram.front.filter (· != c) } }
  else s

/-- One slice, after start-up. -/
def retrainSlice (s : State) (margin : Nat) (temp : Int) : State :=
  if !s.bit Reg.reeveBoot 31 then s
  else if s.bit Reg.dramStatus 8 then
    if s.dram.slices + 1 < 256 then { s with dram := { s.dram with slices := s.dram.slices + 1 } }
    else endRetrain s (s.bits Reg.dramStatus 4 0) margin temp
  else
    match s.nextTrain with
    | some (c, rotation) => startRetrain s c rotation
    | none => s

/-- DRAM_RETRAIN_SLICE. -/
def execDramRetrainSlice (margin : Nat) (temp : Int) (s : State) : Result := live s <| retrainSlice s margin temp

/-- A per-bank refresh of a channel: the next of its banks, at the rate that the last MR4 reading gives. It keeps the stored data
and changes nothing that can be read (R258). -/
def refreshBank (s : State) (c : Nat) : State :=
  let banks := 16 * (1 + s.bits Reg.dramCfg 3 3)
  let bank := (mapGet (0, 0) s.dram.refresh c).1
  { s with dram := { s.dram with
      refresh := mapSet (0, 0) s.dram.refresh c ((bank + 1) % banks, Config.refreshRate c s.dram.mr4Tick) } }

/-- DRAM_REFRESH. -/
def execDramRefresh (channel : Nat) (s : State) : Result := live s <| withUnit s 32 channel fun s channel =>
  refreshBank s channel

/-- DRAM_CTRL.retrain_now (R268). -/
def retrainNow (s : State) (c : Nat) : State :=
  { s with dram := { s.dram with front := c :: s.dram.front.filter (· != c) } }

/-- DRAM_RETRAIN_NOW. -/
def execDramRetrainNow (channel : Nat) (s : State) : Result := live s <| withUnit s 32 channel fun s channel =>
  retrainNow s channel

/-- DRAM_CTRL.cnt_clear. -/
def clearDramCounters (s : State) : State := forUpTo 32 (fun c s => s.setReg (Reg.dramChEcc c) 0) s

/-- DRAM_CNT_CLEAR. -/
def execDramCntClear (s : State) : Result := live s <| clearDramCounters s

/-! The Headland (R271 to R277). -/

/-- A value lies between two others, ends included. -/
def between (a b x : Nat) : Bool := (a ≤ x && x ≤ b) || (b ≤ x && x ≤ a)

/-- A router lies on the way from a source to a target: along the row to the target's column, then along the column (R272). -/
def onWay (ax ay bx by' router : Nat) : Bool :=
  let x := router % 8
  let y := router / 8
  (y == ay && between ax bx x) || (x == bx && between ay by' y)

/-- The logical Furrows that a multicast names. -/
def multicastTo (p : Packet) : List Nat := (List.range 64).filter p.mask.getLsbD

/-- The copies of a multicast that pass a router (R276): those whose way from the source leads through it. -/
def copiesAt (p : Packet) (router : Nat) : List Nat :=
  (multicastTo p).filter fun n => onWay p.srcX p.srcY (furrowAt n).1 (furrowAt n).2 router

/-- A router lies on a packet's path: X first and then Y; a response retraces its request's path, and a multicast's tree is the ways
to all of its seedbeds (R272, R276). -/
def onPath (p : Packet) (router : Nat) : Bool :=
  if p.mask ≠ 0 && !p.response then !(copiesAt p router).isEmpty else onWay p.srcX p.srcY p.dstX p.dstY router

/-- What sits at a router: a memory and I/O node in the middle row, a logical Furrow elsewhere (R271). -/
inductive Seat where
  | node (m : Nat)
  | furrow (n : Nat)
  deriving DecidableEq, Repr

/-- The seat at a router's position (R271). -/
def seatAt (x y : Nat) : Seat :=
  if y = 4 then .node x else .furrow (x + 8 * if y < 4 then y else y - 1)

/-- A Furrow sends on the system channel for the system task it runs, and on its Field's channel for the Field task that it runs, its
stubble writes and its descriptor buffer (R274). -/
def State.furrowCarries (s : State) (n vc : Nat) : Bool :=
  let f := s.furrow n
  let runs (system : Bool) : Bool := f.task.any fun t => isSystem t.hopper == system
  if vc = 8 then runs true
  else s.fieldOf n == some vc && (runs false || f.buffer.isSome || !f.unacked.isEmpty || !f.posted.isEmpty)

/-- An address belongs to Field f: in a seedbed of one of its Furrows, or in its DRAM region. -/
def State.fieldOwns (s : State) (f a : Nat) : Bool :=
  match seedbedOf a with
  | some m => s.fieldOf m == some f
  | none => s.inFieldDram f a 32

/-- A request's virtual channel is one that its source sends on (R274). Nodes 2 to 5, of the Intake and of the Droveway, send on the
channel of the Field that owns the seedbed or receive buffer they write; the nodes of the host and of the Reeve with the
safety controller on the system channel. Nodes 6 and 7 send no request. -/
def State.carries (s : State) (p : Packet) : Bool :=
  match seatAt p.srcX p.srcY with
  | .furrow n => s.furrowCarries n p.vc
  | .node m => if m < 2 then p.vc == 8 else m < 6 && p.vc < 8 && s.fieldOwns p.vc (p.granule / 32 * 32)

/-- Record a flit error in HEAD_ERR and HEAD_ECC (R277). -/
def headError (s : State) (p : Packet) (uncorr : Bool) : State :=
  let s := s.setBits Reg.headErr 15 12 p.vc
  let s := s.setBits Reg.headErr 9 7 p.inPort
  let s := s.setBits Reg.headErr 6 0 p.inRouter
  let s := s.setBit Reg.headErr (if uncorr then 31 else 30) true
  if uncorr then s.addSat Reg.headEcc 31 16 else s.addSat Reg.headEcc 15 0

/-- A corrected flit word. -/
def headCorrected (s : State) (p : Packet) : State :=
  (headError s p false).raise { code := 0x0301, cls := 1, inst := p.inRouter }

/-- An uncorrectable header: the packet is discarded; F3 on the Field of its virtual channel, F4 on the system
channel. -/
def headDiscard (s : State) (p : Packet) : State :=
  (headError s p true).raise { code := 0x0303, cls := if p.vc = 8 then 4 else 3, inst := p.inRouter
                               field := if p.vc = 8 then none else some p.vc }

/-- Some of a list of reads takes in a granule. -/
def readsGranule (xs : List (Nat × Nat)) (a : Nat) : Bool := xs.any fun (b, n) => b < a + 32 && a < b + n

/-- A running task receives a poisoned granule that it requested: it ends with cause 0x0A before a tile that depends on it commits
(R126). What it has requested are its parameter block, its operands and, once its tiles are committed, its tags; the
model reads each of these in one step, so a granule of the block counts until the operands are read (DESIGN CHOICE,
safe, log 98). -/
def poisonRunning (s : State) (n a : Nat) (t : Task) : State :=
  let param := (t.desc.paramAddr, 32 * t.desc.paramLen)
  let ends (xs : List (Nat × Nat)) : State := if readsGranule xs a then toEnding s n t 0x0A else s
  match t.stage with
  | .ending _ => s
  | .checking => ends [param]
  | .starting => ends [param]
  | .reading =>
    match opDefOf t.desc.op with
    | some o => ends (param :: (o.plan s (s.taskReach n t.hopper) t.desc).reads)
    | none => s
  | .committing =>
    if t.tilesLeft.isEmpty then ends (tagReads s t.desc)
    else
      let all := readsGranule t.reads a
      setTask s n (some { t with
        tilesLeft := t.tilesLeft.map fun k => { k with poison := k.poison || all || readsGranule k.reads a } })

/-- A buffered descriptor's poisoned granule: the task that is accepted from it ends with cause 0x0A (R101, R126). -/
def poisonBuffer (s : State) (n a : Nat) : State :=
  let f := s.furrow n
  match f.buffer with
  | some b =>
    if readsGranule [(b.slot, 64)] a then
      s.setFurrow n { f with buffer := some { b with data := b.data.map fun (bs, _) => (bs, true) } }
    else s
  | none => s

/-- A Furrow receives a poisoned granule; one that it did not request changes nothing (R126). -/
def poisonTask (s : State) (n a : Nat) : State :=
  let s := poisonBuffer s n a
  match (s.furrow n).task with
  | none => s
  | some t => poisonRunning s n a t

/-- The host's poisoned read completes with EP set; which function asked the packet does not say (a free one, DESIGN CHOICE, safe, log
98). -/
def poisonHost (s : State) (a : Nat) : State :=
  let (v, s) := s.takeFree
  s.emit (.completion (v.toNat % 9) 0 true (s.bytes a 32))

/-- A response's poisoned granule reaches its requester: a task, the host, or the Reeve (R126). -/
def poisonRequester (s : State) (p : Packet) (a : Nat) : State :=
  match seatAt p.srcX p.srcY with
  | .furrow n => poisonTask s n a
  | .node 0 => poisonHost s a
  | .node 1 => reeveBusError s a
  | .node _ => s

/-- The granules that a write's data word is on its way to: one, or one in each seedbed that a multicast still reaches. -/
def wordTargets (p : Packet) : List Nat :=
  let a := p.granule / 32 * 32
  if p.mask = 0 then [a] else (copiesAt p p.inRouter).map fun n => seedbedBase n + a % 0x400000

/-- A granule is stored poisoned; the write cancels a scrub write-back of it (R127, R138). -/
def storePoison (s : State) (a : Nat) : State :=
  if a < 0x2000000000 then setBlockMark s (a / 64) .double else (cancelWriteBacks s (a / 32 * 32) 32).setMark (a / 32) .double

/-- An uncorrectable data word: its granule is poisoned. A read's response carries the poison to its requester; a write's data word
is stored poisoned, in every copy that the word still reaches. -/
def headPoison (s : State) (p : Packet) : State :=
  let s := (headError s p true).raise { code := 0x0302, cls := 2, inst := p.inRouter }
  if p.response then poisonRequester s p (p.granule / 32 * 32) else (wordTargets p).foldl storePoison s

/-- A packet on the mesh, with the error that one of its router inputs meets: a header flit, then data flits where it carries bytes
(R272). A packet whose source does not send on its channel is none (R274). -/
def headlandPacket (s : State) (p : Packet) : State :=
  if !onPath p p.inRouter || !s.carries p then s
  else if p.noCredit then s.raise { code := 0x0304, cls := 4, inst := p.inRouter }
  else
    let s := if p.upsetHead = .single then headCorrected s p else s
    if p.upsetHead = .double ∨ p.upsetHead = .wrongAddress then headDiscard s p
    else if p.bytes = 0 then s
    else
      match p.upsetWord with
      | .clean => s
      | .single => headCorrected s p
      | _ => headPoison s p

/-- A packet between nodes that the Headland has: a coordinate, channel, router or port that it has not stands for a free one
(DESIGN CHOICE, safe, log 92). -/
def routedPacket (s : State) (p : Packet) : State :=
  withUnit s 8 p.srcX fun s srcX => withUnit s 9 p.srcY fun s srcY => withUnit s 8 p.dstX fun s dstX =>
  withUnit s 9 p.dstY fun s dstY => withUnit s 9 p.vc fun s vc => withUnit s 72 p.inRouter fun s inRouter =>
  withUnit s 5 p.inPort fun s inPort =>
    headlandPacket s { p with srcX := srcX, srcY := srcY, dstX := dstX, dstY := dstY, vc := vc, inRouter := inRouter
                              inPort := inPort }

/-- HEADLAND_PACKET. -/
def execHeadlandPacket (p : Packet) (s : State) : Result := live s <| routedPacket s p

/-- HEAD_CNT_CLEAR. -/
def execHeadCntClear (s : State) : Result := live s <| s.setReg Reg.headEcc 0

end Sys2Proof.Machine
end

