-- ==== Sys2Proof/Machine/Island.lean ====
section
/-! DEFINITION. The safety island (spec 14_safety.md): fault reports, the tally log, the fault pins, safe state, the
watchdog and the check plot's due times. Fault codes are those of R401; the checkers act alike in both profiles (R12). -/

namespace Sys2Proof.Machine

/-! Safe state (R375). -/

/-- The device is in safe state. -/
def State.safe (s : State) : Bool := s.bit Reg.safeStatus 2

/-- The Fenced profile is active. -/
def State.fenced (s : State) : Bool := s.bits Reg.safeStatus 1 0 == 1

/-- FAULT_N is asserted; FAULT_DYN holds its level (R370, R371). -/
def assertFaultN (s : State) : State := (s.setBit Reg.safeStatus 3 true).setBit Reg.safeStatus 4 false

/-- SAFE_PIN.hold, where 0 acts as 1. -/
def State.pinHold (s : State) : Nat := max 1 (s.bits Reg.safePin 7 0)

/-- The F4 causes that only PORST_N leaves (R376). -/
def porstOnly (code : Nat) : Bool := [0x0001, 0x0A01, 0x0707, 0x0406, 0x0407].contains code

/-- Record an F4 cause, and enter safe state unless the device is in it: every Field stops, every Bridle channel acts
under R364, the chip reports over the Trace chain, FAULT_N is held (R375, R376). The reins act at their next issue.
A cause that only PORST_N leaves sets REEVE_RST.porst_req (R451). -/
def enterSafe (s : State) (code : Nat) : State :=
  let s := { s with island := { s.island with f4Causes := s.island.f4Causes ++ [code], f4Since := true } }
  let s := if porstOnly code then s.setBit Reg.reeveRst 31 true else s
  if s.safe then s
  else
    let s := assertFaultN ((s.setBit Reg.safeStatus 2 true).setBits Reg.safeStatus 31 16 code)
    let s := forUpTo 8 (fun f s => stopField s f code) s
    let s := forUpTo 8 (fun c s => bridleSafe s c) s
    (chainBroadcast s 0x07 []).notify 0 6

/-! Reports (R367, R370, R374). -/

/-- The class reaction of an event that reaches the island (R374). -/
def react (s : State) (e : Event) : State :=
  if e.cls = 4 then enterSafe s e.code
  else
    match e.field with
    | some f => if e.cls = 3 then stopField s f e.code else s
    | none => s

/-- An event of class F2 or above drives FAULT_N low, and its hold starts again (R370). -/
def drivePins (s : State) (e : Event) : State :=
  if 2 ≤ e.cls then
    let s := assertFaultN s
    { s with island := { s.island with holdTicks := s.pinHold } }
  else s

/-- An event as it arrives at the island now; a cycle of CLK_MGMT is four of CLK_FAST. -/
def arrived (s : State) (e : Event) : TallyEvent := { event := e, tick := s.now, cycle := s.time.cycles / 4 }

/-- The oldest event on the network reaches the island: pins, the class reaction, and its place before the tally
writer. -/
def faultReport (s : State) : State :=
  match s.island.net with
  | [] => s
  | e :: rest =>
    let s := { s with island := { s.island with net := rest
                                                queue := s.island.queue ++ [arrived s e] } }
    react (drivePins s e) e

/-- A checker's event reaches the safety island (R367, R370). -/
def execFaultReport (s : State) : Result := live s <| faultReport s

/-! The tally log (R377 to R380). -/

/-- First address of the tally log. -/
def tallyBase : Nat := 0x50000A8000

/-- SAFE_TALLY_WR. -/
def State.tallyWr (s : State) : Nat := s.bits Reg.safeTallyWr 15 0

/-- Free entries (R377). -/
def State.tallyFree (s : State) : Nat := 1024 - (s.tallyWr + 65536 - s.bits Reg.safeTallyRd 15 0) % 65536

/-- The 32 bytes of an entry (R378). -/
def tallyBytes (tick code clsByte chip inst info countHi seq : Nat) : List Byte :=
  let b := leBytes 8 tick ++ leBytes 2 code ++ leBytes 1 clsByte ++ leBytes 1 chip ++ leBytes 4 inst ++ leBytes 8 info ++
    leBytes 2 countHi ++ leBytes 2 seq
  b ++ leBytes 4 (crc32c b).toNat

/-- Write an entry at the write index (R377, R378). -/
def writeEntry (s : State) (tick code clsByte inst info countHi : Nat) : State :=
  let wr := s.tallyWr
  let chip := s.chipId + 16 * bval s.fenced
  let s := s.store (tallyBase + 32 * (wr % 1024)) (tallyBytes tick code clsByte chip inst info countHi wr)
  let s := s.setBits Reg.safeTallyWr 15 0 (wr + 1)
  let s := s.setBits Reg.safeTallyStatus 10 0 s.tallyFree
  if 2 ≤ clsByte % 8 then s.notify 0 4 else s

/-- The key of a source: a fault code together with its class (R379). -/
def sourceKey (code cls : Nat) : Nat := 8 * code + cls

/-- A source's record. -/
def State.tallySource (s : State) (k : Nat) : SourceRecord := mapGet {} s.island.sources k

/-- Replace a source's record, and SAFE_TALLY_STATUS.coalescing with it. -/
def setSource (s : State) (k : Nat) (r : SourceRecord) : State :=
  let m := mapSet {} s.island.sources k r
  { s with island := { s.island with sources := m } }.setBit Reg.safeTallyStatus 30 (m.any fun (_, r) => r.count != 0)

/-- Coalesce an event into its source's record (R379). -/
def coalesce (s : State) (e : TallyEvent) : State :=
  let k := sourceKey e.event.code e.event.cls
  let r := s.tallySource k
  setSource s k { r with count := min (r.count + 1) (2 ^ 48 - 1), first := if r.count = 0 then e.tick else r.first
                         last := e.tick }

/-- Write an event's own entry, which counts against its source's rate (R379). -/
def writeEvent (s : State) (e : TallyEvent) : State :=
  let k := sourceKey e.event.code e.event.cls
  let s := setSource s k { s.tallySource k with written := (s.tallySource k).written + 1 }
  let cls := e.event.cls + 16 * bval e.event.injected
  match e.event.info with
  | some x => writeEntry s e.tick e.event.code cls e.event.inst x 0
  | none =>
    let (v, s) := s.takeFree
    writeEntry s e.tick e.event.code cls e.event.inst v.toNat 0

/-- The last free entry takes the F4 entry 0x0A05, which names the event; the event is coalesced (R380). -/
def exhaust (s : State) (e : TallyEvent) : State :=
  let s := writeEntry s s.now 0x0A05 4 0 (e.event.code + 65536 * (e.event.inst % 2 ^ 32)) 0
  let s := s.setBit Reg.safeTallyStatus 31 true
  let s := { s with island := { s.island with holdTicks := s.pinHold } }
  coalesce (enterSafe (assertFaultN s) 0x0A05) e

/-- The writer takes one event (R379, R380). -/
def writeOrCoalesce (s : State) (e : TallyEvent) : State :=
  let rate := max 1 (s.bits Reg.safeTallyCtrl 7 0)
  if rate ≤ (s.tallySource (sourceKey e.event.code e.event.cls)).written then coalesce s e
  else if e.event.cls < 2 then (if s.tallyFree ≤ 64 then coalesce s e else writeEvent s e)
  else if s.tallyFree = 0 then coalesce s e
  else if s.tallyFree = 1 then exhaust s e
  else writeEvent s e

/-- An event goes ahead of another (R369): its rank, then its cycle of arrival, then code and instance. -/
def TallyEvent.before (a b : TallyEvent) : Bool :=
  let rank (e : TallyEvent) : Nat := bval (decide (e.event.cls < 2))
  let key (e : TallyEvent) : List Nat := [rank e, e.cycle, e.event.code, e.event.inst]
  decide (key a < key b)

/-- The event that the writer takes next. -/
def nextEvent : List TallyEvent → Option TallyEvent
  | [] => none
  | e :: es =>
    match nextEvent es with
    | none => some e
    | some x => if x.before e then some x else some e

/-- The tally writer writes one pending event (R369). -/
def tallyWrite (s : State) : State :=
  match nextEvent s.island.queue with
  | none => s
  | some e => writeOrCoalesce { s with island := { s.island with queue := s.island.queue.erase e } } e

/-- The tally writer's cycle (R369). -/
def execTallyWrite (s : State) : Result := live s <| tallyWrite s

/-- A source's summary entry at a management tick, as space allows (R379, R380). -/
def writeSummary (s : State) (k : Nat) (r : SourceRecord) : State :=
  let cls := k % 8
  if r.count = 0 ∨ s.tallyFree ≤ (if cls < 2 then 64 else 1) then s
  else
    let s := setSource s k {}
    writeEntry s r.first (k / 8) (cls + 8) (r.count % 2 ^ 32) r.last (r.count / 2 ^ 32)

/-- The summaries of a management tick; every source's rate starts again (R379). -/
def writeSummaries (s : State) : State :=
  let s := s.island.sources.foldl (fun s (k, r) => setSource s k { r with written := 0 }) s
  s.island.sources.foldl (fun s (k, r) => writeSummary s k r) s

/-- A refused safety request (R376, R377, R400). -/
def refuseSafety (s : State) : State := s.raise { code := 0x0A22, cls := 0 }

/-- A write of SAFE_TALLY_RD (R377). -/
def writeReadIndex (s : State) (v : Nat) : State :=
  let rd := s.bits Reg.safeTallyRd 15 0
  if (s.tallyWr + 65536 - rd) % 65536 < (v + 65536 - rd) % 65536 then refuseSafety s
  else
    let s := s.setBits Reg.safeTallyRd 15 0 v
    s.setBits Reg.safeTallyStatus 10 0 s.tallyFree

/-- TALLY_READ_INDEX_WRITE. -/
def execTallyReadIndexWrite (value : BitVec 16) (s : State) : Result := live s <| writeReadIndex s value.toNat

/-! The fault pins (R370, R371). -/

/-- FAULT_N is released once its hold is over, outside safe state and after start-up injection (R370). -/
def releaseFaultN (s : State) : State :=
  if s.island.holdTicks = 0 ∧ !s.safe ∧ s.bit Reg.safeStatus 7 then s.setBit Reg.safeStatus 3 false else s

/-- FAULT_N_RELEASE. -/
def execFaultNRelease (s : State) : Result := live s <| releaseFaultN s

/-- A half-period of FAULT_DYN ends: it toggles when the heartbeat came and FAULT_N is not asserted (R371). -/
def toggleDyn (s : State) (heartbeat : Bool) : State :=
  let on := heartbeat && !s.bit Reg.safeStatus 3
  let s := s.setBit Reg.safeStatus 4 on
  if on then { s with pins := { s.pins with dyn := !s.pins.dyn } } else s

/-- FAULT_DYN_TOGGLE. -/
def execFaultDynToggle (heartbeat : Bool) (s : State) : Result := live s <| toggleDyn s heartbeat

/-- SAFE_CTRL.enter (R376). -/
def execSafeEnter (s : State) : Result := live s <| s.raise { code := 0x0A03, cls := 4 }

/-- A lockstep pair differs (R368); each copy of the safety controller reports on its own. -/
def lockstep (s : State) (p : LockstepPair) : State :=
  match p with
  | .reeve => s.raise { code := 0x0001, cls := 4 }
  | .safetyController => (s.raise { code := 0x0A01, cls := 4 }).raise { code := 0x0A01, cls := 4 }
  | .timeBase => s.raise { code := 0x0203, cls := 4 }

/-- LOCKSTEP_MISMATCH. -/
def execLockstepMismatch (pair : LockstepPair) (s : State) : Result := live s <| lockstep s pair

/-! Leaving safe state (R376). -/

/-- The causes that a buckle transaction may leave. -/
def buckleLeaves (code : Nat) : Bool := [0x0A02, 0x0A03, 0x0A05, 0x0A06, 0x0A07].contains code

/-- SAFE_CTRL.leave commits as 1 (R376). -/
def leaveSafe (s : State) : State :=
  if !s.safe then onlyIf s.island.f4Since refuseSafety s
  else if s.island.f4Since || !s.island.f4Causes.all buckleLeaves || s.pins.safeReq || !s.island.monitorsOk ||
      s.island.monitorsBad || s.tallyFree ≤ 64 then refuseSafety s
  else
    let s := s.setBit Reg.safeStatus 2 false
    { s with island := { s.island with f4Causes := [], holdTicks := s.pinHold } }

/-! The supply and temperature monitors (R376, R481). -/

/-- A monitor trips: four consecutive readings lay outside its limits (R481). -/
def tripMonitor (s : State) (code : Nat) : State :=
  if s.pins.porst then s
  else { s with island := { s.island with monitorsBad := true } }.raise { code := code, cls := 4 }

/-- A VIN reading in mV outside the monitor's limits (R481). -/
def vinOutside (mv : Nat) : Bool := mv < 1715 || 1885 < mv

/-- A sensor's reading in °C outside the monitor's limits (R481). -/
def tjOutside (t : Int) : Bool := decide (t < -38) || decide (123 < t)

/-- One VIN reading: the fourth in a row outside the limits trips the monitor, those after it in the same excursion do not
trip it again (R481; DESIGN CHOICE, unsafe, log 89). -/
def readVin (s : State) (mv : Nat) : State :=
  let run := if vinOutside mv then min (s.island.vinRun + 1) 5 else 0
  let s := { s with island := { s.island with vinRun := run } }
  if run = 4 then tripMonitor s 0x0A06 else s

/-- One sample of the sensors: any sensor's fourth reading in a row outside the limits trips the monitor (R481). -/
def readSensors (s : State) (ts : List Int) : State :=
  let run (k : Nat) : Nat := match ts[k]? with
    | some t => if tjOutside t then min (mapGet 0 s.island.tjRuns k + 1) 5 else 0
    | none => mapGet 0 s.island.tjRuns k
  let runs := (List.range 24).map run
  let trip := (List.range 24).any fun k => run k == 4 && mapGet 0 s.island.tjRuns k == 3
  let s := { s with island := { s.island with
    tjRuns := (List.range 24).foldl (fun m k => mapSet 0 m k ((runs[k]?).getD 0)) s.island.tjRuns } }
  if trip then tripMonitor s 0x0A07 else s

/-- The monitors' readings since the tick before (R481). -/
def readMonitors (s : State) (env : TickEnv) : State :=
  env.sensorSamples.foldl readSensors (env.vinSamples.foldl readVin s)

/-! The watchdog (R373). -/

/-- The end of the tick that the kicks belong to is judged, and the kicks of the next tick start. -/
def judgeWatchdog (s : State) : State :=
  let x := s.island
  let on := match x.wdtFrom with
    | some k => k ≤ x.wdtTick
    | none => false
  let s := s.raiseIf (on && (x.kicks != 1 || x.kickBad)) { code := 0x0A04, cls := 4 }
  { s with island := { s.island with kicks := 0, kickBad := false, wdtTick := x.wdtTick + 1 } }

/-- Judge the watchdog for each management tick that has ended since the last judgement. A tick lasts from its raise to the next
tick's raise, so a backward step, which raises none, ends none (R47, R373; DESIGN CHOICE, unsafe, log 44). -/
def judgeIfEnded (s : State) : State := forUpTo (s.time.ticks - s.island.wdtTick) (fun _ s => judgeWatchdog s) s

/-- SAFE_WDT.kick. -/
def kick (s : State) : State :=
  if s.bits Reg.safeWdt 9 0 = 0 then s
  else
    let s := judgeIfEnded s
    let off := s.now % mgmtTicks
    let inside := s.bits Reg.safeWdt 19 10 * 6400 ≤ off && off < s.bits Reg.safeWdt 9 0 * 6400
    { s with island := { s.island with kicks := s.island.kicks + 1, kickBad := s.island.kickBad || !inside } }

/-- WATCHDOG_KICK. -/
def execWatchdogKick (s : State) : Result := live s <| kick s

/-- The end of the tick comes, and the watchdog is judged (R373). -/
def execWatchdogExpiry (s : State) : Result := live s <|
  judgeIfEnded (if s.island.wdtTick < s.time.ticks then s else runUntil s ((s.tickNumber + 1) * mgmtTicks))

/-! The check plot's due time (R387, R390). -/

/-- TIME_NOW reaches a Furrow's latest start: its run is due and posted (R390). A step past several latest starts makes
the run due once. -/
def checkPlotDue (s : State) (n : Nat) : State :=
  let period := (s.reg Reg.safeCpPeriod).toNat
  if period = 0 ∨ 3 ≤ s.bits (Reg.furStatus n) 2 0 then s
  else
    let s := runUntil s (s.latestStart n (s.furrow n).run.nextK)
    let f := s.furrow n
    let s := s.setFurrow n { f with run := { f.run with
      due := true, nextK := (s.now - (s.reg (Reg.safeFurPhase n)).toNat) / period } }
    if (s.furrow n).run.active then s else postRun s n

/-- CHECK_PLOT_DUE. -/
def execCheckPlotDue (n : Nat) (s : State) : Result := live s <| withUnit s 64 n fun s n => checkPlotDue s n

end Sys2Proof.Machine
end

