-- ==== Sys2Proof/Machine/Validate.lean ====
section
/-! DEFINITION. The rules of the manual under which a setting fails harness validation or a buckle fasten (R413 check 8,
R421), evaluated over the device as it would stand. -/

namespace Sys2Proof.Machine

/-- A setting that a rule judges: a register, or a table entry by section, table and index. -/
inductive Setting where
  | reg (a : Nat)
  | table (sect tab idx : Nat)
  deriving DecidableEq, Repr

/-- A broken rule, as the settings it judges. -/
abbrev Broken := List Setting

/-- A rule that is broken under a condition. -/
def brokenIf (c : Bool) (xs : List Setting) : List Broken := if c then [xs] else []

/-- Every check of a range. -/
def forAll (n : Nat) (f : Nat → List Broken) : List Broken := (List.range n).flatMap f

/-! Rules of both the load and the fasten. -/

/-- FSYNC output n (R51). -/
def fsyncRules (s : State) (n : Nat) : List Broken :=
  brokenIf (s.bit (Reg.timeFsyncCtrl n) 16 && s.fsyncPeriod n < 6400) [.reg (Reg.timeFsyncPeriod n), .reg (Reg.timeFsyncCtrl n)]

/-- Bucket r of Field f (R218). -/
def yokeRules (s : State) (f r : Nat) : List Broken :=
  brokenIf (s.bits (Reg.yokeDepth f r) 20 0 < s.bits (Reg.yokeRate f r) 19 0)
    [.reg (Reg.yokeDepth f r), .reg (Reg.yokeRate f r)]

/-- Rein n's SH settings (R313, R320, R329, REIN_CH_CTRL). A period of 0 that no setting makes counts as not set on a rein with
mode off (DESIGN CHOICE, unsafe, log 21). -/
def reinRules (s : State) (n : Nat) : List Broken :=
  let c := (s.reg (Reg.reinChCtrl n)).toNat
  let period := s.bits (Reg.reinChPeriod n) 27 0
  let periodic := !bitOf c 26
  brokenIf (bitsOf c 28 27 == 3 || 2 ≤ bitsOf c 25 24 || bitsOf c 1 0 == 3) [.reg (Reg.reinChCtrl n)] ++
  brokenIf (period < 256 && period != 0) [.reg (Reg.reinChPeriod n)] ++
  brokenIf (periodic && period < 256 && bitsOf c 1 0 != 0)
    [.reg (Reg.reinChPeriod n), .reg (Reg.reinChCtrl n)] ++
  brokenIf (periodic && period != 0 && 4 * period ≤ s.bits (Reg.reinChRelease n) 23 0)
    [.reg (Reg.reinChRelease n), .reg (Reg.reinChPeriod n), .reg (Reg.reinChCtrl n)] ++
  brokenIf (s.sreg (Reg.reinChUmax n) < s.sreg (Reg.reinChUmin n)) [.reg (Reg.reinChUmin n), .reg (Reg.reinChUmax n)] ++
  brokenIf (s.sreg (Reg.reinChImax n) < s.sreg (Reg.reinChImin n)) [.reg (Reg.reinChImin n), .reg (Reg.reinChImax n)] ++
  brokenIf (s.sreg (Reg.reinChRate n) < 0) [.reg (Reg.reinChRate n)]

/-- A setting of a rein's period that leaves it below 256 (R313). -/
def periodBroken (s : State) (a : Nat) : Bool :=
  Reg.reinChPeriod 0 ≤ a && a < Reg.reinChPeriod 256 && (a - Reg.reinChPeriod 0) % 0x40 == 0 && s.bits a 27 0 < 256

/-- The watchdog's window (R373). -/
def watchdogRules (s : State) : List Broken :=
  let w := (s.reg Reg.safeWdt).toNat
  brokenIf (bitsOf w 9 0 != 0 && bitsOf w 9 0 ≤ bitsOf w 19 10) [.reg Reg.safeWdt]

/-- Martingale m (R394, R396): one with no setting counts as not set (DESIGN CHOICE, unsafe, log 21). -/
def martingaleRules (s : State) (m : Nat) : List Broken :=
  let c := (s.reg (Reg.safeMgCfg m)).toNat
  let set := bitOf c 31 || s.mgPeriod m != 0 || s.mgPhase m != 0 || s.mgWidth m != 0
  brokenIf (bitsOf c 30 29 == 3 || bitsOf c 7 4 == 0 || bitsOf c 3 0 < bitsOf c 7 4) [.reg (Reg.safeMgCfg m)] ++
  brokenIf (set && (s.mgPeriod m ≤ s.mgPhase m || s.mgPeriod m ≤ s.mgWidth m))
    [.reg (Reg.safeMgPeriod m), .reg (Reg.safeMgPhase m), .reg (Reg.safeMgWidth m), .reg (Reg.safeMgCfg m)]

/-- Chute c (R349). -/
def chuteRules (s : State) (c : Nat) : List Broken :=
  let v := (s.reg (Reg.chuteCfg c)).toNat
  brokenIf (bitsOf v 29 24 ≤ bitsOf v 23 18 || 32 < bitsOf v 29 24) [.reg (Reg.chuteCfg c)]

/-- Bridle channel c's mode (BRDL_CH_CTRL). -/
def bridleModeRules (s : State) (c : Nat) : List Broken :=
  brokenIf (s.bits (Reg.brdlChCtrl c) 1 0 == 3) [.reg (Reg.brdlChCtrl c)]

/-- A pipeline's live settings: a rounding mode of R71 and a shift of R289 (DESIGN CHOICE, unsafe, log 21). Any code of fmt_out passes:
no rule gives an outcome for one that is not UINT8, INT16 or FP16, and the pipeline narrows to it (DESIGN CHOICE, unsafe,
log 75). -/
def pipeRules (s : State) (p : Nat) : List Broken :=
  brokenIf (s.bits (Reg.intkPipeCtrl p) 30 29 == 3 || 8 < s.bits (Reg.intkPipeCtrl p) 28 25) [.reg (Reg.intkPipeCtrl p)]

/-- In the Fenced profile an enabled camera pipeline has an FSYNC binding with a period of 50 ms or less (R389). -/
def cameraRules (s : State) (p : Nat) : List Broken :=
  let f := s.entryAt 8 0 p 6 1
  brokenIf (s.hasEntry 8 0 p && s.entryAt 8 0 p 2 1 < 8 && s.bit (Reg.intkPipeCtrl p) 31 &&
      (15 < f || 320000000 < s.fsyncPeriod f))
    ([.reg (Reg.intkPipeCtrl p), .table 8 0 p, .table 12 0 0] ++ if f < 16 then [.reg (Reg.timeFsyncPeriod f)] else [])

/-- Every rule that fails both a load and a fasten. -/
def liveRules (s : State) (fenced : Bool) : List Broken :=
  forAll 16 (fsyncRules s) ++ forAll 8 (fun f => forAll 3 (yokeRules s f)) ++ forAll 256 (reinRules s) ++ watchdogRules s ++
  forAll 255 (fun i => martingaleRules s (i + 1)) ++ forAll 24 (chuteRules s) ++ forAll 8 (bridleModeRules s) ++
  forAll 16 (pipeRules s) ++ (if fenced then forAll 16 (cameraRules s) else [])

/-! Rules of the load alone. -/

/-- The CLOCK section (R40, R436). -/
def clockRules (s : State) : List Broken :=
  let d := s.entryAt 2 0 0 1 1
  brokenIf (s.hasEntry 2 0 0 && (!([5, 6, 8].contains d) || d < s.bits Reg.fusePart 15 12 || d != s.coreTicks)) [.table 2 0 0]

/-- The Furrow mask of a Field. -/
def State.furrowMask (s : State) (f : Nat) : Nat := s.reg64 (Reg.fldFurrowsLo f) (Reg.fldFurrowsHi f)

/-- The settings of the Furrow mask of a Field. -/
def maskSettings (f : Nat) : List Setting := [.reg (Reg.fldFurrowsLo f), .reg (Reg.fldFurrowsHi f)]

/-- A Furrow is in at most one Field (R27), a Field's hopper range overlaps no other and no system hopper (R192). -/
def fieldRules (s : State) (f : Nat) : List Broken :=
  let clash (g : Nat) : Bool := match s.hopperRange f, s.hopperRange g with
    | some (a, b), some (c, d) => a ≤ d && c ≤ b
    | _, _ => false
  let wrong := match s.hopperRange f with
    | some (a, b) => b < a || sysHopper ≤ b
    | none => false
  forAll f (fun g => brokenIf (Nat.land (s.furrowMask f) (s.furrowMask g) != 0) (maskSettings f ++ maskSettings g)) ++
  brokenIf (wrong || (List.range f).any clash) [.reg (Reg.fldHoppers f)]

/-- The virtual-channel weight of a configured Field (R275). -/
def weightRules (s : State) (f : Nat) : List Broken :=
  let w := s.bits (Reg.headVcWeight f) 3 0
  brokenIf (s.furrowMask f != 0 && (w == 0 || 8 < w)) (.reg (Reg.headVcWeight f) :: maskSettings f)

/-- The bucket bounds of a Furrow in a Field (R189). -/
def bucketRules (s : State) (n : Nat) : List Broken :=
  let u (k : Nat) : Nat := s.bits (Reg.furHwBucket n k) 22 0
  brokenIf ((List.range 8).any (fun f => bitOf (s.furrowMask f) n) &&
      ((List.range 7).any (fun k => u (k + 1) ≤ u k) || 4194304 < u 7))
    ((List.range 8).map fun k => .reg (Reg.furHwBucket n k))

/-- The first address of hopper h's state entry. -/
def hopperAddr (h : Nat) : Nat := 0x4800000000 + 32 * h

/-- n bytes from a lie in the Field range of a seedbed whose Furrow a mask names (R136). -/
def State.inFieldRange (s : State) (mask a n : Nat) : Bool :=
  match seedbedOf a with
  | some m => bitOf mask m && a % 0x400000 + n ≤ 0x3F0000 - s.headroom m
  | none => false

/-- A hopper's place: its Field's range, a Furrow of the Field, and its ring (R192 to R194). -/
def hopperRules (s : State) (h : Nat) (x : Hopper) : List Broken :=
  let ring := 64 * 2 ^ x.k
  let placed := s.inFieldDram x.field x.base ring || s.inFieldRange (s.furrowMask x.field) x.base ring
  brokenIf (x.enable && h < sysHopper &&
      !(s.hopperIn x.field h && bitOf (s.furrowMask x.field) x.furrow && 1 ≤ x.k && x.base % 64 == 0 && placed))
    [.reg (hopperAddr h), .reg (hopperAddr h + 4), .reg (Reg.fldHoppers x.field)]

/-- Slot k of Furrow n's table: its rows and its reader count (R128, R136). -/
def State.slotRows (s : State) (n k : Nat) : Option (Nat × Nat) :=
  if s.bit (Reg.furSbSlotRange n k) 0 then
    some (s.bits (Reg.furSbSlotRange n k) 16 2, s.bits (Reg.furSbSlotRange n k) 31 17)
  else none

/-- The slots of Furrow n whose FUR_SB_SLOT_RANGE is listed; an unlisted one holds its reset value, so its slot is not
valid. -/
def State.listedSlots (s : State) (n : Nat) : List Nat :=
  s.regs.filterMap fun (a, _) =>
    let off := a - Reg.furSbSlotRange n 0
    if Reg.furSbSlotRange n 0 ≤ a && off < 2048 && off % 8 == 0 then some (off / 8) else none

/-- The slots of Furrow n lie outside the system slice and do not overlap; the headroom is within its range. -/
def seedbedRules (s : State) (n : Nat) : List Broken :=
  let slots := (s.listedSlots n).filterMap fun k => (s.slotRows n k).map fun r => (k, r)
  brokenIf (32 < s.bits (Reg.furSbCtrl n) 20 15) [.reg (Reg.furSbCtrl n)] ++
  slots.flatMap fun (k, (a, b)) =>
    brokenIf (b < a || 32256 ≤ b || s.bits (Reg.furSbSlotGen n k) 23 20 == 0 ||
        slots.any fun (j, (c, d)) => j < k && a ≤ d && c ≤ b)
      [.reg (Reg.furSbSlotRange n k), .reg (Reg.furSbSlotGen n k)]

/-- A DRAM_MAP region (R408). -/
def regionRules (s : State) (i : Nat) : List Broken :=
  brokenIf (s.hasEntry 7 1 i && (s.entryAt 7 1 i 8 8 % 4096 != 0 || (s.entryAt 7 1 i 16 8 + 1) % 4096 != 0)) [.table 7 1 i]

/-- A source slot of a rein (R305). -/
def sourceRules (s : State) (a : Nat) : List Broken :=
  let d := (s.reg a).toNat
  let kind := bitsOf d 31 29
  let w := bitsOf d 4 0 + 1
  let last := match kind with
    | 3 => 11
    | 4 => 2047
    | _ => 255
  let lastSel := match kind with
    | 2 => 5
    | 3 => 7
    | _ => 63
  brokenIf (6 ≤ kind || (2 ≤ kind && (last < bitsOf d 27 17 || lastSel < bitsOf d 16 11)) || 64 < bitsOf d 10 5 + w ||
      (!bitOf d 28 && w == 32)) [.reg a]

/-- The reins that rein n names as kind-5 sources. -/
def State.sourcesOf (s : State) (n : Nat) : List Nat :=
  [Reg.reinChSrcSp n, Reg.reinChSrcPv n, Reg.reinChSrcFf n].filterMap fun a =>
    if s.bits a 31 29 = 5 then some (s.bits a 27 17) else none

/-- The reins of the longest chain that ends at rein n, counted up to `fuel`. -/
def State.chainDepth (s : State) : Nat → Nat → Nat
  | 0, _ => 0
  | fuel + 1, n => 1 + (s.sourcesOf n).foldl (fun d m => max d (s.chainDepth fuel m)) 0

/-- A rein's bindings (R305, R314, R326, R328, R342). -/
def reinLoadRules (s : State) (n : Nat) : List Broken :=
  let slots := [Reg.reinChSrcPv n, Reg.reinChSrcSp n, Reg.reinChSrcFf n]
  let trig := (slots[s.bits (Reg.reinChCtrl n) 28 27]?).getD 0
  let d := (s.reg (Reg.reinChDest n)).toNat
  let chute := Reg.chuteCfg (2 * bitsOf d 29 26 + 1)
  slots.flatMap (sourceRules s) ++
  brokenIf (s.bit (Reg.reinChCtrl n) 26 && s.bits trig 31 29 < 2) [.reg trig, .reg (Reg.reinChCtrl n)] ++
  brokenIf (4 < s.chainDepth 5 n) (slots.map .reg) ++
  brokenIf (bitsOf d 31 30 == 3 || 64 < bitsOf d 11 6 + bitsOf d 4 0 + 1 || (bitsOf d 31 30 == 1 && 11 < bitsOf d 29 26) ||
      (bitsOf d 31 30 == 2 && 7 < bitsOf d 29 26)) [.reg (Reg.reinChDest n)] ++
  brokenIf (bitsOf d 31 30 == 1 && bitsOf d 29 26 ≤ 11 && s.bits chute 3 0 != 1) [.reg (Reg.reinChDest n), .reg chute]

/-- The options of a Bridle channel (R351, R352). -/
def bridleRules (s : State) (c : Nat) : List Broken :=
  let proto := s.bits (Reg.brdlChCtrl c) 3 2
  let n := Reg.brdlChNbt c
  let d := Reg.brdlChDbt c
  let nq := s.bits n 23 16 + s.bits n 15 9 + 3
  let dq := s.bits d 26 21 + s.bits d 20 16 + 3
  let on := (s.reg n) != 0 || s.bits (Reg.brdlChCtrl c) 1 0 != 0
  brokenIf (proto == 3) [.reg (Reg.brdlChCtrl c)] ++
  brokenIf (on && (nq < 8 || nq * (s.bits n 31 24 + 1) < 200 || s.bits n 23 16 == 0)) [.reg n] ++
  brokenIf (on && proto != 0 && (dq < 10 || (proto == 1 && dq * (s.bits d 31 27 + 1) < 25))) [.reg d]

/-- A channel supports frames of a kind and identifier: the kind enabled, base identifiers and priority IDs of 11 bits, extended ones
of 29 (R351). -/
def State.frameOk (s : State) (c kind ident : Nat) : Bool :=
  s.kindEnabled c kind && ident < (if kind = 1 ∨ kind = 3 then 2 ^ 29 else 2 ^ 11)

/-- The safe-state frames of channel c are ones it can send (R351, R361, R364). -/
def safeFrameRules (s : State) (c : Nat) : List Broken :=
  forAll 4 fun k =>
    let e := s.entry 10 1 (4 * c + k)
    let d := slice e 8 16
    let kind := leAt d 0 4 / 2 ^ 29
    brokenIf (e != [] && !(s.frameOk c kind (leAt d 0 4 % 2 ^ 29) && lengthOk kind (leAt d 8 2) && leAt d 13 1 == 0 && leAt d 12 1 < 4))
      [.table 10 1 (4 * c + k), .reg (Reg.brdlChCtrl c)]

/-- The packet lengths of chute c: 1 to 8 words where it is used, for a transmit chute that sends or a bound receive chute (R310,
R342). -/
def lengthRules (s : State) (c : Nat) : List Broken :=
  let l := s.bits (Reg.chuteCfg c) 3 0
  brokenIf (8 < l || (l == 0 && s.bit (Reg.chuteCfg c) 31)) [.reg (Reg.chuteCfg c)]

/-- Acceptance entries: no key twice on one channel, no object twice (R354), kinds and identifiers that the channel supports (R351).
CAN XL keys are identifier and VCID. -/
def acceptanceRules (s : State) : List Broken :=
  let es := (List.range 4096).filterMap fun i =>
    let e := s.entry 10 0 i
    if e = [] then none else some (i, e)
  es.flatMap fun (i, e) =>
    let key (e : List Byte) : List Nat :=
      [leAt e 1 1, leAt e 2 1, leAt e 4 4, if leAt e 2 1 = 4 then leAt e 3 1 else 0]
    brokenIf (7 < leAt e 1 1 || !s.frameOk (leAt e 1 1) (leAt e 2 1) (leAt e 4 4) || 2047 < leAt e 8 2 ||
      es.any fun (j, f) => j < i && (key e == key f || leAt e 8 2 == leAt f 8 2)) [.table 10 0 i]

/-- An expert's receive buffers on this chip hold 16 regions (R245). -/
def expertRules (s : State) (e : Nat) : List Broken :=
  (List.range 16).flatMap fun c =>
    let x := s.expertEntry e c
    let room := 16 * regionBytes (s.quotaMax e) (leAt x 10 2)
    let small (chip buffer : Nat) : Bool := chip == s.chipId && s.hasEntry 0xD 2 buffer && s.entryAt 0xD 2 buffer 8 4 < room
    brokenIf (x != [] && (small (leAt x 1 1) (leAt x 4 2) || small (leAt x 2 1) (leAt x 6 2))) [.table 0xE 0 (16 * e + c)]

/-- The check plot's timing and the run's budgets (R389); the profile's watchdog (R373). -/
def State.runBudget (s : State) (n : Nat) : Nat :=
  let x := s.hopper (sysHopper + n)
  let slot (i : Nat) : Nat := x.base + 64 * (i % 2 ^ x.k)
  let (first, m) := match s.lastOfRun (slot (x.head + 65535)) with
    | some j => (x.head + 65535 - j, j + 1)
    | none => (x.head, (s.runEnd x x.head 8).getD 0)
  sumNat ((List.range m).map fun i => (s.descAt (slot (first + i))).budget)

/-- The SAFETY section's values (R373, R389). -/
def safetyRules (s : State) (fenced : Bool) : List Broken :=
  let p := (s.reg Reg.safeCpPeriod).toNat
  let budget := (List.range 64).foldl (fun b n => max b (s.runBudget n)) 0
  brokenIf (p < 64000000 || 320000000 < p || p / (100 * max s.coreTicks 1) < budget) [.reg Reg.safeCpPeriod] ++
  brokenIf (6400000 < (s.reg Reg.safeCpWindow).toNat) [.reg Reg.safeCpWindow] ++
  forAll 64 (fun n => brokenIf (p ≤ (s.reg (Reg.safeFurPhase n)).toNat) [.reg (Reg.safeFurPhase n), .reg Reg.safeCpPeriod]) ++
  brokenIf (fenced && s.bits Reg.safeWdt 9 0 == 0) [.table 12 0 0, .reg Reg.safeWdt]

end Sys2Proof.Machine
end

