-- ==== Sys2Proof/Machine/Buckle.lean ====
section
/-! DEFINITION. Buckle transactions (R19, R417 to R424): shadows and locks, the fasten checks, boundaries, commit and
slip, and what each mechanism does at a commit. -/

namespace Sys2Proof.Machine

/-- Requester r's transaction. -/
def State.buckle (s : State) (r : Nat) : Buckle := mapGet {} s.buckles r

/-- Replace requester r's transaction. -/
def State.setBuckle (s : State) (r : Nat) (b : Buckle) : State := { s with buckles := mapSet {} s.buckles r b }

/-- The requester set of R417. -/
def buckleOf : Requester → Option Nat
  | .reeve => some 0
  | .mgmt => some 1
  | .field f => if f < 8 then some (2 + f) else none
  | .loader => some 10
  | _ => none

/-- BKL_STATUS.state: 0 idle, 1 open, 2 fastening. -/
def State.buckleState (s : State) (r : Nat) : Nat := s.bits (Reg.bklStatus r) 31 30

/-- Record a 0x0B2x cause of set r with an id (R434). -/
def buckleCause (s : State) (r cause id : Nat) : State :=
  (s.setBits (Reg.bklStatus r) 23 16 cause).raise { code := 0x0B00 + cause, cls := 0, inst := r, info := some id }

/-- The id of a set's transaction. -/
def State.buckleId (s : State) (r : Nat) : Nat := s.bits (Reg.bklStatus r) 15 0

/-- A kind 1 load is busy (R415). -/
def State.kind1Busy (s : State) : Bool := s.bit Reg.hrnsStatus 31 && s.bits Reg.hrnsStatus 28 27 == 1

/-- BKL_CMD OPEN (R419). -/
def openBuckle (s : State) (r id : Nat) : State :=
  if s.buckleState r ≠ 0 ∨ id = 0 ∨ s.kind1Busy then buckleCause s r 0x20 id
  else
    let s := s.setBuckle r { openTick := s.now }
    let s := ((s.setBits (Reg.bklStatus r) 31 30 1).setBits (Reg.bklStatus r) 15 0 id).setBit (Reg.bklStatus r) 25 false
    (s.setReg64 (Reg.bklFailLo r) (Reg.bklFailHi r) 0).setReg (Reg.bklInfo r) 0

/-- BUCKLE_OPEN. -/
def execBuckleOpen (r id : Nat) (s : State) : Result := live s <| withUnit s 11 r fun s r => withUnit s 65536 id fun s id =>
  openBuckle s r id

/-- Record the first dropped or failing address of a transaction. -/
def failAddress (s : State) (r a : Nat) : State :=
  let b := s.buckle r
  let s := if b.failCount = 0 then s.setReg64 (Reg.bklFailLo r) (Reg.bklFailHi r) a else s
  s.setBuckle r { b with failCount := b.failCount + 1 }

/-- A dropped write: cause 0x21, and the transaction is failed (R418, R420). -/
def dropShadow (s : State) (r a : Nat) : State :=
  failAddress ((buckleCause s r 0x21 (s.buckleId r)).setBit (Reg.bklStatus r) 25 true) r a

/-- A register is locked to another transaction (R420). -/
def State.lockedFor (s : State) (r a : Nat) : Bool :=
  s.buckles.any fun (k, b) => k != r && (mapFind b.shadows a).isSome

/-- A requester set may shadow a register (R418). -/
def State.mayShadow (s : State) (r a : Nat) : Bool :=
  if 2 ≤ r ∧ r ≤ 9 then (List.range 64).any fun n => a == Reg.furSbCtrl n && s.fieldOf n == some (r - 2) else true

/-- Shadow the SH bits of a write, bit by bit (R420). -/
def shadowWrite (s : State) (r a : Nat) (mask value : Word) : State :=
  let b := s.buckle r
  if !s.mayShadow r a || s.lockedFor r a || ((mapFind b.shadows a).isNone && 256 ≤ b.shadows.length) then dropShadow s r a
  else
    let (m, v) := (mapFind b.shadows a).getD (0, 0)
    let sh := mapInsert b.shadows a (m ||| mask, (v &&& ~~~mask) ||| (value &&& mask))
    (s.setBuckle r { b with shadows := sh }).setBits (Reg.bklInfo r) 8 0 sh.length

/-- The SH bits of a register write by a requester (R19, R420): shadowed in its open transaction, otherwise without effect
and recorded when they differ from the active value. -/
def writeShBits (s : State) (req : Requester) (a : Nat) (mask value : Word) : State :=
  if mask = 0 then s
  else
    let refuse (s : State) : State :=
      if (value ^^^ s.reg a) &&& mask = 0 then s
      else match buckleOf req with
        | some r => buckleCause s r 0x26 0
        | none => s.raise { code := 0x0B26, cls := 0, inst := 0 }
    match buckleOf req with
    | some r => if s.buckleState r = 1 then shadowWrite s r a mask value else refuse s
    | none => refuse s

/-! What each mechanism does at a commit (R422). -/

/-- A register differs between two states. -/
def differ (s0 s : State) (a : Nat) : Bool := s0.reg a != s.reg a

/-- The edges of output n's old schedule that TIME_NOW has reached have fired (log 59). -/
def fireOld (s0 s : State) (n : Nat) : State :=
  if s.fsync n = s0.fsync n then
    let t := fireReached s0 n
    { s.setFsync n (t.fsync n) with outbox := s.outbox ++ t.outbox.drop s0.outbox.length }
  else s

/-- FSYNC output n: a new start, period or enable counts from this tick on. R51 names the fastening tick: the model takes
it as the tick at which the settings become active, so no edge of the new schedule is past when it is armed (R45; DEDUCED, unsafe,
log 62). -/
def commitFsync (s0 s : State) (n : Nat) : State :=
  if differ s0 s (Reg.timeFsyncStartLo n) || differ s0 s (Reg.timeFsyncStartHi n) || differ s0 s (Reg.timeFsyncPeriod n) ||
      s0.bit (Reg.timeFsyncCtrl n) 16 != s.bit (Reg.timeFsyncCtrl n) 16 then
    let s := fireOld s0 s n
    s.setFsync n { s.fsync n with start := s.now }
  else s

/-- Rein n: a new schedule's due ticks count from this tick on, and so do those of a rein that is enabled: a due tick reached
while it was off made it not due (R313; DEDUCED, unsafe, log 77). -/
def commitSchedule (s0 s : State) (n : Nat) : State :=
  if differ s0 s (Reg.reinChPeriod n) || differ s0 s (Reg.reinChPhase n) ||
      (s0.bit (Reg.reinChCtrl n) 26 && !s.bit (Reg.reinChCtrl n) 26) || (!s0.reinOn n && s.reinOn n) then
    s.setRein n { s.reinRec n with dueFrom := s.now }
  else s

/-- REIN_CH_CTRL.rearm: it waits for the next issue of a rein in Curb or safe outside safe state, otherwise it is refused
(R322). -/
def commitRearm (s : State) (n : Nat) : State :=
  if !s.bit (Reg.reinChCtrl n) 31 then s
  else
    let s := s.setBit (Reg.reinChCtrl n) 31 false
    if s.safe || s.reinState n < 3 then s.raise { code := 0x070B, cls := 0, inst := n }
    else s.setRein n { s.reinRec n with rearm := true }

/-- Martingale m: enabled or with new timing it restarts; disabled, its open window is discarded (R397). -/
def commitMartingale (s0 s : State) (m : Nat) : State :=
  if !s.mgOn m then s.setBits (Reg.safeMgStatus m) 3 0 0
  else if !s0.mgOn m || differ s0 s (Reg.safeMgPeriod m) || differ s0 s (Reg.safeMgPhase m) ||
      differ s0 s (Reg.safeMgWidth m) then restartMartingale s m
  else s

/-- The watchdog: the ticks that have ended are judged by the old settings; a close that becomes non-zero is judged from the next
whole tick on, and the tick in which it becomes 0 is not judged (R373). -/
def commitWatchdog (s0 s : State) : State :=
  let old := s0.bits Reg.safeWdt 9 0
  let new := s.bits Reg.safeWdt 9 0
  let s := judgeIfEnded s
  if new = 0 then { s with island := { s.island with wdtFrom := none } }
  else if old = 0 then { s with island := { s.island with wdtFrom := some (s.time.ticks + 1) } }
  else s

/-- An Intake pipeline whose enable is written 1 leaves halted (R299). -/
def commitPipe (s : State) (p : Nat) : State :=
  if s.bit (Reg.intkPipeCtrl p) 31 then
    { s with intake := mapSet {} s.intake p { mapGet {} s.intake p with halted := false } }
  else s

/-- DROVE_PEER.fenced is set by hardware alone, and a written 0 lets the peer rejoin (R242, R244). -/
def commitPeer (s0 s : State) (p : Nat) : State :=
  let was := s0.isFenced p
  let now := s.isFenced p
  let s := s.setBit (Reg.drovePeer p) 2 was
  if was && !now then rejoin s p else s

/-- The effects at a commit of the register at address a beside its new value. -/
def commitEffect (s0 : State) (mask : Word) (s : State) (a : Nat) : State :=
  let unit (base stride count : Nat) : Option Nat :=
    if base ≤ a ∧ a < base + stride * count then some ((a - base) / stride) else none
  let s := match unit (Reg.timeFsyncStartLo 0) 0x10 16 with
    | some n => commitFsync s0 s n
    | none => s
  let s := match unit (Reg.reinChCtrl 0) 0x40 256 with
    | some n => if mask.getLsbD 31 && a == Reg.reinChCtrl n then commitRearm (commitSchedule s0 s n) n
                else commitSchedule s0 s n
    | none => s
  let s := match unit (Reg.reinChSrcSp 0) 0x40 256 with
    | some n => commitSchedule s0 s n
    | none => s
  let s := match unit (Reg.safeMgCfg 0) 0x20 256 with
    | some m => commitMartingale s0 s m
    | none => s
  let s := match unit (Reg.intkPipeCtrl 0) 0x40 16 with
    | some p => if a = Reg.intkPipeCtrl p ∧ mask.getLsbD 31 then commitPipe s p else s
    | none => s
  let s := match unit (Reg.chuteCfg 0) 0x20 24 with
    | some c => s.setChute c (s.chute c)
    | none => s
  let s := match unit (Reg.drovePeer 0) 4 16 with
    | some p => if mask.getLsbD 2 then commitPeer s0 s p else s
    | none => s
  let s := if a = Reg.safeWdt then commitWatchdog s0 s else s
  if a = Reg.safeCtrl ∧ s.bit Reg.safeCtrl 1 then leaveSafe (s.setBit Reg.safeCtrl 1 false) else s

/-- Make settings active in one cycle, then let each mechanism take them (R416, R422). -/
def applySettings (s : State) (xs : List (Nat × Word × Word)) : State :=
  let t := xs.foldl (fun s (a, m, v) => s.setReg a ((s.reg a &&& ~~~m) ||| (v &&& m))) s
  xs.foldl (fun t (a, m, _) => commitEffect s m t a) t

/-! Fasten, commit and slip (R421 to R423). -/

/-- A load has ended: HRNS_STATUS and its vector (R416, R430). -/
def endLoad (s : State) (result : Nat) : State :=
  let s := (s.setBit Reg.hrnsStatus 31 false).setBit Reg.hrnsStatus 29 true
  (s.setBits Reg.hrnsStatus 26 25 result).notify 0 5

/-- The serial and the build identifier of the staged image become those of the last applied one. -/
def recordImage (s : State) : State :=
  let img := s.loader.staging
  let s := s.setReg Reg.hrnsSerial (BitVec.ofNat 32 (leAt img 12 4))
  forUpTo 4 (fun k s => s.setReg (Reg.hrnsBuild k) (BitVec.ofNat 32 (leAt img (32 + 4 * k) 4))) s

/-- A transaction ends: its locks are released, the cause is recorded with its id (R422, R423). -/
def endBuckle (s : State) (r outcome cause : Nat) : State :=
  let id := s.buckleId r
  let s := (s.setBits (Reg.bklStatus r) 31 30 0).setBits (Reg.bklStatus r) 29 27 outcome
  let s := ((s.setBit (Reg.bklStatus r) 26 true).setBit (Reg.bklStatus r) 25 false).setReg (Reg.bklInfo r) 0
  let s := buckleCause (s.setBuckle r {}) r cause id
  if r = 1 then s.notify 0 2
  else if 2 ≤ r ∧ r ≤ 9 then s.notify (r - 1) 2
  else if r = 10 then
    let s := s.setBits Reg.hrnsStatus 23 16 cause
    if outcome = 1 then endLoad (recordImage s) 1 else endLoad s 3
  else s

/-- The device as it would stand with a transaction's shadows laid over the active values. -/
def State.overlaid (s : State) (b : Buckle) : State :=
  { s with regs := (b.shadows.foldl (fun s (a, (m, v)) => s.setReg a ((s.reg a &&& ~~~m) ||| (v &&& m))) s).regs }

/-- The first setting of the transaction that breaks a rule (R421). -/
def State.brokenShadow (s : State) (b : Buckle) : Option Nat :=
  let mine : Setting → Option Nat
    | .reg a => if (mapFind b.shadows a).isSome then some a else none
    | .table _ _ _ => none
  let t := s.overlaid b
  match (liveRules t s.fenced).findSome? fun xs => xs.findSome? mine with
  | some a => some a
  | none => (b.shadows.find? fun (a, _) => periodBroken t a).map (·.1)

/-- The checks of a fasten, made again at the commit (R421): the transaction's state, or its refusal noted. -/
def fastenChecks (s : State) (r boundary target : Nat) : Bool × State :=
  let b := s.buckle r
  if s.bit (Reg.bklStatus r) 25 || (boundary == 1 && !s.reinOn target) ||
      (boundary == 3 && (16 ≤ target || s.bits (Reg.intkPipeCtrl target) 3 0 == 15)) then (false, s)
  else
    match s.brokenShadow b with
    | some a => (false, failAddress s r a)
    | none => (true, s)

/-- BKL_CMD FASTEN (R421); without an open transaction it is refused and changes nothing else (DESIGN CHOICE, unsafe,
log 21). -/
def fasten (s : State) (r boundary target : Nat) : State :=
  if s.buckleState r ≠ 1 then buckleCause s r 0x22 (s.buckleId r)
  else
    match fastenChecks s r boundary target with
    | (false, s) => endBuckle s r 4 0x22
    | (true, s) =>
      let b := s.buckle r
      let s := s.setBuckle r { b with boundary := boundary, target := target }
      let leave := (mapFind b.shadows Reg.safeCtrl).isSome
      let s := if leave then { s with island := { s.island with f4Since := false } } else s
      s.setBits (Reg.bklStatus r) 31 30 2

/-- BUCKLE_FASTEN. -/
def execBuckleFasten (r boundary target : Nat) (s : State) : Result := live s <|
  withUnit s 11 r fun s r => withUnit s 4 boundary fun s boundary => withUnit s 256 target fun s target =>
  fasten s r boundary target

/-- Slip a transaction that is open or fastening (R423). -/
def slip (s : State) (r outcome cause : Nat) : State := if s.buckleState r = 0 then s else endBuckle s r outcome cause

/-- The boundary of a fastening transaction has come: every shadow becomes active, or the repeated checks slip it (R421,
R422). -/
def commit (s : State) (r : Nat) : State :=
  if s.buckleState r ≠ 2 then s
  else
    let b := s.buckle r
    match fastenChecks s r b.boundary b.target with
    | (false, s) => endBuckle s r 4 0x24
    | (true, s) => endBuckle (applySettings s (b.shadows.map fun (a, (m, v)) => (a, m, v))) r 1 0x25

/-- Commit every transaction fastened at a boundary and its target. -/
def commitAt (s : State) (boundary target : Nat) : State :=
  forUpTo 11 (fun r s =>
    if s.buckleState r = 2 ∧ (s.buckle r).boundary = boundary ∧ (boundary = 2 ∨ (s.buckle r).target = target) then commit s r
    else s) s

/-- The tick of a fastening transaction's boundary, where a schedule gives it. -/
def State.boundaryTick (s : State) (b : Buckle) : Nat :=
  match b.boundary with
  | 2 => if 0 < s.time.ticksDue then s.now else (s.tickNumber + 1) * mgmtTicks
  | _ => s.now

/-- The cycle in which TIME_NOW reaches a tick at the present rate: this one where it has. -/
def State.cycleOf (s : State) (t : Nat) : Nat := s.time.cycles + s.cyclesFor (t - s.now)

/-- The due ticks of rein m that can contend with an issue allowed from cycle c on: those less than 256 cycles before it or after
it, none where the rein is not periodic (R313). -/
def State.contendingDues (s : State) (m c : Nat) : List Nat :=
  if s.reinOn m && !s.bit (Reg.reinChCtrl m) 26 && s.bits (Reg.reinChPeriod m) 27 0 != 0 then
    let back := s.now + 4 * (c - 255 - s.time.cycles)
    let d := s.nextDue m (max (s.reinRec m).dueFrom back)
    [d, d + 4 * s.bits (Reg.reinChPeriod m) 27 0]
  else []

/-- The first cycle at or after c that no earlier issue takes. -/
def freeCycle : Nat → List Nat → Nat → Nat
  | 0, _, c => c
  | fuel + 1, taken, c => if taken.contains c then freeCycle fuel taken (c + 1) else c

/-- The cycles that the reins below n take, in ascending rein number, each in the first cycle it may issue that no lower one takes
(R315). -/
def State.takenBelow (s : State) (n c : Nat) : List Nat :=
  forUpTo n (fun m taken =>
    let start := if (s.reinRec m).pending then [s.time.cycles] else []
    let wanted := start ++ (s.contendingDues m c).map s.cycleOf
    (wanted.foldl (fun (own, ts) w =>
      let i := freeCycle 512 ts (max own w)
      (i + 256, i :: ts)) (s.ownCycle m, taken)).2) []

/-- The cycle from which rein n may issue, where its trigger has come or its schedule gives it. -/
def State.allowedCycle (s : State) (n : Nat) : Option Nat :=
  if (s.reinRec n).pending then some (s.ownCycle n)
  else if !s.bit (Reg.reinChCtrl n) 26 && s.bits (Reg.reinChPeriod n) 27 0 != 0 then
    some (max (s.cycleOf (s.nextDue n (s.reinRec n).dueFrom)) (s.ownCycle n))
  else none

/-- The cycle before the target's next issue, which waits for the lower-numbered reins ahead of it (R315, R318): none before the
arrival that triggers it, or once the Rein engine is silent. -/
def State.sampleCycle (s : State) (n : Nat) : Option Nat :=
  if s.rein.silent then none
  else (s.allowedCycle n).map fun c => freeCycle 512 (s.takenBelow n c) c - 1

/-- The clock runs to a fastening transaction's boundary, where a schedule gives it. -/
def State.toBoundary (s : State) (b : Buckle) : State :=
  if b.boundary = 1 then runToCycle s ((s.sampleCycle b.target).getD s.time.cycles) else runUntil s (s.boundaryTick b)

/-- A slip due at a tick: a fastening transaction whose commit falls no later takes effect instead (R423). The immediate
boundary is the next cycle of CLK_MGMT, the first in which the set can take another command (DEDUCED, unsafe, log 13). -/
def slipOrCommit (s : State) (r outcome cause due : Nat) : State :=
  let b := s.buckle r
  let slipped := slip (runUntil s due) r outcome cause
  if s.buckleState r ≠ 2 then slipped
  else
    match b.boundary with
    | 0 => commit s r
    | 1 =>
      match s.sampleCycle b.target with
      | some c => if c ≤ s.cycleOf due then commit (runToCycle s c) r else slipped
      | none => slipped
    | 2 => if s.boundaryTick b ≤ max due s.now then commit (runUntil s (s.boundaryTick b)) r else slipped
    | _ => slipped

/-- BKL_CMD SLIP (R423). -/
def requestSlip (s : State) (r : Nat) : State := if s.buckleState r = 0 then s else slipOrCommit s r 2 0x27 s.now

/-- BUCKLE_SLIP. -/
def execBuckleSlip (r : Nat) (s : State) : Result := live s <| withUnit s 11 r fun s r => requestSlip s r

/-- 100 ms have passed since the OPEN (R423). -/
def buckleTimeout (s : State) (r : Nat) : State :=
  if s.buckleState r = 0 then s else slipOrCommit s r 3 0x23 ((s.buckle r).openTick + 640000000)

/-- BUCKLE_TIMEOUT. -/
def execBuckleTimeout (r : Nat) (s : State) : Result := live s <| withUnit s 11 r fun s r => buckleTimeout s r

/-- BUCKLE_COMMIT: the boundary comes (R422); a boundary that a schedule gives runs the clock to it (DESIGN CHOICE,
unsafe, log 13). -/
def execBuckleCommit (r : Nat) (s : State) : Result := live s <|
  withUnit s 11 r fun s r => if s.buckleState r = 2 then commit (s.toBoundary (s.buckle r)) r else s

/-- A transaction is fastened at rein n's next issue. -/
def State.fastenedAt (s : State) (n : Nat) : Bool :=
  (List.range 11).any fun r => s.buckleState r == 2 && (s.buckle r).boundary == 1 && (s.buckle r).target == n

/-- The cycle before an issue of rein n in cycle c comes, and the transactions fastened at it commit there (R318). An issue whose
command comes so late that the cycle before it has gone by is made one cycle later (DESIGN CHOICE, unsafe, log 13). -/
def commitBefore (s : State) (c n : Nat) : State :=
  if s.fastenedAt n then runToCycle (commitAt (runToCycle s (c - 1)) 1 n) (max c (s.time.cycles + 1)) else runToCycle s c

/-- The arbiter issues a rein (R315 to R319); transactions fastened at its next issue commit in the cycle before (R318). -/
def execReinIssue (s : State) : Result := live s <|
  match s.nextIssue with
    | some (c, n) => issueRein (commitBefore s c n) n
    | none => s

/-- The transactions fastened at rein n's next issue commit before its due tick where the issue comes in the cycle of it. -/
def commitAhead (s : State) (n : Nat) : State :=
  match s.sampleCycle n with
  | some c =>
    if s.fastenedAt n && !(s.reinRec n).pending && c < s.cycleOf (s.nextDue n (s.reinRec n).dueFrom) then
      commitAt (runToCycle s c) 1 n
    else s
  | none => s

/-- TIME_NOW reaches a periodic rein's due tick (R313). -/
def execReinPeriodicDue (n : Nat) (s : State) : Result := live s <| withUnit s 256 n fun s n =>
  periodicDue (commitAhead s n) n

end Sys2Proof.Machine
end

