-- ==== Sys2Proof/Machine/Intake.lean ====
section
/-! DEFINITION. The Intake (spec 11_intake.md): pipelines, CSI-2 packets, pre-processing, delivery, provenance tags, the
check row and sensor Ethernet. -/

namespace Sys2Proof.Machine

/-- Pipeline p besides its registers. -/
def State.pipe (s : State) (p : Nat) : IntakePipe := mapGet {} s.intake p

/-- Replace pipeline p. -/
def State.setPipe (s : State) (p : Nat) (x : IntakePipe) : State := { s with intake := mapSet {} s.intake p x }

/-! Harness settings of a pipeline (R408 INTAKE). -/

/-- A field of pipeline p's INTAKE table 0 entry. -/
def State.pipeAt (s : State) (p off n : Nat) : Nat := s.entryAt 8 0 p off n

/-- A field of pipeline p's stream match, INTAKE table 3. -/
def State.streamAt (s : State) (p off n : Nat) : Nat := s.entryAt 8 3 p off n

/-- The destination Field. -/
def State.pipeField (s : State) (p : Nat) : Nat := s.pipeAt p 1 1

/-- The pipeline takes an Ethernet stream. -/
def State.pipeEthernet (s : State) (p : Nat) : Bool := 8 ≤ s.pipeAt p 2 1

/-- RGB mode. -/
def State.pipeRgb (s : State) (p : Nat) : Bool := s.bit (Reg.intkPipeCtrl p) 18 && !s.pipeEthernet p

/-- The scale factor f (R288). -/
def State.pipeScale (s : State) (p : Nat) : Nat := if s.pipeEthernet p then 1 else 2 ^ min 2 (s.bits (Reg.intkPipeCtrl p) 20 19)

/-- The output format. -/
def State.pipeFmt (s : State) (p : Nat) : Nat := if s.pipeEthernet p then 2 else s.bits (Reg.intkPipeCtrl p) 24 21

/-- Channels C. -/
def State.pipeChannels (s : State) (p : Nat) : Nat := if s.pipeRgb p then 3 else 1

/-- Output rows Ho: lines over f, or the rows of a group (R288, R301). -/
def State.pipeRows (s : State) (p : Nat) : Nat :=
  if s.pipeEthernet p then s.streamAt p 28 4 else s.pipeAt p 14 2 / s.pipeScale p

/-- Bytes of an output row from its first pixel to its last. -/
def State.pipeRowBytes (s : State) (p : Nat) : Nat :=
  if s.pipeEthernet p then s.streamAt p 24 4
  else rowBytes (fmtWidth (s.pipeFmt p)) (s.pipeAt p 12 2 / s.pipeScale p * s.pipeChannels p)

/-- Bits of a RAW data type's pixel (R282). -/
def rawDepth (dataType : Nat) : Nat :=
  match dataType with
  | 0x2A => 8
  | 0x2B => 10
  | 0x2C => 12
  | 0x2D => 14
  | _ => 16

/-- Buffers B. -/
def State.pipeBuffers (s : State) (p : Nat) : Nat := max 1 (s.pipeAt p 9 1)

/-- The trigger hoppers with their slot and post count (R292). -/
def State.triggers (s : State) (p : Nat) : List (Nat × Nat × Nat) :=
  (List.range 4).filterMap fun i =>
    let h := s.pipeAt p (48 + 2 * i) 2
    if h = 0xFFFF then none else some (i, h, s.pipeAt p (56 + i) 1)

/-- Band j: its first and last output row (R290). -/
def State.band (s : State) (p j : Nat) : Nat × Nat :=
  let bl := s.pipeAt p 36 4
  let ov := s.pipeAt p 8 1
  (j * bl - ov, min ((j + 1) * bl + ov) (s.pipeRows p) - 1)

/-- The seedbed address that a base names in a Furrow: a device address in its seedbed, or an offset (DESIGN CHOICE,
PRESUMED, unsafe, log 22). -/
def seedAddr (furrow base : Nat) : Nat := seedbedBase furrow + base % 0x1000000

/-- The address of buffer x of band j. -/
def State.bandBase (s : State) (p j x : Nat) : Nat :=
  let e := s.entry 8 1 (8 * p + j)
  seedAddr (leAt e 1 1) (leAt e 8 8) + x * leAt e 4 4

/-- Row stride ld. -/
def State.pipeStride (s : State) (p : Nat) : Nat := s.pipeAt p 32 4

/-- INTK_PIPE_STATE.state as it stands. -/
def State.pipeState (s : State) (p : Nat) : Nat :=
  let x := s.pipe p
  if x.halted then 5
  else if x.done.isSome then 3
  else if x.check.isSome then 4
  else
    match x.frame with
    | some f => if f.stage = FrameStage.good ∨ f.stage = .errored then 2 else if s.bit (Reg.intkPipeCtrl p) 31 then 1 else 0
    | none => if s.bit (Reg.intkPipeCtrl p) 31 then 1 else 0

/-! Events (R302). -/

/-- Record a cause of pipeline p and set its flag in INTK_PIPE_ERR. -/
def pipeEvent (s : State) (p cause cls flag : Nat) : State :=
  let s := if flag < 32 then s.setBit (Reg.intkPipeErr p) flag true else s
  s.raise { code := 0x0500 + cause, cls := cls, inst := p }

/-- The frame in progress is errored: it is not delivered, and counts once (R284). -/
def errorFrame (s : State) (p : Nat) : State :=
  let x := s.pipe p
  match x.frame with
  | some f =>
    if f.stage = FrameStage.good then
      (s.setPipe p { x with frame := some { f with stage := .errored } }).addSat (Reg.intkPipeDrop p) 31 16
    else s
  | none => s

/-- An F2 cause that errors the frame in progress. -/
def frameError (s : State) (p cause flag : Nat) : State := errorFrame (pipeEvent s p cause 2 flag) p

/-- A structure error (R283). -/
def structureError (s : State) (p : Nat) : State := frameError s p 0x04 30

/-- A header's ECC: corrected, or uncorrectable with the packet discarded (R283). -/
def headerEcc (s : State) (p : Nat) (e : HeaderEcc) : Bool × State :=
  match e with
  | .good => (true, s)
  | .corrected =>
    let x := s.pipe p
    let s := s.setPipe p { x with frame := x.frame.map fun f => { f with corrected := true } }
    (true, pipeEvent s p 0x01 1 27)
  | .bad => (false, frameError s p 0x02 28)

/-! Frame Start (R280, R281, R285, R293). -/

/-- The latest edge of FSYNC output n at or before a tick (R51, R285): an edge still to fire counts from the schedule. -/
def State.latestEdge (s : State) (n t : Nat) : Option Nat :=
  let e := if s.fsyncOn n ∧ s.fsyncStart n ≤ t then
      some (t - (t - s.fsyncStart n) % s.fsyncPeriod n)
    else none
  let fired := match (s.fsync n).last with
    | some l => if l ≤ t then some l else e
    | none => none
  match e with
  | some x => if (s.fsync n).start ≤ x then some x else fired
  | none => fired

/-- The live settings as the pipeline samples them (R280). -/
def State.sample (s : State) (p : Nat) : IntakeSettings :=
  let pair (a : Nat) : List Nat := [s.bits a 15 0, s.bits a 31 16]
  { ctrl := s.reg (Reg.intkPipeCtrl p), seed := s.reg (Reg.intkPipeSeed p)
    bl := pair (Reg.intkPipeBl p 0) ++ pair (Reg.intkPipeBl p 1)
    gain := pair (Reg.intkPipeGain p 0) ++ pair (Reg.intkPipeGain p 1)
    check := s.reg (Reg.intkPipeCheckExp p) }

/-- The conditions of R293 on every trigger hopper for buffer x. -/
def State.hoppersReady (s : State) (p x : Nat) : Bool :=
  (s.triggers p).all fun (i, h, n) =>
    let q := s.hopper h
    (q.head + 65536 - mapGet 0 (s.pipe p).tails (4 * x + i)) % 65536 < 32768 &&
      (q.tail + n + 65536 - q.head) % 65536 ≤ 2 ^ q.k

/-- The capture tick of a camera frame with its flags (R285). -/
def captureOf (s : State) (p t : Nat) : Nat × Bool × Bool :=
  let n := s.pipeAt p 6 1
  if n = 0xFF then (t, false, false)
  else
    match s.latestEdge n t with
    | some e =>
      if s.pipeAt p 24 4 ≤ t - e ∧ t - e ≤ s.pipeAt p 28 4 then (e, true, false)
      else ((t + 2 ^ 64 - s.pipeAt p 28 4) % 2 ^ 64, false, true)
    | none => ((t + 2 ^ 64 - s.pipeAt p 28 4) % 2 ^ 64, false, true)

/-- A frame dropped whole (R23, R293). -/
def dropFrame (s : State) (p cause flag : Nat) (f : IntakeFrame) : State :=
  let s := (pipeEvent s p cause 0 flag).addSat (Reg.intkPipeDrop p) 15 0
  s.setPipe p { s.pipe p with frame := some { f with stage := .dropped } }

/-- A frame starts: the enable is sampled, the frame counted, the Field and the hoppers checked, and its capture tick set
(R281, R23, R293, R285); `running`: the Field ran as the start arrived. -/
def startFrame (s : State) (p number : Nat) (corrected : Bool) (t : Nat) (camera running : Bool) : State :=
  let f : IntakeFrame := { settings := s.sample p, number := number, corrected := corrected }
  if !s.bit (Reg.intkPipeCtrl p) 31 then s.setPipe p { s.pipe p with frame := some { f with stage := .discarded } }
  else
    let s := s.addWrap (Reg.intkPipeFrames p) 31 0
    let f := { f with start := (s.reg (Reg.intkPipeFrames p)).toNat }
    let buffer := (s.pipe p).delivered % s.pipeBuffers p
    if !running ∨ (s.pipe p).halted then dropFrame s p 0x07 25 f
    else if !s.hoppersReady p buffer then dropFrame s p 0x06 26 f
    else
      let (c, sync, unsynced) := if camera then captureOf s p t else (t, false, false)
      let s := if unsynced then pipeEvent s p 0x05 0 24 else s
      let s := s.setReg64 (Reg.intkPipeCaptureLo p) (Reg.intkPipeCaptureHi p) c
      (s.rewriteWords .intake p).setPipe p { s.pipe p with
        frame := some { f with capture := c, fsync := sync, unsynced := unsynced, buffer := buffer } }

/-- The frame number check of a Frame Start (R283): a non-zero number follows the previous non-zero one. -/
def numberFollows (last max n : Nat) : Bool := n == 0 || last == 0 || n == (if last = max then 1 else last + 1)

/-! Pre-processing (R286 to R289). -/

/-- Pixel x of a packed CSI-2 line of a depth: the high byte of each pixel first, then the low bits of the pixels of a
group (DESIGN CHOICE, PRESUMED, unsafe, log 22). -/
def rawPixel (depth : Nat) (line : List Byte) (x : Nat) : Nat :=
  let byteAt (i : Nat) : Nat := (line.getD i 0).toNat
  match depth with
  | 8 => byteAt x
  | 16 => 256 * byteAt (2 * x) + byteAt (2 * x + 1)
  | _ =>
    let low := depth - 8
    let per := if depth = 12 then 2 else 4
    let base := x / per * (per * depth / 8)
    let lows := leNat ((line.drop (base + per)).take (per * low / 8))
    byteAt (base + x % per) * 2 ^ low + lows / 2 ^ (low * (x % per)) % 2 ^ low

/-- The value v of a raw pixel at site k (R286). -/
def pixelValue (g : IntakeSettings) (k r : Nat) : Nat :=
  min (((r - (g.bl[k]?).getD 0) * (g.gain[k]?).getD 0 + 2048) / 4096) 65535

/-- The colour of site k under a site pattern (R287): 0 red, 1 green, 2 blue. -/
def siteColour (pattern k : Nat) : Nat :=
  (match pattern with
   | 0 => [0, 1, 1, 2]
   | 1 => [1, 0, 2, 1]
   | 2 => [1, 2, 0, 1]
   | _ => [2, 1, 1, 0])[k]?.getD 1

/-- Reflect a coordinate into 0 … n - 1 (R144). -/
def reflect (n : Nat) (v : Int) : Nat := (if v < 0 then -v else if v < n then v else 2 * ((n : Int) - 1) - v).toNat

/-- A band of raw values: height, width, and the raw value at a place. -/
structure RawImage where
  h : Nat
  w : Nat
  pixel : Nat → Nat → Nat

/-- v at a place, coordinates reflected. -/
def RawImage.value (m : RawImage) (g : IntakeSettings) (y x : Int) : Nat :=
  let yy := reflect m.h y
  let xx := reflect m.w x
  pixelValue g (yy % 2 * 2 + xx % 2) (m.pixel yy xx)

/-- Channel c at raw place (y, x) (R287). -/
def RawImage.channel (m : RawImage) (g : IntakeSettings) (rgb : Bool) (pattern c y x : Nat) : Nat :=
  let v (dy dx : Int) : Nat := m.value g (y + dy) (x + dx)
  let q := siteColour pattern (y % 2 * 2 + x % 2)
  if !rgb || q == c then v 0 0
  else if c = 1 then (v (-1) 0 + v 1 0 + v 0 (-1) + v 0 1 + 2) / 4
  else if q = 1 then
    if siteColour pattern (y % 2 * 2 + (x + 1) % 2) = c then (v 0 (-1) + v 0 1 + 1) / 2 else (v (-1) 0 + v 1 0 + 1) / 2
  else (v (-1) (-1) + v (-1) 1 + v 1 (-1) + v 1 1 + 2) / 4

/-- Output row Y as bytes (R288, R289): scaled, shifted by sh and narrowed with stochastic tag t; its significand is the 16 bits of the
scaled value and the sh bits below them (R73, DESIGN CHOICE, unsafe, log 95). -/
def RawImage.row (m : RawImage) (g : IntakeSettings) (rgb : Bool) (pattern f fmt t y : Nat) : List Byte :=
  let cs := if rgb then 3 else 1
  let wo := m.w / f
  let sh := bitsOf g.ctrl.toNat 28 25
  let mode := bitsOf g.ctrl.toNat 30 29
  let sum (c x : Nat) : Nat := sumNat ((List.range f).flatMap fun dy => (List.range f).map fun dx =>
    m.channel g rgb pattern c (f * y + dy) (f * x + dx))
  let es := (List.range wo).flatMap fun x => (List.range cs).map fun c =>
    let v := (sum c x + f * f / 2) / (f * f)
    (narrow fmt (roundingOf mode g.seed.toNat (t % 2 ^ 32) (((y * wo + x) * cs + c) % 2 ^ 32)) (.fin false v (-(sh : Int)))
      ⟨-(sh : Int), sh + 16⟩).bits
  packElems (fmtWidth fmt) es

/-- The frame's raw image. -/
def State.rawImage (s : State) (p : Nat) (lines : List (List Byte)) : RawImage :=
  let depth := rawDepth (s.pipeAt p 4 1)
  { h := s.pipeAt p 14 2, w := s.pipeAt p 12 2, pixel := fun y x => rawPixel depth ((lines[y]?).getD []) x }

/-! Delivery (R290, R294). -/

/-- Write output row y into every band that holds it, and take its bytes into the chain CRC (R290, R297). -/
def writeOutputRow (s : State) (p y : Nat) (bs : List Byte) : State :=
  let x := s.pipe p
  match x.frame with
  | none => s
  | some f =>
    let s := forUpTo (s.pipeAt p 7 1) (fun j s =>
      let (a, b) := s.band p j
      if a ≤ y ∧ y ≤ b then s.store (s.bandBase p j f.buffer + (y - a) * s.pipeStride p) (padGranules bs) else s) s
    s.setPipe p { x with frame := some { f with rows := f.rows + 1, crc := bs.foldl crcByte f.crc } }

/-- Output rows whose raw lines have all arrived are written: a demosaic needs the line after the last one of its row. -/
def writeReadyRows (s : State) (p : Nat) : Nat → State
  | 0 => s
  | fuel + 1 =>
    match (s.pipe p).frame with
    | none => s
    | some f =>
      let sc := s.pipeScale p
      let need := if s.pipeRgb p then min ((f.rows + 1) * sc + 1) (s.pipeAt p 14 2) else (f.rows + 1) * sc
      if f.rows < s.pipeRows p ∧ need ≤ f.lines.length then
        let row := (s.rawImage p f.lines).row f.settings (s.pipeRgb p) (s.pipeAt p 5 1) sc (s.pipeFmt p) f.start f.rows
        writeReadyRows (writeOutputRow s p f.rows row) p fuel
      else s

/-- The provenance tag (R297). -/
def provenanceTag (s : State) (p : Nat) (f : IntakeFrame) : List Byte :=
  let flags := bval f.fsync + 2 * bval f.unsynced + 4 * bval f.corrected + 8 * bval (s.pipeEthernet p)
  let b := leBytes 2 (s.chipId * 4096 + s.pipeAt p 22 2 % 4096) ++ leBytes 2 flags ++ leBytes 4 f.start ++
    leBytes 8 f.capture ++ leBytes 8 s.now ++ leBytes 4 (f.crc ^^^ 0xFFFFFFFF#32).toNat
  b ++ leBytes 4 (crc32c b).toNat

/-- Post one trigger hopper (R294 steps 3 and 4). -/
def postTrigger (s : State) (p x : Nat) (i h n : Nat) : State :=
  let s := ring s (.intake (s.pipeField p)) h ((s.hopper h).tail + n)
  s.setPipe p { s.pipe p with tails := mapInsert (s.pipe p).tails (4 * x + i) (s.hopper h).tail }

/-- A delivered frame completes: tag, doorbells, buffer index (R294), and the pipeline checks in (R395). -/
def completeFrame (s : State) (p : Nat) : State :=
  match (s.pipe p).done with
  | none => s
  | some f =>
    let a := seedAddr (leAt (s.entry 8 1 (8 * p)) 1 1) (s.pipeAt p 40 8) + 32 * f.buffer
    let s := s.store a (provenanceTag s p f)
    let s := checkInAll s 1 p s.now (some f.capture)
    let s := (s.triggers p).foldl (fun s (i, h, n) => postTrigger s p f.buffer i h n) s
    let s := s.setPipe p { s.pipe p with done := none, delivered := (s.pipe p).delivered + 1 }
    s.setBits (Reg.intkPipeState p) 7 4 ((s.pipe p).delivered % s.pipeBuffers p)

/-- FRAME_COMPLETION. -/
def execFrameCompletion (p : Nat) (s : State) : Result := live s <| withUnit s 16 p fun s p => completeFrame s p

/-- The frame or group in progress has ended: a good one goes on to its completion, and a camera pipeline to its check
row (R294, R298). -/
def endFrame (s : State) (p : Nat) (camera : Bool) : State :=
  let x := s.pipe p
  match x.frame with
  | some f =>
    if f.stage = FrameStage.good then
      s.setPipe p { x with frame := none, done := some { f with lines := [] }
                           check := if camera then some (f.settings, s.now) else none }
    else s.setPipe p { x with frame := none }
  | none => s

/-! CSI-2 packets (R282, R283). -/

/-- The pipelines bound to a receiver and virtual channel. -/
def State.cameraPipes (s : State) (receiver vc : Nat) : List Nat :=
  (List.range 16).filter fun p => s.hasEntry 8 0 p && s.pipeAt p 2 1 == receiver && receiver < 8 && s.pipeAt p 3 1 == vc

/-- Apply a change to the frame in progress. -/
def onFrame (s : State) (p : Nat) (g : IntakeFrame → IntakeFrame) : State :=
  let x := s.pipe p
  s.setPipe p { x with frame := x.frame.map g }

/-- A Frame Start (R280 to R285, R293). -/
def frameStart (s : State) (p number : Nat) (ecc : HeaderEcc) (t : Nat) (running : Bool) : State :=
  match headerEcc s p ecc with
  | (false, s) => s
  | (true, s) =>
    let wasOpen : Bool := match (s.pipe p).frame with
      | some f => f.stage == .good || f.stage == .errored
      | none => false
    let s := if wasOpen then structureError s p else s
    let s := completeFrame s p
    let s := commitAt s 3 p
    let follows := numberFollows (s.pipe p).lastFrame (s.pipeAt p 20 2) number
    let s := if number = 0 then s else s.setPipe p { s.pipe p with lastFrame := number }
    let s := startFrame s p number (ecc == .corrected) t true running
    match (s.pipe p).frame with
    | some f => if f.stage = FrameStage.good ∧ !follows then structureError s p else s
    | none => s

/-- A Frame End (R283): every line has arrived, and the frame number is its Frame Start's. -/
def frameEnd (s : State) (p number : Nat) (ecc : HeaderEcc) : State :=
  match headerEcc s p ecc with
  | (false, s) => s
  | (true, s) =>
    let s := match (s.pipe p).frame with
      | some f =>
        if (f.stage = FrameStage.good ∨ f.stage = .errored) ∧ (f.count ≠ s.pipeAt p 14 2 ∨ f.number ≠ number) then structureError s p
        else s
      | none => s
    endFrame s p true

/-- A Line Start (R283): its number rises by the step from the first value, where the harness enables line packets. -/
def lineStart (s : State) (p number : Nat) (ecc : HeaderEcc) : State :=
  match headerEcc s p ecc with
  | (false, s) => s
  | (true, s) =>
    match (s.pipe p).frame with
    | some f =>
      let want := (s.pipeAt p 16 2 + f.starts * s.pipeAt p 18 2) % 65536
      let bad := bitOf (s.pipeAt p 10 1) 0 && number != want && (f.stage == .good || f.stage == .errored)
      let s := onFrame s p fun f => { f with starts := f.starts + 1 }
      if bad then structureError s p else s
    | none => s

/-- A Line End: its header is checked (R283). -/
def lineEnd (s : State) (p : Nat) (ecc : HeaderEcc) : State := (headerEcc s p ecc).2

/-- A long packet of the pipeline's source (R283, R302, R383): its line joins the frame, and the rows that are complete
are written. -/
def longPacket (s : State) (p : Nat) (k : LongPacket) : State :=
  match headerEcc s p k.ecc with
  | (false, s) => s
  | (true, s) =>
    let s := onFrame s p fun f => { f with count := f.count + 1 }
    let s := if k.crcOk then s else frameError s p 0x03 29
    let sizeOk := 8 * k.payload.length == s.pipeAt p 12 2 * rawDepth (s.pipeAt p 4 1)
    let s := if sizeOk then s else structureError s p
    let s := match k.upset with
      | .clean => s
      | .single => pipeEvent s p 0x0B 1 22
      | _ => frameError s p 0x0C 23
    let s := if k.checkBad then frameError s p 0x0D 32 else s
    match (s.pipe p).frame with
    | some f =>
      if f.stage = FrameStage.good ∧ f.lines.length < s.pipeAt p 14 2 then
        writeReadyRows (onFrame s p fun f => { f with lines := f.lines ++ [k.payload] }) p (s.pipeRows p)
      else s
    | none => s

/-- The frame in progress takes no packets: it is dropped or discarded whole. -/
def State.pipeDeaf (s : State) (p : Nat) : Bool :=
  match (s.pipe p).frame with
  | some f => f.stage == .dropped || f.stage == .discarded
  | none => false

/-- A packet reaches its pipeline; `running`: its Field ran as the packet arrived. -/
def takePacket (s : State) (p : Nat) (running : Bool) (k : CsiPacket) : State :=
  match k with
  | .frameStart n e t => frameStart s p n e t running
  | .frameEnd n e => if s.pipeDeaf p then s.setPipe p { s.pipe p with frame := none } else frameEnd s p n e
  | .lineStart n e => if s.pipeDeaf p then s else lineStart s p n e
  | .lineEnd _ e => if s.pipeDeaf p then s else lineEnd s p e
  | .long x => if s.pipeDeaf p then s else longPacket s p x

/-- Bytes that a packet takes in the receiver's line buffer. -/
def CsiPacket.size : CsiPacket → Nat
  | .long x => x.payload.length + 6
  | _ => 4

/-- The destination Field of pipeline p runs. -/
def State.pipeRuns (s : State) (p : Nat) : Bool := s.fieldState (s.pipeField p) == fldRunning

/-- Bytes that wait in a receiver's line buffer, for all of its pipelines (R299). -/
def State.waitingBytes (s : State) (receiver : Nat) : Nat :=
  sumNat ((List.range 16).map fun q => if s.pipeAt q 2 1 = receiver then (s.pipe q).waitBytes else 0)

/-- While a check row runs, packets wait in the receiver's 64 KiB line buffer, and one that does not fit is lost (R299). Whether a frame's Field
runs is judged as its start arrives (R23); its settings are sampled as the pipeline takes it (R280). -/
def queuePacket (s : State) (p : Nat) (k : CsiPacket) : State :=
  let x := s.pipe p
  if x.check.isSome then
    if 65536 < s.waitingBytes (s.pipeAt p 2 1) + k.size then s.setPipe p { x with overflow := true }
    else s.setPipe p { x with waiting := x.waiting ++ [(k, s.pipeRuns p)], waitBytes := x.waitBytes + k.size }
  else takePacket s p (s.pipeRuns p) k

/-- A receiver has lanes; one that is off receives nothing (R282, INTK_RX_STATUS.lanes). -/
def State.receiverOn (s : State) (n : Nat) : Bool := s.bits (Reg.intkRxStatus n) 2 1 != 0

/-- A packet of a receiver: to each pipeline that it matches, or counted as unbound (R279). -/
def csiPacket (s : State) (receiver : Nat) (ps : List Nat) (k : CsiPacket) : State :=
  if !s.receiverOn receiver then s
  else if ps.isEmpty then s.addSat (Reg.intkRxStatus receiver) 31 16 else ps.foldl (fun s p => queuePacket s p k) s

/-- CSI2_FRAME_START. -/
def execCsi2FrameStart (receiver vc number : Nat) (ecc : HeaderEcc) (tick : Nat) (s : State) : Result := live s <|
  withUnit s 8 receiver fun s receiver => csiPacket s receiver (s.cameraPipes receiver vc) (.frameStart number ecc tick)

/-- CSI2_FRAME_END. -/
def execCsi2FrameEnd (receiver vc number : Nat) (ecc : HeaderEcc) (s : State) : Result := live s <|
  withUnit s 8 receiver fun s receiver => csiPacket s receiver (s.cameraPipes receiver vc) (.frameEnd number ecc)

/-- CSI2_LINE_START. -/
def execCsi2LineStart (receiver vc number : Nat) (ecc : HeaderEcc) (s : State) : Result := live s <|
  withUnit s 8 receiver fun s receiver => csiPacket s receiver (s.cameraPipes receiver vc) (.lineStart number ecc)

/-- CSI2_LINE_END. -/
def execCsi2LineEnd (receiver vc number : Nat) (ecc : HeaderEcc) (s : State) : Result := live s <|
  withUnit s 8 receiver fun s receiver => csiPacket s receiver (s.cameraPipes receiver vc) (.lineEnd number ecc)

/-- CSI2_LONG_PACKET. -/
def execCsi2LongPacket (p : LongPacket) (s : State) : Result := live s <|
  withUnit s 8 p.receiver fun s receiver => csiPacket s receiver
    ((s.cameraPipes receiver p.vc).filter fun q => s.pipeAt q 4 1 == p.dataType) (.long { p with receiver := receiver })

/-! The check row (R298, R299). -/

/-- The synthetic raw value of the check row. -/
def checkRaw (depth y x : Nat) : Nat := Nat.xor (x * 0x09E3 + y * 0x07F1 + 0x02B5) (x / 4) % 2 ^ depth

/-- The CRC-32C of the check row's output rows. -/
def State.checkCrc (s : State) (p : Nat) (g : IntakeSettings) : Word :=
  let depth := rawDepth (s.pipeAt p 4 1)
  let m : RawImage := { h := 8, w := s.pipeAt p 12 2, pixel := checkRaw depth }
  let f := s.pipeScale p
  crc32c ((List.range (8 / f)).flatMap fun y =>
    m.row g (s.pipeRgb p) (s.pipeAt p 5 1) f (s.pipeFmt p) 0xFFFFFFFF y)

/-- Packets that waited reach the pipeline until one of them starts the check row of its own frame: those after it go on waiting.
A frame that lost one is errored (R299). -/
def drainWaiting (s : State) (p : Nat) : List (CsiPacket × Bool) → State
  | [] =>
    let x := s.pipe p
    let s := s.setPipe p { x with waiting := [], waitBytes := 0, overflow := false }
    if x.overflow then structureError s p else s
  | (k, running) :: rest =>
    let s := takePacket s p running k
    if (s.pipe p).check.isSome && !rest.isEmpty then
      s.setPipe p { s.pipe p with waiting := rest, waitBytes := sumNat (rest.map fun (k, _) => k.size) }
    else drainWaiting s p rest

/-- The check row is compared 4·W_in + 64 cycles of CLK_IO after it started; a mismatch stops the Field and halts the
pipeline (R298, R299). -/
def checkRow (s : State) (p : Nat) : State :=
  match (s.pipe p).check with
  | none => s
  | some (g, t) =>
    let s := runUntil s (t + 8 * (4 * s.pipeAt p 12 2 + 64))
    let crc := s.checkCrc p g
    let s := s.setReg (Reg.intkPipeCheckLast p) crc
    let s := s.setPipe p { s.pipe p with check := none }
    let s := if crc = g.check then s
      else
        let s := s.setPipe p { s.pipe p with halted := true }
        stopField (pipeEvent s p 0x0A 3 31) (s.pipeField p) 0x050A
    drainWaiting s p (s.pipe p).waiting

/-- CHECK_ROW. -/
def execCheckRow (p : Nat) (s : State) : Result := live s <| withUnit s 16 p fun s p => checkRow s p

/-! Sensor Ethernet (R300, R301). -/

/-- The bytes of a sensor frame after its EtherType, when it matches pipeline p's stream (R301). Stream values stand in
network byte order (DESIGN CHOICE, PRESUMED, unsafe, log 22). -/
def State.streamPayload (s : State) (p port : Nat) (bs : List Byte) : Option (List Byte) :=
  if !s.hasEntry 8 0 p || s.pipeAt p 2 1 != 8 + port || !s.hasEntry 8 3 p then none
  else
    let vlan := s.streamAt p 1 1 != 0
    let head := if vlan then 18 else 14
    let mac := slice (s.entry 8 3 p) 8 6
    let payload := bs.drop head
    let value := beNat (slice payload (s.streamAt p 16 2) 2)
    if bs.take 6 == mac && (!vlan || (beNat (slice bs 12 2) == 0x8100 && beNat (slice bs 14 2) % 4096 == s.streamAt p 4 2)) &&
        beNat (slice bs (head - 2) 2) == s.streamAt p 6 2 && value == s.streamAt p 18 2 then some payload
    else none

/-- One matched frame: its group, its sequence and its row (R301). -/
def streamRow (s : State) (p : Nat) (f : SensorFrame) (payload : List Byte) : State :=
  let t := f.sfdTick - s.streamAt p 36 4
  if !f.fcsOk then frameError s p 0x08 29
  else
    let s := if (s.pipe p).frame.isSome then s
      else startFrame (commitAt (completeFrame s p) 3 p) p 0 false t false (s.pipeRuns p)
    let sq := beNat (slice payload (s.streamAt p 22 2) 2)
    let gap := match (s.pipe p).sequence with
      | some q => sq != (q + 1) % 65536
      | none => false
    let row := payload.drop (s.streamAt p 20 2)
    let rs := s.streamAt p 24 4
    let s := s.setPipe p { s.pipe p with sequence := some sq, lastRow := f.sfdTick }
    let s := onFrame s p fun f => { f with count := f.count + 1 }
    let deaf := s.pipeDeaf p
    let s := if gap && !deaf then frameError s p 0x09 30 else s
    let s := if rs < row.length && !deaf then frameError s p 0x08 29 else s
    let s := match (s.pipe p).frame with
      | some g => if g.stage = FrameStage.good then writeOutputRow s p g.rows (slice row 0 rs) else s
      | none => s
    match (s.pipe p).frame with
    | some g => if s.streamAt p 28 4 ≤ g.count then endFrame s p false else s
    | none => s

/-- A sensor Ethernet frame (R300, R301): PAUSE frames, frames above 9,216 bytes and frames of no stream are discarded and
counted; every pipeline whose stream match it meets accepts it. -/
def sensorFrame (s : State) (f : SensorFrame) : State :=
  let hits := (List.range 16).filterMap fun p => (s.streamPayload p f.port f.bytes).map fun b => (p, b)
  if hits.isEmpty || f.pause || 9216 < f.bytes.length + 4 then s.addSat (Reg.intkEthStatus f.port) 31 16
  else hits.foldl (fun s (p, b) => streamRow s p f b) s

/-- SENSOR_ETH_FRAME_RX. -/
def execSensorEthFrameRx (frame : SensorFrame) (s : State) : Result := live s <|
  withUnit s 4 frame.port fun s port =>
    if s.bit (Reg.intkEthStatus port) 0 then sensorFrame s { frame with port := port } else s

/-- A silence of gap ticks with the group incomplete errors it (R301). -/
def groupGap (s : State) (p : Nat) : State :=
  match (s.pipe p).frame with
  | some f =>
    if !s.pipeEthernet p then s
    else
      let s := runUntil s ((s.pipe p).lastRow + s.streamAt p 32 4)
      let s := if f.stage = FrameStage.good ∨ f.stage = .errored then frameError s p 0x09 30 else s
      endFrame s p false
  | none => s

/-- SENSOR_ETH_GROUP_GAP. -/
def execSensorEthGroupGap (p : Nat) (s : State) : Result := live s <| withUnit s 16 p fun s p => groupGap s p

/-- A sensor Ethernet link goes down: its flag, and an event whose cause no table gives (R381; DESIGN CHOICE, safe, log 82). -/
def execSensorEthLinkDown (port : Nat) (s : State) : Result := live s <|
  withUnit s 4 port fun s port =>
  ((s.setBit (Reg.intkEthStatus port) 0 false).setBit (Reg.intkEthStatus port) 1 true).raiseOpen 0x05 0 port

/-- A sensor Ethernet link comes up. -/
def execSensorEthLinkUp (port : Nat) (s : State) : Result := live s <| withUnit s 4 port fun s port =>
  s.setBit (Reg.intkEthStatus port) 0 true

/-- A sensor-control frame leaves, and its transmit timestamp is reported to the firmware (R300). -/
def execSensorEthTx (port : Nat) (bytes : List Byte) (tick : Nat) (s : State) : Result := live s <|
  withUnit s 4 port fun s port => if s.bit (Reg.intkEthStatus port) 0 then s.emit (.sensorTx port bytes tick) else s

/-- A receiver loses HS synchronisation (INTK_RX_STATUS): its flag, and an event whose cause no table gives (R381; DESIGN CHOICE,
safe, log 82). -/
def execDphySyncLoss (receiver : Nat) (s : State) : Result := live s <|
  withUnit s 8 receiver fun s receiver => if s.bit (Reg.intkRxStatus receiver) 0 then
    ((s.setBit (Reg.intkRxStatus receiver) 0 false).setBit (Reg.intkRxStatus receiver) 3 true).raiseOpen 0x05 0 receiver else s

/-- A receiver that the harness has set up gains HS synchronisation. -/
def execDphyHsSynchronisation (receiver : Nat) (s : State) : Result := live s <|
  withUnit s 8 receiver fun s receiver =>
  if s.bits (Reg.intkRxStatus receiver) 2 1 ≠ 0 then s.setBit (Reg.intkRxStatus receiver) 0 true else s

/-- INTK_CTRL.cnt_clear: the counters of packets and frames (R302). The frame counter keeps counting the starts since the
entry was loaded, as R297 defines it (DESIGN CHOICE, PRESUMED, unsafe, log 22). -/
def clearIntakeCounters (s : State) : State :=
  let s := forUpTo 8 (fun n s => s.setBits (Reg.intkRxStatus n) 31 16 0) s
  let s := forUpTo 4 (fun q s => s.setBits (Reg.intkEthStatus q) 31 16 0) s
  forUpTo 16 (fun p s => s.setReg (Reg.intkPipeDrop p) 0) s

/-- INTK_CNT_CLEAR. -/
def execIntkCntClear (s : State) : Result := live s <| clearIntakeCounters s

/-! Load rules and restart (R288, R291, R292). -/

/-- Pipeline p's counts restart: d is 0 and every pt takes its hopper's tail (R292, R416). -/
def restartPipe (s : State) (p : Nat) : State :=
  let ts := (List.range 16).flatMap fun x => (s.triggers p).map fun (i, h, _) => (4 * x + i, (s.hopper h).tail)
  let s := s.setPipe p { tails := ts.foldl (fun m (k, v) => mapInsert m k v) [] }
  let s := s.setReg (Reg.intkPipeFrames p) 0
  s.setBits (Reg.intkPipeState p) 7 4 0

/-- The bytes that each band of a pipeline holds: (Furrow, first offset, size) per band, all buffers. -/
def State.bandSpans (s : State) (p : Nat) : List (Nat × Nat × Nat) :=
  if !s.hasEntry 8 0 p then []
  else (List.range (s.pipeAt p 7 1)).map fun j =>
    let e := s.entry 8 1 (8 * p + j)
    (leAt e 1 1, leAt e 8 8 % 0x1000000, s.pipeBuffers p * leAt e 4 4)

/-- Two spans of bytes overlap. -/
def spansMeet (a n b m : Nat) : Bool := a < b + m && b < a + n

/-- What a pipeline takes: a receiver with a virtual channel and a data type, or a port with a stream match; the match is its
addresses and values, in the order that R301 compares them. -/
def State.pipeSource (s : State) (p : Nat) : List Nat :=
  if s.pipeEthernet p then
    let vlan := s.streamAt p 1 1 != 0
    [s.pipeAt p 2 1, bval vlan, if vlan then s.streamAt p 4 2 else 0, s.streamAt p 6 2, s.streamAt p 8 6, s.streamAt p 16 2,
      s.streamAt p 18 2]
  else [s.pipeAt p 2 1, s.pipeAt p 3 1, s.pipeAt p 4 1]

/-- A pipeline's source (R279, R282): one that there is, of a RAW type for a receiver, and no other pipeline's. -/
def sourceOk (s : State) (p : Nat) : Bool :=
  s.pipeAt p 2 1 < 12 && (s.pipeEthernet p || (s.pipeAt p 3 1 < 16 && 0x2A ≤ s.pipeAt p 4 1 && s.pipeAt p 4 1 ≤ 0x2E)) &&
    (List.range p).all fun q => !s.hasEntry 8 0 q || s.pipeSource q != s.pipeSource p

/-- A receiver's lanes and lane rate (R282). -/
def receiverRules (s : State) (n : Nat) : List Broken :=
  let lanes := s.entryAt 8 2 n 1 1
  let rate := s.entryAt 8 2 n 4 4
  brokenIf (s.hasEntry 8 2 n && (!([1, 2, 4].contains lanes) || rate < 80 || 4500 < rate)) [.table 8 2 n]

/-- A pipeline's source, geometry and buffers (R279, R282, R288, R290, R291). -/
def intakeRules (s : State) (p : Nat) : List Broken :=
  if !s.hasEntry 8 0 p then []
  else
    let e := [Setting.table 8 0 p, .reg (Reg.intkPipeCtrl p)]
    let f := s.pipeScale p
    let w := s.pipeAt p 12 2
    let h := s.pipeAt p 14 2
    let camera := !s.pipeEthernet p
    let spans := s.bandSpans p
    let others := (List.range 16).flatMap fun q => if q = p then [] else s.bandSpans q
    let bad (j : Nat) : Bool :=
      let b := s.entry 8 1 (8 * p + j)
      let (n, a, len) := (spans[j]?).getD (0, 0, 0)
      let (first, last) := s.band p j
      let need := (last - first) * s.pipeStride p + roundUp (s.pipeRowBytes p) 32
      b == [] || s.fieldOf n != some (s.pipeField p) && !bitOf (s.furrowMask (s.pipeField p)) n || leAt b 4 4 % 32 != 0 ||
        leAt b 4 4 < need || 0x3F0000 - s.headroom n < a + len ||
        ((List.range 256).any fun k => match s.slotRows n k with
          | some (r, q) => spansMeet a len (128 * r) (128 * (q + 1 - r))
          | none => false) ||
        ((spans.take j ++ others).any fun (m, c, l) => m == n && spansMeet a len c l)
    brokenIf (!sourceOk s p) [.table 8 0 p, .table 8 3 p] ++
    brokenIf (camera && (w < 16 || 8192 < w || h < 16 || 8192 < h || (!s.pipeRgb p && f != 1) ||
      (s.pipeRgb p && (w % (2 * f) != 0 || h % (2 * f) != 0)))) e ++
    brokenIf (s.pipeAt p 7 1 == 0 || 8 < s.pipeAt p 7 1 || 8 < s.pipeAt p 8 1 || s.pipeAt p 9 1 == 0 || 16 < s.pipeAt p 9 1) e ++
    forAll (min 8 (s.pipeAt p 7 1)) fun j => brokenIf (bad j) [.table 8 1 (8 * p + j), .table 8 0 p]

end Sys2Proof.Machine
end

