-- ==== Sys2Proof/Machine/Signature.lean ====
section
/-! DEFINITION. SHA-384 (FIPS 180-4) and the verification of an ECDSA signature on curve P-384 (FIPS 186-5), which R410 names.
The constants and the algorithms are the standards', which are not in the manual (PRESUMED, log 10). -/

namespace Sys2Proof.Machine

/-! SHA-384. -/

/-- The round constants K. -/
def shaConstants : List Word64 :=
  [0x428A2F98D728AE22#64, 0x7137449123EF65CD#64, 0xB5C0FBCFEC4D3B2F#64, 0xE9B5DBA58189DBBC#64,
      0x3956C25BF348B538#64, 0x59F111F1B605D019#64, 0x923F82A4AF194F9B#64, 0xAB1C5ED5DA6D8118#64,
      0xD807AA98A3030242#64, 0x12835B0145706FBE#64, 0x243185BE4EE4B28C#64, 0x550C7DC3D5FFB4E2#64,
      0x72BE5D74F27B896F#64, 0x80DEB1FE3B1696B1#64, 0x9BDC06A725C71235#64, 0xC19BF174CF692694#64,
      0xE49B69C19EF14AD2#64, 0xEFBE4786384F25E3#64, 0x0FC19DC68B8CD5B5#64, 0x240CA1CC77AC9C65#64] ++
    [0x2DE92C6F592B0275#64, 0x4A7484AA6EA6E483#64, 0x5CB0A9DCBD41FBD4#64, 0x76F988DA831153B5#64,
      0x983E5152EE66DFAB#64, 0xA831C66D2DB43210#64, 0xB00327C898FB213F#64, 0xBF597FC7BEEF0EE4#64,
      0xC6E00BF33DA88FC2#64, 0xD5A79147930AA725#64, 0x06CA6351E003826F#64, 0x142929670A0E6E70#64,
      0x27B70A8546D22FFC#64, 0x2E1B21385C26C926#64, 0x4D2C6DFC5AC42AED#64, 0x53380D139D95B3DF#64,
      0x650A73548BAF63DE#64, 0x766A0ABB3C77B2A8#64, 0x81C2C92E47EDAEE6#64, 0x92722C851482353B#64] ++
    [0xA2BFE8A14CF10364#64, 0xA81A664BBC423001#64, 0xC24B8B70D0F89791#64, 0xC76C51A30654BE30#64,
      0xD192E819D6EF5218#64, 0xD69906245565A910#64, 0xF40E35855771202A#64, 0x106AA07032BBD1B8#64,
      0x19A4C116B8D2D0C8#64, 0x1E376C085141AB53#64, 0x2748774CDF8EEB99#64, 0x34B0BCB5E19B48A8#64,
      0x391C0CB3C5C95A63#64, 0x4ED8AA4AE3418ACB#64, 0x5B9CCA4F7763E373#64, 0x682E6FF3D6B2B8A3#64,
      0x748F82EE5DEFB2FC#64, 0x78A5636F43172F60#64, 0x84C87814A1F0AB72#64, 0x8CC702081A6439EC#64] ++
    [0x90BEFFFA23631E28#64, 0xA4506CEBDE82BDE9#64, 0xBEF9A3F7B2C67915#64, 0xC67178F2E372532B#64,
      0xCA273ECEEA26619C#64, 0xD186B8C721C0C207#64, 0xEADA7DD6CDE0EB1E#64, 0xF57D4F7FEE6ED178#64,
      0x06F067AA72176FBA#64, 0x0A637DC5A2C898A6#64, 0x113F9804BEF90DAE#64, 0x1B710B35131C471B#64,
      0x28DB77F523047D84#64, 0x32CAAB7B40C72493#64, 0x3C9EBE0A15C9BEBC#64, 0x431D67C49C100D4C#64,
      0x4CC5D4BECB3E42B6#64, 0x597F299CFC657E2A#64, 0x5FCB6FAB3AD6FAEC#64, 0x6C44198C4A475817#64]

/-- The initial hash value of SHA-384. -/
def sha384Start : List Word64 :=
  [0xCBBB9D5DC1059ED8#64, 0x629A292A367CD507#64, 0x9159015A3070DD17#64, 0x152FECD8F70E5939#64,
    0x67332667FFC00B31#64, 0x8EB44A8768581511#64, 0xDB0C2E0D64F98FA7#64, 0x47B5481DBEFA4FA4#64]

/-- A message padded to blocks of 128 bytes. -/
def shaPad (m : List Byte) : List Byte :=
  m ++ [0x80] ++ List.replicate ((239 - m.length % 128) % 128) 0 ++ (leBytes 16 (8 * m.length)).reverse

/-- One word more of the message schedule, kept latest first. -/
def shaSchedule (w : List Word64) : List Word64 :=
  let at' (i : Nat) : Word64 := w.getD (i - 1) 0
  let x := at' 2
  let y := at' 15
  let s1 := x.rotateRight 19 ^^^ x.rotateRight 61 ^^^ (x >>> 6)
  let s0 := y.rotateRight 1 ^^^ y.rotateRight 8 ^^^ (y >>> 7)
  (s1 + at' 7 + s0 + at' 16) :: w

/-- One round on the working words a to h. -/
def shaRound (v : List Word64) (kw : Word64) : List Word64 :=
  match v with
  | [a, b, c, d, e, f, g, h] =>
    let s1 := e.rotateRight 14 ^^^ e.rotateRight 18 ^^^ e.rotateRight 41
    let ch := (e &&& f) ^^^ (~~~e &&& g)
    let t1 := h + s1 + ch + kw
    let s0 := a.rotateRight 28 ^^^ a.rotateRight 34 ^^^ a.rotateRight 39
    let maj := (a &&& b) ^^^ (a &&& c) ^^^ (b &&& c)
    [t1 + s0 + maj, a, b, c, d + t1, e, f, g]
  | _ => v

/-- One block of 128 bytes into the hash value. -/
def shaBlock (h : List Word64) (block : List Byte) : List Word64 :=
  let first := (List.range 16).map fun i => BitVec.ofNat 64 (beNat (slice block (8 * i) 8))
  let w := ((List.range 64).foldl (fun w _ => shaSchedule w) first.reverse).reverse
  let v := (List.zipWith (· + ·) shaConstants w).foldl shaRound h
  List.zipWith (· + ·) h v

/-- The SHA-384 digest of a byte string. -/
def sha384 (m : List Byte) : BitVec 384 :=
  let b := shaPad m
  let h := (List.range (b.length / 128)).foldl (fun h i => shaBlock h (slice b (128 * i) 128)) sha384Start
  BitVec.ofNat 384 ((h.take 6).foldl (fun n x => n * 2 ^ 64 + x.toNat) 0)

/-! Curve P-384: y² = x³ - 3x + b over the field of p elements, with a base point of prime order n. -/

/-- The field's prime p. -/
def p384 : Nat := 2 ^ 384 - 2 ^ 128 - 2 ^ 96 + 2 ^ 32 - 1
/-- The order n of the base point. -/
def p384Order : Nat := 0xFFFFFFFFFFFFFFFFFFFFFFFFFFFFFFFFFFFFFFFFFFFFFFFFC7634D81F4372DDF581A0DB248B0A77AECEC196ACCC52973
/-- The coefficient b. -/
def p384B : Nat := 0xB3312FA7E23EE7E4988E056BE3F82D19181D9C6EFE8141120314088F5013875AC656398D8A2ED19D2A85C8EDD3EC2AEF
/-- The base point. -/
def p384Base : Nat × Nat :=
  (0xAA87CA22BE8B05378EB1C71EF320AD746E1D3B628BA79B9859F741E082542A385502F25DBF55296C3A545E3872760AB7,
    0x3617DE4A96262C6F5D9E98BF9292DC29F8F41DBD289A147CE9DA3113B5F0B8C00A60B1CE1D7E819D7A431D7C90EA0E5F)

/-- A point in Jacobian coordinates: (x / z², y / z³), infinity where z is 0. -/
structure CurvePoint where
  x : Nat
  y : Nat
  z : Nat
  deriving DecidableEq, Repr

/-- A difference modulo p. -/
def subP (a b : Nat) : Nat := (a + (p384 - b % p384)) % p384

/-- Twice a point. -/
def CurvePoint.double (q : CurvePoint) : CurvePoint :=
  let delta := q.z * q.z % p384
  let gamma := q.y * q.y % p384
  let beta := q.x * gamma % p384
  let alpha := 3 * (subP q.x delta * (q.x + delta)) % p384
  let x := subP (alpha * alpha) (8 * beta)
  let z := subP ((q.y + q.z) * (q.y + q.z)) (gamma + delta)
  { x := x, y := subP (alpha * subP (4 * beta) x) (8 * (gamma * gamma)), z := z }

/-- The sum of two points. -/
def CurvePoint.add (a b : CurvePoint) : CurvePoint :=
  if a.z = 0 then b
  else if b.z = 0 then a
  else
    let za := a.z * a.z % p384
    let zb := b.z * b.z % p384
    let ua := a.x * zb % p384
    let ub := b.x * za % p384
    let sa := a.y * (zb * b.z) % p384
    let sb := b.y * (za * a.z) % p384
    if ua = ub then (if sa = sb then a.double else { x := 1, y := 1, z := 0 })
    else
      let h := subP ub ua
      let r := subP sb sa
      let hh := h * h % p384
      let hhh := hh * h % p384
      let v := ua * hh % p384
      let x := subP (r * r) (hhh + 2 * v)
      { x := x, y := subP (r * subP v x) (sa * hhh), z := h * (a.z * b.z) % p384 }

/-- k times a point, from the bits of k, the highest first. -/
def CurvePoint.times (q : CurvePoint) (k : Nat) : CurvePoint :=
  (List.range 384).foldl (fun acc i =>
    let acc := acc.double
    if k.testBit (383 - i) then acc.add q else acc) { x := 1, y := 1, z := 0 }

/-- a to the power e modulo m, for e below 2^384. -/
def powMod (a e m : Nat) : Nat :=
  (List.range 384).foldl (fun acc i =>
    let acc := acc * acc % m
    if e.testBit (383 - i) then acc * a % m else acc) 1

/-- The key's point is on the curve, given by coordinates below p. -/
def keyPoint (key : List Byte) : Option CurvePoint :=
  let x := beNat (slice key 1 48)
  let y := beNat (slice key 49 48)
  if x < p384 ∧ y < p384 ∧ y * y % p384 = subP (x * x * x + p384B) (3 * x) then some { x := x, y := y, z := 1 } else none

/-- The verification of a signature (r, s) of a message by a public key: ECDSA on P-384 with SHA-384. -/
def ecdsaValid (key message : List Byte) (r s : Nat) : Bool :=
  match keyPoint key with
  | none => false
  | some q =>
    if 1 ≤ r ∧ r < p384Order ∧ 1 ≤ s ∧ s < p384Order then
      let w := powMod s (p384Order - 2) p384Order
      let u := (sha384 message).toNat * w % p384Order
      let v := r * w % p384Order
      let sum := (CurvePoint.times { x := p384Base.1, y := p384Base.2, z := 1 } u).add (q.times v)
      let zi := powMod sum.z (p384 - 2) p384
      sum.z != 0 && sum.x * (zi * zi % p384) % p384 % p384Order == r
    else false

end Sys2Proof.Machine
end

