-- ==== Sys2Proof/Machine/Harness.lean ====
section
/-! DEFINITION. Harness images (R402 to R416): layout, the checks of R413 in order, the apply point and the load commands. -/

namespace Sys2Proof.Machine

/-! The image (R402 to R408). -/

/-- A record of a section (R405): a register's address, mask and value, or a table entry. -/
inductive HarnessRecord where
  | reg (addr : Nat) (mask value : Word)
  | table (tab idx : Nat) (entry : List Byte)
  deriving DecidableEq, Repr

/-- A section besides the signature (R404). -/
structure HarnessSection where
  sect : Nat
  live : Bool
  recs : List HarnessRecord
  deriving DecidableEq, Repr

/-- Where a check fails: the section type, none where no section is at fault, and the record index (HRNS_ERR_LOC). -/
structure ErrLoc where
  sect : Option Nat
  record : Nat := 0xFFFF
  deriving DecidableEq, Repr

/-- Entry size and number of indices of a load table (R408). -/
def tableShape (sect tab : Nat) : Option (Nat × Nat) :=
  match sect, tab with
  | 1, 0 => some (16, 1)
  | 2, 0 => some (16, 1)
  | 7, 0 => some (8, 1)
  | 7, 1 => some (32, 64)
  | 8, 0 => some (64, 16)
  | 8, 1 => some (16, 128)
  | 8, 2 => some (8, 8)
  | 8, 3 => some (64, 16)
  | 9, 0 => some (88, 256)
  | 9, 1 => some (8, 256)
  | 10, 0 => some (16, 4096)
  | 10, 1 => some (88, 32)
  | 12, 0 => some (8, 1)
  | 13, 0 => some (64, 1)
  | 13, 1 => some (32, 16)
  | 13, 2 => some (32, 1024)
  | 13, 3 => some (32, 1024)
  | 14, 0 => some (16, 4096)
  | _, _ => none

/-- The kind of an image. -/
def imageKind (img : List Byte) : Nat := leAt img 6 1

/-- The body of an image's signature section (R410). -/
def signatureBody (img : List Byte) : List Byte := img.drop (img.length - 200)

/-- One record at the head of a section's body, and what follows it; none where its form is wrong (R405). -/
def readRecord (sect : Nat) (b : List Byte) : Option (HarnessRecord × List Byte) :=
  let len := leAt b 2 2
  let mask := BitVec.ofNat 32 (leAt b 4 4)
  if b.length < 24 ∧ leAt b 0 1 = 1 ∨ b.length < len then none
  else
    match leAt b 0 1 with
    | 1 =>
      let value := BitVec.ofNat 32 (leAt b 16 4)
      if leAt b 1 1 = 0 ∧ len = 24 ∧ leAt b 13 3 = 0 ∧ leAt b 20 4 = 0 ∧ value &&& ~~~mask = 0 then
        some (.reg (leAt b 8 5) mask value, b.drop 24)
      else none
    | 2 =>
      match tableShape sect (leAt b 1 1) with
      | some (n, _) => if len = 8 + n then some (.table (leAt b 1 1) (leAt b 4 4) (slice b 8 n), b.drop len) else none
      | none => none
    | _ => none

/-- The records that fill a body, or the index of the first wrong one; `fuel` bounds them. -/
def readRecords (sect : Nat) : Nat → Nat → List Byte → Except Nat (List HarnessRecord)
  | 0, i, b => if b = [] then .ok [] else .error i
  | fuel + 1, i, b =>
    if b = [] then .ok []
    else
      match readRecord sect b with
      | none => .error i
      | some (r, rest) => (readRecords sect fuel (i + 1) rest).map (r :: ·)

/-- The mask of a register's SH fields. -/
def shMask (a : Nat) : Word :=
  match regAt a with
  | some (d, _, _) => maskWhere d.fields fun f => f.access == .sh
  | none => 0

/-- A record that a live section, or the kind of the image, does not allow (R404, R407). -/
def HarnessRecord.refused (kind sect : Nat) (live : Bool) : HarnessRecord → Bool
  | .reg a m _ => live && (m &&& ~~~shMask a) != 0
  | .table t _ _ => live || (sect == 7 && t == 0 && kind != 0)

/-- The sections up to the signature section, which comes last (R402, R404); `fuel` bounds them. -/
def readSections (kind : Nat) : Nat → Nat → List Byte → Except ErrLoc (List HarnessSection)
  | 0, _, _ => .error { sect := none }
  | fuel + 1, prev, b =>
    let t := leAt b 0 2
    let flags := leAt b 2 2
    let len := leAt b 4 4
    let bad : Except ErrLoc (List HarnessSection) := .error { sect := some t }
    if b.length < 8 + len ∨ len % 8 ≠ 0 ∨ t ≤ prev then bad
    else if t = 0xFFFF then (if flags = 0 ∧ len = 200 ∧ b.length = 208 then .ok [] else bad)
    else if 14 < t ∨ 1 < flags ∨ (t = 2 ∧ kind ≠ 0) then bad
    else
      match readRecords t len 0 (slice b 8 len) with
      | .error i => .error { sect := some t, record := i }
      | .ok rs =>
        match rs.findIdx? fun r => r.refused kind t (flags == 1) with
        | some i => .error { sect := some t, record := i }
        | none => (readSections kind fuel t (b.drop (8 + len))).map ({ sect := t, live := flags == 1, recs := rs } :: ·)

/-- The sections of an image, the signature apart. -/
def imageSections (img : List Byte) : Except ErrLoc (List HarnessSection) :=
  readSections (imageKind img) 16 0 (img.drop 64)

/-- Every record with its section and its index. -/
def allRecords (xs : List HarnessSection) : List (HarnessSection × Nat × HarnessRecord) :=
  xs.flatMap fun x => x.recs.zipIdx.map fun (r, i) => (x, i, r)

/-! Checks 1 to 7 (R413). -/

/-- Check 1: the header. -/
def imageHeaderOk (img : List Byte) : Bool :=
  leAt img 0 4 == 0x534E5248 && leAt img 4 2 == 1 && imageKind img < 3 && leAt img 8 4 == img.length &&
    img.length % 8 == 0 && 256 ≤ img.length && img.length ≤ 1048576 && leAt img 24 4 == (crc32c (img.take 24)).toNat &&
    leAt img 20 4 == 0 && leAt img 28 4 == 0 && leAt img 48 16 == 0

/-- The SHA-384 digest of a key equals the hash fused in a slot (R410). -/
def State.keyMatches (s : State) (k : Nat) (key : List Byte) : Bool :=
  let h := sha384 key
  (List.range 12).all fun i => leBytes 4 (s.reg (Reg.fuseKeyHash k i)).toNat ==
    (List.range 4).map fun j => BitVec.ofNat 8 (h.toNat / 256 ^ (47 - (4 * i + j)))

/-- Check 3: the key slot is fused and not revoked, and the key's digest is the fused hash. -/
def State.keyOk (s : State) (slot : Nat) (img : List Byte) : Bool :=
  slot < 4 && s.bit Reg.fuseKey slot && !s.bit Reg.fuseKey (4 + slot) && s.keyMatches slot ((signatureBody img).take 97)

/-- Check 4: the signature over every byte before the signature section's header (R410). -/
def signatureOk (img : List Byte) : Bool :=
  let b := signatureBody img
  leAt b 0 1 == 4 && ecdsaValid (b.take 97) (img.take (img.length - 208)) (beNat (slice b 100 48)) (beNat (slice b 148 48))

/-- Check 5: the serial (R411). -/
def State.serialOk (s : State) (img : List Byte) : Bool :=
  (s.reg Reg.fuseMinSerial).toNat ≤ leAt img 12 4 && (imageKind img == 0 || (s.reg Reg.hrnsSerial).toNat ≤ leAt img 12 4)

/-- The kind rules of the image as a whole (R407, R412). -/
def State.kindOk (s : State) (img : List Byte) (xs : List HarnessSection) : Bool :=
  let has (t : Nat) : Bool := xs.any fun x => x.sect == t
  let started := s.bit Reg.hrnsStatus 30
  match imageKind img with
  | 0 => [1, 2, 3, 4, 5, 6, 7, 12].all has && !started
  | 1 => started
  | _ => started && xs.all (·.live)

/-- Check 6: the structure, with the signature section's zero bytes (R402 to R405, R407, R410, R412). -/
def State.structureOf (s : State) (img : List Byte) : Except ErrLoc (List HarnessSection) :=
  match imageSections img with
  | .error e => .error e
  | .ok xs =>
    let b := signatureBody img
    if leAt img 18 2 ≠ xs.length + 1 ∨ !s.kindOk img xs then .error { sect := none }
    else if leAt b 97 3 ≠ 0 ∨ leAt b 196 4 ≠ 0 then .error { sect := some 0xFFFF }
    else .ok xs

/-- Check 7: FUSE_LIMITS against the fuses of this part (R413); a section without a valid entry fails (DESIGN CHOICE,
unsafe, log 23). -/
def State.limitsFail (s : State) (xs : List HarnessSection) : Option ErrLoc :=
  let ok (r : HarnessRecord) : Bool := match r with
    | .table 0 _ e =>
      leAt e 0 1 == 1 && s.bits Reg.fusePart 15 12 ≤ leAt e 1 1 && leAt e 2 2 ≤ s.bits Reg.fusePart 23 16 &&
        bitOf (leAt e 4 1) (s.bits Reg.fusePart 1 0) && leAt e 5 1 == 0xB0
    | _ => true
  match xs.find? fun x => x.sect == 1 with
  | none => none
  | some x =>
    match x.recs.findIdx? fun r => !ok r with
    | some i => some { sect := some 1, record := i }
    | none => if x.recs = [] then some { sect := some 1 } else none

/-! Check 8: ownership and validation (R406, R408, R409). -/

/-- A range of register rows that a section owns, with the RO bits that the manual says it sets. -/
abbrev Owned := List (Nat × Word)

/-- The rows, by first address, that a section's register records may name (R407) and their RO bits (R406). -/
def ownedRows : Nat → Owned
  | 2 => [(Reg.timeFsyncStartLo 0, 0), (Reg.timeFsyncStartHi 0, 0), (Reg.timeFsyncPeriod 0, 0), (Reg.timeFsyncCtrl 0, 0)]
  | 3 => [(Reg.fldFurrowsLo 0, ~~~0#32), (Reg.fldFurrowsHi 0, ~~~0#32), (Reg.fldQuiesce 0, 0), (Reg.fldPark 0, 0),
      (Reg.fldGleanAddrLo 0, 0), (Reg.fldGleanAddrHi 0, 0), (Reg.yokeRate 0 0, 0), (Reg.yokeDepth 0 0, 0),
      (Reg.furHwBucket 0 0, 0x7FFFFF#32)]
  | 4 => [(Reg.headVcWeight 0, 15#32)]
  | 5 => [(Reg.fldHoppers 0, ~~~0#32)]
  | 6 => [(Reg.furSbCtrl 0, 0x1F8000#32), (Reg.furSbSlotRange 0 0, ~~~0#32), (Reg.furSbSlotGen 0 0, 0xF00000#32)]
  | 7 => [(Reg.fldDramBaseLo 0, ~~~0#32), (Reg.fldDramBaseHi 0, ~~~0#32), (Reg.fldDramLimitLo 0, ~~~0#32),
      (Reg.fldDramLimitHi 0, ~~~0#32), (Reg.dramTrainCtrl, 0xFF000000#32)]
  | 8 => [(Reg.intkPipeCtrl 0, 0x01FC00FF#32), (Reg.intkPipeSeed 0, 0), (Reg.intkPipeBl 0 0, 0), (Reg.intkPipeGain 0 0, 0),
      (Reg.intkPipeCheckExp 0, 0), (Reg.intkPipeCheckLast 0, 0), (Reg.intkPipeFrames 0, 0), (Reg.intkPipeState 0, 0),
      (Reg.intkPipeDrop 0, 0), (Reg.intkPipeErr 0, 0), (Reg.intkPipeCaptureLo 0, 0), (Reg.intkPipeCaptureHi 0, 0)]
  | 9 => [(Reg.reinChSrcSp 0, ~~~0#32), (Reg.reinChSrcPv 0, ~~~0#32), (Reg.reinChSrcFf 0, ~~~0#32),
      (Reg.reinChDest 0, ~~~0#32)] ++
    (List.range 16).map (fun i => (0x5000070100 + 4 * i, 0)) ++
    (List.range 12).map fun i => (0x5000074110 + 4 * i, 0)
  | 10 => [(Reg.brdlChCtrl 0, 12#32), (Reg.brdlChNbt 0, ~~~0#32), (Reg.brdlChDbt 0, ~~~0#32)]
  | 11 => [(Reg.tackCfg 0, 15#32), (Reg.chuteCfg 0, 0x8000000F#32)]
  | 12 => [(Reg.safePin, 0), (Reg.safeWdt, 0), (Reg.safeTallyCtrl, 0), (Reg.safeCpPeriod, ~~~0#32),
      (Reg.safeCpWindow, ~~~0#32), (Reg.safeCpTransient, ~~~0#32), (Reg.safeFurPhase 0, ~~~0#32),
      (Reg.safeMgCfg 1, 0x03FF0000#32), (Reg.safeMgPeriod 1, 0), (Reg.safeMgPhase 1, 0), (Reg.safeMgWidth 1, 0),
      (Reg.safeMgAge 1, 0), (Reg.safeMgStatus 1, 0), (Reg.safeMgLastAge 1, 0)]
  | 13 => [(Reg.droveRto, 0), (Reg.drovePeer 0, 0)]
  | _ => []

/-- The hopper and word that an address of the hopper table names, for words 0 and 1 of a Field hopper. -/
def hopperWord (a : Nat) : Option (Nat × Nat) :=
  let off := a - 0x4800000000
  if 0x4800000000 ≤ a ∧ off < 32 * sysHopper ∧ (off % 32 = 0 ∨ off % 32 = 4) then some (off / 32, off % 32 / 4) else none

/-- The bits of a register that a section's record may cover (R406); none where the section does not own it. -/
def ownedMask (sect a : Nat) : Option Word :=
  match hopperWord a with
  | some (_, w) => if sect = 5 then some (if w = 0 then ~~~0#32 else 0x03FFFFFF#32) else none
  | none =>
    match regAt a with
    | none => none
    | some (d, _, _) =>
      match (ownedRows sect).find? fun o => o.1 == d.base with
      | none => none
      | some (_, ro) =>
        some (maskWhere d.fields (fun f => f.access == .sh || f.access == .rw) |||
          (ro &&& maskWhere d.fields fun f => f.access == .ro))

/-- A record breaks R406, R408 or R409 by itself. -/
def HarnessRecord.invalid (sect : Nat) : HarnessRecord → Bool
  | .reg a m _ =>
    match ownedMask sect a with
    | some o => (m &&& ~~~o) != 0
    | none => true
  | .table t i e =>
    let count := match tableShape sect t with
      | some (_, c) => c
      | none => 0
    count ≤ i || 1 < leAt e 0 1 || (leAt e 0 1 == 0 && e.any (· != 0))

/-- Two register records whose masks share a bit of one register (R406). -/
def HarnessRecord.overlaps : HarnessRecord → HarnessRecord → Bool
  | .reg a m _, .reg b n _ => a == b && (m &&& n) != 0
  | _, _ => false

/-- The first record that breaks R406, R408 or R409; `seen` are the records before it. -/
def firstInvalid (seen : List HarnessRecord) : List (HarnessSection × Nat × HarnessRecord) → Option ErrLoc
  | [] => none
  | (x, i, r) :: rest =>
    if r.invalid x.sect || seen.any r.overlaps then some { sect := some x.sect, record := i } else firstInvalid (r :: seen) rest

/-- Write a word of a hopper's state entry (R195); a new base or k empties the hopper (R414). -/
def loadHopperWord (s : State) (h w : Nat) (mask value : Word) : State :=
  let x := s.hopper h
  let old := leNat ((s.hopperBytes h).take 8)
  let word := BitVec.ofNat 32 (old / 2 ^ (32 * w))
  let new := ((word &&& ~~~mask) ||| (value &&& mask)).toNat
  let v := if w = 0 then old / 2 ^ 32 * 2 ^ 32 + new else old % 2 ^ 32 + new * 2 ^ 32
  let y := { x with base := bitsOf v 39 0, k := bitsOf v 43 40, field := bitsOf v 46 44, cls := bitsOf v 48 47
                    furrow := bitsOf v 54 49, retries := bitsOf v 56 55, enable := bitOf v 57 }
  s.setHopper h (if y.base = x.base ∧ y.k = x.k then y
    else { y with head := 0, tail := 0, done := 0, stage := .idle, inflight := false, tries := 0 })

/-- Put a table entry in place or remove it, with the registers that show it (R408, R409). -/
def loadEntry (s : State) (sect tab idx : Nat) (e : List Byte) : State :=
  let on := leAt e 0 1 == 1
  let s := s.setEntry sect tab idx (if on then e else [])
  match sect, tab with
  | 7, 0 =>
    let s := s.setReg Reg.dramCfg (BitVec.ofNat 32 (leAt e 1 1 % 8 + leAt e 3 1 % 2 * 8 + leAt e 2 1 % 4 * 16))
    s.setBits Reg.dramTrainCtrl 31 24 (leAt e 4 1)
  | 8, 0 =>
    let s := s.setBits (Reg.intkPipeCtrl idx) 3 0 (if on then leAt e 2 1 else 15)
    s.setBits (Reg.intkPipeCtrl idx) 7 4 (leAt e 3 1)
  | 8, 2 =>
    let lanes := leAt e 1 1
    let code := if !on then 0 else if lanes = 1 then 1 else if lanes = 2 then 2 else if lanes = 4 then 3 else 0
    s.setBits (Reg.intkRxStatus idx) 2 1 code
  | 13, 0 => forUpTo 4 (fun q s => s.setBit (Reg.drovePortStatus q) 1 (bitOf (leAt e 1 1) 0)) s
  | 13, 1 => s.setBit (Reg.drovePeer idx) 0 on
  | _, _ => s

/-- Lay a record's hopper word or table entry over the device. FUSE_LIMITS is never applied (R407). -/
def loadRecord (s : State) (sect : Nat) : HarnessRecord → State
  | .reg a m v =>
    match hopperWord a with
    | some (h, w) => loadHopperWord s h w m v
    | none => s
  | .table t i e => if sect = 1 then s else loadEntry s sect t i e

/-- The register settings of an image: address, mask and value. -/
def registerSettings (xs : List HarnessSection) : List (Nat × Word × Word) :=
  (allRecords xs).filterMap fun (_, _, r) => match r with
    | .reg a m v => if (hopperWord a).isSome then none else some (a, m, v)
    | .table _ _ _ => none

/-- The device as it would stand after an image. -/
def State.after (s : State) (xs : List HarnessSection) : State :=
  let s := (registerSettings xs).foldl (fun s (a, m, v) => s.setReg a ((s.reg a &&& ~~~m) ||| (v &&& m))) s
  (allRecords xs).foldl (fun s (x, _, r) => loadRecord s x.sect r) s

/-- The SAFETY section selects the Fenced profile. -/
def State.selectsFenced (s : State) : Bool := s.entryAt 12 0 0 1 1 == 1

/-- Every rule of the manual under which a setting fails harness validation. -/
def loadRules (s : State) : List Broken :=
  let fenced := s.selectsFenced
  clockRules s ++ forAll 8 (fieldRules s) ++ forAll 8 (weightRules s) ++ forAll 64 (bucketRules s) ++
  s.hoppers.flatMap (fun (h, x) => hopperRules s h x) ++ forAll 64 (seedbedRules s) ++ forAll 64 (regionRules s) ++
  forAll 16 (intakeRules s) ++ forAll 8 (receiverRules s) ++ forAll 256 (reinLoadRules s) ++ forAll 8 (bridleRules s) ++ forAll 8 (safeFrameRules s) ++
  forAll 24 (lengthRules s) ++ acceptanceRules s ++
  forAll 256 (expertRules s) ++ liveRules s fenced ++ safetyRules s fenced

/-- The record of an image that makes a setting. -/
def recordOf (xs : List HarnessSection) (x : Setting) : Option ErrLoc :=
  (allRecords xs).findSome? fun (y, i, r) =>
    let hit := match r, x with
      | .reg a _ _, .reg b => a == b
      | .table t k _, .table sect tab idx => y.sect == sect && t == tab && k == idx
      | _, _ => false
    if hit then some { sect := some y.sect, record := i } else none

/-- Check 8. -/
def State.validationFail (s : State) (xs : List HarnessSection) : Option ErrLoc :=
  match firstInvalid [] (allRecords xs) with
  | some e => some e
  | none =>
    let t := s.after xs
    match loadRules t with
    | [] => ((registerSettings xs).find? fun (a, _, _) => periodBroken t a).bind fun (a, _, _) => recordOf xs (.reg a)
    | b :: _ => some ((b.findSome? (recordOf xs)).getD { sect := none })

/-! Check 9: the conditions of R407 and R414. -/

/-- A Field is idle: unconfigured, ready, quiesced or stopped (R407). -/
def State.idleField (s : State) (f : Nat) : Bool :=
  [fldUnconfigured, fldReady, fldQuiesced, fldStopped].contains (s.fieldState f)

/-- Every Field is idle. -/
def State.allIdle (s : State) : Bool := (List.range 8).all s.idleField

/-- The Field of a Furrow, if any, is idle. -/
def State.idleFurrow (s : State) (n : Nat) : Bool := (s.fieldOf n).all s.idleField

/-- Rein n is off, and so is every rein that names it as a kind-5 source. -/
def State.reinFree (s : State) (n : Nat) : Bool :=
  !s.reinOn n && (List.range 256).all fun m => !((s.sourcesOf m).contains n) || !s.reinOn m

/-- Both chutes of a Tack port are empty and every rein that names the port is off; the port sends nothing between
commands. -/
def State.portQuiet (s : State) (n : Nat) : Bool :=
  (s.chute (2 * n)).words.isEmpty && (s.chute (2 * n + 1)).words.isEmpty &&
    (List.range 256).all fun m =>
      let names (a : Nat) : Bool := s.bits a 31 29 == 3 && s.bits a 27 17 == n
      !s.reinOn m || !(names (Reg.reinChSrcSp m) || names (Reg.reinChSrcPv m) || names (Reg.reinChSrcFf m) ||
        (s.bits (Reg.reinChDest m) 31 30 == 1 && s.bits (Reg.reinChDest m) 29 26 == n))

/-- A pipeline is disabled and in state 0. -/
def State.pipeFree (s : State) (p : Nat) : Bool := !s.bit (Reg.intkPipeCtrl p) 31 && s.pipeState p == 0

/-- The Fields of a DRAM_MAP region entry: its writer and its readers. -/
def regionFields (e : List Byte) : List Nat :=
  if leAt e 0 1 = 0 then [] else leAt e 1 1 :: (List.range 8).filter (bitOf (leAt e 2 1))

/-- The Fields that own a hopper: the one whose range holds it and, once its entry is set, the entry's (R192, R195; DEDUCED,
unsafe, log 84). -/
def State.hopperOwners (s : State) (h : Nat) : List Nat :=
  (List.range 8).filter (fun f => s.hopperIn f h) ++
    (if leNat ((s.hopperBytes h).take 8) = 0 then [] else [(s.hopper h).field])

/-- The condition under which a register record of a section applies; `t` is the device after the image. -/
def State.registerFree (s t : State) (sect a : Nat) (mask value : Word) : Bool :=
  let within (base stride count : Nat) : Option Nat :=
    if base ≤ a ∧ a < base + stride * count then some ((a - base) / stride) else none
  match hopperWord a with
  | some (h, w) =>
    let x := s.hopper h
    let y := (loadHopperWord s h w mask value).hopper h
    let moved := x.base != y.base || x.k != y.k || x.field != y.field || x.furrow != y.furrow
    !(x.inflight && moved) && (s.hopperOwners h ++ t.hopperOwners h).all s.idleField
  | none =>
    let ofField := match within (Reg.fldCtrl 0) 0x100 8 with
      | some f => s.idleField f
      | none => true
    let ofYoke := match within (Reg.yokeRate 0 0) 0x40 8 with
      | some f => s.idleField f
      | none => true
    let ofFurrow := match within 0x4000000000 0x1000000 64 with
      | some n => s.idleFurrow n
      | none => true
    match sect with
    | 8 => (within (Reg.intkPipeCtrl 0) 0x40 16).all s.pipeFree
    | 9 => (within (Reg.reinChCtrl 0) 0x40 256).all s.reinFree && (within (Reg.reinChSrcSp 0) 0x40 256).all s.reinFree
    | 10 => (within (Reg.brdlChCtrl 0) 0x100 8).all fun c => s.bits (Reg.brdlChCtrl c) 1 0 == 0
    | 11 => (within (Reg.tackCfg 0) 0x20 12).all s.portQuiet && (within (Reg.chuteCfg 0) 0x20 24).all fun c => s.portQuiet (c / 2)
    | _ => ofField && ofYoke && ofFurrow

/-- The condition under which a table record of a section applies. -/
def State.entryFree (s : State) (sect tab idx : Nat) (e : List Byte) : Bool :=
  let old := s.entry sect tab idx
  let channelOff (x : List Byte) : Bool := leAt x 0 1 == 0 || s.bits (Reg.brdlChCtrl (leAt x 1 1)) 1 0 == 0
  match sect, tab with
  | 7, 1 => (regionFields old ++ regionFields e).all s.idleField
  | 8, 0 => s.pipeFree idx
  | 8, 1 => s.pipeFree (idx / 8)
  | 8, 2 => (List.range 16).all fun p => !(s.hasEntry 8 0 p && s.pipeAt p 2 1 == idx) || s.pipeFree p
  | 8, 3 => s.pipeFree idx
  | 9, 0 => s.reinFree idx
  | 9, 1 => [old, e].all fun x => leAt x 0 1 == 0 || s.idleField (leAt x 1 1)
  | 10, 0 => channelOff old && channelOff e
  | 10, 1 => s.bits (Reg.brdlChCtrl (idx / 4)) 1 0 == 0
  | _, _ => true

/-- A record's condition holds (R407). -/
def State.recordFree (s t : State) (kind : Nat) (x : HarnessSection) (r : HarnessRecord) : Bool :=
  if x.live ∨ x.sect ≤ 2 then true
  else if x.sect = 12 then kind == 0 || s.allIdle
  else if x.sect = 4 ∨ x.sect = 13 ∨ x.sect = 14 then s.allIdle
  else
    match r with
    | .reg a m v => s.registerFree t x.sect a m v
    | .table t i e => s.entryFree x.sect t i e

/-- Check 9. -/
def State.conditionFail (s : State) (kind : Nat) (xs : List HarnessSection) : Option ErrLoc :=
  let t := s.after xs
  (allRecords xs).findSome? fun (x, i, r) =>
    if s.recordFree t kind x r then none else some { sect := some x.sect, record := i }

/-! The apply point (R416). -/

/-- The image holds a table entry. -/
def namesEntry (xs : List HarnessSection) (sect tab idx : Nat) : Bool :=
  (allRecords xs).any fun (x, _, r) => match r with
    | .table t i _ => x.sect == sect && t == tab && i == idx
    | .reg _ _ _ => false

/-- The image holds a record of a register. -/
def namesReg (xs : List HarnessSection) (a : Nat) : Bool :=
  (allRecords xs).any fun (_, _, r) => match r with
    | .reg b _ _ => a == b
    | .table _ _ _ => false

/-- The image holds a record of a register of Field f. -/
def namesField (xs : List HarnessSection) (f : Nat) : Bool :=
  (allRecords xs).any fun (_, _, r) => match r with
    | .reg b _ _ => (Reg.fldCtrl f ≤ b && b < Reg.fldCtrl f + 0x100) || (Reg.yokeRate f 0 ≤ b && b < Reg.yokeRate f 0 + 0x40)
    | .table _ _ _ => false

/-- A fenced Furrow's bit leaves every Field's mask when a harness is applied (R393, R445). -/
def clearFenced (s : State) : State :=
  forUpTo 64 (fun n s =>
    if s.bits (Reg.furStatus n) 2 0 = 3 then
      forUpTo 8 (fun f s =>
        if n < 32 then s.setBit (Reg.fldFurrowsLo f) n false else s.setBit (Reg.fldFurrowsHi f) (n - 32) false) s
    else s) s

/-- Furrow n's Field follows the masks (R27). -/
def placeFurrow (s : State) (n : Nat) : State :=
  match (List.range 8).find? fun f => bitOf (s.furrowMask f) n with
  | some f => (s.setBit (Reg.furStatus n) 7 true).setBits (Reg.furStatus n) 6 4 f
  | none => (s.setBit (Reg.furStatus n) 7 false).setBits (Reg.furStatus n) 6 4 0

/-- A Field gains or loses its configuration (R200). -/
def configureField (s : State) (f : Nat) : State :=
  let st := s.fieldState f
  let some' := s.furrowMask f != 0
  let s := if st = fldUnconfigured ∧ some' then setFieldState s f fldReady
    else if !some' ∧ [fldReady, fldQuiesced, fldStopped].contains st then setFieldState s f fldUnconfigured
    else s
  s.setBit (Reg.pcieFn (f + 1)) 0 (s.fieldState f != fldUnconfigured)

/-- A slot takes its harness values: its readers remain when the generation is odd (R135, R139). -/
def startSlot (s : State) (n k : Nat) : State :=
  let r := Reg.furSbSlotGen n k
  s.setBits r 19 16 (if s.bits r 15 0 % 2 = 1 then s.bits r 23 20 else 0)

/-- The first run of Furrow n whose latest start has not passed (R390). -/
def startRuns (s : State) (n : Nat) : State :=
  let phase := (s.reg (Reg.safeFurPhase n)).toNat
  let f := s.furrow n
  s.setFurrow n { f with run := { f.run with
    due := false, nextK := if s.now ≤ phase then 0 else ceilDiv (s.now - phase) (s.reg Reg.safeCpPeriod).toNat } }

/-- The profile (R3, R400, R456). -/
def decideProfile (s : State) : State :=
  let fenced := s.selectsFenced && s.bit Reg.safeStatus 6 && !s.bit Reg.reeveChain 30 && !s.bit Reg.reeveChain 29
  s.setBits Reg.safeStatus 1 0 (bval fenced)

/-- The Rein engine's sources of an image start afresh: a mailbox slot not written, a sample bank not filled, an object not
received since the load (R307, R356): all of them for a kind 0 image, those whose entry or chute a kind 1 image names
(DEDUCED, unsafe, log 76). -/
def freshSources (s : State) (all : Bool) (xs : List HarnessSection) : State :=
  let bank (p : Nat) (b : SampleBank) : SampleBank :=
    if all || namesReg xs (Reg.chuteCfg (2 * p)) then { b with valid := false } else b
  let s := { s with rein := { s.rein with
    written := s.rein.written.filter fun (m, _) => !(all || namesEntry xs 9 1 m)
    banks := s.rein.banks.map fun (p, b) => (p, bank p b) } }
  let named (o : Nat) : Bool := (allRecords xs).any fun (x, _, r) => match r with
    | .table 0 _ e => x.sect == 10 && leAt e 8 2 == o
    | _ => false
  let object (o : Nat) (b : BridleObject) : BridleObject := if all || named o then { b with valid := false, seq := 0 } else b
  { s with objects := s.objects.map fun (o, b) => (o, object o b) }

/-- The totals of LASTs start again with the rounds of the receive buffers (R228, R416): a kind 0 image's all of them, a kind 1 image's
those of this chip's buffers that its records name. -/
def freshTotals (s : State) (all : Bool) (xs : List HarnessSection) : State :=
  let named (k : Nat) : Bool := all || (k / 1024 == s.chipId && namesEntry xs 13 2 (k % 1024))
  { s with drove := { s.drove with totals := s.drove.totals.filter fun (k, _) => !named k } }

/-- An image takes effect (R416): a kind 0 image over the whole device, a kind 1 image over what its records name. -/
def applyImage (s : State) (kind : Nat) (xs : List HarnessSection) : State :=
  let all := kind == 0
  let s := settleLate s
  let t := applySettings s (registerSettings xs)
  let t := (allRecords xs).foldl (fun s (x, _, r) => loadRecord s x.sect r) t
  let t := forUpTo 8 (fun f s => if all || namesField xs f then configureField s f else s)
    (forUpTo 64 (fun n s => placeFurrow s n) (clearFenced t))
  let t := forUpTo 64 (fun n s => forUpTo 256 (fun k s =>
    if all || namesReg xs (Reg.furSbSlotGen n k) || namesReg xs (Reg.furSbSlotRange n k) then startSlot s n k else s) s) t
  let t := forUpTo 1024 (fun x s => if all || namesEntry xs 13 2 x then startRound s x 0 else s) t
  let t := forUpTo 16 (fun p s => if all || namesEntry xs 8 0 p then restartPipe s p else s) t
  let t := forUpTo 64 (fun n s =>
    if all || differ s t Reg.safeCpPeriod || differ s t (Reg.safeFurPhase n) then startRuns s n else s) t
  let t := if all || namesEntry xs 12 0 0 then decideProfile t else t
  let t := freshSources t all xs
  let t := if all then t.setBit Reg.hrnsStatus 30 true else t
  if xs.any fun x => x.sect == 13 then
    forUpTo 4 (fun q s => openStreams s q) (freshTotals t all xs)
  else t

/-! A load (R413, R415, R416). -/

/-- A 0x0B cause of the loader: HRNS_STATUS.cause and its entry; a cause with no section has a free info (DESIGN CHOICE,
unsafe, log 23). -/
def loadCause (s : State) (cause cls : Nat) (loc : Option ErrLoc) : State :=
  let s := s.setBits Reg.hrnsStatus 23 16 cause
  match loc with
  | some { sect := some t, record := r } => s.raise { code := 0x0B00 + cause, cls := cls, info := some (t + 0x10000 * r) }
  | _ => s.raise { code := 0x0B00 + cause, cls := cls }

/-- A failed check ends the load (R413). -/
def rejectLoad (s : State) (check : Nat) (loc : ErrLoc) : State :=
  let (v, s) := s.takeFree
  let s := s.setReg Reg.hrnsErrLoc (BitVec.ofNat 32 (loc.sect.getD (v.toNat % 65536) % 65536 * 65536 + loc.record % 65536))
  let s := { s with loader := { s.loader with passed := false } }
  endLoad (loadCause s check (if 3 ≤ check ∧ check ≤ 5 then 2 else 0) (some loc)) 2

/-- The checks of R413 that a list names, up to 8, in order: the sections, or the first failing check. -/
def runChecks (s : State) (img : List Byte) (wanted : Nat → Bool) : Except (Nat × ErrLoc) (List HarnessSection) :=
  let nowhere : ErrLoc := { sect := none }
  if wanted 1 ∧ !imageHeaderOk img then .error (1, nowhere)
  else if wanted 2 ∧ !(s.addressed && bitOf (leAt img 16 2) s.chipId) then .error (2, nowhere)
  else if wanted 3 ∧ !s.keyOk (leAt img 7 1) img then .error (3, nowhere)
  else if wanted 4 ∧ !signatureOk img then .error (4, nowhere)
  else if wanted 5 ∧ !s.serialOk img then .error (5, nowhere)
  else
    match s.structureOf img with
    | .error e => .error (6, e)
    | .ok xs =>
      match s.limitsFail xs with
      | some e => .error (7, e)
      | none =>
        if wanted 8 then
          match s.validationFail xs with
          | some e => .error (8, e)
          | none => .ok xs
        else .ok xs

/-- A kind 2 image is shadowed and fastened by requester 10 at the boundary that HRNS_CTRL holds (R412, R416). -/
def fastenImage (s : State) (xs : List HarnessSection) : State :=
  let id := s.bits Reg.hrnsCtrl 15 0
  let open' := s.buckleState 10 == 0 && !s.kind1Busy
  let s := { s with loader := { s.loader with passed := true } }
  let s := openBuckle s 10 (if id = 0 then 0xFFFF else id)
  if !open' then endLoad (s.setBits Reg.hrnsStatus 23 16 0x20) 2
  else
    let s := (registerSettings xs).foldl (fun s (a, m, v) => shadowWrite s 10 a m v) s
    fasten s 10 (s.bits Reg.hrnsCtrl 25 24) (s.bits Reg.hrnsCtrl 23 16)

/-- The staged image goes through its checks to its apply point, or to requester 10 (R413, R416). -/
def applyLoad (s : State) : State :=
  if !s.bit Reg.hrnsStatus 31 || s.loader.passed then s
  else
    let img := s.loader.staging
    match runChecks s img (fun _ => true) with
    | .error (c, e) => rejectLoad s c e
    | .ok xs =>
      if imageKind img = 2 then fastenImage s xs
      else
        match s.conditionFail (imageKind img) xs with
        | some e => rejectLoad s 9 e
        | none => endLoad (loadCause (recordImage (applyImage s (imageKind img) xs)) 0x0C 0 none) 1

/-- An image starts to load from its staged copy. -/
def beginLoad (s : State) (img : List Byte) : State :=
  let s := { s with loader := { staging := img } }
  (s.setBit Reg.hrnsStatus 31 true).setBits Reg.hrnsStatus 28 27 (imageKind img)

/-- The image of the length in its header at an address, copied up to the size of the staging memory (R415). -/
def State.imageAt (s : State) (a : Nat) : List Byte := s.bytes a (min (s.le (a + 8) 4) 1048576)

/-- HRNS_SRC. -/
def State.loadSource (s : State) : Nat := s.reg64 Reg.hrnsSrcLo Reg.hrnsSrcHi

/-- A load request is refused (R415, R440). -/
def State.loadRefused (s : State) (r : Requester) : Bool :=
  let a := s.loadSource
  let place := match s.region a with
    | some .dram => true
    | some .sram => true
    | some .flash => true
    | _ => false
  s.bit Reg.hrnsStatus 31 || !place || a % 8 != 0 || (r == .mgmt && !s.bit Reg.reeveBoot 31) ||
    (s.le (a + 6) 1 == 1 && (List.range 11).any fun r => s.buckleState r != 0)

/-- HRNS_CTRL.load (R415). -/
def requestLoad (s : State) (r : Requester) : State :=
  if (r ≠ .reeve ∧ r ≠ .mgmt) ∨ !s.recoveryReach r Reg.hrnsCtrl then deniedAccess s r Reg.hrnsCtrl
  else if s.loadRefused r then loadCause s 0x0B 0 none
  else
    let a := s.loadSource
    let img := s.imageAt a
    beginLoad (noteRead s a img.length) img

/-- HARNESS_LOAD. -/
def execHarnessLoad (req : Requester) (s : State) : Result := live s <| requestLoad s req

/-- HARNESS_APPLY: the checks of R413 and the apply point of a load in progress. -/
def execHarnessApply (s : State) : Result := live s <| applyLoad s

end Sys2Proof.Machine
end

