-- ==== Sys2Proof/Machine/Boot.lean ====
section
/-! DEFINITION. Resets and start-up (spec 16_bringup.md R435 to R451, 17_package_and_electrical.md R471 to R474): what
each reset keeps (R334 for the reins), the steps of the cold, full and fast paths, firmware recovery. A start is one
command: its steps take their effect together at the tick the start ends (DESIGN CHOICE, unsafe, log 25). -/

namespace Sys2Proof.Machine

/-! What a reset keeps (R20, R447). -/

/-- A register after a reset that keeps the fields `p` names and the bits of `extra`. -/
def keepReg (p : FieldDesc → Bool) (extra : Nat → Word) (a : Nat) (v : Word) : Word :=
  match regAt a with
  | some (d, _, _) =>
    let m := maskWhere d.fields p ||| extra a
    (v &&& m) ||| (regReset a &&& ~~~m)
  | none => regReset a

/-- All registers after a reset. -/
def keepRegs (p : FieldDesc → Bool) (extra : Nat → Word) (m : SMap Word) : SMap Word :=
  m.foldr (fun (a, v) r => mapSet (regReset a) r a (keepReg p extra a v)) []

/-- The flash window (R30). -/
def inFlash (a : Nat) : Bool := 0x6000000000 ≤ a && a < 0x6010000000

/-- The Reeve SRAM (R30). -/
def inSram (a : Nat) : Bool := 0x5800000000 ≤ a && a < 0x5800200000

/-- The device held by PORST_N: every field but a fuse at its Reset value, and only the flash keeps its contents (R20). The
pins that the board drives keep their levels; FAULT_DYN holds its own (R473). An EXTEST that is the TAP's instruction takes effect
(R486). -/
def powerReset (s : State) : State :=
  { pending := s.pending
    regs := keepRegs (fun f => f.keep == .fuse) (fun _ => 0) s.regs
    mem := s.mem.filter fun (a, _) => inFlash a
    pins := { s.pins with porst := true, outputsZ := true, zUntil := 0, pllLocked := false, coldDue := false, chainHead := false }
    boot := { fusedRows := s.boot.fusedRows }
    outbox := s.outbox ++ (if s.pins.tap = 3 then [.pins s.pins.boundary] else [])
    freeCount := s.freeCount }

/-- PORST_ASSERT. -/
def execPorstAssert (s : State) : Result := always s (powerReset s)

/-- VIN falls below 1.50 V: the device resets as if PORST_N had been asserted (R471). -/
def execVinBrownout (s : State) : Result :=
  let t := powerReset s
  always s { t with pins := { t.pins with vinUp := false } }

/-- VIN passes 1.60 V rising: the rails start (R471); the device stays in reset until PORST_N is released. -/
def execVinRise (s : State) : Result := always s { s with pins := { s.pins with vinUp := true } }

/-- Bits outside WR fields that WARM_N keeps: the clock's state (R447), and the flags that stay set until PORST_N (R331,
R456). -/
def warmExtra (a : Nat) : Word :=
  if a = Reg.clkStatus then 12
  else if a = Reg.reinStatus then 1
  else if a = Reg.reeveChain then 0x60000000
  else 0

/-- The output balls are high-impedance but for FAULT_N, FAULT_DYN and the DRAM balls (R473). -/
def State.highZ (s : State) : Bool := s.pins.outputsZ || decide (s.now < s.pins.zUntil)

/-- A retraining of a channel or of a link is in progress. -/
def State.retraining (s : State) : Bool := s.bit Reg.dramStatus 8 || s.links.current.isSome

/-- WARM_N registers low (R447, R448): the clocks, TIME_NOW, the WR fields, the Reeve SRAM, DRAM and the warm token survive.
The token loses its complete flag when the fall meets a slice of a retraining or a start before its end. For the first 1 µs the
outputs are high-impedance (R473). -/
def warmReset (s : State) (midSlice : Bool) : State :=
  let broken := (midSlice && s.retraining) || s.starting
  let s := if broken then s.mapToken fun t => { t with complete := false } else s
  { pending := s.pending
    regs := keepRegs (fun f => f.keep != .none) warmExtra s.regs
    mem := s.mem.filter fun (a, _) => a < 0x2000000000 || inSram a || inFlash a
    marks := s.marks.filter fun (g, _) => 32 * g < 0x2000000000 || inSram (32 * g)
    time := { now := s.time.now, phase := s.time.phase, ticksDue := s.time.ticksDue }
    pins := { s.pins with warm := true, zUntil := s.now + 6400 }
    rein := { silent := s.rein.silent }
    boot := { token := s.boot.token, spares := s.boot.spares, fusedRows := s.boot.fusedRows }
    outbox := s.outbox
    freeCount := s.freeCount }

/-- WARM_ASSERT: without effect on a device in reset by PORST_N, but for the level (R473). -/
def execWarmAssert (midSlice : Bool) (s : State) : Result :=
  always s (if s.pins.porst || s.pins.coldDue then { s with pins := { s.pins with warm := true } }
    else if s.pins.warm then s
    else warmReset s midSlice)

/-! Flash (R432, R437). -/

/-- First address of the flash window. -/
def flashBase : Nat := 0x6000000000

/-- A directory copy has its magic and its CRC. -/
def directoryOk (b : List Byte) : Bool := leAt b 0 4 == 0x52444C4A && leAt b 124 4 == (crc32c (b.take 124)).toNat

/-- The flash directory, and whether its copy is used; empty where neither is good. -/
def State.directory (s : State) : List Byte × Bool :=
  let a := s.bytes flashBase 128
  let b := s.bytes (flashBase + 0x10000) 128
  if directoryOk a then (a, false) else if directoryOk b then (b, true) else ([], false)

/-- The flash offset of the entry of a kind and slot. -/
def slotOffset (dir : List Byte) (kind slot : Nat) : Option Nat :=
  ((List.range (min (leAt dir 6 2) 8)).find? fun i => leAt dir (16 + 12 * i) 1 == kind && leAt dir (17 + 12 * i) 1 == slot).map
    fun i => leAt dir (20 + 12 * i) 4

/-- Longest firmware image (R437). -/
def longestFirmware : Nat := 2097152 + 64 + 208

/-- The firmware image at an address, by the length in its header. -/
def State.firmwareAt (s : State) (a : Nat) : List Byte := s.bytes a (min (s.le (a + 8) 4) longestFirmware)

/-- The slots of a kind that the directory names, the higher serial first: (slot, image). The serial of a firmware image and
of a harness image both lie in bytes 12 to 15 of the header, whatever length it gives (R433). -/
def State.slotImages (s : State) (kind : Nat) (read : Nat → List Byte) : List (Nat × List Byte) :=
  let (dir, _) := s.directory
  let image (off k : Nat) : Nat × List Byte := (k, read (flashBase + off))
  let serial (off : Nat) : Nat := s.le (flashBase + off + 12) 4
  match slotOffset dir kind 0, slotOffset dir kind 1 with
  | some a, some b => if serial a < serial b then [image b 1, image a 0] else [image a 0, image b 1]
  | some a, none => [image a 0]
  | none, some b => [image b 1]
  | none, none => []

/-- The bytes of a firmware image between its header and its signature section. -/
def firmwareBody (img : List Byte) : List Byte := (img.drop 64).take (img.length - 272)

/-- The parts of a firmware image have lengths that its kind allows. -/
def partsOk (reeve : Bool) (img : List Byte) : Bool :=
  let n := img.length - 272
  if reeve then leAt img 20 4 == 0 && leAt img 24 4 == 0 && leAt img 28 2 == 0 && n ≤ 2097152
  else leAt img 20 4 ≤ 65536 && leAt img 24 4 ≤ 32768 && leAt img 28 2 ≤ 1024 &&
    n == roundUp (leAt img 20 4) 8 + roundUp (leAt img 24 4) 8 + 16 * leAt img 28 2

/-- A firmware image is accepted (R437). -/
def State.firmwareOk (s : State) (reeve : Bool) (img : List Byte) : Bool :=
  272 ≤ img.length && leAt img 0 4 == (if reeve then 0x56524C4A else 0x57464C4A) && leAt img 4 2 == 1 && leAt img 7 1 == 0 &&
    leAt img 8 4 == img.length && img.length % 8 == 0 && leAt img 30 30 == 0 &&
    leAt img 60 4 == (crc32c (img.take 60)).toNat && leAt img 16 4 == (crc32c (firmwareBody img)).toNat && partsOk reeve img &&
    leAt (img.drop (img.length - 208)) 0 8 == 0xFFFF + 200 * 2 ^ 32 && leAt (signatureBody img) 97 3 == 0 &&
    leAt (signatureBody img) 196 4 == 0 && s.keyOk (leAt img 6 1) img && signatureOk img &&
    (s.reg Reg.fuseMinSerial).toNat ≤ leAt img 12 4

/-- Try the slots of a kind in order: a rejected slot records 0x000B; with none left, 0x000D. -/
def tryFirmware (reeve : Bool) : State → List (Nat × List Byte) → State × Option (List Byte)
  | s, [] => (s.raise { code := 0x000D, cls := 4 }, none)
  | s, (_, img) :: rest =>
    if s.firmwareOk reeve img then (s, some img) else tryFirmware reeve (s.raise { code := 0x000B, cls := 2 }) rest

/-! Steps 1 to 5 (R435, R436, R439, R442). -/

/-- The physical Furrows that FUSE_FURROW does not mark, ascending (R443). -/
def State.goodPhysical (s : State) : List Nat :=
  (List.range 68).filter fun i => !s.bit (Reg.fuseFurrow (i / 32)) (i % 32)

/-- The physical Furrow at logical index n: the one a start placed there, otherwise the fuse map's (R443). Where neither
gives one, the register's own reset value stands (DESIGN CHOICE, unsafe, log 60). -/
def State.physicalAt (s : State) (n : Nat) : Nat :=
  (mapFind s.boot.placed n).getD ((s.goodPhysical[n]?).getD (s.bits (Reg.furId n) 22 16))

/-- Place physical Furrow p at logical index n. -/
def setPhysical (s : State) (n p : Nat) : State :=
  { s with boot := { s.boot with placed := mapInsert s.boot.placed n p } }

/-- The seedbed banks of logical Furrow n that use spare rows, from fuses or from step 3 (R442). -/
def State.repairedBanks (s : State) (n : Nat) : Nat :=
  let p := s.physicalAt n
  Nat.lor (mapGet 0 s.boot.fusedRows p) (mapGet 0 s.boot.foundRows p) % 2 ^ 16

/-- Every event on the network reaches the island. -/
def drainFaults (s : State) : State := forUpTo s.island.net.length (fun _ s => faultReport s) s

/-- The tally writer takes every event that waits. -/
def drainTally (s : State) : State := forUpTo s.island.queue.length (fun _ s => tallyWrite s) s

/-- The Reeve firmware starts from an image: its code lies at SRAM offset 0, and the token will hold its CRC. -/
def startReeve (s : State) (img : List Byte) : State := s.store 0x5800000000 (firmwareBody img)

/-- The image that passes the pre-check, first slot first (R436). -/
def State.preChecked (s : State) : Option (List HarnessSection) :=
  (s.slotImages 3 s.imageAt).findSome? fun (_, img) =>
    match runChecks s img (fun c => c != 2 && c != 8) with
    | .ok xs => some xs
    | .error _ => none

/-- The entry of a load table in a parsed image. -/
def imageEntry (xs : List HarnessSection) (sect tab : Nat) : Option (List Byte) :=
  (allRecords xs).findSome? fun (x, _, r) => match r with
    | .table t _ e => if x.sect == sect && t == tab && leAt e 0 1 == 1 then some e else none
    | .reg _ _ _ => none

/-- The harness pre-check: the CLK_CORE divider under R40, and the DRAM configuration that training takes (DEDUCED,
unsafe, log 26). A divider that R40 does not allow leaves the fused one, since check 8 is not run here (DESIGN CHOICE, unsafe,
log 26). -/
def preCheck (s : State) : State :=
  let fused := s.bits Reg.fusePart 15 12
  let xs := s.preChecked.getD []
  let d := match imageEntry xs 2 0 with
    | some e => leAt e 1 1
    | none => fused
  let s := s.setBits Reg.clkStatus 7 4 (if [5, 6, 8].contains d ∧ fused ≤ d then d else fused)
  match imageEntry xs 7 0 with
  | some e => loadEntry s 7 0 0 e
  | none => s

/-- Step 2, and the fuse comparison of step 1: failures of memories outside the Furrows and of the fuse copies (R442, R462). -/
def testIsland (s : State) (env : StartEnv) : State := s.raiseIf env.badMemory { code := 0x0003, cls := 4 }

/-- The fuse copies are compared (R462). -/
def compareFuses (s : State) (env : StartEnv) : State := s.raiseIf env.fusesDisagree { code := 0x0C01, cls := 4 }

/-- Every seedbed granule holds zero, clean, and the seedbed is ready; the accesses held until then issue (R139). -/
def zeroSeedbeds (s : State) : State :=
  let s := { s with mem := s.mem.filter fun (a, _) => (seedbedOf a).isNone
                    marks := s.marks.filter fun (g, _) => (seedbedOf (32 * g)).isNone }
  issueHeld (forUpTo 64 (fun n s => s.setBit (Reg.furSbStatus n) 0 true) s)

/-- Step 3: banks repaired with spare rows, in the good physical Furrows, spares among them, and zeroing (R442, R444, R139). -/
def testSeedbeds (s : State) (env : StartEnv) : State :=
  let found := env.spareRowBanks.foldl (fun m (n, b) =>
    match s.goodPhysical[n]? with
    | some p => if n < 68 ∧ b < 16 then mapSet 0 m p (withBits (mapGet 0 m p) b b 1) else m
    | none => m) []
  zeroSeedbeds { s with boot := { s.boot with foundRows := found } }

/-- The temperature of a node as the start's measurements give it. -/
def startTemp (env : StartEnv) (node : Nat) : Int := (env.nodeTemps[node]?).getD 0

/-- Step 4: channel c is trained; a channel that reports another density, or whose margin is too low, fails bring-up (R259,
R267). -/
def trainChannel (s : State) (env : StartEnv) (c : Nat) : State :=
  let margin := min ((env.dramMargins[c]?).getD 0) 255
  let temp := startTemp env (c / 4)
  let s := s.raiseIf (env.badDramChannels.contains c) { code := 0x0407, cls := 4, inst := c }
  let s := (s.setBits (Reg.dramChTrain c) 31 24 margin).setBits (Reg.dramChTrain c) 23 16 (unsignedOf temp 8)
  let s := { s with dram := { s.dram with lastTrained := mapSet 0 s.dram.lastTrained c s.tickNumber } }
  s.raiseIf (margin < s.bits Reg.dramTrainCtrl 31 24) { code := 0x0406, cls := 4, inst := c }

/-- Step 5: DRAM holds zero data with correct check words (R439). -/
def fillDram (s : State) : State :=
  { s with mem := s.mem.filter fun (a, _) => 0x2000000000 ≤ a
           marks := s.marks.filter fun (g, _) => 0x2000000000 ≤ 32 * g }

/-! Step 6: the Trace chain and the links. -/

/-- The chain is too long or has two heads (R456): the flag, CHAIN_ERR and an F2 entry. -/
def chainFault (s : State) (twoHeads : Bool) : State :=
  let s := s.setBit Reg.reeveChain (if twoHeads then 29 else 30) true
  (s.emit (.chainError twoHeads)).raise { code := 0x0004, cls := 2 }

/-- A chain error is detected: this chip reports each of the two once, whether or not a received CHAIN_ERR has set its flag
(R456; DESIGN CHOICE, safe, log 24). -/
def detectChainError (s : State) (twoHeads : Bool) : State :=
  if s.chain.detected.contains twoHeads then s
  else chainFault { s with chain := { s.chain with detected := s.chain.detected ++ [twoHeads] } } twoHeads

/-- The chip takes an address (R456). -/
def takeAddress (s : State) (a : Nat) : State :=
  let s := (s.setBits Reg.reeveChain 3 0 a).setBit Reg.reeveChain 31 true
  { s with chain := { s.chain with step6 := none } }

/-- ADDR with value a from upstream (R456, R457). An address that is one too many goes on to the next chip ahead of CHAIN_ERR, as a
link-local message does (R455). -/
def takeAddr (s : State) (a : Nat) : State :=
  let s := if s.addressed && a != s.chipId then
      (s.setBit Reg.reeveChain 28 true).raise { code := 0x0005, cls := 2 }
    else s
  if s.pins.chainHead then detectChainError s true
  else if 16 ≤ a then detectChainError (chainLocal s false 0x01 (leBytes 1 (a + 1))) false
  else if s.addressed then s
  else takeAddress s a

/-- Addressing in step 6 or W5, whose start the 100 ms of R457 count from (R456, R457). -/
def addressChain (s : State) (env : StartEnv) : State :=
  let s := (s.setBit Reg.reeveChain 27 env.traceUp).setBit Reg.reeveChain 26 env.traceDown
  let s := if s.pins.chainHead then takeAddress s 0
    else { s with chain := { s.chain with step6 := some (s.now - (env.ticks - env.step6At)) } }
  match env.addrOffer with
  | some a => takeAddr s a
  | none => s

/-- The first alignment of a chip other than the head: the phase accumulator and TIME_NOW are corrected (R50). -/
def alignChain (s : State) (env : StartEnv) : State :=
  match env.chainAlign with
  | some (delay, correction) =>
    if !s.pins.chainHead then
      let s := s.setReg Reg.timeChainDelay (BitVec.ofNat 32 delay)
      let s := setTime s (unsignedOf (256 * (s.now : Int) + s.time.phase / 2 ^ 32 + correction) 72)
      let s := s.setBit Reg.timeStatus 1 true
      { s with time := { s.time with lastDelay := s.tickNumber } }
    else s
  | none => s

/-- The memory and I/O node that a link of REEVE_LINK is attached to (R271). -/
def linkNode (k : Nat) : Nat :=
  if k < 4 then attachedNode (.drovePort k) else if k < 12 then attachedNode (.csiReceiver (k - 4))
  else if k < 16 then attachedNode .sensorEthernet else attachedNode .pcie

/-- The event of a link margin below 10/64 UI (R461). The instance of a sensor receiver has no rule: a free value
(DESIGN CHOICE, safe, log 27). -/
def lowMargin (s : State) (k : Nat) : State :=
  let s := { s with links := { s.links with front := k :: s.links.front.filter (· != k) } }
  if k < 4 then s.raise { code := 0x060B, cls := 2, inst := k }
  else if k < 16 then
    let (v, s) := s.takeFree
    s.raise { code := 0x050E, cls := 2, inst := v.toNat % 65536 }
  else s.raise { code := 0x0D05, cls := 2 }

/-- A link's training: its margin and temperature (R461). -/
def trainLink (s : State) (k margin : Nat) (temp : Int) : State :=
  let s := (s.setBits (Reg.reeveLink k) 31 24 (min margin 255)).setBits (Reg.reeveLink k) 23 16 (unsignedOf temp 8)
  let s := { s with links := { s.links with lastTrained := mapSet 0 s.links.lastTrained k s.tickNumber } }
  if margin < 10 then lowMargin s k else s

/-- PCIE_LINK as the link comes up (R425). -/
def pcieUp (s : State) (w : Nat × Nat) : State :=
  if s.pins.perst then s
  else ((s.setBits Reg.pcieLink 7 4 w.1).setBits Reg.pcieLink 3 1 w.2).setBit Reg.pcieLink 0 true

/-- The PCIe link of a start comes up, if it does. -/
def startPcie (s : State) (env : StartEnv) : State :=
  match env.pcieUp with
  | some w => pcieUp s w
  | none => s

/-- Step 6. -/
def startLinks (s : State) (env : StartEnv) : State :=
  let s := alignChain (addressChain s env) env
  let s := forUpTo 17 (fun k s => trainLink s k (min ((env.linkMargins[k]?).getD 0) 255) (startTemp env (linkNode k))) s
  startPcie s env

/-! Step 7: firmware and the Furrows (R443 to R446). -/

/-- Broadcast the Furrow and Coulter firmware (R446): the stores' contents, the blocks and the repair rounds. -/
def broadcast (s : State) (env : StartEnv) (img : List Byte) : State :=
  let body := firmwareBody img
  let sl := leAt img 20 4
  let cl := leAt img 24 4
  let kernels := (List.range (leAt img 28 2)).map fun k => slice body (roundUp sl 8 + roundUp cl 8 + 16 * k) 16
  let s := { s with firmware := { image := leAt img 16 4, sequencer := slice body 0 sl
                                  coulter := slice body (roundUp sl 8) cl, kernels := kernels } }
  let rounds := ((env.missingBlocks.take 3).takeWhile (· != 0)).length
  let s := s.setBits Reg.reeveFw 31 16 (ceilDiv sl 256 + ceilDiv cl 256)
  let s := s.setBits Reg.reeveFw 9 8 rounds
  let s := s.setBits Reg.reeveFw 7 0 (min env.failedStores.length 255)
  forUpTo rounds (fun _ s => s.raise { code := 0x0009, cls := 1 }) s

/-- FUR_FW.loaded of the physical Furrow p at logical index n. -/
def showStores (s : State) (env : StartEnv) (loaded : Bool) (n p : Nat) : State :=
  s.setBits (Reg.furFw n) 4 0
    ((List.range 5).foldl (fun v k => v + bval (loaded && !env.failedStores.contains (p, k)) * 2 ^ k) 0)

/-- Physical Furrow p passes its firmware load, and its tests where the path runs them (R444). -/
def physicalPasses (env : StartEnv) (loaded tested : Bool) (p : Nat) : Bool :=
  loaded && !(tested && env.failedPhysical.contains p) && !env.failedStores.any fun x => x.1 == p

/-- A logical Furrow without a physical one that passes is fenced (R443, R444). -/
def fenceAtStart (s : State) (n : Nat) : State :=
  let s := (s.setBits (Reg.furStatus n) 2 0 3).setBits (Reg.safeFurCp n) 2 0 4
  (s.addSat Reg.reeveSpare 6 0).raise { code := 0x0008, cls := 3, inst := n }

/-- The check-plot baseline of logical Furrow n passes: a passing run, recorded at the start's tick (R392, R444; its tick within
the start is not modelled, log 25). -/
def passBaseline (s : State) (n : Nat) : State :=
  let s := (s.setBits (Reg.safeFurCp n) 2 0 1).addWrap (Reg.safeFurCp n) 31 16
  s.setReg64 (Reg.safeFurPassLo n) (Reg.safeFurPassHi n) s.now

/-- Place physical Furrow p at logical index n: it starts idle if it passes; otherwise the lowest-numbered spare follows it,
and with none left the logical Furrow is fenced (R444). -/
def placePhysical (env : StartEnv) (loaded tested : Bool) (n : Nat) : List Nat → State → Nat → State
  | spares, s, p =>
    let s := showStores (setPhysical s n p) env loaded n p
    if physicalPasses env loaded tested p then
      let s := if tested then passBaseline s n else s
      { s.setBits (Reg.furStatus n) 2 0 0 with boot := { s.boot with spares := spares } }
    else
      match spares with
      | [] => fenceAtStart { s with boot := { s.boot with spares := [] } } n
      | q :: rest =>
        let s := s.raise { code := 0x0007, cls := 1, inst := n, info := some (p + 256 * q) }
        placePhysical env loaded tested n rest (s.addSat Reg.reeveSpare 18 16) q

/-- The state entries of the system hoppers (R192). -/
def systemHoppers (s : State) : State :=
  forUpTo 64 (fun n s =>
    s.setHopper (sysHopper + n) { base := seedbedBase n + 0x3F0000, k := 3, furrow := n, enable := true }) s

/-- The Reeve loads the check-plot run of the firmware image into the system slice of every enabled Furrow (R387). -/
def loadRuns (s : State) (img : Option (List Byte)) : State :=
  match img with
  | none => s
  | some img =>
    forUpTo 64 (fun n s =>
      if s.bits (Reg.furStatus n) 2 0 = 3 then s
      else s.store (seedbedBase n + 0x3F0000) ((Config.checkPlotRun img).take 0x10000)) s

/-- The start-up map begins again from the fuse map: what a fast path took from the token stands no longer (R445, R450). -/
def clearMap (s : State) : State :=
  forUpTo 64 (fun n s => s.setBits (Reg.safeFurCp n) 2 0 0)
    ((s.setBits Reg.reeveSpare 6 0 0).setBits Reg.reeveSpare 18 16 0)

/-- Step 7: the firmware of the accepted slot, and each logical Furrow with its spare if it needs one. -/
def startFurrows (s : State) (env : StartEnv) : State :=
  let s := clearMap s
  let (s, img) := tryFirmware false s (s.slotImages 2 s.firmwareAt)
  let s := match img with
    | some img => broadcast s env img
    | none => s
  let good := s.goodPhysical
  let s := { s with boot := { s.boot with spares := good.drop 64 } }
  let s := forUpTo 64 (fun n s =>
    match good[n]? with
    | some p => placePhysical env img.isSome true n s.boot.spares s p
    | none => fenceAtStart s n) s
  systemHoppers (loadRuns (s.setBits Reg.reeveSpare 26 24 s.boot.spares.length) img)

/-! Steps 8 and 9. -/

/-- An event of the exercise's end reaches the island and has an entry of its own at once, unless the log is about to be full
(R399, R380). -/
def reportNow (s : State) (e : Event) : State :=
  let x := arrived s e
  let s := drivePins s e
  if s.tallyFree ≤ 1 then writeOrCoalesce s x else writeEvent s x

/-- The start-up error injection's result, its entries in the order of R399 after every event that is pending (R369), and FAULT_N
released under R370 (R398). -/
def injectAll (s : State) (env : StartEnv) : State :=
  let failed := env.failedCheckers
  let s := (s.setBits Reg.safeInjStatus 15 0 env.checkers).setBits Reg.safeInjStatus 31 16 failed.length
  let s := (failed.take 16).zipIdx.foldl (fun s ((code, inst), k) =>
    s.setReg (Reg.safeInjFail k) (BitVec.ofNat 32 (code % 65536 + inst % 65536 * 65536))) s
  let s := drainTally (drainFaults s)
  let s := reportNow s { code := 0x0A20, cls := 0, info := some (env.checkers % 65536 + failed.length % 65536 * 65536) }
  let s := failed.foldl (fun s (code, inst) =>
    reportNow s { code := 0x0A21, cls := 2, inst := inst, info := some (code % 65536) }) s
  releaseFaultN ((s.setBit Reg.safeStatus 7 true).setBit Reg.safeStatus 6 failed.isEmpty)

/-- Load the harness slots in order until one applies (R433). -/
def loadSlots : State → List (Nat × List Byte) → State
  | s, [] => (s.setBit Reg.hrnsBoot 4 true).raise { code := 0x0B0A, cls := 2 }
  | s, (k, img) :: rest =>
    let s := applyLoad (beginLoad (s.setBit Reg.hrnsBoot (1 + k) true) img)
    if s.bits Reg.hrnsStatus 26 25 = 1 then s.setBits Reg.hrnsBoot 0 0 k else loadSlots s rest

/-- The warm token of a start on the cold or the full path (R448). -/
def writeToken (s : State) (env : StartEnv) (code : Nat) : State :=
  let entry (k : Nat) : Nat × Nat × Int × Nat :=
    if k < 32 then (k, s.now, startTemp env (k / 4), s.bits (Reg.dramChTrain k) 31 24)
    else (k, s.now, startTemp env (linkNode (k - 32)), s.bits (Reg.reeveLink (k - 32)) 31 24)
  let t : WarmToken :=
    { trained := (List.range 49).map entry
      dramCfg := s.reg Reg.dramCfg
      marginMin := s.bits Reg.dramTrainCtrl 31 24
      map := (List.range 64).map s.physicalAt
      fenced := (List.range 64).filter fun n => s.bits (Reg.furStatus n) 2 0 == 3
      fwLength := code
      fwCrc := crc32c (s.bytes 0x5800000000 code)
      complete := true }
  { s with boot := { s.boot with token := some t } }

/-- The last step: the harness, the entries of the start, REEVE_BOOT (R435). -/
def endStart (s : State) (env : StartEnv) (path step : Nat) : State :=
  let s := loadSlots s (s.slotImages 3 s.imageAt)
  let s := drainTally (drainFaults s)
  let s := (s.setBits Reg.reeveBoot 30 29 path).setBits Reg.reeveBoot 28 24 step
  (s.setBits Reg.reeveBoot 23 0 (min (env.ticks / 6400) (2 ^ 24 - 1))).setBit Reg.reeveBoot 31 true

/-- Steps 3 to 9; `code` is the length of the Reeve code in SRAM. -/
def startFromStep3 (s : State) (env : StartEnv) (path code : Nat) : State :=
  let s := testSeedbeds s env
  let s := fillDram (forUpTo 32 (fun c s => trainChannel s env c) s)
  let s := startFurrows (startLinks s env) env
  endStart (writeToken (injectAll s env) env code) env path 9

/-- The start continues with the Reeve firmware accepted: the pre-check, then step 2 on. -/
def startFromStep2 (s : State) (env : StartEnv) (path : Nat) (img : List Byte) : State :=
  let s := testIsland (preCheck (startReeve s img)) env
  startFromStep3 s env path (firmwareBody img).length

/-- No Reeve firmware: firmware recovery, with the PCIe endpoint alone (R441). -/
def enterRecovery (s : State) (env : StartEnv) : State :=
  let s := drainTally (drainFaults (startPcie s env))
  (s.setBits Reg.reeveBoot 30 29 3).setBits Reg.reeveBoot 28 24 1

/-- The clock runs for as long as the start takes. -/
def runStart (s : State) (env : StartEnv) : State := runCycles s (s.cyclesFor env.ticks)

/-- SAFE_REQ_N that is low when the start begins raises its fault again (R372). -/
def sampleSafeReq (s : State) : State :=
  if s.pins.safeReq then (s.setBit Reg.safeStatus 5 true).raise { code := 0x0A02, cls := 4 } else s

/-- Steps 1 to 9 on the cold path (0) or the full path (2) (R435, R449). -/
def startFull (s : State) (env : StartEnv) (path : Nat) : State :=
  let s := compareFuses (sampleSafeReq (runStart s env)) env
  let s := s.setBit Reg.hrnsBoot 3 s.directory.2
  match tryFirmware true s (s.slotImages 1 s.firmwareAt) with
  | (s, some img) => startFromStep2 s env path img
  | (s, none) => enterRecovery s env

/-- The PLL reports lock. It locks on a reference that meets its requirements, so CLK_STATUS.ref_ok is first set with it
(DESIGN CHOICE, unsafe, log 61: R41 does not say when). -/
def lockPll (s : State) : State :=
  let s := (s.setBit Reg.clkStatus 2 true).setBit Reg.clkStatus 3 true
  { s with pins := { s.pins with pllLocked := true } }

/-- A cold start: it waits in step 1 until the PLL locks (R41). -/
def startCold (s : State) (env : StartEnv) : State :=
  let s := { s with pins := { s.pins with coldDue := false } }
  if env.pllLocks then startFull (lockPll s) env 0
  else
    let s := s.setBits Reg.reeveBoot 28 24 1
    { s with boot := { s.boot with waiting := some env } }

/-- PORST_N is released: CHAIN_HEAD is sampled (R469), EXTEST ends (R486), and the start runs, or waits for WARM_N (R473). -/
def releasePorst (s : State) (env : StartEnv) : State :=
  if !s.pins.porst || !s.pins.vinUp then s
  else
    let tap := if s.pins.tap = 3 then 0 else s.pins.tap
    let s := { s with pins := { s.pins with porst := false, outputsZ := false, chainHead := env.chainHead, tap := tap } }
    let s := s.setBit Reg.timeStatus 2 env.chainHead
    if s.pins.warm then { s with pins := { s.pins with coldDue := true } } else startCold s env

/-- PORST_RELEASE. -/
def execPorstRelease (env : StartEnv) (s : State) : Result := always s (releasePorst s env)

/-! The warm start (R448 to R451). -/

/-- The largest temperature difference over the entries of a token, in °C. -/
def tokenDrift (t : WarmToken) (env : StartEnv) : Nat :=
  t.trained.foldl (fun d (k, _, temp, _) =>
    max d (startTemp env (if k < 32 then k / 4 else linkNode (k - 32)) - temp).natAbs) 0

/-- The conditions of R449 that fail, as REEVE_WT_STATUS [6:0]. -/
def State.tokenReasons (s : State) (env : StartEnv) : Nat :=
  let porst := 64 * bval (s.bit Reg.reeveRst 31)
  match s.boot.token with
  | none => 1 + porst
  | some t =>
    let old := t.trained.any fun (_, tick, _, _) => 23040000000000 ≤ (s.now + 2 ^ 64 - tick) % 2 ^ 64
    bval env.tokenBad + 2 * bval (!t.complete) + 4 * bval old + 8 * bval (10 < tokenDrift t env) + 16 * bval t.fence +
      32 * bval (crc32c (s.bytes 0x5800000000 t.fwLength) != t.fwCrc) + porst

/-- W3: the start-up map of the token. -/
def restoreMap (s : State) (t : WarmToken) : State :=
  let s := t.map.zipIdx.foldl (fun s (p, n) => setPhysical s n p) s
  let s := forUpTo 64 (fun n s => s.setBits (Reg.furStatus n) 2 0 (if t.fenced.contains n then 3 else 0)) s
  let s := t.fenced.foldl (fun s n => s.setBits (Reg.safeFurCp n) 2 0 4) s
  let s := s.setBits Reg.reeveSpare 6 0 t.fenced.length
  let s := s.setBits Reg.reeveSpare 26 24 s.boot.spares.length
  s.setBits Reg.reeveSpare 18 16 (s.goodPhysical.length - 64 - s.boot.spares.length)

/-- W4 and W5: stored settings of the channels and the links. -/
def restoreTraining (s : State) (t : WarmToken) : State :=
  let s := (s.setReg Reg.dramCfg t.dramCfg).setBits Reg.dramTrainCtrl 31 24 t.marginMin
  t.trained.foldl (fun s (k, tick, _, _) =>
    let tk := tick / mgmtTicks
    if k < 32 then { s with dram := { s.dram with lastTrained := mapSet 0 s.dram.lastTrained k tk } }
    else { s with links := { s.links with lastTrained := mapSet 0 s.links.lastTrained (k - 32) tk } }) s

/-- A Furrow fenced on the fast path stays fenced until a start on the full path: the token's map holds it (R445). -/
def fenceInMap (s : State) (n : Nat) : State := (fenceAtStart s n).mapToken fun t => { t with fenced := t.fenced ++ [n] }

/-- W6: the broadcast; a Furrow whose load fails is fenced (R450). -/
def reloadFurrows (s : State) (env : StartEnv) (t : WarmToken) : State :=
  let (s, img) := tryFirmware false s (s.slotImages 2 s.firmwareAt)
  let s := match img with
    | some img => broadcast s env img
    | none => s
  let s := t.map.zipIdx.foldl (fun s (p, n) =>
    let s := showStores s env img.isSome n p
    if t.fenced.contains n ∨ physicalPasses env img.isSome false p then s else fenceInMap s n) s
  systemHoppers (loadRuns s img)

/-- The fast path (R450); a failure in W4 or W5 continues from step 3 on the full path. -/
def startFast (s : State) (env : StartEnv) (t : WarmToken) : State :=
  let s := compareFuses (sampleSafeReq (runStart s env)) env
  let s := s.setBit Reg.hrnsBoot 3 s.directory.2
  let s := restoreTraining (zeroSeedbeds (restoreMap s t)) t
  if env.channelCheckBad ≠ [] ∨ env.linkDownBad ≠ [] then startFromStep3 s env 2 t.fwLength
  else
    let s := startPcie (alignChain (addressChain s env) env) env
    endStart (injectAll (reloadFurrows s env t) env) env 1 24

/-- A warm start: the token's check chooses the path (R449, R451). -/
def startWarm (s : State) (env : StartEnv) : State :=
  let s := (s.setBit Reg.reeveRst 0 true).setBit Reg.timeStatus 2 s.pins.chainHead
  let reasons := s.tokenReasons env
  let drift := match s.boot.token with
    | some t => min (tokenDrift t env) 255
    | none => 0
  let s := s.setReg Reg.reeveWtStatus (BitVec.ofNat 32 (reasons + 256 * drift + 2 ^ 31 * bval (reasons == 0)))
  match s.boot.token with
  | some t => if reasons = 0 then startFast s env t else rejected s reasons
  | none => rejected s reasons
where
  rejected (s : State) (reasons : Nat) : State :=
    let s := s.raise { code := 0x0006, cls := 0, info := some reasons }
    let s := s.raiseIf (s.bit Reg.reeveRst 31) { code := 0x000C, cls := 4 }
    startFull s env 2

/-- A warm start: a device whose PLL has not locked since PORST_N waits in the boot ROM until it does (R41, R440). -/
def beginWarm (s : State) (env : StartEnv) : State :=
  if s.pins.pllLocked then startWarm s env
  else if env.pllLocks then startWarm (lockPll s) env
  else
    let s := s.setBits Reg.reeveBoot 28 24 1
    { s with boot := { s.boot with waiting := some env, warmWait := true } }

/-- WARM_N is released: a warm start, or the cold start that waited for it (R449, R473). -/
def releaseWarm (s : State) (env : StartEnv) : State :=
  if !s.pins.warm then s
  else
    let s := { s with pins := { s.pins with warm := false } }
    if s.pins.porst then s else if s.pins.coldDue then startCold s env else beginWarm s env

/-- The PLL reports lock: a start that waits in the boot ROM continues (R41). -/
def pllLock (s : State) : State :=
  if s.pins.porst then s
  else
    match s.boot.waiting with
    | some env =>
      let t := { lockPll s with boot := { s.boot with waiting := none, warmWait := false } }
      if s.boot.warmWait then startWarm t env else startFull t env 0
    | none => if s.pins.pllLocked then s.setBit Reg.clkStatus 2 true else lockPll s

/-- PLL_LOCK. -/
def execPllLock (s : State) : Result := always s (pllLock s)

/-- WARM_RELEASE. -/
def execWarmRelease (env : StartEnv) (s : State) : Result := always s (releaseWarm s env)

/-! Firmware recovery (R441). -/

/-- REEVE_CTRL.boot: in recovery, the image at Reeve SRAM offset 0 is checked under R437 and, accepted, starts. -/
def bootCommand (s : State) (env : StartEnv) : State :=
  if !s.recovering then s
  else
    let img := s.firmwareAt 0x5800000000
    if s.firmwareOk true img then startFromStep2 (runStart s env) env 3 img
    else s.raise { code := 0x000B, cls := 2 }

/-- REEVE_BOOT_COMMAND. -/
def execReeveBootCommand (env : StartEnv) (s : State) : Result := live s <| bootCommand s env

/-! The clock monitor, the supply and temperature monitors, SAFE_REQ_N (R42, R372, R481). -/

/-- A clock event: its F4 fault; the time base is no longer locked or aligned (R42). -/
def clockFault (s : State) (code flag : Nat) : State :=
  let s := s.setBit Reg.clkStatus flag true
  let s := (s.setBit Reg.timeCtrl 1 false).setBit Reg.timeStatus 1 false
  s.raise { code := code, cls := 4 }

/-- 16 reference periods out of range. -/
def execRefclkOutOfRange (s : State) : Result :=
  always s (if s.pins.porst then s else clockFault (s.setBit Reg.clkStatus 3 false) 0x0101 0)

/-- The PLL loses lock: a fault only after the first lock. -/
def execPllLockLoss (s : State) : Result :=
  always s (if s.pins.pllLocked then clockFault (s.setBit Reg.clkStatus 2 false) 0x0102 1 else s)

/-- The reference is in range again. -/
def execReferenceInRange (s : State) : Result := always s (if s.pins.porst then s else s.setBit Reg.clkStatus 3 true)

/-- VIN_MONITOR_TRIP. -/
def execVinMonitorTrip (s : State) : Result := always s (tripMonitor s 0x0A06)

/-- TEMPERATURE_MONITOR_TRIP. -/
def execTemperatureMonitorTrip (s : State) : Result := always s (tripMonitor s 0x0A07)

/-- SAFE_REQ_N registers low (R372). -/
def execSafeReqAssert (s : State) : Result :=
  let t := { s with pins := { s.pins with safeReq := true } }
  always s (if s.pins.porst || s.pins.safeReq then t else sampleSafeReq t)

/-- SAFE_REQ_N rises. -/
def execSafeReqRelease (s : State) : Result :=
  always s ({ s with pins := { s.pins with safeReq := false } }.setBit Reg.safeStatus 5 false)

end Sys2Proof.Machine
end

