-- ==== Sys2Proof/Machine/Chain.lean ====
section
/-! DEFINITION. Receiving on the Trace chain (R50, R241, R242, R452 to R458), and the Reeve's messages (R458). -/

namespace Sys2Proof.Machine

/-! Frames (R453, R455). -/

/-- Byte 2 of a frame. -/
def frameSrcByte (f : ChainFrame) : Nat := f.src + 16 * bval f.unaddressed

/-- Byte 3 of a frame. -/
def frameDstByte (f : ChainFrame) : Nat := f.dst + 16 * bval f.broadcast + 32 * bval f.linkLocal

/-- A chain frame of R453: addresses of four bits, at most 64 bytes of payload. -/
def chainForm (f : ChainFrame) : Bool := f.src < 16 && f.dst < 16 && f.payload.length ≤ 64

/-- The frame's CRC passes: its bytes are those that a sender with this CRC would put on the link. A frame that is not one of R453,
which no sender puts there, counts as one whose CRC fails (DESIGN CHOICE, unsafe, log 92). -/
def chainCrcOk (f : ChainFrame) : Bool :=
  let b := leBytes 1 f.type ++ leBytes 1 (frameSrcByte f) ++ leBytes 1 (frameDstByte f) ++
    leBytes 1 f.payload.length ++ f.payload
  chainForm f && crc32c b == f.crc

/-- Pass a frame on: a broadcast away from where it came, a message for another address towards it (R455). A chip without an
address passes it on in the direction it travels (DESIGN CHOICE, safe, log 24). -/
def forward (s : State) (f : ChainFrame) : State :=
  let b := chainBytes f.type (frameSrcByte f) (frameDstByte f) f.payload
  if f.linkLocal then s
  else if f.broadcast || !s.addressed then chainOn s (!f.fromUp) b
  else if f.dst = s.chipId then s
  else chainOn s (f.dst < s.chipId) b

/-- This chip is a destination of a frame. -/
def State.chainMine (s : State) (f : ChainFrame) : Bool :=
  f.linkLocal || f.broadcast || (s.addressed && f.dst == s.chipId)

/-- A frame of a message type arrives on a link that is up: a bad CRC is discarded and counted (R453); otherwise it is passed
on and acted on. -/
def chainReceive (s : State) (f : ChainFrame) (kind : Nat) (act : State → State) : State :=
  if !s.bit Reg.reeveChain (if f.fromUp then 27 else 26) then s
  else if !chainCrcOk f then (s.addSat Reg.reeveChainCnt 15 0).raise { code := 0x000E, cls := 0 }
  else if f.type ≠ kind then s
  else
    let s := forward s f
    if s.chainMine f then act s else s

/-! Message types (R454). -/

/-- CHAIN_ADDR_RX. -/
def execChainAddrRx (frame : ChainFrame) (s : State) : Result := live s <|
  chainReceive s frame 0x01 fun s => if frame.fromUp then takeAddr s (leAt frame.payload 0 1) else s

/-- HEARTBEAT of a chip: it is heard in this management tick; a second one from address 0 shows two heads (R456, DESIGN
CHOICE, safe, log 24); one
that says safe state has its chip reported (R241). -/
def hear (s : State) (f : ChainFrame) : State :=
  if f.unaddressed then s
  else
    let twice := f.src == 0 && (s.chain.heard.contains 0 || (s.addressed && s.chipId == 0))
    let s := if twice then detectChainError s true else s
    let s := if s.chain.heard.contains f.src then s
      else { s with chain := { s.chain with heard := s.chain.heard ++ [f.src] } }
    let s := { s with chain := { s.chain with missed := mapSet 0 s.chain.missed f.src 0 } }
    if bitOf (leAt f.payload 4 1) 0 then reportFence s f.src else s

/-- CHAIN_HEARTBEAT_RX. -/
def execChainHeartbeatRx (frame : ChainFrame) (s : State) : Result := live s <|
  chainReceive s frame 0x02 fun s => hear s frame

/-- A probe from downstream, captured at a tick, is answered at once (R50). -/
def answerProbe (s : State) (tick : Nat) : State := s.emit (.delayReply tick s.now)

/-- CHAIN_DELAY_PROBE_RX. -/
def execChainDelayProbeRx (frame : ChainFrame) (tick : Nat) (s : State) : Result := live s <|
  chainReceive s frame 0x03 fun s => if frame.fromUp then s else answerProbe s tick

/-- A round trip of a management tick's measurement, in ticks from probe to reply; `upstream` is the upstream chip's TIME_NOW
as the reply left it. The 256th gives the hop's delay and corrects TIME_NOW (R50). -/
def takeReply (s : State) (sent received upstream : Nat) : State :=
  let xs := s.time.delays ++ [128 * ((received : Int) - sent)]
  if xs.length < 256 then { s with time := { s.time with delays := xs } }
  else
    let delay := (xs.foldl (· + ·) 0 / 256).toNat
    let s := { s with time := { s.time with delays := [] } }
    let s := s.setReg Reg.timeChainDelay (BitVec.ofNat 32 delay)
    let s := setTime s (256 * upstream + delay)
    let s := s.setBit Reg.timeStatus 1 true
    { s with time := { s.time with lastDelay := s.tickNumber } }

/-- CHAIN_DELAY_REPLY_RX: from upstream, on a chip other than the head. -/
def execChainDelayReplyRx (frame : ChainFrame) (sent received upstreamTick : Nat) (s : State) : Result := live s <|
  chainReceive s frame 0x04 fun s =>
    if frame.fromUp && !s.pins.chainHead then takeReply s sent received upstreamTick else s

/-- CHAIN_FENCE_REPORT_RX: the chain head takes the report (R242). -/
def execChainFenceReportRx (frame : ChainFrame) (s : State) : Result := live s <|
  chainReceive s frame 0x05 fun s =>
    if s.addressed && s.chipId == 0 then headReport s (leAt frame.payload 0 1 % 16) else s

/-- CHAIN_FENCE_NOTICE_RX (R242). -/
def execChainFenceNoticeRx (frame : ChainFrame) (s : State) : Result := live s <|
  chainReceive s frame 0x06 fun s => takeNotice s (leAt frame.payload 0 1 % 16)

/-- CHAIN_SAFE_REPORT_RX: the sender is reported for fencing (R241). -/
def execChainSafeReportRx (frame : ChainFrame) (s : State) : Result := live s <|
  chainReceive s frame 0x07 fun s => if frame.unaddressed then s else reportFence s frame.src

/-- CHAIN_ERR_RX: the same flag is set (R456). The manual gives its payload no format: a free value says which (DESIGN
CHOICE, safe, log 24). -/
def execChainErrRx (frame : ChainFrame) (s : State) : Result := live s <|
  chainReceive s frame 0x08 fun s =>
    s.setBit Reg.reeveChain (if Config.chainErrorHeads frame.payload then 29 else 30) true

/-- A MGMT message enters the queue of 16, or is dropped (R458). -/
def queueMgmt (s : State) (f : ChainFrame) : State :=
  if 16 ≤ s.chain.queue.length then (s.addSat Reg.reeveChainCnt 31 16).raise { code := 0x000F, cls := 0 }
  else
    let q := s.chain.queue ++ [(f.src, slice f.payload 0 64)]
    { s with chain := { s.chain with queue := q } }.setBits Reg.reeveChainStatus 4 0 q.length

/-- CHAIN_MGMT_RX. -/
def execChainMgmtRx (frame : ChainFrame) (s : State) : Result := live s <|
  chainReceive s frame 0x09 fun s => queueMgmt s frame

/-! The Reeve's side (R458). -/

/-- REEVE_CHAIN_TX. -/
def chainTxBase : Nat := 0x5000000100

/-- Ticks of a 64-byte MGMT frame on the link: 73 characters of 10 ns (R455). -/
def mgmtFrameTicks : Nat := 4672

/-- A send is in progress. -/
def State.sendBusy (s : State) : Bool := s.now < s.chain.busyUntil

/-- REEVE_CHAIN_CMD.send; refused while a send is in progress. -/
def sendMgmt (s : State) (broadcast : Bool) (dst : Nat) : State :=
  if s.sendBusy then s
  else
    let p := s.bytes chainTxBase 64
    let s := { s with chain := { s.chain with busyUntil := s.now + mgmtFrameTicks } }
    if broadcast then chainBroadcast s 0x09 p else chainUnicast s 0x09 dst p

/-- CHAIN_SEND. -/
def execChainSend (broadcast : Bool) (dst : Nat) (s : State) : Result := live s <| withUnit s 16 dst fun s dst =>
  sendMgmt s broadcast dst

/-- REEVE_CHAIN_CMD.pop. -/
def popMgmt (s : State) : State :=
  let q := s.chain.queue.drop 1
  { s with chain := { s.chain with queue := q } }.setBits Reg.reeveChainStatus 4 0 q.length

/-- CHAIN_POP. -/
def execChainPop (s : State) : Result := live s <| popMgmt s

/-! Timeouts and link states. -/

/-- CHAIN_ADDRESS_TIMEOUT: 100 ms after the start of step 6 the chip continues without an address (R457). -/
def execChainAddressTimeout (s : State) : Result := live s <|
  match s.chain.step6 with
    | some t =>
      let s := runUntil s (t + 640000000)
      { s with chain := { s.chain with step6 := none } }
    | none => s

/-- CHAIN_ALIGN_TIMEOUT: no valid measurement for 8 management ticks (R50). -/
def execChainAlignTimeout (s : State) : Result := live s <|
  if s.bit Reg.timeStatus 1 then
      let s := runUntil s ((s.time.lastDelay + 8) * mgmtTicks)
      (s.setBit Reg.timeStatus 1 false).raise { code := 0x0202, cls := 2 }
    else s

/-- A Trace chain link stops or begins to receive valid characters (R452). -/
def traceLink (s : State) (upstream up : Bool) : State :=
  s.setBit Reg.reeveChain (if upstream then 27 else 26) up

/-- TRACE_LINK_DOWN. -/
def execTraceLinkDown (upstream : Bool) (s : State) : Result := live s <| traceLink s upstream false

/-- TRACE_LINK_UP. -/
def execTraceLinkUp (upstream : Bool) (s : State) : Result := live s <| traceLink s upstream true

end Sys2Proof.Machine
end

