-- ==== Sys2Proof/Machine/Links.lean ====
section
/-! DEFINITION. Link retraining (R460, R461), scrub of the other memories (R385), fuses in service (R463), JTAG (R485, R486). -/

namespace Sys2Proof.Machine

/-! Link retraining (R460). -/

/-- A link may be retrained: 1,000 management ticks since its last training. -/
def State.mayTrainLink (s : State) (k : Nat) : Bool := mapGet 0 s.links.lastTrained k + 1000 ≤ s.tickNumber

/-- The link's node temperature has moved more than 10 °C since its last training. -/
def State.linkDrifted (s : State) (k : Nat) : Bool :=
  10 < (signedOf (s.bits (Reg.dramNodeTemp (linkNode k)) 7 0) 8 - signedOf (s.bits (Reg.reeveLink k) 23 16) 8).natAbs

/-- The rotation's period in management ticks. -/
def State.linkPeriod (s : State) : Nat := max 1000 (s.bits Reg.reeveLinkCtrl 19 0)

/-- The link to retrain next, with whether it is the rotation's turn: as for the DRAM channels (R268). -/
def State.nextLink (s : State) : Option (Nat × Bool) :=
  match (List.range 17).find? fun k => s.linkDrifted k && s.mayTrainLink k with
  | some k => some (k, false)
  | none =>
    if s.links.lastRotation + s.linkPeriod ≤ s.tickNumber then
      match s.links.front.find? s.mayTrainLink with
      | some k => some (k, true)
      | none => (((List.range 17).map fun i => (s.links.next + i) % 17).find? s.mayTrainLink).map fun k => (k, true)
    else none

/-- The first slice of a retraining. -/
def startLinkRetrain (s : State) (k : Nat) (rotation : Bool) : State :=
  let x := s.links
  { s with links := { x with current := some k, slices := 1, front := x.front.filter (· != k)
                             next := if rotation && !x.front.contains k then (k + 1) % 17 else x.next
                             lastRotation := if rotation then s.tickNumber else x.lastRotation } }

/-- A link of REEVE_LINK is a CSI-2 D-PHY receiver. -/
def isDphy (k : Nat) : Bool := 4 ≤ k && k < 12

/-- The 256th slice: the new settings apply, and the warm token's entry is rewritten (R448, R461). -/
def endLinkRetrain (s : State) (k margin : Nat) (temp : Int) : State :=
  let done : LinkDone :=
    { link := k, reg := s.reg (Reg.reeveLink k), tick := mapGet 0 s.links.lastTrained k, front := s.links.front
      entry := s.boot.token.bind fun t => mapFind t.trained (32 + k), event := none }
  let s := s.addSat (Reg.reeveLink k) 15 0
  let s := { s with links := { s.links with current := none, slices := 0 } }
  let events := s.island.net.length
  let s := (trainLink s k margin temp).retrained (32 + k) margin temp
  { s with links := { s.links with
    done := if isDphy k then some { done with event := s.island.net[events]? } else none } }

/-- One slice, after start-up. A D-PHY slice starts only in LP state, and otherwise waits for the next gap (R460). -/
def linkSlice (s : State) (margin : Nat) (x : LinkSlice) : State :=
  if !s.bit Reg.reeveBoot 31 then s
  else
    match s.links.current with
    | some k =>
      if isDphy k && !x.lanesLp then s
      else if s.links.slices + 1 < 256 then { s with links := { s.links with slices := s.links.slices + 1, done := none } }
      else endLinkRetrain s k margin x.temp
    | none =>
      match s.nextLink with
      | some (k, rotation) =>
        if isDphy k && !x.lanesLp then s
        else
          let s := startLinkRetrain s k rotation
          { s with links := { s.links with done := none } }
      | none => s

/-- LINK_RETRAIN_SLICE. -/
def execLinkRetrainSlice (margin : Nat) (x : LinkSlice) (s : State) : Result := live s <| linkSlice s margin x

/-- The last slice of a D-PHY retraining is aborted: the retraining stands as before it. -/
def undoLinkRetrain (s : State) (d : LinkDone) : State :=
  let s := s.setReg (Reg.reeveLink d.link) d.reg
  let x := s.links
  let s := { s with links := { x with
    current := some d.link, slices := 255, front := d.front, done := none
    lastTrained := mapSet 0 x.lastTrained d.link d.tick } }
  let s := match d.entry with
    | some e => s.mapToken fun t => { t with trained := mapInsert t.trained (32 + d.link) e }
    | none => s
  match d.event with
  | some e => { s with island := { s.island with net := s.island.net.erase e } }
  | none => s

/-- DPHY_SLICE_ABORT: the receiver's slice is to be taken again; a retraining whose first slice it is goes back to where it was
(R460). -/
def abortSlice (s : State) (receiver : Nat) : State :=
  if s.links.current = some (4 + receiver) then { s with links := { s.links with slices := s.links.slices - 1 } }
  else
    match s.links.current, s.links.done with
    | none, some d => if d.link = 4 + receiver then undoLinkRetrain s d else s
    | _, _ => s

/-- DPHY_SLICE_ABORT. -/
def execDphySliceAbort (receiver : Nat) (s : State) : Result := live s <| withUnit s 8 receiver fun s receiver =>
  abortSlice s receiver

/-! Scrub of the memories of R382 (R385, under the rules of R138). -/

/-- A scrub read's outcome: corrected and written back, or uncorrectable and left in place. -/
inductive ScrubFound where
  | clean | corrected | uncorrectable
  deriving DecidableEq, Repr

/-- What the scrub finds in a word that holds a mark and meets an error. -/
def scrubFound (m : Mark) (u : Upset) : ScrubFound :=
  match metMark m u with
  | .clean => .clean
  | .single => .corrected
  | _ => .uncorrectable

/-- What the scrub leaves in the word. -/
def ScrubFound.mark : ScrubFound → Mark
  | .uncorrectable => .double
  | _ => .clean

/-- The entry of a scrub: an F1 code for a corrected word, an F2 code for an uncorrectable one. -/
def scrubEvent (s : State) (x : ScrubFound) (corr uncorr inst : Nat) : State :=
  match x with
  | .clean => s
  | .corrected => s.raise { code := corr, cls := 1, inst := inst }
  | .uncorrectable => s.raise { code := uncorr, cls := 2, inst := inst }

/-- Flags and counts of a Furrow's word memory: FUR_RK_ECC or FUR_HW_ECC (R163, R191). -/
def noteWord (s : State) (a : Nat) (x : ScrubFound) : State :=
  match x with
  | .clean => s
  | .corrected => (s.setBit a 30 true).addSat a 11 0
  | .uncorrectable => (s.setBit a 31 true).addSat a 23 12

/-- An uncorrectable error in a hopper's state entry: the Field whose range holds it stops, or its Furrow is fenced (R192, R222,
R393). -/
def hopperBad (s : State) (h : Nat) : State :=
  if isSystem h then fenceFault (s.raise { code := 0x2203, cls := 3, inst := h }) (h - sysHopper) 3
  else s.raise { code := 0x2203, cls := 3, inst := h, field := (List.range 8).find? fun f => s.hopperIn f h }

/-- The scrub meets a hopper's state entry (R222, R385). -/
def scrubHopper (s : State) (h : Nat) (u : Upset) : State :=
  let y := s.hopper h
  let x := scrubFound y.mark u
  let s := s.setHopper h { y with mark := x.mark }
  if x = .uncorrectable then hopperBad s h else scrubEvent s x 0x2202 0x2203 h

/-- An error is found in a word of a rein's state and recorded; an uncorrectable one takes the rein to safe at its next issue
(R332). -/
def reinWord (s : State) (n : Nat) (x : ScrubFound) : State :=
  let s := s.setRein n { s.reinRec n with bad := x.mark, noted := x == .uncorrectable }
  scrubEvent (noteWordError s n (match x with
    | .clean => .clean
    | .corrected => .single
    | .uncorrectable => .double)) x 0x0708 0x0709 n

/-- The scrub meets a word of a rein's state (R332). -/
def scrubRein (s : State) (n : Nat) (u : Upset) : State := reinWord s n (scrubFound (s.reinRec n).bad u)

/-- BRDL_CH_ERR of a channel whose memory is found in error. -/
def noteRam (s : State) (c : Nat) (x : ScrubFound) : State :=
  match x with
  | .clean => s
  | .corrected => brdlFlag s c 25
  | .uncorrectable => brdlFlag s c 24

/-- The scrub meets entry k of a channel's FIFO: an uncorrectable one is discarded as it leaves (R361). -/
def scrubFifo (s : State) (c k : Nat) (u : Upset) : State :=
  let q := mapGet [] s.fifos c
  match q[k]? with
  | none => s
  | some e =>
    let x := scrubFound e.mark u
    scrubEvent (noteRam { s with fifos := mapSet [] s.fifos c (q.set k { e with mark := x.mark }) } c x) x 0x080B 0x0803 c

/-- The scrub meets word k of a buffer: what it finds, and what it leaves there (R138, R385). -/
def scrubWord (s : State) (b : WordBuffer) (i k : Nat) (u : Upset) : ScrubFound × State :=
  let x := scrubFound (s.word b i k) u
  (x, s.setWord b i k x.mark)

/-- The scrub meets an object's words: an uncorrectable error makes it not valid until its next store (R359). -/
def scrubObject (s : State) (o : Nat) (u : Upset) : State :=
  let b := mapGet {} s.objects o
  let x := scrubFound b.mark u
  let s := s.setObject o { b with valid := b.valid && x != .uncorrectable, mark := x.mark }
  scrubEvent (noteRam s b.channel x) x 0x0801 0x0802 o

/-- The scrub meets a word of an Intake line buffer: an uncorrectable one errors the frame in progress (R302). -/
def scrubLine (s : State) (p : Nat) (x : ScrubFound) : State :=
  match x with
  | .clean => s
  | .corrected => pipeEvent s p 0x0B 1 22
  | .uncorrectable => frameError s p 0x0C 23

/-- The scrub meets a chute word (R348). -/
def scrubChute (s : State) (c k : Nat) (u : Upset) : State :=
  let q := s.chute c
  match q.words[k]? with
  | none => s
  | some w =>
    let m := metMark w.mark u
    let s := s.setChute c { q with words := q.words.set k { w with mark := if m = .single then .clean else m } }
    (checkWord s c m).1

/-- The Furrow runs a task that an uncorrectable word of its instruction stores ends (R90). -/
def State.storeInUse (s : State) (n : Nat) : Bool := (s.furrow n).task.any fun t => t.stage != .checking && !t.isEnding

/-- The scrub meets an instruction store (R90): a corrected word is noted in FUR_FW and recorded as F1 (R7), with a cause that no
table gives (DESIGN CHOICE, safe, log 82). An uncorrectable one stays, ends the task that runs or the next one that starts, and
without a running task is recorded by the sweep itself, under the code of cause 0x0B (R6, R138; DESIGN CHOICE, unsafe, log 90). -/
def scrubStore (s : State) (n k : Nat) (u : Upset) : State :=
  let f := s.furrow n
  let x := scrubFound (mapGet .clean f.stores k) u
  let s := s.setFurrow n { f with stores := mapSet .clean f.stores k x.mark }
  match x with
  | .clean => s
  | .corrected => (s.setBit (Reg.furFw n) (8 + k) true).raiseOpen 0x20 1 n
  | .uncorrectable => if s.storeInUse n then storeFault s n else s.raise (taskFaultEvent n 0x0B none)

/-- The scrub meets a tally entry (R377): an uncorrectable one is left with a CRC that fails, its value free (DESIGN
CHOICE, unsafe, log 28). -/
def scrubTally (s : State) (k : Nat) (u : Upset) : State :=
  let a := tallyBase + 32 * k
  let x := scrubFound (s.mark (a / 32)) u
  let s := s.setMark (a / 32) x.mark
  let s := match x with
    | .uncorrectable =>
      let (v, s) := s.takeFree
      let good := (crc32c (s.bytes a 28)).toNat
      s.poke (a + 28) (leBytes 4 ((good + 1 + v.toNat % (2 ^ 32 - 1)) % 2 ^ 32))
    | _ => s
  scrubEvent s x 0x0A08 0x0A09 0

/-- An uncorrectable word of a Furrow's line buffers or score buffer poisons what the running task of that unit takes from it: the
task ends (R163, R191; whether a scrubbed word is one in use the manual leaves open: DESIGN CHOICE, unsafe, log 28). -/
def poisonUnit (s : State) (n : Nat) (ops : List Nat) (x : ScrubFound) : State :=
  match x, (s.furrow n).task with
  | .uncorrectable, some t => if ops.contains t.desc.op && t.stage != .checking && !t.isEnding then toEnding s n t 0x0A else s
  | _, _ => s

/-- The scrub meets a word of the line buffers (R163). -/
def scrubRake (s : State) (n : Nat) (x : ScrubFound) : State :=
  poisonUnit (scrubEvent (noteWord s (Reg.furRkEcc n) x) x 0x2030 0x2031 n) n [0x02, 0x03, 0x04] x

/-- The scrub meets a word of the score buffer, or of the m and l registers that share its check (R191). -/
def scrubHarrow (s : State) (n : Nat) (x : ScrubFound) : State :=
  poisonUnit (scrubEvent (noteWord s (Reg.furHwEcc n) x) x 0x2032 0x2033 n) n [0x05] x

/-- The oldest data frame in port q's buffers is poisoned: a stream's window first, then the frames that wait. Which frame the word
belongs to the manual leaves to the buffer (R256; DESIGN CHOICE, unsafe, log 28). -/
def poisonFrame (s : State) (q : Nat) : State :=
  match (List.range 16).find? fun p => !(s.stream q p).window.isEmpty with
  | some p =>
    let t := s.stream q p
    s.setStream q p { t with window := t.window.zipIdx.map fun (w, i) =>
      if i = 0 then { w with msg := { w.msg with poison := true } } else w }
  | none =>
    let x := s.drovePort q
    s.setPort q { x with ready := x.ready.zipIdx.map fun (m, i) => if i = 0 then { m with poison := true } else m }

/-- An error is found in a word of port q's frame buffers (R256). -/
def droveWord (s : State) (q : Nat) (x : ScrubFound) : State :=
  scrubEvent (if x = .uncorrectable then poisonFrame s q else s) x 0x0609 0x0608 q

/-- The scrub reads word k of a buffer of unit i of n, with what an error in it does. -/
def scrubBuffer (s : State) (b : WordBuffer) (n i k : Nat) (u : Upset) (f : State → Nat → ScrubFound → State) : State :=
  withUnit s n i fun s i =>
    let (x, s) := scrubWord s b i k u
    f s i x

/-- The scrub reads one word of a memory. -/
def scrubMemory (s : State) (m : ScrubMemory) (u : Upset) : State :=
  match m with
  | .lineBuffer n k => withUnit s 8192 k fun s k => scrubBuffer s .line 64 n k u scrubRake
  | .scoreBuffer n k => withUnit s 8192 k fun s k => scrubBuffer s .score 64 n k u scrubHarrow
  | .intakeLine p k => scrubBuffer s .intake 16 p k u scrubLine
  | .reinState n => withUnit s 256 n fun s n => scrubRein s n u
  | .hopper h => withUnit s 32768 h fun s h => scrubHopper s h u
  | .bridleObject o => withUnit s 2048 o fun s o => scrubObject s o u
  | .bridleFifo c k => withUnit s 8 c fun s c => withUnit s 64 k fun s k => scrubFifo s c k u
  | .chute c k => withUnit s 24 c fun s c => withUnit s 32 k fun s k => scrubChute s c k u
  | .instructionStore n k => withUnit s 64 n fun s n => withUnit s 5 k fun s k => scrubStore s n k u
  | .droveBuffer q k => scrubBuffer s .drove 4 q k u droveWord
  | .tally k => withUnit s 1024 k fun s k => scrubTally s k u

/-- SEC_DED_MEMORY_SCRUB. -/
def execSecDedMemoryScrub (memory : ScrubMemory) (upset : Upset) (s : State) : Result := live s <|
  scrubMemory s memory upset

/-! Fuses (R463). -/

/-- FUSE_PROG.go: from the Reeve, in the Open profile, revocation bits and a serial that is no lower. -/
def programFuses (s : State) (r : Requester) : State :=
  let serial := s.reg Reg.fuseProgSerial
  if r == .reeve && !s.fenced && (s.reg Reg.fuseMinSerial).toNat ≤ serial.toNat then
    let revoked := s.bits Reg.fuseKey 7 4 ||| s.bits Reg.fuseProg 3 0
    ((s.setBits Reg.fuseKey 7 4 revoked).setReg Reg.fuseMinSerial serial).raise { code := 0x0C03, cls := 0 }
  else s.raise { code := 0x0C02, cls := 0 }

/-- FUSE_PROGRAM. -/
def execFuseProgram (req : Requester) (s : State) : Result := live s <| programFuses s req

/-! JTAG (R485, R486). -/

/-- The TAP takes an instruction. -/
def setTap (s : State) (k : Nat) : State := { s with pins := { s.pins with tap := k } }

/-- JTAG_IDCODE. -/
def execJtagIdcode (s : State) : Result := always s ((setTap s 0).emit (.jtag 0x14816A3D))

/-- JTAG_BYPASS. -/
def execJtagBypass (s : State) : Result := always s (setTap s 1)

/-- The cells of the boundary register: one per 1.8 V CMOS ball of R477 in its order, without the five balls of the TAP itself (the
order and the TAP's own balls: PRESUMED from IEEE 1149.1, unsafe, log 91). -/
def boundaryCells : Nat := 116

/-- The level of the ball of cell k where the device's state gives it: FSYNC outputs, Tack flow control in, the resets and the safety
balls. -/
def State.ballLevel (s : State) (k : Nat) : Option Bool :=
  if 16 ≤ k ∧ k < 32 then
    if s.highZ then none else some ((s.fsync (k - 16)).level != s.bit (Reg.timeFsyncCtrl (k - 16)) 17)
  else if 32 ≤ k ∧ k < 56 ∧ k % 2 = 1 then some (mapGet false s.pins.fcIn ((k - 32) / 2))
  else
    match k with
    | 56 => some (!s.pins.porst)
    | 57 => some (!s.pins.warm)
    | 58 => some (!s.pins.safeReq)
    | 59 => some (!s.bit Reg.safeStatus 3)
    | 60 => some s.pins.dyn
    | _ => none

/-- SAMPLE captures the balls' levels (R485); a level that the device does not hold is the one the outside gives. -/
def State.sampleCells (s : State) (levels : List Bool) : List Bool :=
  (List.range boundaryCells).map fun k => (s.ballLevel k).getD ((levels[k]?).getD false)

/-- The cells preloaded by a scan; the ones it does not reach hold their sample. -/
def preload (sample shifted : List Bool) : List Bool := shifted.take boundaryCells ++ sample.drop shifted.length

/-- JTAG_SAMPLE_PRELOAD: the sample leaves as the cells are shifted in. -/
def execJtagSamplePreload (scan : JtagScan) (s : State) : Result :=
  let s := setTap s 2
  let sample := s.sampleCells scan.levels
  always s ({ s with pins := { s.pins with boundary := preload sample scan.shifted } }.emit (.scan sample))

/-- The Celmas debug instructions of the TAP are enabled: in the Open profile only (R400, R485). No command of the table issues
one. -/
def State.debugEnabled (s : State) : Bool := !s.pins.porst && !s.fenced

/-- JTAG_EXTEST: the boundary register drives the balls only while PORST_N is low. -/
def execJtagExtest (s : State) : Result :=
  let s := setTap s 3
  always s (if s.pins.porst then s.emit (.pins s.pins.boundary) else s)

end Sys2Proof.Machine
end

