-- ==== Sys2Proof/Machine/Inject.lean ====
section
/-! DEFINITION. Error injection in service (R400): the checkers by code, and what one injected error does. -/

namespace Sys2Proof.Machine

/-! Checkers (R382, R398). -/

/-- The fault class that a checker's code has in its block's table; none: the code is not a checker's. Codes whose class the
instance decides are in `detect`. -/
def checkerClass (code : Nat) : Option Nat :=
  if [0x000E, 0x0806].contains code then some 0
  else if [0x0301, 0x0401, 0x0403, 0x0501, 0x050B, 0x0601, 0x0609, 0x0708, 0x0801, 0x080B, 0x0901, 0x0A08, 0x0D01, 0x2030,
      0x2032, 0x2101, 0x2102, 0x2202].contains code then some 1
  else if [0x0302, 0x0402, 0x0404, 0x0502, 0x0503, 0x0508, 0x050C, 0x050D, 0x0608, 0x0709, 0x0802, 0x0803, 0x080A, 0x0902,
      0x0903, 0x090A, 0x0A09, 0x0D03, 0x2023, 0x2031, 0x2033, 0x2103, 0x2104].contains code then some 2
  else if [0x0303, 0x050A, 0x2004, 0x200B, 0x2203].contains code then some 3
  else if [0x0001, 0x0101, 0x0102, 0x0203, 0x0304, 0x0405, 0x0707, 0x0A01, 0x0A04, 0x0A06, 0x0A07].contains code then some 4
  else if [0x0A10, 0x0A11, 0x0A12, 0x0A13].contains code then some 2
  else none

/-- The instances that a checker's code has: from, and how many. -/
def checkerInstances (code : Nat) : Nat × Nat :=
  if [0x0A10, 0x0A11, 0x0A12, 0x0A13].contains code then (1, 255)
  else if code = 0x0801 ∨ code = 0x0802 then (0, 2048)
  else if code = 0x0901 ∨ code = 0x0902 then (0, 24)
  else if code = 0x0707 then (0, 1)
  else
    match code / 256 with
    | 0x03 => (0, 72)
    | 0x04 => (0, 32)
    | 0x05 => (0, 16)
    | 0x06 => (0, 4)
    | 0x07 => (0, 256)
    | 0x08 => (0, 8)
    | 0x09 => (0, 12)
    | 0x20 => (0, 64)
    | 0x21 => (0, 64)
    | 0x22 => (0, 32768)
    | _ => (0, 1)

/-- A code and an instance name a checker. -/
def isChecker (code inst : Nat) : Bool :=
  let (a, n) := checkerInstances code
  (checkerClass code).isSome && a ≤ inst && inst < a + n

/-! One detection. -/

/-- Events that a change raises carry the injected flag (R400). -/
def asInjected (f : State → State) (s : State) : State :=
  let t := f s
  let k := s.island.net.length
  { t with island := { t.island with
      net := t.island.net.take k ++ (t.island.net.drop k).map fun e => { e with injected := true } } }

/-- Counts and flags of an ECC checker; its error address keeps its value, as an injected error has none (DESIGN CHOICE,
unsafe, log 31). -/
def noteChecker (s : State) (code i : Nat) : State :=
  match code with
  | 0x0301 => (s.setBit Reg.headErr 30 true).addSat Reg.headEcc 15 0
  | 0x0302 => (s.setBit Reg.headErr 31 true).addSat Reg.headEcc 31 16
  | 0x0303 => (s.setBit Reg.headErr 31 true).addSat Reg.headEcc 31 16
  | 0x0401 => (s.setBit Reg.dramErr 30 true).addSat (Reg.dramChEcc i) 15 0
  | 0x0402 => (s.setBit Reg.dramErr 31 true).addSat (Reg.dramChEcc i) 31 16
  | 0x0403 => (s.setBit Reg.dramErr 30 true).addSat (Reg.dramChEcc i) 15 0
  | 0x0404 => (s.setBit Reg.dramErr 31 true).addSat (Reg.dramChEcc i) 31 16
  | 0x080B => brdlFlag s i 25
  | 0x0901 => (s.setBit (Reg.chuteStatus i) 30 true).addSat (Reg.chuteEcc i) 15 0
  | 0x2101 => (s.setBit (Reg.furSbErr i) 30 true).addSat (Reg.furSbEccCnt i) 15 0
  | 0x2102 => (s.setBit (Reg.furSbErr i) 30 true).addSat (Reg.furSbEccCnt i) 15 0
  | 0x2103 => (s.setBit (Reg.furSbErr i) 31 true).addSat (Reg.furSbEccCnt i) 31 16
  | 0x2104 => (s.setBit (Reg.furSbErr i) 31 true).addSat (Reg.furSbEccCnt i) 31 16
  | 0x000E => s.addSat Reg.reeveChainCnt 15 0
  | _ => s

/-- A Furrow's checker: it ends the task that runs there with its cause, or reports alone. -/
def detectTask (s : State) (n cause : Nat) : State :=
  let alone := s.raise (taskFaultEvent n cause none)
  match (s.furrow n).task with
  | some t =>
    match t.stage with
    | .ending _ => alone
    | _ => finishFaulted s n t cause
  | none => alone

/-- The check row of pipeline p mismatches: its Field stops and it halts (R299). -/
def detectCheckRow (s : State) (p : Nat) : State :=
  let s := s.setPipe p { s.pipe p with halted := true }
  let s := pipeEvent s p 0x0A 3 31
  if s.hasEntry 8 0 p then stopField s (s.pipeField p) 0x050A else s

/-- A martingale's checker reports; an age has no value here: a free value (DESIGN CHOICE, unsafe, log 31). -/
def detectMartingale (s : State) (m code : Nat) : State :=
  let flag := 31 - (code - 0x0A10)
  if code = 0x0A12 then
    let (v, s) := s.takeFree
    mgRaise s m code flag v.toNat
  else mgRaise s m code flag (if s.mgPeriod m = 0 then 0 else s.mgWindow m s.now)

/-- The Field that an uncorrectable header names: the packet's virtual channel, which an instance does not select
(DESIGN CHOICE, unsafe, log 31). -/
def detectHeader (s : State) (router : Nat) : State :=
  let (v, s) := s.takeFree
  s.raise { code := 0x0303, cls := 3, inst := router, field := some (v.toNat % 8) }

/-- An object's uncorrectable error: it is not valid until its next store (R359). -/
def loseObject (s : State) (o : Nat) : State :=
  let b := s.object o
  scrubEvent (noteRam (s.setObject o { b with valid := false }) b.channel .uncorrectable) .uncorrectable 0x0801 0x0802 o

/-- The head entry of a channel's FIFO is a rein's. -/
def State.headIsRein (s : State) (c : Nat) : Bool := (mapGet [] s.fifos c).head?.any fun e => e.rein

/-- An uncorrectable FIFO entry is found as it leaves: the head is discarded (R366). -/
def loseEntry (s : State) (c : Nat) : State :=
  let s := { s with fifos := mapSet [] s.fifos c (s.fifo c).tail }
  scrubEvent (noteRam s c .uncorrectable) .uncorrectable 0x080B 0x0803 c

/-- An uncorrectable chute word: of a bound receive chute it marks the sample bank invalid (R348). -/
def loseWord (s : State) (c : Nat) : State :=
  let s := if c % 2 = 0 && s.chuteBound c then loseBank s (c / 2) else s
  (checkWord s c .double).1

/-- An uncorrectable tally word: which entry it lies in no instance says, so a free value does (R377; DESIGN CHOICE, safe, log 31). -/
def loseEntryOfLog (s : State) : State :=
  let (v, s) := s.takeFree
  scrubTally s (v.toNat % 1024) .double

/-- A checker detects one error: what a real detection at that instance does. -/
def detect (s : State) (code i : Nat) : State :=
  match code with
  | 0x0001 => lockstep s .reeve
  | 0x0A01 => lockstep s .safetyController
  | 0x0203 => lockstep s .timeBase
  | 0x0707 => if s.rein.silent then s.raise { code := code, cls := 4 } else reinMismatch s
  | 0x0101 => clockFault s 0x0101 0
  | 0x0102 => clockFault s 0x0102 1
  | 0x0A06 => tripMonitor s 0x0A06
  | 0x0A07 => tripMonitor s 0x0A07
  | 0x0303 => noteChecker (detectHeader s i) code i
  | 0x050A => detectCheckRow s i
  | 0x0501 => (headerEcc s i .corrected).2
  | 0x0502 => frameError s i 0x02 28
  | 0x0503 => frameError s i 0x03 29
  | 0x0508 => frameError s i 0x08 29
  | 0x050B => pipeEvent s i 0x0B 1 22
  | 0x050C => frameError s i 0x0C 23
  | 0x050D => frameError s i 0x0D 32
  | 0x080A => s.raise { code := code, cls := if s.headIsRein i then 4 else 2, inst := i }
  | 0x090A => s.raise { code := code, cls := if s.chuteBound (2 * i + 1) then 4 else 2, inst := i }
  | 0x0A09 => loseEntryOfLog s
  | 0x0601 => (s.addSat (Reg.drovePortDrop i) 31 16).raise { code := code, cls := 1, inst := i }
  | 0x0806 => (brdlFlag s i 29).raise { code := code, cls := 0, inst := i }
  | 0x0A10 => detectMartingale s i code
  | 0x0A11 => detectMartingale s i code
  | 0x0A12 => detectMartingale s i code
  | 0x0A13 => detectMartingale s i code
  | 0x0608 => droveWord s i .uncorrectable
  | 0x2030 => scrubRake s i .corrected
  | 0x2031 => scrubRake s i .uncorrectable
  | 0x2032 => scrubHarrow s i .corrected
  | 0x2033 => scrubHarrow s i .uncorrectable
  | 0x2004 => detectTask s i 0x04
  | 0x0708 => scrubEvent (noteWordError s i .single) .corrected 0x0708 0x0709 i
  | 0x0709 => reinWord s i .uncorrectable
  | 0x0801 => scrubEvent (noteRam s (s.object i).channel .corrected) .corrected 0x0801 0x0802 i
  | 0x0802 => loseObject s i
  | 0x0803 => loseEntry s i
  | 0x0902 => loseWord s i
  | 0x0903 => crcError s i
  | 0x200B => detectTask s i 0x0B
  | 0x2023 => detectTask s i 0x23
  | 0x2203 => hopperBad s i
  | _ => (noteChecker s code i).raise { code := code, cls := (checkerClass code).getD 0, inst := i }

/-- SAFE_INJECT.go: in the Open profile one checker detects one error; a request that names none is dropped (R400). -/
def inject (s : State) (code i : Nat) : State :=
  if s.fenced || !isChecker code i then refuseSafety s else asInjected (fun s => detect s code i) s

/-- SAFE_INJECT. -/
def execSafeInject (code instanceIndex : Nat) (s : State) : Result := live s <| inject s code instanceIndex

end Sys2Proof.Machine
end

