-- ==== Sys2Proof/Machine/Access.lean ====
section
/-! DEFINITION. Accesses by the Reeve, the management function and the Fields' functions (R14 to R21, R32 to R34): register
reads and writes by field access type, the memory windows of the blocks, the write gather (R459). -/

namespace Sys2Proof.Machine

/-- What is left by a command: its next state, or the state as it was where the command names no unit. -/
def afterOr (s : State) : Result → State
  | .next t => t
  | _ => s

/-- The index of the register of a row at an address. -/
def unitAt (base stride count a : Nat) : Option Nat :=
  if base ≤ a ∧ (a - base) % stride = 0 ∧ (a - base) / stride < count then some ((a - base) / stride) else none

/-! Reach (R32, R417, R441, R459). -/

/-- A requester's access to n bytes from a. -/
def State.accessible (s : State) (r : Requester) (a n : Nat) (write : Bool) : Bool :=
  s.reaches (.req r) a n write

/-- The registers of the write gather, which only the Reeve reaches (R459). -/
def gatherReg (a : Nat) : Bool := a == Reg.reeveWgAddrLo || a == Reg.reeveWgAddrHi || a == Reg.reeveWgCtrl

/-- The buckle set that a register belongs to. -/
def buckleSet (a : Nat) : Option Nat :=
  if Reg.bklCmd 0 ≤ a ∧ a < Reg.bklCmd 11 then some ((a - Reg.bklCmd 0) / 0x20) else none

/-- A requester may write a register that it reaches: a buckle set only when it is its own (R417). -/
def mayWrite (r : Requester) (a : Nat) : Bool :=
  (!gatherReg a || r == .reeve) && (buckleSet a).all fun k => buckleOf r == some k

/-! Memory windows inside the register blocks. -/

/-- The windows: write gather data, chain messages, Bridle views and stages, the mailbox, the tally log. -/
inductive Window where
  | gather
  | chainTx
  | chainRx
  | objView (w : Nat)
  | stage (c : Nat)
  | mailbox
  | tally
  deriving DecidableEq, Repr

/-- REEVE_WG_DATA (R459). -/
def gatherBase : Nat := 0x5000000080

/-- The window that holds an address. -/
def windowOf (a : Nat) : Option Window :=
  let inside (base n : Nat) : Bool := base ≤ a && a < base + n
  if inside gatherBase 64 then some .gather
  else if inside chainTxBase 64 then some .chainTx
  else if inside 0x5000000180 68 then some .chainRx
  else if inside 0x5000080420 96 then some (.objView 0)
  else if inside 0x5000080520 96 then some (.objView 1)
  else if inside mailboxBase 0x4000 then some .mailbox
  else if inside tallyBase 0x8000 then some .tally
  else ((List.range 8).find? fun c => inside (stageBase c) 80).map .stage

/-- REEVE_CHAIN_RX: the oldest message (R458). -/
def State.chainRxBytes (s : State) : List Byte :=
  match s.chain.queue with
  | [] => leBytes 68 0
  | (src, p) :: _ => leBytes 4 src ++ slice p 0 64

/-- BRDL_OBJ_VIEW of view w: the object's header and one page of its data (R356, R358). -/
def State.viewBytes (s : State) (w : Nat) : List Byte :=
  let o := mapGet {} s.objects (s.bits (Reg.brdlObjSel w) 10 0)
  let page := s.bits (Reg.brdlObjSel w) 15 11
  let flags := bval o.new + 2 * bval o.lost + 4 * bval o.brs + 8 * bval o.esi + 16 * bval o.sec + 32 * bval o.valid
  leBytes 8 o.tick ++ leBytes 4 o.ident.toNat ++ leBytes 4 o.af.toNat ++ leBytes 2 o.len ++ [o.sdt, o.vcid] ++
    leBytes 1 flags ++ leBytes 1 o.channel ++ leBytes 2 o.seq ++ leBytes 8 0 ++ slice o.data (64 * page) 64

/-- n bytes of a window. -/
def State.windowBytes (s : State) (w : Window) (a n : Nat) : List Byte :=
  match w with
  | .chainRx => slice s.chainRxBytes (a - 0x5000000180) n
  | .objView v => slice (s.viewBytes v) (a - (0x5000080420 + 0x100 * v)) n
  | _ => s.bytes a n

/-! Reads (R14, R15, R21). -/

/-- The rows of the low registers of 64-bit quantities; the high register follows each (R21). -/
def lowRows : List Nat :=
  [Reg.timeNowLo, Reg.timeStepLo, Reg.timeFsyncStartLo 0, Reg.furMacLo 0, Reg.furGatedLo 0, Reg.furHwFenceLo 0,
    Reg.fldFurrowsLo 0, Reg.fldDramBaseLo 0, Reg.fldDramLimitLo 0, Reg.fldStopTickLo 0, Reg.fldGleanAddrLo 0,
    Reg.dramErrAddrLo, Reg.intkPipeCaptureLo 0, Reg.reinChOriginLo 0, Reg.reinChRelTickLo 0, Reg.tackRxTickLo 0,
    Reg.safeSrcCountLo, Reg.safeSrcFirstLo, Reg.safeSrcLastLo, Reg.safeFurPassLo 0, Reg.hrnsSrcLo, Reg.bklFailLo 0,
    Reg.reeveBuserrAddrLo, Reg.reeveWgAddrLo, Reg.fuseUidLo]

/-- Tasks whose access is held at Furrow n's generation gate. -/
def State.heldAccesses (s : State) (n : Nat) : Nat :=
  ((List.range 64).filter fun m => (heldAt s n m).isSome).length

/-- Tasks of a Field that are parked. -/
def State.parkedTasks (s : State) (f : Nat) : Nat :=
  (s.furrowsOf f).foldl (fun k n => k + ((s.furrow n).slots.filter fun x => x.2.isSome).length) 0

/-- The tally source that SAFE_SRC_SEL selects. -/
def State.selectedSource (s : State) : SourceRecord :=
  s.tallySource (sourceKey (s.bits Reg.safeSrcSel 15 0) (s.bits Reg.safeSrcSel 18 16))

/-- Levels at the GPIO balls: a driven one reads as driven. -/
def State.gpioIn (s : State) : Word :=
  (s.reg Reg.reeveGpioOe &&& s.reg Reg.reeveGpioOut) ||| (~~~s.reg Reg.reeveGpioOe &&& s.pins.gpioLevels)

/-- A register that shows other state: its row's first address, what it shows. -/
def State.shown (s : State) (base a i : Nat) : Nat :=
  let v := (s.reg a).toNat
  if base = Reg.timeNowLo then s.now
  else if base = Reg.timeNowHi then s.now / 2 ^ 32
  else if base = Reg.furId 0 then withBits v 22 16 (s.physicalAt i)
  else if base = Reg.furSbRepair 0 then withBits v 15 0 (s.repairedBanks i)
  else if base = Reg.furTaskCycles 0 then
    (match (s.furrow i).task with
     | some t => withBits v 14 0 (min (s.ranCycles t) 32767)
     | none => v)
  else if base = Reg.furSbGate 0 then withBits v 4 0 (min (s.heldAccesses i) 31)
  else if base = Reg.furHwBucket 0 0 then (if (s.fieldOf ((a - base) / 0x1000000)).isSome then v else 0)
  else if base = Reg.fldStatus 0 then withBits v 11 8 (min (s.parkedTasks i) 15)
  else if base = Reg.drovePeer 0 then withBits v 1 1 (bval (s.addressed && s.chipId == i))
  else if base = Reg.headVcWeight 0 then (if i = 8 then 1 else if s.fieldState i = fldUnconfigured then 0 else v)
  else if base = Reg.intkPipeState 0 then withBits v 2 0 (s.pipeState i)
  else if base = Reg.brdlChStatus 0 then withBits v 29 23 (s.fifo i).length
  else if base = Reg.tackStatus 0 then withBits v 3 3 (bval (mapGet false s.pins.fcIn i))
  else if base = Reg.chuteStatus 0 then withBits v 5 0 (s.chute i).words.length
  else if base = Reg.safeSrcCountLo then s.selectedSource.count
  else if base = Reg.safeSrcCountHi then s.selectedSource.count / 2 ^ 32
  else if base = Reg.safeSrcFirstLo then s.selectedSource.first
  else if base = Reg.safeSrcFirstHi then s.selectedSource.first / 2 ^ 32
  else if base = Reg.safeSrcLastLo then s.selectedSource.last
  else if base = Reg.safeSrcLastHi then s.selectedSource.last / 2 ^ 32
  else if base = Reg.pcieFn 0 ∧ i = 0 then withBits v 0 0 1
  else if base = Reg.reeveChainStatus then withBits v 31 31 (bval s.sendBusy)
  else if base = Reg.reeveGpioIn then s.gpioIn.toNat
  else if base = Reg.chuteDataHi 0 then (s.chute i).hold.toNat
  else v

/-- The value a read of a register returns, apart from a latched half: reserved bits and WO fields read 0. -/
def State.readValue (s : State) (d : RegDesc) (a i : Nat) : Word :=
  BitVec.ofNat 32 (s.shown d.base a i) &&& maskWhere d.fields fun f => f.access != .wo

/-- A 32-bit read of a register: its value, whether it is poisoned, and what it changes: a low register latches the high half,
a latched half is read once (R21), a receive chute pops (R345). The high register answers its live half once the latched one
has been read (DESIGN CHOICE, unsafe, log 81); the data registers of a transmit chute answer 0 and the holding register
(DESIGN CHOICE, unsafe, log 83). -/
def readRegister (s : State) (d : RegDesc) (a i : Nat) : Word × Bool × State :=
  if d.base = Reg.chuteDataLo 0 then (if i % 2 = 0 then popChute s i else (0, false, s))
  else
    match mapFind s.latch a with
    | some v => (v, false, { s with latch := mapErase s.latch a })
    | none =>
      let v := s.readValue d a i
      if lowRows.contains d.base then
        match regAt (a + 4) with
        | some (e, j, _) => (v, false, { s with latch := mapInsert s.latch (a + 4) (s.readValue e (a + 4) j) })
        | none => (v, false, s)
      else (v, false, s)

/-- A region of registers. -/
def Region.isRegs : Region → Bool
  | .furRegs _ => true
  | .hopRegs => true
  | .block _ => true
  | _ => false

/-- A read of n bytes by a requester: the data, whether it is poisoned, and what it changes. Registers answer 32-bit aligned
reads only (R14); a denied read returns zeros (R34). -/
def readAccess (s : State) (r : Requester) (a n : Nat) : List Byte × Bool × State :=
  let zeros := leBytes n 0
  if !s.accessible r a n false then (zeros, false, deniedAccess s r a)
  else
    match windowOf a, s.region a with
    | some w, _ =>
      if windowOf (a + (n - 1)) ≠ some w ∨ (w = .gather ∧ r ≠ .reeve) then (zeros, false, deniedAccess s r a)
      else (s.windowBytes w a n, s.poisoned a n, s)
    | none, some g =>
      if g.isRegs then
        if n ≠ 4 ∨ a % 4 ≠ 0 then (zeros, false, s)
        else if gatherReg a && r != .reeve then (zeros, false, deniedAccess s r a)
        else
          match regAt a with
          | some (d, i, _) =>
            let (v, bad, s) := readRegister s d a i
            (leBytes 4 v.toNat, bad, s)
          | none => (zeros, false, denied s r a)
      else
        let s := noteRead s a n
        ((List.range n).map fun i => s.viewByte (a + i), s.poisoned a n, s)
    | none, none => (zeros, false, denied s r a)

/-- REGISTER_READ. The Reeve's poisoned read sets its bus error (R126); a read of a seedbed that is not ready is held (R139). -/
def registerRead (s : State) (r : Requester) (a size : Nat) : State :=
  if s.accessible r a size false && (seedbedOf a).any (fun m => !s.bit (Reg.furSbStatus m) 0) then
    holdAccess s (.read r a size)
  else
    let (bs, bad, s) := readAccess s r a size
    let s := if bad && r == .reeve then reeveBusError s a else s
    if bad then s.emit (.row bs true) else s.emit (.readData (BitVec.ofNat 64 (leNat bs)))

/-- REGISTER_READ. -/
def execRegisterRead (req : Requester) (addr size : Nat) (s : State) : Result := live s <|
  registerRead s req addr size

/-- CHUTE_POP: a read of CHUTE_DATA_LO on a receive chute (R345). -/
def execChutePop (req : Requester) (c : Nat) (s : State) : Result := live s <|
  onReceiveChute s c fun s c => registerRead s req (Reg.chuteDataLo c) 4

/-! Writes of memory (R34, R117, R262, R312, R428). -/

/-- A write of bytes by a requester to memory or to a window; the mailbox has its own rule for every requester (R312). A register takes
32-bit writes only (R14). -/
def blockWrite (s : State) (r : Requester) (a : Nat) (bs : List Byte) (poison : Bool) : State :=
  let n := bs.length
  if n = 0 then s
  else if windowOf a = some .mailbox then mailboxRequest s r ((a - mailboxBase) / 64) ((a - mailboxBase) % 64) bs
  else if !s.accessible r a n true then deniedAccess s r a
  else
    match windowOf a, s.region a with
    | some .gather, _ => if r = .reeve ∧ a + n ≤ gatherBase + 64 ∧ n = 4 ∧ a % 4 = 0 then s.store a bs else deniedAccess s r a
    | some .chainTx, _ => if a + n ≤ chainTxBase + 64 ∧ n = 4 ∧ a % 4 = 0 then s.store a bs else s
    | some (.stage c), _ => if a + n ≤ stageBase c + 80 ∧ n = 4 ∧ a % 4 = 0 then s.store a bs else s
    | some _, _ => denied s r a
    | none, some .dram => writeDram s a bs poison .clean (n / 64 + 2)
    | none, some (.seedbed m) =>
      if s.bit (Reg.furSbStatus m) 0 then writeGranules s r m a bs poison else holdAccess s (.write r a bs poison)
    | none, some .sram => s.store a bs poison
    | none, some .hopperTable => denied s r a
    | none, some .rom => denied s r a
    | none, some .flash => denied s r a
    | none, _ => s

/-! The write gather (R459). -/

/-- REEVE_WG_CTRL.go with a length. -/
def gatherGo (s : State) (len : Nat) : State :=
  let s' := s.setBits Reg.reeveWgCtrl 6 0 len
  let a := s.reg64 Reg.reeveWgAddrLo Reg.reeveWgAddrHi
  if s.bit Reg.reeveWgCtrl 30 || (len != 32 && len != 64) || a % len != 0 then s'.raise { code := 0x0010, cls := 0 }
  else blockWrite (s'.setBit Reg.reeveWgCtrl 30 true) .reeve a (s.bytes gatherBase len) false

/-- WRITE_GATHER_GO. -/
def execWriteGatherGo (len : Nat) (s : State) : Result := live s <| gatherGo s len

/-- WRITE_GATHER_ACK: the destination acknowledges the request. -/
def execWriteGatherAck (s : State) : Result := live s <| s.setBit Reg.reeveWgCtrl 30 false

/-! Strobes and registers with an action of their own. -/

/-- FUR_ registers of Furrow n, by offset. -/
def strobeFurrow (s : State) (r : Requester) (n off : Nat) (v : Word) : State :=
  let go := v.getLsbD 0
  if off = 0x40 ∧ go then afterOr s (execFurCntClear n s)
  else if off = 0x11C ∧ go then afterOr s (execFurSbCntClear n s)
  else if off = 0x20C ∧ go then afterOr s (execFurZcCntClear n s)
  else if off = 0x348 ∧ go then afterOr s (execFurHwCntClear n s)
  else if off = 0x30C then afterOr s (execFenceRequest n v s)
  else if 0x1000 ≤ off ∧ off < 0x1800 ∧ off % 8 = 4 then slotGenerationWrite s r n ((off - 0x1004) / 8) (v.toNat % 65536)
  else s

/-- HOP_ and FLD_ registers. A stop in the same write as another request takes effect alone (R200). -/
def strobeHopper (s : State) (r : Requester) (a : Nat) (v : Word) : State :=
  let w := v.toNat
  if a = Reg.hopDoorbell then ring s (.req r) (w % 32768) (w / 65536)
  else if a = Reg.hopSkip then (if v.getLsbD 31 then afterOr s (execHopSkip r (w % 32768) s) else s)
  else if a = Reg.hopCntReset then afterOr s (execHopCntReset r (w % 32768) s)
  else
    match unitAt (Reg.fldCtrl 0) 0x100 8 a with
    | some f =>
      if v.getLsbD 2 then afterOr s (execFieldStop r f s)
      else
        let s := if v.getLsbD 0 then afterOr s (execFieldStart r f s) else s
        if v.getLsbD 1 then afterOr s (execFieldQuiesce r f s) else s
    | none => s

/-- Registers of the DRAM, mesh, Intake, Droveway, Rein engine and time base. -/
def strobeData (s : State) (a : Nat) (v : Word) : State :=
  let go := v.getLsbD 0
  if a = Reg.timeRateAdj then writeRate s v
  else if a = Reg.timeCtrl ∧ go then afterOr s (execTimeStep s)
  else if a = Reg.dramCtrl then
    let s := if v.getLsbD 5 then clearDramCounters s else s
    if v.getLsbD 6 then retrainNow s (v.toNat % 32) else s
  else if a = Reg.headCtrl ∧ go then afterOr s (execHeadCntClear s)
  else if a = Reg.intkCtrl ∧ go then afterOr s (execIntkCntClear s)
  else if a = Reg.reinCtrl ∧ go then afterOr s (execReinCntClear s)
  else if a = Reg.droveCtrl ∧ go then clearDroveCounters s
  else
    match unitAt (Reg.drovePeer 0) 4 16 a with
    | some p => if v.getLsbD 3 then reportFence s p else s
    | none => s

/-- Bridle and chute registers. -/
def strobeBridle (s : State) (a : Nat) (v : Word) : State :=
  if a = Reg.brdlCtrl ∧ v.getLsbD 0 then afterOr s (execBrdlCntClear s)
  else if a = Reg.brdlObjAck then afterOr s (execBrdlObjAck (v.toNat % 2048) s)
  else if a = Reg.chuteCtrl ∧ v.getLsbD 0 then afterOr s (execChuteCntClear s)
  else
    match unitAt (Reg.brdlChCmd 0) 0x100 8 a, unitAt (Reg.chuteDataLo 0) 0x20 24 a, unitAt (Reg.chuteDataHi 0) 0x20 24 a,
        unitAt (Reg.chuteDiscard 0) 0x20 24 a with
    | some c, _, _, _ =>
      let s := if v.getLsbD 0 then post s c else s
      let s := if v.getLsbD 1 then abortHead s c else s
      let s := if v.getLsbD 2 then abortAll s c else s
      if v.getLsbD 3 then recoverChannel s c else s
    | _, some c, _, _ => afterOr s (execChutePush c v s)
    | _, _, some c, _ => afterOr s (execChuteHoldWrite c v s)
    | _, _, _, some c =>
      if v.getLsbD 31 then afterOr s (execChuteDiscardAll c s) else afterOr s (execChuteDiscardN c (v.toNat % 64) s)
    | _, _, _, _ => s

/-- Safety, harness and buckle registers. -/
def strobeSafety (s : State) (r : Requester) (a : Nat) (v : Word) : State :=
  let w := v.toNat
  if a = Reg.safeCtrl then (if v.getLsbD 0 then afterOr s (execSafeEnter s) else s)
  else if a = Reg.safeWdt then (if v.getLsbD 31 then kick s else s)
  else if a = Reg.safeTallyRd then writeReadIndex s (w % 65536)
  else if a = Reg.safeInject then (if v.getLsbD 31 then inject s (bitsOf w 15 0) (bitsOf w 30 16) else s)
  else if a = Reg.hrnsCtrl then (if v.getLsbD 31 then requestLoad s r else s)
  else
    match unitAt (Reg.bklCmd 0) 0x20 11 a with
    | some k =>
      match bitsOf w 31 30 with
      | 1 => openBuckle s k (bitsOf w 15 0)
      | 2 => fasten s k (bitsOf w 25 24) (bitsOf w 23 16)
      | 3 => requestSlip s k
      | _ => s
    | none => s

/-- Reeve and fuse registers. REEVE_CTRL.boot is the command REEVE_BOOT_COMMAND, which brings the start's measurements; here an
image that is not accepted is rejected (DESIGN CHOICE, safe, log 30). -/
def strobeReeve (s : State) (r : Requester) (a : Nat) (v : Word) : State :=
  if a = Reg.reeveWgCtrl then (if v.getLsbD 31 then gatherGo s (v.toNat % 128) else s)
  else if a = Reg.reeveChainCmd then
    let s := if v.getLsbD 31 then sendMgmt s (v.getLsbD 4) (v.toNat % 16) else s
    if v.getLsbD 30 then popMgmt s else s
  else if a = Reg.fuseProg then (if v.getLsbD 31 then programFuses s r else s)
  else if a = Reg.reeveCtrl then
    (if v.getLsbD 0 && s.recovering && !s.firmwareOk true (s.firmwareAt 0x5800000000) then
      s.raise { code := 0x000B, cls := 2 } else s)
  else s

/-- The action of a register write beside its stored fields. -/
def strobe (s : State) (r : Requester) (a : Nat) (v : Word) : State :=
  if a / 0x100000000 = 0x40 then strobeFurrow s r (a / 0x1000000 % 256) (a % 0x1000000 - 0x800000) v
  else if a / 0x10000 = 0x480010 then strobeHopper s r a v
  else
    match a / 0x10000 % 16 with
    | 0 => strobeReeve s r a v
    | 8 => strobeBridle s a v
    | 9 => strobeBridle s a v
    | 10 => strobeSafety s r a v
    | 11 => strobeSafety s r a v
    | 12 => strobeReeve s r a v
    | _ => strobeData s a v

/-- RW fields that an action stores in its own way. -/
def actionRow (base : Nat) : Bool :=
  [Reg.timeRateAdj, Reg.furHwFenceGen 0, Reg.furSbSlotGen 0 0, Reg.safeTallyRd, Reg.chuteDataLo 0, Reg.chuteDataHi 0].contains base

/-- The fields of a register by access type (R16): RW takes the value, W1C clears and W1S sets where a 1 is written. -/
def storeFields (s : State) (d : RegDesc) (a : Nat) (v : Word) : State :=
  let rw := if actionRow d.base then 0 else maskWhere d.fields fun f => f.access == .rw
  let c := maskWhere d.fields fun f => f.access == .w1c
  let t := maskWhere d.fields fun f => f.access == .w1s
  let old := s.reg a
  s.setReg a ((((old &&& ~~~rw) ||| (v &&& rw)) &&& ~~~(v &&& c)) ||| (v &&& t))

/-- Clearing the flag that an error address register waits for, and other fields, act at once; then the SH bits (R19, R420),
then the action. -/
def writeRegister (s : State) (r : Requester) (d : RegDesc) (a : Nat) (v : Word) : State :=
  let s := storeFields s d a v
  let s := writeShBits s r a (maskWhere d.fields fun f => f.access == .sh) v
  strobe s r a (v &&& maskWhere d.fields fun f => f.access == .wo || f.access == .rw)

/-- A write of 1 to 8 bytes by a requester: a register takes an aligned 32-bit write (R14); an unmapped offset or an address out
of reach is dropped with an F0 entry (R15, R34). -/
def registerWrite (s : State) (r : Requester) (a size : Nat) (v : Nat) : State :=
  match windowOf a, s.region a with
  | none, some g =>
    if !g.isRegs then blockWrite s r a (leBytes size v) false
    else if !s.accessible r a size true then deniedAccess s r a
    else if size ≠ 4 ∨ a % 4 ≠ 0 then s
    else
      match regAt a with
      | none => denied s r a
      | some (d, _, _) => if mayWrite r a then writeRegister s r d a (BitVec.ofNat 32 v) else denied s r a
  | _, _ => blockWrite s r a (leBytes size v) false

/-- REGISTER_WRITE. -/
def execRegisterWrite (req : Requester) (addr size : Nat) (value : Word64) (s : State) : Result := live s <|
  registerWrite s req addr size value.toNat

end Sys2Proof.Machine
end

