-- ==== Sys2Proof/Machine/Pcie.lean ====
section
/-! DEFINITION. The PCIe endpoint (R424 to R430, R474): memory requests through BAR0 and BAR2, Function Level Reset, errors,
the link and configuration requests. -/

namespace Sys2Proof.Machine

/-- The requester that a function is (R417, R425). -/
def functionRequester (fn : Nat) : Requester := if fn = 0 then .mgmt else .field (fn - 1)

/-- The buckle set of a function's page (R427). -/
def functionSet (fn : Nat) : Nat := fn + 1

/-- The link carries requests. -/
def State.linkUp (s : State) : Bool := s.bit Reg.pcieLink 0

/-- An error of R429: its flag in PCIE_ERR and its entry. -/
def pcieError (s : State) (flag cause cls : Nat) : State :=
  (s.setBit Reg.pcieErr flag true).raise { code := 0x0D00 + cause, cls := cls }

/-- An unsupported request (R429): an Unsupported Request completion with an F0 entry. A memory request to a function without
Memory Space Enable, one that lies in neither BAR and one longer than R425 supports are such requests too (DESIGN CHOICE, unsafe,
log 32). -/
def unsupported (s : State) (fn : Nat) : State := (pcieError s 27 4 0).emit (.completion fn 1 false [])

/-! The function page (R427, R430). -/

/-- The register of a function page's offset, if it holds one. -/
def pageRegister (fn off : Nat) : Option Nat :=
  if off = 0 then some Reg.hopDoorbell
  else if 0x10 ≤ off ∧ off < 0x24 ∧ off % 4 = 0 then some (Reg.bklCmd (functionSet fn) + (off - 0x10))
  else if off = 0x40 ∧ fn ≠ 0 then some (Reg.fldStatus (fn - 1))
  else none

/-- A pending vector that is enabled and no longer masked sends its message, and its pending bit clears. -/
def firePending (s : State) (fn : Nat) : State :=
  forUpTo 8 (fun v s =>
    let x := s.function fn
    if x.msix && bitOf x.pendingBits v && !(x.tableByte (16 * v + 12)).getLsbD 0 then
      (s.setFunction fn { x with pendingBits := withBits x.pendingBits v v 0 }).emit (.msix fn v)
    else s) s

/-- One byte of the MSI-X table is written; outside it the write is dropped. -/
def writePageByte (s : State) (fn off : Nat) (b : Byte) : State :=
  if 0x1000 ≤ off ∧ off < 0x1080 then
    let x := s.function fn
    s.setFunction fn { x with table := mapSet (tableReset (off - 0x1000)) x.table (off - 0x1000) b }
  else s

/-- A write through BAR0. -/
def pageWrite (s : State) (fn off : Nat) (bs : List Byte) : State :=
  if bs.length = 4 ∧ off = 0 then ring s (.req (functionRequester fn)) (leNat bs % 32768) (leNat bs / 65536)
  else if bs.length = 4 ∧ 0x10 ≤ off ∧ off < 0x24 then
    match (pageRegister fn off).bind fun a => (regAt a).map fun x => (a, x.1) with
    | some (a, d) => writeRegister s (functionRequester fn) d a (BitVec.ofNat 32 (leNat bs))
    | none => s
  else firePending (bs.zipIdx.foldl (fun s (b, i) => writePageByte s fn (off + i) b) s) fn

/-- One byte of a function page outside its registers. -/
def State.pageByte (s : State) (fn off : Nat) : Byte :=
  let x := s.function fn
  if 0x1000 ≤ off ∧ off < 0x1080 then x.tableByte (off - 0x1000)
  else if 0x1800 ≤ off ∧ off < 0x1808 then BitVec.ofNat 8 (x.pendingBits / 256 ^ (off - 0x1800))
  else 0

/-- A read through BAR0: a register by a 32-bit read, the MSI-X structures by any. -/
def pageRead (s : State) (fn off n : Nat) : List Byte × State :=
  match (if n = 4 then (pageRegister fn off).bind fun a => (regAt a).map fun x => (a, x.1, x.2.1) else none) with
  | some (a, d, i) =>
    let (v, _, s) := readRegister s d a i
    (leBytes 4 v.toNat, s)
  | none => ((List.range n).map fun i => s.pageByte fn (off + i), s)

/-! Memory requests (R426, R428, R429). -/

/-- A write through BAR2: a register takes an aligned 32-bit write, memory one access of the request's length; a poisoned
write is stored as poison, and changes no register (DESIGN CHOICE, unsafe, log 32). -/
def barWrite (s : State) (fn a : Nat) (bs : List Byte) (poisoned : Bool) : State :=
  let r := functionRequester fn
  let regs := (windowOf a).isNone && ((s.region a).any Region.isRegs)
  if regs then (if poisoned then s else registerWrite s r a bs.length (leNat bs)) else blockWrite s r a bs poisoned

/-- A request of a length that R425 supports lies in one of the function's two BARs. -/
def inBar (bar off n : Nat) : Bool :=
  1 ≤ n && n ≤ 4096 && ((bar == 0 && off + n ≤ 65536) || (bar == 2 && off + n ≤ 2 ^ 39))

/-- A Memory Write request, of at most the largest Max Payload Size (R425). -/
def pcieWrite (s : State) (fn bar off : Nat) (bs : List Byte) (poisoned : Bool) : State :=
  if !s.linkUp then s
  else if !s.bit (Reg.pcieFn fn) 1 || !inBar bar off bs.length || 512 < bs.length then unsupported s fn
  else
    let s := if poisoned then pcieError s 30 2 2 else s
    if bar = 2 then barWrite s fn off bs poisoned else if poisoned then s else pageWrite s fn off bs

/-- A Memory Read request. -/
def pcieRead (s : State) (fn bar off n : Nat) : State :=
  if !s.linkUp then s
  else if !s.bit (Reg.pcieFn fn) 1 || !inBar bar off n then unsupported s fn
  else if bar = 2 then
    let (bs, bad, s) := readAccess s (functionRequester fn) off n
    s.emit (.completion fn 0 bad bs)
  else
    let (bs, s) := pageRead s fn off n
    s.emit (.completion fn 0 false bs)

/-- PCIE_MEMORY_WRITE. -/
def execPcieMemoryWrite (function bar offset : Nat) (data : List Byte) (poisoned : Bool) (s : State) : Result := live s <|
  withUnit s 9 function fun s function => pcieWrite s function bar offset data poisoned

/-- PCIE_MEMORY_READ. -/
def execPcieMemoryRead (function bar offset length : Nat) (s : State) : Result := live s <|
  withUnit s 9 function fun s function => pcieRead s function bar offset length

/-- PCIE_UNSUPPORTED_REQUEST. -/
def execPcieUnsupportedRequest (function : Nat) (s : State) : Result := live s <|
  withUnit s 9 function fun s function => if s.linkUp then unsupported s function else s

/-! Resets of functions and the link (R424, R474). -/

/-- A Function Level Reset: function 0 slips requester 1's transaction; function f + 1 slips requester 2 + f's and stops
Field f with code 0x2206. The function's configuration and MSI-X state return to their reset values. -/
def resetFunction (s : State) (fn : Nat) : State :=
  let s := slip s (functionSet fn) 2 0x27
  let s := if fn = 0 then s
    else
      let st := s.fieldState (fn - 1)
      if st = fldRunning ∨ st = fldQuiescing ∨ st = fldReady ∨ st = fldQuiesced then
        stopField (s.raise { code := 0x2206, cls := 0, inst := fn - 1 }) (fn - 1) 0x2206
      else s
  ((s.setBit (Reg.pcieFn fn) 2 true).setBit (Reg.pcieFn fn) 1 false).setFunction fn {}

/-- PCIE_FLR. -/
def execPcieFlr (function : Nat) (s : State) : Result := live s <|
  withUnit s 9 function fun s function => if s.linkUp then resetFunction s function else s

/-- PERST_N registers low: the link goes down, and every function is reset; not an error of the link (R474). -/
def assertPerst (s : State) : State :=
  let t := { s with pins := { s.pins with perst := true } }
  if s.inReset || s.pins.perst then t else (forUpTo 9 (fun fn s => resetFunction s fn) t).setReg Reg.pcieLink 0

/-- PERST_ASSERT. -/
def execPerstAssert (s : State) : Result := always s (assertPerst s)

/-- PERST_RELEASE: the link may train again. -/
def execPerstRelease (s : State) : Result := always s { s with pins := { s.pins with perst := false } }

/-- The link comes up with a width and a speed of R425; others stand for free ones (DESIGN CHOICE, safe, log 92). -/
def trainPcie (s : State) (width speed : Nat) : State :=
  let widths := [1, 2, 4, 8]
  withUnit s 4 (widths.idxOf width) fun s i => withUnit s 5 (if speed = 0 then 5 else speed - 1) fun s k =>
    pcieUp s ((widths[i]?).getD 8, k + 1)

/-- PCIE_LINK_UP: the link completes training after the start's own attempt (R435, R474). -/
def execPcieLinkUp (width speed : Nat) (s : State) : Result := live s <| trainPcie s width speed

/-! Errors (R429). -/

/-- An uncorrectable link error, or the link's loss (R429). -/
def linkError (s : State) (down : Bool) : State :=
  if !s.linkUp then s
  else if down then (pcieError s 31 3 2).setReg Reg.pcieLink 0
  else (pcieError s 29 3 2).addSat Reg.pcieCount 31 16

/-- PCIE_LINK_DOWN. -/
def execPcieLinkDown (down : Bool) (s : State) : Result := live s <| linkError s down

/-- PCIE_CORRECTABLE_ERROR. -/
def execPcieCorrectableError (s : State) : Result := live s <|
  if s.linkUp then (pcieError s 28 1 1).addSat Reg.pcieCount 15 0 else s

/-! Configuration (R425). -/

/-- A configuration request's effect on its function. A read completes with bytes that the manual leaves to the PCIe
specification: free values; a BAR that the function has not takes no value (DESIGN CHOICE, unsafe, log 32). -/
def configure (s : State) (fn : Nat) (q : ConfigRequest) : State :=
  let x := s.function fn
  match q with
  | .memorySpace on => s.setBit (Reg.pcieFn fn) 1 on
  | .d3hot on => s.setFunction fn { x with d3hot := on }
  | .bar 0 base => s.setFunction fn { x with bar0 := base / 65536 * 65536 % 2 ^ 64 }
  | .bar 2 base => s.setFunction fn { x with bar2 := base / 2 ^ 39 * 2 ^ 39 % 2 ^ 64 }
  | .bar _ _ => s
  | .msixEnable on => firePending (s.setFunction fn { x with msix := on }) fn
  | .read _ =>
    let (v, s) := s.takeFree
    s.emit (.completion fn 0 false (leBytes 4 v.toNat))

/-- PCIE_CONFIGURATION_REQUEST. -/
def execPcieConfigurationRequest (function : Nat) (request : ConfigRequest) (s : State) : Result := live s <|
  withUnit s 9 function fun s function => if s.linkUp then configure s function request else s

end Sys2Proof.Machine
end

