-- ==== Sys2Proof/Machine/Tick.lean ====
section
/-! DEFINITION. The management plane (R24, R25, R49): what a management tick does in hardware and in Reeve firmware, and
the end of a power window (R483). -/

namespace Sys2Proof.Machine

/-! Measurements (R258, R481, R483). -/

/-- Supply and temperature inside the Operating Range of R4. -/
def tickInRange (env : TickEnv) : Bool :=
  1710 ≤ env.vinMilliVolt && env.vinMilliVolt ≤ 1890 && decide (-40 ≤ env.maxTj) && decide (env.maxTj ≤ 125)

/-- Supply and temperature have been inside the range for the whole tick that ends when it opened and ends inside and no monitor
tripped in it (R376). -/
def judgeRange (s : State) (env : TickEnv) : State :=
  let x := s.island
  let inside := tickInRange env
  { s with island := { x with monitorsOk := x.rangeOpen && !x.monitorsBad && inside, rangeOpen := inside, monitorsBad := false } }

/-- The monitors' and sensors' readings of the tick (R258, R481, R483). -/
def takeReadings (s : State) (env : TickEnv) : State :=
  let s := { s with pins := { s.pins with gpioLevels := env.gpioLevels }, dram := { s.dram with mr4Tick := s.tickNumber } }
  let s := forUpTo 8 (fun m s =>
    s.setBits (Reg.dramNodeTemp m) 7 0 (unsignedOf ((env.nodeTemps[m]?).getD 0) 8)) s
  let s := (s.setBits Reg.safeMon 31 16 (min env.vinMilliVolt 65535)).setBits Reg.safeMon 15 8 (unsignedOf env.maxTj 8)
  (s.setBits Reg.safePwr 31 16 (min env.currentDeci 65535)).setBits Reg.safePwr 15 0 (min env.powerDeci 65535)

/-- The number of a tick's power window. -/
def powerWindowOf (tick : Nat) : Nat := tick / 1000

/-- The power window ends: its average, and the excess over the fused limit (R483). The limit is compared with the exact mean; the
registers and the entry hold it in whole steps of 0.1 W, truncated (DESIGN CHOICE, unsafe, log 43). -/
def closePower (s : State) : State :=
  if s.island.powerTicks = 0 then s
  else
    let avg := s.island.powerSum / s.island.powerTicks
    let limit := 10 * s.bits Reg.fusePart 23 16 * s.island.powerTicks
    let excess := decide (limit < s.island.powerSum)
    let s := { s with island := { s.island with powerSum := 0, powerTicks := 0 } }
    let s := s.setBits Reg.safePwrAvg 15 0 (min avg 65535)
    if excess then
      let s := (s.setBit Reg.safePwrAvg 31 true).addSat Reg.safePwrAvg 30 16
      s.raise { code := 0x0A0A, cls := 2, info := some avg }
    else s

/-- A tick's power figure enters its window. -/
def countPower (s : State) (p : Nat) : State :=
  let w := powerWindowOf s.tickNumber
  let s := if s.island.powerWindow = w then s else closePower s
  { s with island := { s.island with powerSum := s.island.powerSum + p, powerTicks := s.island.powerTicks + 1
                                     powerWindow := w } }

/-- POWER_WINDOW_END: the clock reaches the first tick of the next window. -/
def endPower (s : State) : State :=
  if s.island.powerTicks = 0 then s else closePower (runUntil s ((s.island.powerWindow + 1) * 1000 * mgmtTicks))

/-- POWER_WINDOW_END. -/
def execPowerWindowEnd (s : State) : Result := live s <| endPower s

/-! Safety and Fields (R202, R370, R392). -/

/-- One management tick of the hold of FAULT_N, which runs outside safe state. -/
def countHold (s : State) : State :=
  if s.safe then s else { s with island := { s.island with holdTicks := s.island.holdTicks - 1 } }

/-- Transients that have left the counting window of R392. -/
def pruneTransients (s : State) (n : Nat) : State :=
  let span := max 1 (s.bits Reg.safeCpTransient 31 8)
  let f := s.furrow n
  let ts := f.run.transients.filter fun t => s.tickNumber < t + span
  (s.setFurrow n { f with run := { f.run with transients := ts } }).setBits (Reg.safeFurCp n) 11 8 (min ts.length 15)

/-- A management tick of a Field's quiesce limit (R202). -/
def countQuiesce (s : State) (f : Nat) : State :=
  if s.fieldState f = fldQuiescing then s.setField f { s.field f with quiesceTicks := (s.field f).quiesceTicks + 1 } else s

/-! The chain (R49, R50, R241, R242, R454, R456). -/

/-- The servo's decision on the chain head (R49): a rate, a step, and locked once its offset is under the threshold. -/
def runServo (s : State) (servo : Int × Int × Int) : State :=
  let (offset, rate, step) := servo
  let s := writeRate s (BitVec.ofNat 32 (unsignedOf rate 32))
  let s := if step = 0 then s
    else stepTime (s.setReg64 Reg.timeStepLo Reg.timeStepHi (unsignedOf step 64)) (signedOf (unsignedOf step 64) 64)
  if offset.natAbs < s.entryAt 2 0 0 4 4 then s.setBit Reg.timeCtrl 1 true else s

/-- Payload of HEARTBEAT (R454). -/
def State.heartbeat (s : State) : List Byte :=
  leBytes 4 s.tickNumber ++
    leBytes 1 (bval s.safe + 2 * bval s.fenced + 4 * bval (!s.starting) +
      8 * bval (s.bit Reg.reeveChain 30 || s.bit Reg.reeveChain 29))

/-- The heartbeats of the tick that ends: how many were heard, and which peers of the unit were not (R241). -/
def countHeartbeats (s : State) : State :=
  let heard := s.chain.heard
  let s := s.setBits Reg.reeveChain 20 16 (heard.length + 1)
  let s := forUpTo 16 (fun p s =>
    if p ≠ s.chipId ∧ s.inUnit p then
      let n := if heard.contains p then 0 else mapGet 0 s.chain.missed p + 1
      { s with chain := { s.chain with missed := mapSet 0 s.chain.missed p n } }
    else s) s
  { s with chain := { s.chain with heard := [] } }

/-- The probes of a tick, from a chip other than the head whose upstream link is up (R50). -/
def startProbes (s : State) : State :=
  let s := { s with time := { s.time with delays := [] } }
  if !s.pins.chainHead && s.bit Reg.reeveChain 27 then s.emit .delayProbes else s

/-- The chain's messages of a management tick, in the order of R455: link-local frames, reports and notices, the heartbeat. -/
def chainTick (s : State) : State :=
  let s := countHeartbeats s
  let s := if s.addressed then chainLocal s false 0x01 (leBytes 1 (s.chipId + 1)) else s
  let s := applyFences (sendNotices (startProbes s))
  chainBroadcast s 0x02 s.heartbeat

/-! The tick. -/

/-- What a management tick does, in this order: the watchdog's judgement, the range and the power of the tick, the hold of
FAULT_N, the buckles fastened at the tick, the tally's summaries, the Fields, the chain, the servo, the reading registers. -/
def managementWork (s : State) (env : TickEnv) : State :=
  let s := judgeRange (readMonitors (judgeIfEnded (settleLate s)) env) env
  let s := countPower s (min env.powerDeci 65535)
  let s := writeSummaries (commitAt (countHold s) 2 0)
  let s := forUpTo 64 (fun n s => pruneTransients s n) s
  let s := chainTick (forUpTo 8 (fun f s => retryGlean (countQuiesce s f) f) s)
  let s := match env.servo with
    | some x => if s.pins.chainHead then runServo s x else s
    | none => s
  takeReadings s env

/-- TIME_NOW has reached a management tick, or the clock runs until it does; each tick that is due is raised once (R25). -/
def managementTick (s : State) (env : TickEnv) : State :=
  let s := if 0 < s.time.ticksDue then s else runUntil s ((s.tickNumber + 1) * mgmtTicks)
  let s := { s with time := { s.time with ticksDue := s.time.ticksDue - 1 } }
  if s.held then s else managementWork s env

/-- MANAGEMENT_TICK. -/
def execManagementTick (env : TickEnv) (s : State) : Result := always s (managementTick s env)

end Sys2Proof.Machine
end

