-- ==== Sys2Proof/Machine/Dispatch.lean ====
section
/-! DEFINITION. One arm per command: a direct call of its meaning. -/

namespace Sys2Proof.Machine

def exec (i : Instr) (s : State) : Host.Outcome State Fault Refusal :=
  match i with
  | .porstAssert => Sys2Proof.Machine.execPorstAssert s
  | .porstRelease env => Sys2Proof.Machine.execPorstRelease env s
  | .warmAssert midSlice => Sys2Proof.Machine.execWarmAssert midSlice s
  | .warmRelease env => Sys2Proof.Machine.execWarmRelease env s
  | .vinRise => Sys2Proof.Machine.execVinRise s
  | .vinBrownout => Sys2Proof.Machine.execVinBrownout s
  | .perstAssert => Sys2Proof.Machine.execPerstAssert s
  | .safeReqAssert => Sys2Proof.Machine.execSafeReqAssert s
  | .refclkOutOfRange => Sys2Proof.Machine.execRefclkOutOfRange s
  | .pllLockLoss => Sys2Proof.Machine.execPllLockLoss s
  | .pllLock => Sys2Proof.Machine.execPllLock s
  | .vinMonitorTrip => Sys2Proof.Machine.execVinMonitorTrip s
  | .temperatureMonitorTrip => Sys2Proof.Machine.execTemperatureMonitorTrip s
  | .timeStep => Sys2Proof.Machine.execTimeStep s
  | .timeRateAdjWrite value => Sys2Proof.Machine.execTimeRateAdjWrite value s
  | .managementTick env => Sys2Proof.Machine.execManagementTick env s
  | .chainAlignTimeout => Sys2Proof.Machine.execChainAlignTimeout s
  | .gptpEventMessageRx port tick => Sys2Proof.Machine.execGptpEventMessageRx port tick s
  | .fsyncEdge n => Sys2Proof.Machine.execFsyncEdge n s
  | .fsyncPulseEnd n => Sys2Proof.Machine.execFsyncPulseEnd n s
  | .yokeRefill => Sys2Proof.Machine.execYokeRefill s
  | .yokeAdmit f r => Sys2Proof.Machine.execYokeAdmit f r s
  | .matmul n => Sys2Proof.Machine.execMatmul n s
  | .conv n => Sys2Proof.Machine.execConv n s
  | .pool n => Sys2Proof.Machine.execPool n s
  | .resample n => Sys2Proof.Machine.execResample n s
  | .attnBlock n => Sys2Proof.Machine.execAttnBlock n s
  | .kvAppend n => Sys2Proof.Machine.execKvAppend n s
  | .eltwise n => Sys2Proof.Machine.execEltwise n s
  | .reduce n => Sys2Proof.Machine.execReduce n s
  | .route n => Sys2Proof.Machine.execRoute n s
  | .dispatchForward n => Sys2Proof.Machine.execDispatchForward n s
  | .dispatchReturn n => Sys2Proof.Machine.execDispatchReturn n s
  | .dispatchPut n => Sys2Proof.Machine.execDispatchPut n s
  | .dispatchBalePush n => Sys2Proof.Machine.execDispatchBalePush n s
  | .combine n => Sys2Proof.Machine.execCombine n s
  | .combineFetch n => Sys2Proof.Machine.execCombineFetch n s
  | .move n => Sys2Proof.Machine.execMove n s
  | .compress n => Sys2Proof.Machine.execCompress n s
  | .decompress n => Sys2Proof.Machine.execDecompress n s
  | .syncLocalGeneration n => Sys2Proof.Machine.execSyncLocalGeneration n s
  | .syncReceiveBuffer n => Sys2Proof.Machine.execSyncReceiveBuffer n s
  | .syncHopperCompletions n => Sys2Proof.Machine.execSyncHopperCompletions n s
  | .checkPlot n => Sys2Proof.Machine.execCheckPlot n s
  | .undefinedOpCode n => Sys2Proof.Machine.execUndefinedOpCode n s
  | .tileCommit tile => Sys2Proof.Machine.execTileCommit tile s
  | .taskDone n => Sys2Proof.Machine.execTaskDone n s
  | .stubbleWriteAck n => Sys2Proof.Machine.execStubbleWriteAck n s
  | .budgetExpiry n => Sys2Proof.Machine.execBudgetExpiry n s
  | .taskPark n => Sys2Proof.Machine.execTaskPark n s
  | .taskResume n => Sys2Proof.Machine.execTaskResume n s
  | .parkLimitExpiry n slot => Sys2Proof.Machine.execParkLimitExpiry n slot s
  | .seedbedAccess a => Sys2Proof.Machine.execSeedbedAccess a s
  | .gateTimeout n => Sys2Proof.Machine.execGateTimeout n s
  | .seedbedScrubRead n bank upsets => Sys2Proof.Machine.execSeedbedScrubRead n bank upsets s
  | .seedbedScrubWriteBack n bank => Sys2Proof.Machine.execSeedbedScrubWriteBack n bank s
  | .slotGenerationWrite req n k gen => Sys2Proof.Machine.execSlotGenerationWrite req n k gen s
  | .fenceRequest n gen => Sys2Proof.Machine.execFenceRequest n gen s
  | .furCntClear n => Sys2Proof.Machine.execFurCntClear n s
  | .furSbCntClear n => Sys2Proof.Machine.execFurSbCntClear n s
  | .furZcCntClear n => Sys2Proof.Machine.execFurZcCntClear n s
  | .furHwCntClear n => Sys2Proof.Machine.execFurHwCntClear n s
  | .doorbell req hopper tail => Sys2Proof.Machine.execDoorbell req hopper tail s
  | .hopSkip req hopper => Sys2Proof.Machine.execHopSkip req hopper s
  | .hopCntReset req hopper => Sys2Proof.Machine.execHopCntReset req hopper s
  | .fieldStart req f => Sys2Proof.Machine.execFieldStart req f s
  | .fieldQuiesce req f => Sys2Proof.Machine.execFieldQuiesce req f s
  | .fieldStop req f => Sys2Proof.Machine.execFieldStop req f s
  | .quiesceComplete f => Sys2Proof.Machine.execQuiesceComplete f s
  | .quiesceLimitExpiry f => Sys2Proof.Machine.execQuiesceLimitExpiry f s
  | .fieldStopped f => Sys2Proof.Machine.execFieldStopped f s
  | .stopAckTimeout f => Sys2Proof.Machine.execStopAckTimeout f s
  | .gleaning f => Sys2Proof.Machine.execGleaning f s
  | .droveFrameTx port => Sys2Proof.Machine.execDroveFrameTx port s
  | .droveDispatchRx frame => Sys2Proof.Machine.execDroveDispatchRx frame s
  | .droveCombineRx frame => Sys2Proof.Machine.execDroveCombineRx frame s
  | .drovePutRx frame => Sys2Proof.Machine.execDrovePutRx frame s
  | .droveBalePushRx frame => Sys2Proof.Machine.execDroveBalePushRx frame s
  | .droveGetRx frame => Sys2Proof.Machine.execDroveGetRx frame s
  | .droveAckRx frame => Sys2Proof.Machine.execDroveAckRx frame s
  | .droveOpenRx frame => Sys2Proof.Machine.execDroveOpenRx frame s
  | .droveNackRx frame => Sys2Proof.Machine.execDroveNackRx frame s
  | .droveAckTimer port peer => Sys2Proof.Machine.execDroveAckTimer port peer s
  | .droveRtoExpiry port peer => Sys2Proof.Machine.execDroveRtoExpiry port peer s
  | .drovePortLinkDown port => Sys2Proof.Machine.execDrovePortLinkDown port s
  | .drovePortLinkUp port => Sys2Proof.Machine.execDrovePortLinkUp port s
  | .droveFenceReq peer => Sys2Proof.Machine.execDroveFenceReq peer s
  | .peerHeartbeatTimeout peer => Sys2Proof.Machine.execPeerHeartbeatTimeout peer s
  | .droveCntClear => Sys2Proof.Machine.execDroveCntClear s
  | .dramRead req addr upset => Sys2Proof.Machine.execDramRead req addr upset s
  | .dramWrite req addr data poison => Sys2Proof.Machine.execDramWrite req addr data poison s
  | .dramPartialWrite req addr data upset => Sys2Proof.Machine.execDramPartialWrite req addr data upset s
  | .dramPatrolScrubRead upsets => Sys2Proof.Machine.execDramPatrolScrubRead upsets s
  | .dramRetrainSlice margin temp => Sys2Proof.Machine.execDramRetrainSlice margin temp s
  | .dramRefresh channel => Sys2Proof.Machine.execDramRefresh channel s
  | .dramRetrainNow channel => Sys2Proof.Machine.execDramRetrainNow channel s
  | .dramCntClear => Sys2Proof.Machine.execDramCntClear s
  | .headlandPacket p => Sys2Proof.Machine.execHeadlandPacket p s
  | .headCntClear => Sys2Proof.Machine.execHeadCntClear s
  | .csi2FrameStart receiver vc number ecc tick => Sys2Proof.Machine.execCsi2FrameStart receiver vc number ecc tick s
  | .csi2FrameEnd receiver vc number ecc => Sys2Proof.Machine.execCsi2FrameEnd receiver vc number ecc s
  | .csi2LineStart receiver vc number ecc => Sys2Proof.Machine.execCsi2LineStart receiver vc number ecc s
  | .csi2LineEnd receiver vc number ecc => Sys2Proof.Machine.execCsi2LineEnd receiver vc number ecc s
  | .csi2LongPacket p => Sys2Proof.Machine.execCsi2LongPacket p s
  | .frameCompletion p => Sys2Proof.Machine.execFrameCompletion p s
  | .checkRow p => Sys2Proof.Machine.execCheckRow p s
  | .sensorEthFrameRx frame => Sys2Proof.Machine.execSensorEthFrameRx frame s
  | .sensorEthGroupGap p => Sys2Proof.Machine.execSensorEthGroupGap p s
  | .sensorEthLinkDown port => Sys2Proof.Machine.execSensorEthLinkDown port s
  | .sensorEthTx port bytes tick => Sys2Proof.Machine.execSensorEthTx port bytes tick s
  | .dphySyncLoss receiver => Sys2Proof.Machine.execDphySyncLoss receiver s
  | .intkCntClear => Sys2Proof.Machine.execIntkCntClear s
  | .reinPeriodicDue n => Sys2Proof.Machine.execReinPeriodicDue n s
  | .reinIssue => Sys2Proof.Machine.execReinIssue s
  | .reinCommandWrite n => Sys2Proof.Machine.execReinCommandWrite n s
  | .reinCommandRelease n => Sys2Proof.Machine.execReinCommandRelease n s
  | .mailboxWrite req slot offset data => Sys2Proof.Machine.execMailboxWrite req slot offset data s
  | .reinLockstepMismatch => Sys2Proof.Machine.execReinLockstepMismatch s
  | .reinCntClear => Sys2Proof.Machine.execReinCntClear s
  | .tackPacketRx port words => Sys2Proof.Machine.execTackPacketRx port words s
  | .tackLinkDown port => Sys2Proof.Machine.execTackLinkDown port s
  | .tackLinkUp port => Sys2Proof.Machine.execTackLinkUp port s
  | .tackPacketTx port readbackOk => Sys2Proof.Machine.execTackPacketTx port readbackOk s
  | .chutePop req c => Sys2Proof.Machine.execChutePop req c s
  | .chuteHoldWrite c value => Sys2Proof.Machine.execChuteHoldWrite c value s
  | .chutePush c value => Sys2Proof.Machine.execChutePush c value s
  | .chuteDiscardN c n => Sys2Proof.Machine.execChuteDiscardN c n s
  | .chuteDiscardAll c => Sys2Proof.Machine.execChuteDiscardAll c s
  | .chuteCntClear => Sys2Proof.Machine.execChuteCntClear s
  | .canFrameRx channel frame => Sys2Proof.Machine.execCanFrameRx channel frame s
  | .canFrameTxDone channel readbackOk => Sys2Proof.Machine.execCanFrameTxDone channel readbackOk s
  | .canArbitrationLoss channel => Sys2Proof.Machine.execCanArbitrationLoss channel s
  | .canBusError channel transmitting tecUp recUp => Sys2Proof.Machine.execCanBusError channel transmitting tecUp recUp s
  | .brdlPost channel => Sys2Proof.Machine.execBrdlPost channel s
  | .brdlAbortHead channel => Sys2Proof.Machine.execBrdlAbortHead channel s
  | .brdlAbortAll channel => Sys2Proof.Machine.execBrdlAbortAll channel s
  | .brdlRecover channel => Sys2Proof.Machine.execBrdlRecover channel s
  | .busOffRecoveryDone channel => Sys2Proof.Machine.execBusOffRecoveryDone channel s
  | .brdlObjAck object => Sys2Proof.Machine.execBrdlObjAck object s
  | .brdlCntClear => Sys2Proof.Machine.execBrdlCntClear s
  | .faultReport => Sys2Proof.Machine.execFaultReport s
  | .tallyWrite => Sys2Proof.Machine.execTallyWrite s
  | .faultNRelease => Sys2Proof.Machine.execFaultNRelease s
  | .faultDynToggle heartbeat => Sys2Proof.Machine.execFaultDynToggle heartbeat s
  | .lockstepMismatch pair => Sys2Proof.Machine.execLockstepMismatch pair s
  | .watchdogKick => Sys2Proof.Machine.execWatchdogKick s
  | .watchdogExpiry => Sys2Proof.Machine.execWatchdogExpiry s
  | .safeEnter => Sys2Proof.Machine.execSafeEnter s
  | .tallyReadIndexWrite value => Sys2Proof.Machine.execTallyReadIndexWrite value s
  | .checkPlotDue n => Sys2Proof.Machine.execCheckPlotDue n s
  | .martingaleWindowEnd m => Sys2Proof.Machine.execMartingaleWindowEnd m s
  | .safeInject code instanceIndex => Sys2Proof.Machine.execSafeInject code instanceIndex s
  | .powerWindowEnd => Sys2Proof.Machine.execPowerWindowEnd s
  | .harnessLoad req => Sys2Proof.Machine.execHarnessLoad req s
  | .harnessApply => Sys2Proof.Machine.execHarnessApply s
  | .buckleOpen r id => Sys2Proof.Machine.execBuckleOpen r id s
  | .buckleFasten r boundary target => Sys2Proof.Machine.execBuckleFasten r boundary target s
  | .buckleSlip r => Sys2Proof.Machine.execBuckleSlip r s
  | .buckleCommit r => Sys2Proof.Machine.execBuckleCommit r s
  | .buckleTimeout r => Sys2Proof.Machine.execBuckleTimeout r s
  | .pcieMemoryWrite function bar offset data poisoned => Sys2Proof.Machine.execPcieMemoryWrite function bar offset data poisoned s
  | .pcieMemoryRead function bar offset length => Sys2Proof.Machine.execPcieMemoryRead function bar offset length s
  | .pcieFlr function => Sys2Proof.Machine.execPcieFlr function s
  | .pcieUnsupportedRequest function => Sys2Proof.Machine.execPcieUnsupportedRequest function s
  | .pcieLinkDown down => Sys2Proof.Machine.execPcieLinkDown down s
  | .pcieCorrectableError => Sys2Proof.Machine.execPcieCorrectableError s
  | .reeveBootCommand env => Sys2Proof.Machine.execReeveBootCommand env s
  | .chainAddrRx frame => Sys2Proof.Machine.execChainAddrRx frame s
  | .chainHeartbeatRx frame => Sys2Proof.Machine.execChainHeartbeatRx frame s
  | .chainDelayProbeRx frame tick => Sys2Proof.Machine.execChainDelayProbeRx frame tick s
  | .chainDelayReplyRx frame sent received upstreamTick => Sys2Proof.Machine.execChainDelayReplyRx frame sent received upstreamTick s
  | .chainFenceReportRx frame => Sys2Proof.Machine.execChainFenceReportRx frame s
  | .chainFenceNoticeRx frame => Sys2Proof.Machine.execChainFenceNoticeRx frame s
  | .chainSafeReportRx frame => Sys2Proof.Machine.execChainSafeReportRx frame s
  | .chainErrRx frame => Sys2Proof.Machine.execChainErrRx frame s
  | .chainMgmtRx frame => Sys2Proof.Machine.execChainMgmtRx frame s
  | .chainSend broadcast dst => Sys2Proof.Machine.execChainSend broadcast dst s
  | .chainPop => Sys2Proof.Machine.execChainPop s
  | .chainAddressTimeout => Sys2Proof.Machine.execChainAddressTimeout s
  | .writeGatherGo len => Sys2Proof.Machine.execWriteGatherGo len s
  | .writeGatherAck => Sys2Proof.Machine.execWriteGatherAck s
  | .linkRetrainSlice margin slice => Sys2Proof.Machine.execLinkRetrainSlice margin slice s
  | .dphySliceAbort receiver => Sys2Proof.Machine.execDphySliceAbort receiver s
  | .fuseProgram req => Sys2Proof.Machine.execFuseProgram req s
  | .jtagExtest => Sys2Proof.Machine.execJtagExtest s
  | .jtagIdcode => Sys2Proof.Machine.execJtagIdcode s
  | .jtagBypass => Sys2Proof.Machine.execJtagBypass s
  | .jtagSamplePreload scan => Sys2Proof.Machine.execJtagSamplePreload scan s
  | .registerWrite req addr size value => Sys2Proof.Machine.execRegisterWrite req addr size value s
  | .perstRelease => Sys2Proof.Machine.execPerstRelease s
  | .pcieLinkUp width speed => Sys2Proof.Machine.execPcieLinkUp width speed s
  | .sensorEthLinkUp port => Sys2Proof.Machine.execSensorEthLinkUp port s
  | .dphyHsSynchronisation receiver => Sys2Proof.Machine.execDphyHsSynchronisation receiver s
  | .traceLinkDown upstream => Sys2Proof.Machine.execTraceLinkDown upstream s
  | .traceLinkUp upstream => Sys2Proof.Machine.execTraceLinkUp upstream s
  | .safeReqRelease => Sys2Proof.Machine.execSafeReqRelease s
  | .referenceInRange => Sys2Proof.Machine.execReferenceInRange s
  | .secDedMemoryScrub memory upset => Sys2Proof.Machine.execSecDedMemoryScrub memory upset s
  | .pcieConfigurationRequest function request => Sys2Proof.Machine.execPcieConfigurationRequest function request s
  | .registerRead req addr size => Sys2Proof.Machine.execRegisterRead req addr size s

end Sys2Proof.Machine
end

