-- ==== Sys2Proof/Machine/Step.lean ====
section
/-! DEFINITION. One step of the block: it takes the command at the front of the queue and runs its meaning; on an
empty queue the clock runs for one cycle of CLK_FAST (DESIGN CHOICE, unsafe, log 1). -/

namespace Sys2Proof.Machine

/-- One step: the first waiting command, or one idle cycle. -/
def step (s : State) : Host.Outcome State Fault Refusal :=
  match s.pending with
  | [] => .next (runCycles s 1)
  | c :: rest => exec c { s with pending := rest }

/-- The state with the command a word spells put at the front of its queue. The table gives no row any bits, so no
word spells a command and the state is unchanged. -/
def State.withFetchWord (s : State) (nbits w : Nat) : State :=
  match decodeTableWord nbits w with
  | some c => { s with pending := c :: s.pending }
  | none => s

end Sys2Proof.Machine
end

