-- ==== Sys2Proof/WellFormed.lean ====
section
/-! DEFINITION. Well-formed commands: every operand names a unit that the device has (spec 00_scope.md to 17, the counts of
each block) and lies in the range its row gives it. -/

namespace Sys2Proof

/-- A Furrow, a bank of it, a row and granules of a seedbed (R26, R115, R116). -/
def SeedAccess.wellFormed (a : SeedAccess) : Bool :=
  a.furrow < 64 && a.row < 32768 && a.first < 4 && 1 ≤ a.count && a.first + a.count ≤ 4

/-- A packet's routers, ports and virtual channel (R271, R274). -/
def Packet.wellFormed (p : Packet) : Bool :=
  p.srcX < 8 && p.srcY < 9 && p.dstX < 8 && p.dstY < 9 && p.vc < 9 && p.inRouter < 72 && p.inPort < 5

/-- A chain frame's four-bit addresses and its payload of at most 64 bytes (R453). -/
def ChainFrame.wellFormed (f : ChainFrame) : Bool := f.src < 16 && f.dst < 16 && f.payload.length ≤ 64

/-- A configuration request names BAR 0 or BAR 2, or one of 4,096 offsets (R425). -/
def ConfigRequest.wellFormed : ConfigRequest → Bool
  | .memorySpace _ => true
  | .d3hot _ => true
  | .bar i _ => i == 0 || i == 2
  | .msixEnable _ => true
  | .read off => off < 4096

/-- A memory of R382 that the device has. -/
def ScrubMemory.wellFormed : ScrubMemory → Bool
  | .lineBuffer n k => n < 64 && k < 8192
  | .scoreBuffer n k => n < 64 && k < 8192
  | .intakeLine p _ => p < 16
  | .reinState n => n < 256
  | .hopper h => h < 32768
  | .bridleObject o => o < 2048
  | .bridleFifo c k => c < 8 && k < 64
  | .chute c k => c < 24 && k < 32
  | .instructionStore n k => n < 64 && k < 5
  | .droveBuffer q _ => q < 4
  | .tally k => k < 1024

/-- A PCIe memory request of 1 to 4,096 bytes inside BAR 0 or BAR 2 of one of the nine functions (R425, R428); a write carries at most
512. -/
def inFunctionBar (fn bar off n : Nat) : Bool :=
  fn < 9 && 1 ≤ n && n ≤ 4096 && ((bar == 0 && off + n ≤ 65536) || (bar == 2 && off + n ≤ 2 ^ 39))

/-- A command whose operands the device has units for. -/
def Instr.wellFormed (i : Instr) : Bool :=
  match i with
  | .porstAssert => true
  | .porstRelease _ => true
  | .warmAssert _ => true
  | .warmRelease _ => true
  | .vinRise => true
  | .vinBrownout => true
  | .perstAssert => true
  | .safeReqAssert => true
  | .refclkOutOfRange => true
  | .pllLockLoss => true
  | .pllLock => true
  | .vinMonitorTrip => true
  | .temperatureMonitorTrip => true
  | .timeStep => true
  | .timeRateAdjWrite _ => true
  | .managementTick _ => true
  | .chainAlignTimeout => true
  | .gptpEventMessageRx port _ => port < 4
  | .fsyncEdge n => n < 16
  | .fsyncPulseEnd n => n < 16
  | .yokeRefill => true
  | .yokeAdmit f r => f < 8 && r < 3
  | .matmul n => n < 64
  | .conv n => n < 64
  | .pool n => n < 64
  | .resample n => n < 64
  | .attnBlock n => n < 64
  | .kvAppend n => n < 64
  | .eltwise n => n < 64
  | .reduce n => n < 64
  | .route n => n < 64
  | .dispatchForward n => n < 64
  | .dispatchReturn n => n < 64
  | .dispatchPut n => n < 64
  | .dispatchBalePush n => n < 64
  | .combine n => n < 64
  | .combineFetch n => n < 64
  | .move n => n < 64
  | .compress n => n < 64
  | .decompress n => n < 64
  | .syncLocalGeneration n => n < 64
  | .syncReceiveBuffer n => n < 64
  | .syncHopperCompletions n => n < 64
  | .checkPlot n => n < 64
  | .undefinedOpCode n => n < 64
  | .tileCommit tile => tile.furrow < 64
  | .taskDone n => n < 64
  | .stubbleWriteAck n => n < 64
  | .budgetExpiry n => n < 64
  | .taskPark n => n < 64
  | .taskResume n => n < 64
  | .parkLimitExpiry n slot => n < 64 && slot < 8
  | .seedbedAccess a => a.wellFormed
  | .gateTimeout n => n < 64
  | .seedbedScrubRead n bank _ => n < 64 && bank < 16
  | .seedbedScrubWriteBack n bank => n < 64 && bank < 16
  | .slotGenerationWrite _ n k _ => n < 64 && k < 256
  | .fenceRequest n _ => n < 64
  | .furCntClear n => n < 64
  | .furSbCntClear n => n < 64
  | .furZcCntClear n => n < 64
  | .furHwCntClear n => n < 64
  | .doorbell _ hopper _ => hopper < 32768
  | .hopSkip _ hopper => hopper < 32768
  | .hopCntReset _ hopper => hopper < 32768
  | .fieldStart _ f => f < 8
  | .fieldQuiesce _ f => f < 8
  | .fieldStop _ f => f < 8
  | .quiesceComplete f => f < 8
  | .quiesceLimitExpiry f => f < 8
  | .fieldStopped f => f < 8
  | .stopAckTimeout f => f < 8
  | .gleaning f => f < 8
  | .droveFrameTx port => port < 4
  | .droveDispatchRx frame => frame.port < 4
  | .droveCombineRx frame => frame.port < 4
  | .drovePutRx frame => frame.port < 4
  | .droveBalePushRx frame => frame.port < 4
  | .droveGetRx frame => frame.port < 4
  | .droveAckRx frame => frame.port < 4
  | .droveOpenRx frame => frame.port < 4
  | .droveNackRx frame => frame.port < 4
  | .droveAckTimer port peer => port < 4 && peer < 16
  | .droveRtoExpiry port peer => port < 4 && peer < 16
  | .drovePortLinkDown port => port < 4
  | .drovePortLinkUp port => port < 4
  | .droveFenceReq peer => peer < 16
  | .peerHeartbeatTimeout peer => peer < 16
  | .droveCntClear => true
  | .dramRead _ _ _ => true
  | .dramWrite _ _ _ _ => true
  | .dramPartialWrite _ _ _ _ => true
  | .dramPatrolScrubRead _ => true
  | .dramRetrainSlice _ _ => true
  | .dramRefresh channel => channel < 32
  | .dramRetrainNow channel => channel < 32
  | .dramCntClear => true
  | .headlandPacket p => p.wellFormed
  | .headCntClear => true
  | .csi2FrameStart receiver _ _ _ _ => receiver < 8
  | .csi2FrameEnd receiver _ _ _ => receiver < 8
  | .csi2LineStart receiver _ _ _ => receiver < 8
  | .csi2LineEnd receiver _ _ _ => receiver < 8
  | .csi2LongPacket p => p.receiver < 8
  | .frameCompletion p => p < 16
  | .checkRow p => p < 16
  | .sensorEthFrameRx frame => frame.port < 4
  | .sensorEthGroupGap p => p < 16
  | .sensorEthLinkDown port => port < 4
  | .sensorEthTx port _ _ => port < 4
  | .dphySyncLoss receiver => receiver < 8
  | .intkCntClear => true
  | .reinPeriodicDue n => n < 256
  | .reinIssue => true
  | .reinCommandWrite n => n < 256
  | .reinCommandRelease n => n < 256
  | .mailboxWrite _ slot _ _ => slot < 256
  | .reinLockstepMismatch => true
  | .reinCntClear => true
  | .tackPacketRx port _ => port < 12
  | .tackLinkDown port => port < 12
  | .tackLinkUp port => port < 12
  | .tackPacketTx port _ => port < 12
  | .chutePop _ c => c < 24 && c % 2 == 0
  | .chuteHoldWrite c _ => c < 24 && c % 2 == 1
  | .chutePush c _ => c < 24 && c % 2 == 1
  | .chuteDiscardN c n => c < 24 && c % 2 == 0 && 1 ≤ n && n ≤ 32
  | .chuteDiscardAll c => c < 24 && c % 2 == 0
  | .chuteCntClear => true
  | .canFrameRx channel _ => channel < 8
  | .canFrameTxDone channel _ => channel < 8
  | .canArbitrationLoss channel => channel < 8
  | .canBusError channel _ _ _ => channel < 8
  | .brdlPost channel => channel < 8
  | .brdlAbortHead channel => channel < 8
  | .brdlAbortAll channel => channel < 8
  | .brdlRecover channel => channel < 8
  | .busOffRecoveryDone channel => channel < 8
  | .brdlObjAck object => object < 2048
  | .brdlCntClear => true
  | .faultReport => true
  | .tallyWrite => true
  | .faultNRelease => true
  | .faultDynToggle _ => true
  | .lockstepMismatch _ => true
  | .watchdogKick => true
  | .watchdogExpiry => true
  | .safeEnter => true
  | .tallyReadIndexWrite _ => true
  | .checkPlotDue n => n < 64
  | .martingaleWindowEnd m => 1 ≤ m && m < 256
  | .safeInject _ _ => true
  | .powerWindowEnd => true
  | .harnessLoad _ => true
  | .harnessApply => true
  | .buckleOpen r id => r < 11 && id < 65536
  | .buckleFasten r boundary target => r < 11 && boundary < 4 && target < 256
  | .buckleSlip r => r < 11
  | .buckleCommit r => r < 11
  | .buckleTimeout r => r < 11
  | .pcieMemoryWrite function bar offset data _ => inFunctionBar function bar offset data.length && data.length ≤ 512
  | .pcieMemoryRead function bar offset length => inFunctionBar function bar offset length
  | .pcieFlr function => function < 9
  | .pcieUnsupportedRequest function => function < 9
  | .pcieLinkDown _ => true
  | .pcieCorrectableError => true
  | .reeveBootCommand _ => true
  | .chainAddrRx frame => frame.wellFormed
  | .chainHeartbeatRx frame => frame.wellFormed
  | .chainDelayProbeRx frame _ => frame.wellFormed
  | .chainDelayReplyRx frame _ _ _ => frame.wellFormed
  | .chainFenceReportRx frame => frame.wellFormed
  | .chainFenceNoticeRx frame => frame.wellFormed
  | .chainSafeReportRx frame => frame.wellFormed
  | .chainErrRx frame => frame.wellFormed
  | .chainMgmtRx frame => frame.wellFormed
  | .chainSend _ dst => dst < 16
  | .chainPop => true
  | .chainAddressTimeout => true
  | .writeGatherGo len => len < 128
  | .writeGatherAck => true
  | .linkRetrainSlice _ _ => true
  | .dphySliceAbort receiver => receiver < 8
  | .fuseProgram _ => true
  | .jtagExtest => true
  | .jtagIdcode => true
  | .jtagBypass => true
  | .jtagSamplePreload _ => true
  | .registerWrite _ _ size _ => 1 ≤ size && size ≤ 8
  | .perstRelease => true
  | .pcieLinkUp width speed => [1, 2, 4, 8].contains width && 1 ≤ speed && speed ≤ 5
  | .sensorEthLinkUp port => port < 4
  | .dphyHsSynchronisation receiver => receiver < 8
  | .traceLinkDown _ => true
  | .traceLinkUp _ => true
  | .safeReqRelease => true
  | .referenceInRange => true
  | .secDedMemoryScrub memory _ => memory.wellFormed
  | .pcieConfigurationRequest function request => function < 9 && request.wellFormed
  | .registerRead _ _ size => 1 ≤ size && size ≤ 8

end Sys2Proof
end

