-- ==== Sys2Proof/Safety.lean ====
section
/-! DEFINITION. What counts as a safe run of the block, and the words the statements use: a command completes with an
effect, a register or a byte of memory is left as it was, a command acts on a device that is held in reset. -/

namespace Sys2Proof.Machine

/-- A step that completes: it answers a next state. -/
def Completes (o : Host.Outcome State Fault Refusal) : Prop := ∃ t, o = .next t

/-- A command completes, and what holds of the state it leaves. -/
def Yields (c : Instr) (s : State) (P : State → Prop) : Prop := ∃ t, exec c s = .next t ∧ P t

/-- A command completes in exactly the state t, and leaves the queue as it was. -/
def Answers (c : Instr) (s t : State) : Prop := exec c s = .next (t.withQueue s.pending)

/-- Every register but those listed reads in t what it reads in s. -/
def SameRegsBut (as : List Nat) (s t : State) : Prop := ∀ a, a ∉ as → t.reg a = s.reg a

/-- Every byte of memory outside n bytes from lo reads in t what it reads in s. -/
def SameBytesOutside (lo n : Nat) (s t : State) : Prop := ∀ a, ¬ (lo ≤ a ∧ a < lo + n) → t.byte a = s.byte a

/-- Every byte of memory reads in t what it reads in s. -/
def SameBytes (s t : State) : Prop := ∀ a, t.byte a = s.byte a

/-- The commands of pins, clocks, supplies and the test port, which act on a device that is held (R20, DESIGN CHOICE,
DEDUCED, safe, log 34); every other
command is one of the running device. -/
def actsWhileHeld : Instr → Bool
  | .porstAssert | .porstRelease _ | .warmAssert _ | .warmRelease _ | .vinRise | .vinBrownout | .perstAssert
  | .perstRelease | .safeReqAssert | .safeReqRelease | .refclkOutOfRange | .referenceInRange | .pllLockLoss | .pllLock
  | .vinMonitorTrip | .temperatureMonitorTrip | .managementTick _ | .jtagExtest | .jtagIdcode | .jtagBypass
  | .jtagSamplePreload _ => true
  | _ => false

/-- The events of the management ticks that have ended by the t-th and are not judged yet: F4 0x0A04 for each, with the watchdog
on, whose kicks were not just one, inside the window (R373); every tick after the first has none. -/
def State.watchdogEvents (s : State) (t : Nat) : List Event :=
  ((List.range (t - s.island.wdtTick)).filter fun i =>
    (s.island.wdtFrom.any fun k => decide (k ≤ s.island.wdtTick + i)) &&
      (i != 0 || s.island.kicks != 1 || s.island.kickBad)).map fun _ => { code := 0x0A04, cls := 4 }

/-- A start has ended: REEVE_BOOT shows ready, the path, the last step and the start's ticks (R435). -/
def StartEnded (t : State) (env : StartEnv) (path step : Nat) : Prop :=
  t.bit Reg.reeveBoot 31 = true ∧ t.bits Reg.reeveBoot 30 29 = path ∧ t.bits Reg.reeveBoot 28 24 = step ∧
    t.bits Reg.reeveBoot 23 0 = min (env.ticks / 6400) (2 ^ 24 - 1)

/-- Firmware recovery: path 3 at step 1 (R441). -/
def InRecovery (t : State) : Prop := t.bits Reg.reeveBoot 30 29 = 3 ∧ t.bits Reg.reeveBoot 28 24 = 1

/-- Every waiting command names units, lengths and values that the device has. -/
def QueueWellFormed (s : State) : Prop := ∀ c ∈ s.pending, c.wellFormed = true

/-- The outcome of n steps. -/
def steps : Nat → State → Host.Outcome State Fault Refusal
  | 0, s => .next s
  | n + 1, s =>
    match step s with
    | .next t => steps n t
    | .fault f => .fault f
    | .refused r => .refused r

end Sys2Proof.Machine
end

