-- ==== Sys2Proof/Certificates/Slice0/Obligations.lean ====
section
/-! DEFINITION. The statements for the provers, one proposition each, in the order of the chapters: reset and pins, the
time base, yokes, tasks, seedbeds, hoppers and Fields, the Droveway, DRAM, Headland, the Intake, PCIe, the Rein engine,
Tack ports and chutes, the Bridle, the safety island, harness and buckles, the Trace chain, the Reeve, and the whole
block. A clause that rests on a choice of the model names the log entry. -/

open Sys2Proof Sys2Proof.Machine

/-- R20, R471, R486: PORST_N registered low, or VIN below 1.50 V, leaves every register field but the fuses at its
Reset value, discards every store of the device but the flash (with them every buckle transaction), and drives the
outputs to high impedance; the pins that the board drives keep their levels; an EXTEST that is the TAP's instruction
takes effect. The queue, what has left the device and the model's own count of free values stay. The Reset value of a
field that the spec gives none (log 2), the emptied stores (log 3), that memory then reads 0 (log 4) and that the
token is dropped (log 5) are the model's choices. -/
def Obligations.PowerResetLeavesResetValues : Prop :=
  ∀ s : State,
    let pins := { s.pins with porst := true, outputsZ := true, zUntil := 0, pllLocked := false, coldDue := false,
                              chainHead := false }
    let held (t : State) : Prop :=
      (∀ a, t.reg a = keepReg (fun f => f.keep == .fuse) (fun _ => 0) a (s.reg a)) ∧
      (∀ a d i j, regAt a = some (d, i, j) → (∀ f ∈ d.fields, f.keep ≠ .fuse) → t.reg a = regReset a) ∧
      (∀ a, t.byte a = if inFlash a then s.byte a else 0) ∧
      t = { State.reset with pending := s.pending, regs := t.regs, mem := t.mem, pins := t.pins,
                             outbox := s.outbox ++ (if s.pins.tap = 3 then [.pins s.pins.boundary] else []),
                             boot := { fusedRows := s.boot.fusedRows }, freeCount := s.freeCount }
    Yields .porstAssert s (fun t => held t ∧ t.pins = pins) ∧
      Yields .vinBrownout s (fun t => held t ∧ t.pins = { pins with vinUp := false })

/-- R20, R447, R448, R473: WARM_N registered low. In a device in reset by PORST_N only the level changes, and a second
fall changes nothing. Otherwise each register keeps its WR fields and what R447 and log 34 name and takes its Reset
value in the others; DRAM, Reeve SRAM and flash keep their contents; TIME_NOW and its phase stay; the warm token
stays, incomplete where the fall met a retraining slice or a start; for 1 µs the outputs are high-impedance. That
every other memory reads 0 (log 4) and that a start is one step (log 25) are the model's choices. -/
def Obligations.WarmResetKeepsWarmFields : Prop :=
  ∀ (s : State) (midSlice : Bool),
    ((s.pins.porst || s.pins.coldDue) = true →
      Answers (.warmAssert midSlice) s { s with pins := { s.pins with warm := true } }) ∧
    (s.pins.porst = false → s.pins.coldDue = false → s.pins.warm = true → Answers (.warmAssert midSlice) s s) ∧
    (s.pins.porst = false → s.pins.coldDue = false → s.pins.warm = false →
      Yields (.warmAssert midSlice) s fun t =>
        (∀ a, t.reg a = keepReg (fun f => f.keep != .none) warmExtra a (s.reg a)) ∧
        (∀ a, t.byte a = if a < 0x2000000000 || inSram a || inFlash a then s.byte a else 0) ∧
        (∀ x, ({ t with time := { t.time with now := x } } : State).highZ = (s.pins.outputsZ || decide (x < s.now + 6400))) ∧
        t = { State.reset with
          pending := s.pending, regs := t.regs, mem := t.mem, marks := t.marks, outbox := s.outbox, freeCount := s.freeCount
          time := { now := s.now, phase := s.time.phase, ticksDue := s.time.ticksDue }
          pins := { s.pins with warm := true, zUntil := s.now + 6400 }
          rein := { silent := s.rein.silent }
          boot := { spares := s.boot.spares, fusedRows := s.boot.fusedRows,
                    token := if (midSlice && s.retraining) || s.starting then
                      s.boot.token.map fun k => { k with complete := false } else s.boot.token } })

/-- R41, R435, R440, R441, R449, R450, R469, R473: the releases. PORST_N rising samples CHAIN_HEAD; with WARM_N still
low the cold start waits for it, with the PLL unlocked it waits in step 1 for the lock; otherwise the start runs to
its end: where a Reeve image is accepted REEVE_BOOT shows ready, path 0 and step 9 with the start's ticks, else
firmware recovery, path 3 at step 1. PLL_LOCK and WARM_RELEASE continue a start that waited in the same way. A warm
start whose token fails no condition ends on path 1 at step 24, or on path 2 at step 9 where a channel or link check
of the fast path fails; with a rejected token it ends on path 2 at step 9 where a Reeve image is accepted, else in
recovery. Of a first lock for which no start waits R41 states no effect; the model sets CLK_STATUS.ref_ok with it (log
61). The start in one step, left at step 9 or 24 (log 25), and that a failing fast path counts as path 2 and a missing
token as a bad CRC (log 50) are the model's choices. -/
def Obligations.ReleasesStartTheDevice : Prop :=
  ∀ (s : State) (env : StartEnv),
    let sampled := { s with pins := { s.pins with porst := false, outputsZ := false, chainHead := env.chainHead,
                                                  tap := if s.pins.tap = 3 then 0 else s.pins.tap } }
    let accepted := (s.slotImages 1 s.firmwareAt).any fun x => s.firmwareOk true x.2
    let checks := env.channelCheckBad = [] ∧ env.linkDownBad = []
    let cold (c : Instr) (env : StartEnv) : Prop :=
      (accepted = true → Yields c s fun t => StartEnded t env 0 9) ∧ (accepted = false → Yields c s InRecovery)
    let warm (c : Instr) (env : StartEnv) : Prop :=
      (s.tokenReasons env = 0 → checks → Yields c s fun t => StartEnded t env 1 24) ∧
      (s.tokenReasons env = 0 → ¬ checks → Yields c s fun t => StartEnded t env 2 9) ∧
      (s.tokenReasons env ≠ 0 → accepted = true → Yields c s fun t => StartEnded t env 2 9) ∧
      (s.tokenReasons env ≠ 0 → accepted = false → Yields c s InRecovery)
    ((s.pins.porst = false ∨ s.pins.vinUp = false) → Answers (.porstRelease env) s s) ∧
    (s.pins.porst = true → s.pins.vinUp = true →
      (s.pins.warm = true → Yields (.porstRelease env) s fun t =>
        t = { s with pins := { sampled.pins with coldDue := true }, regs := t.regs } ∧
          t.bit Reg.timeStatus 2 = env.chainHead ∧ SameRegsBut [Reg.timeStatus] s t) ∧
      (s.pins.warm = false → env.pllLocks = false → Yields (.porstRelease env) s fun t =>
        t = { s with pins := { sampled.pins with coldDue := false }, regs := t.regs,
                     boot := { s.boot with waiting := some env } } ∧
          t.bit Reg.timeStatus 2 = env.chainHead ∧ t.bits Reg.reeveBoot 28 24 = 1 ∧
          SameRegsBut [Reg.timeStatus, Reg.reeveBoot] s t) ∧
      (s.pins.warm = false → env.pllLocks = true → cold (.porstRelease env) env)) ∧
    (s.pins.porst = false → s.boot.waiting = none → Yields .pllLock s fun t =>
      t = { s with pins := { s.pins with pllLocked := true }, regs := t.regs } ∧ t.bit Reg.clkStatus 2 = true ∧
        (s.pins.pllLocked = false → t.bit Reg.clkStatus 3 = true) ∧
        (s.pins.pllLocked = true → t.bit Reg.clkStatus 3 = s.bit Reg.clkStatus 3) ∧ SameRegsBut [Reg.clkStatus] s t) ∧
    (s.pins.porst = false → s.boot.waiting = some env →
      (s.boot.warmWait = false → cold .pllLock env) ∧ (s.boot.warmWait = true → warm .pllLock env)) ∧
    (s.pins.porst = true → Answers .pllLock s s) ∧
    (s.pins.warm = false → Answers (.warmRelease env) s s) ∧
    (s.pins.warm = true → s.pins.porst = true →
      Answers (.warmRelease env) s { s with pins := { s.pins with warm := false } }) ∧
    (s.pins.warm = true → s.pins.porst = false → s.pins.coldDue = true →
      (env.pllLocks = true → cold (.warmRelease env) env) ∧
      (env.pllLocks = false → Yields (.warmRelease env) s fun t =>
        t = { s with pins := { s.pins with warm := false, coldDue := false }, regs := t.regs,
                     boot := { s.boot with waiting := some env } } ∧
          t.bits Reg.reeveBoot 28 24 = 1 ∧ SameRegsBut [Reg.reeveBoot] s t)) ∧
    (s.pins.warm = true → s.pins.porst = false → s.pins.coldDue = false →
      (s.pins.pllLocked = true ∨ env.pllLocks = true → warm (.warmRelease env) env) ∧
      (s.pins.pllLocked = false → env.pllLocks = false → Yields (.warmRelease env) s fun t =>
        t = { s with pins := { s.pins with warm := false }, regs := t.regs,
                     boot := { s.boot with waiting := some env, warmWait := true } } ∧
          t.bits Reg.reeveBoot 28 24 = 1 ∧ SameRegsBut [Reg.reeveBoot] s t))

/-- R42, R372, R471, R481: the supply, clock, monitor and safe-request pins. VIN's rise, PERST_N's and SAFE_REQ_N's
release act in every state; while PORST_N is low the clock and monitor events change nothing, and a fall of SAFE_REQ_N
is the level alone. Otherwise a clock event sets its CLK_STATUS flag, ends lock and alignment of the time base and
raises an F4 fault, a monitor trip and SAFE_REQ_N raise theirs. Nothing else changes. R485, R486: the test port, in
any state. Each instruction is in the TAP; IDCODE shifts out 0x14816A3D; SAMPLE/PRELOAD captures a cell for each ball,
the level that the device holds or the one outside, shifts the sample out and takes the cells shifted in; EXTEST
drives the cells from the balls only while PORST_N is low. Nothing else changes. The order of the cells is the model's
(log 91). -/
def Obligations.MonitorAndTestPinsAct : Prop :=
  (∀ s : State,
    Answers .vinRise s { s with pins := { s.pins with vinUp := true } } ∧
    Answers .perstRelease s { s with pins := { s.pins with perst := false } } ∧
    (s.pins.pllLocked = false → Answers .pllLockLoss s s) ∧
    Yields .safeReqRelease s (fun t => t.bit Reg.safeStatus 5 = false ∧ SameRegsBut [Reg.safeStatus] s t ∧
      t = { s with regs := t.regs, pins := { s.pins with safeReq := false } }) ∧
    (s.pins.porst = true →
      Answers .refclkOutOfRange s s ∧ Answers .referenceInRange s s ∧ Answers .vinMonitorTrip s s ∧
      Answers .temperatureMonitorTrip s s ∧
      Answers .safeReqAssert s { s with pins := { s.pins with safeReq := true } }) ∧
    (s.pins.porst = false →
      Yields .refclkOutOfRange s (fun t => t.bit Reg.clkStatus 3 = false ∧ t.bit Reg.clkStatus 0 = true ∧
        t.bit Reg.timeCtrl 1 = false ∧ t.bit Reg.timeStatus 1 = false ∧
        SameRegsBut [Reg.clkStatus, Reg.timeCtrl, Reg.timeStatus] s t ∧
        t = { s.raise { code := 0x0101, cls := 4 } with regs := t.regs }) ∧
      (s.pins.pllLocked = true → Yields .pllLockLoss s fun t => t.bit Reg.clkStatus 2 = false ∧
        t.bit Reg.clkStatus 1 = true ∧ t.bit Reg.timeCtrl 1 = false ∧ t.bit Reg.timeStatus 1 = false ∧
        SameRegsBut [Reg.clkStatus, Reg.timeCtrl, Reg.timeStatus] s t ∧
        t = { s.raise { code := 0x0102, cls := 4 } with regs := t.regs }) ∧
      Yields .referenceInRange s (fun t => t.bit Reg.clkStatus 3 = true ∧ SameRegsBut [Reg.clkStatus] s t ∧
        t = { s with regs := t.regs }) ∧
      Answers .vinMonitorTrip s
        ({ s with island := { s.island with monitorsBad := true } }.raise { code := 0x0A06, cls := 4 }) ∧
      Answers .temperatureMonitorTrip s
        ({ s with island := { s.island with monitorsBad := true } }.raise { code := 0x0A07, cls := 4 }) ∧
      (s.pins.safeReq = false → Yields .safeReqAssert s fun t => t.bit Reg.safeStatus 5 = true ∧
        SameRegsBut [Reg.safeStatus] s t ∧
        t = { s.raise { code := 0x0A02, cls := 4 } with regs := t.regs, pins := { s.pins with safeReq := true } }) ∧
      (s.pins.safeReq = true → Answers .safeReqAssert s s))) ∧
  (∀ s : State,
    let tap (k : Nat) : State := { s with pins := { s.pins with tap := k } }
    Answers .jtagIdcode s ((tap 0).emit (.jtag 0x14816A3D)) ∧ Answers .jtagBypass s (tap 1) ∧
    (∀ scan : JtagScan, ∃ sample : List Bool, sample.length = boundaryCells ∧
      (∀ k < boundaryCells, sample[k]? = some ((s.ballLevel k).getD ((scan.levels[k]?).getD false))) ∧
      Answers (.jtagSamplePreload scan) s
        ({ tap 2 with pins := { (tap 2).pins with
            boundary := scan.shifted.take boundaryCells ++ sample.drop scan.shifted.length } }.emit (.scan sample))) ∧
    (s.pins.porst = true → Answers .jtagExtest s ((tap 3).emit (.pins s.pins.boundary))) ∧
    (s.pins.porst = false → Answers .jtagExtest s (tap 3)))

/-- R46: a write of TIME_RATE_ADJ stores the signed rate clamped to ±219,902,326, and writes nothing else. In n cycles
of CLK_FAST the rate is added n times to the 40-bit phase accumulator, and each carry adds or withholds one tick of
the n·4. -/
def Obligations.RateCorrectionClampsAndCarries : Prop :=
  ∀ s : State,
    (s.held = false → ∀ value : Word, Yields (.timeRateAdjWrite value) s fun t =>
      signedOf (t.reg Reg.timeRateAdj).toNat 32 = max (-219902326) (min 219902326 (signedOf value.toNat 32)) ∧
        t.rate = signedOf (t.reg Reg.timeRateAdj).toNat 32 ∧ SameRegsBut [Reg.timeRateAdj] s t ∧
        t = { s with regs := t.regs }) ∧
    (s.pins.porst = false → ∀ n : Nat,
      let acc : Int := s.time.phase + n * s.rate
      let t := runCycles s n
      t.now = (s.now + (4 * n + acc / 2 ^ 40).toNat) % 2 ^ 64 ∧ (t.time.phase : Int) = acc % 2 ^ 40 ∧
        t = { s with time := t.time })

/-- R45, R47, R488, R397: TIME_CTRL.step applies the signed TIME_STEP. Zero changes nothing. A forward step moves
TIME_NOW at once; each enabled FSYNC output whose next edge it passes takes its late flag, which is an F0 event of the
output with an open cause (log 82), and the edges are counted, saturating, in TIME_LATE_COUNT; the edges that TIME_NOW
had reached before fire at their ticks first (log 59); nothing else changes. A backward step is refused, with
TIME_STATUS.step_rej and F0 0x0201, while a rein or an FSYNC output is enabled, and otherwise moves TIME_NOW back,
holding martingales. R50, 0x0202: eight management ticks without an alignment. An aligned chip runs to the tick at
which the loss is declared, loses TIME_STATUS.aligned and raises an F2 fault; a chip that is not aligned is
unchanged. -/
def Obligations.TimeStepsAndAlignmentLoss : Prop :=
  (∀ s : State, s.held = false →
    let d := signedOf (s.reg64 Reg.timeStepLo Reg.timeStepHi) 64
    let blocked := (List.range 256).any s.reinOn || (List.range 16).any (fun n => s.bit (Reg.timeFsyncCtrl n) 16)
    let due (n : Nat) : Nat :=
      if s.fsyncNext n < s.now then nextMultiple (s.fsyncStart n) (s.fsyncPeriod n) s.now else s.fsyncNext n
    let fired (n : Nat) : List Output :=
      if s.fsyncOn n ∧ s.fsyncNext n < s.now then
        (List.range (ceilDiv (s.now - s.fsyncNext n) (s.fsyncPeriod n))).map fun k =>
          .fsyncEdge n (s.fsyncNext n + k * s.fsyncPeriod n)
      else []
    let skipped (n : Nat) : Nat :=
      if s.fsyncOn n ∧ due n < s.now + d.toNat then ceilDiv (s.now + d.toNat - due n) (s.fsyncPeriod n) else 0
    let late (n : Nat) : List Event :=
      if skipped n = 0 then [] else [{ code := 0x0200 + (Config.openCause 0x02).toNat, cls := 0, inst := n }]
    (d = 0 → Answers .timeStep s s) ∧
    (0 < d → Yields .timeStep s fun t =>
      t.now = (s.now + d.toNat) % 2 ^ 64 ∧
      t.bits Reg.timeLateCount 31 0 =
        min (s.bits Reg.timeLateCount 31 0 + ((List.range 16).map skipped).sum) (2 ^ 32 - 1) ∧
      (∀ n < 16, t.bit (Reg.timeFsyncCtrl n) 18 = (s.bit (Reg.timeFsyncCtrl n) 18 || decide (skipped n ≠ 0)) ∧
        (fired n = [] → skipped n = 0 → t.fsync n = s.fsync n)) ∧
      SameRegsBut (Reg.timeLateCount :: (List.range 16).map Reg.timeFsyncCtrl) s t ∧
      t = { s with time := t.time, regs := t.regs, outbox := s.outbox ++ (List.range 16).flatMap fired,
                   island := { s.island with net := s.island.net ++ (List.range 16).flatMap late } }) ∧
    (d < 0 → blocked = true → Yields .timeStep s fun t =>
      t.bit Reg.timeStatus 0 = true ∧ SameRegsBut [Reg.timeStatus] s t ∧
      t = { s.raise { code := 0x0201, cls := 0 } with regs := t.regs }) ∧
    (d < 0 → blocked = false → Yields .timeStep s fun t =>
      t.now = unsignedOf ((s.now : Int) + d) 64 ∧
      t = { s with time := { s.time with now := t.time.now, stepTo := 0 },
                   island := { s.island with martingales := t.island.martingales } })) ∧
  (∀ s : State, s.held = false →
    (s.bit Reg.timeStatus 1 = true → Yields .chainAlignTimeout s fun t =>
      t.bit Reg.timeStatus 1 = false ∧ SameRegsBut [Reg.timeStatus] s t ∧
      t.now = (runUntil s ((s.time.lastDelay + 8) * mgmtTicks)).now ∧
      t = { s.raise { code := 0x0202, cls := 2 } with regs := t.regs, time := t.time }) ∧
    (s.bit Reg.timeStatus 1 = false → Answers .chainAlignTimeout s s))

/-- R49, R51: an enabled FSYNC output fires its next edge at its scheduled tick, the clock running to it where
TIME_NOW has not reached it, and holds the pulse for 64 ticks times its width (at least one); that an edge which
TIME_NOW has reached before its command fires at its own tick is the model's choice (log 59). The pulse's end takes
the level back. A gPTP event message leaves a timestamp for the servo. An output that is not enabled fires nothing.
Nothing else changes. -/
def Obligations.FsyncEdgesFollowTheirSchedule : Prop :=
  ∀ (s : State) (n : Nat), s.held = false → n < 16 →
    let e := s.fsyncNext n
    let w := max 1 (s.bits (Reg.timeFsyncCtrl n) 15 0)
    (s.fsyncOn n = true → Yields (.fsyncEdge n) s fun t =>
      t.fsync n = { start := e + 1, last := some e, level := true, endTick := e + 64 * w } ∧
      (∀ k, k ≠ n → t.fsync k = s.fsync k) ∧ t.now = (runUntil s e).now ∧
      t = { s with time := t.time, outbox := s.outbox ++ [.fsyncEdge n e] }) ∧
    (s.fsyncOn n = false → Answers (.fsyncEdge n) s s) ∧
    ((s.fsync n).level = true → Yields (.fsyncPulseEnd n) s fun t =>
      t.fsync n = { s.fsync n with level := false } ∧ (∀ k, k ≠ n → t.fsync k = s.fsync k) ∧
      t.now = (runUntil s (s.fsync n).endTick).now ∧ t = { s with time := t.time }) ∧
    ((s.fsync n).level = false → Answers (.fsyncPulseEnd n) s s) ∧
    ∀ port tick, port < 4 → Answers (.gptpEventMessageRx port tick) s (s.emit (.gptpStamp port tick))

/-- R25, R258, R481, R483: MANAGEMENT_TICK. The clock runs to the next multiple of 6,400,000 ticks unless TIME_NOW has
passed one that is due, and each that is due is taken once. In a running device SAFE_MON, SAFE_PWR and each
DRAM_NODE_TEMP then show the tick's readings, with TIME_NOW moved further by no step but the servo's; in one that is
held nothing but the time base changes. -/
def Obligations.ManagementTickShowsReadings : Prop :=
  ∀ (s : State) (env : TickEnv),
    let due := if 0 < s.time.ticksDue then s else runUntil s ((s.tickNumber + 1) * mgmtTicks)
    (s.held = true → Yields (.managementTick env) s fun t =>
      t.time.ticksDue = due.time.ticksDue - 1 ∧ t.now = due.now ∧ t = { s with time := t.time }) ∧
    (s.held = false → Yields (.managementTick env) s fun t =>
      (env.servo = none → t.time.ticksDue = due.time.ticksDue - 1 ∧ t.now = due.now) ∧
      t.bits Reg.safeMon 31 16 = min env.vinMilliVolt 65535 ∧
      t.bits Reg.safeMon 15 8 = unsignedOf env.maxTj 8 ∧
      t.bits Reg.safePwr 31 16 = min env.currentDeci 65535 ∧
      t.bits Reg.safePwr 15 0 = min env.powerDeci 65535 ∧
      (∀ m < 8, t.bits (Reg.dramNodeTemp m) 7 0 = unsignedOf ((env.nodeTemps[m]?).getD 0) 8) ∧
      t.pins.gpioLevels = env.gpioLevels)

/-- R216, R217: a yoke refill, at the oldest multiple of 6,400 ticks that is due. It changes the time base,
YOKE_LEVEL, YOKE_HELD and the buckets alone: an enabled bucket's level rises by its rate, at most to its depth; a
bucket at which a request waited in the period counts it. A bucket with a positive level, or one that is not enabled,
admits the request at the head of its queue; an enabled one charges it. A Furrow's access, a descriptor fetch or a
stubble write changes nothing else, and messages of the chip to itself that are then admitted are delivered; a bucket
whose level is not positive admits nothing. -/
def Obligations.YokesRefillAndAdmit : Prop :=
  (∀ s : State, s.held = false → 0 < s.time.refillsDue → ∀ f r, f < 8 → r < 3 →
    Yields .yokeRefill s fun t =>
      t.time = { s.time with refillsDue := s.time.refillsDue - 1 } ∧
      (s.yokeEnabled f r = true → t.yokeLevel f r =
        signedOf (unsignedOf (min (s.yokeLevel f r + s.bits (Reg.yokeRate f r) 19 0) (s.bits (Reg.yokeDepth f r) 20 0)) 32) 32) ∧
      (s.yokeEnabled f r = false → t.yokeLevel f r = s.yokeLevel f r) ∧
      (t.reg (Reg.yokeHeld f r)).toNat = (if (s.yoke f r).waited then
        min ((s.reg (Reg.yokeHeld f r)).toNat + 1) (2 ^ 32 - 1) else (s.reg (Reg.yokeHeld f r)).toNat) ∧
      t.yoke f r = { s.yoke f r with waited := !(s.yoke f r).queue.isEmpty } ∧
      t = { s with time := t.time, regs := t.regs, yokes := t.yokes }) ∧
  (∀ (s : State) (f r : Nat), s.held = false → f < 8 → r < 3 →
    ((s.yoke f r).queue = [] → Answers (.yokeAdmit f r) s (drainOwn s)) ∧
    ((∀ m, s.drove.own.head? = some m → m.admitted = false) → drainOwn s = s) ∧
    ∀ q rest, (s.yoke f r).queue = q :: rest →
      (s.yokeEnabled f r = true → s.yokeLevel f r ≤ 0 → Answers (.yokeAdmit f r) s (drainOwn s)) ∧
      (s.yokeEnabled f r = true → 0 < s.yokeLevel f r → (∀ i, q.user ≠ .frame i) → (∀ n i, q.user ≠ .posted n i) →
        ∃ u, Answers (.yokeAdmit f r) s (drainOwn u) ∧
          u.yoke f r = { s.yoke f r with queue := rest } ∧
          u.yokeLevel f r = signedOf (unsignedOf (s.yokeLevel f r - q.cost) 32) 32 ∧
          SameRegsBut [Reg.yokeLevel f r] s u ∧ u = { s with regs := u.regs, yokes := u.yokes }) ∧
      (s.yokeEnabled f r = false → (∀ i, q.user ≠ .frame i) → (∀ n i, q.user ≠ .posted n i) →
        ∃ u, Answers (.yokeAdmit f r) s (drainOwn u) ∧
          u.yoke f r = { s.yoke f r with queue := rest } ∧ u = { s with yokes := u.yokes }))

/-- R96, R106, R198, R205, R206, R388: a Furrow that is idle and whose seedbed is ready accepts the head descriptor of
the hopper its scheduler chooses, by the command of the descriptor's op; of a user hopper, once the Furrow's buffer
holds the descriptor, its fetch admitted. The hopper's head is in flight and running, FUR_STATUS shows the task's
kind, FUR_TASK its hopper, FUR_TASK_TAG its tag, FUR_TILES its tile count with none committed, and the Furrow holds
the task with its start tick. A head that another command names, or one not fetched yet, only lets the buffer follow
the choice; where the scheduler chooses no new task nothing changes. At which commands the buffer follows the choice
is the model's (log 63). -/
def Obligations.AcceptedTaskRunsOnTheFurrow : Prop :=
  ∀ (s : State) (n : Nat), s.held = false → n < 64 →
    let rows (v : State) (system : Bool) (d : Desc) : List (Instr × Bool) :=
      let mode (k : Nat) : Nat := if v.param d 0 < k then v.param d 0 else 0
      [(.matmul n, d.op == 0x01), (.conv n, d.op == 0x02), (.pool n, d.op == 0x03), (.resample n, d.op == 0x04),
       (.attnBlock n, d.op == 0x05), (.kvAppend n, d.op == 0x06), (.eltwise n, d.op == 0x07), (.reduce n, d.op == 0x08),
       (.route n, d.op == 0x09), (.dispatchForward n, d.op == 0x0A && mode 4 == 0),
       (.dispatchReturn n, d.op == 0x0A && mode 4 == 1), (.dispatchPut n, d.op == 0x0A && mode 4 == 2),
       (.dispatchBalePush n, d.op == 0x0A && mode 4 == 3), (.combine n, d.op == 0x0B && mode 2 == 0),
       (.combineFetch n, d.op == 0x0B && mode 2 == 1), (.move n, d.op == 0x0C), (.compress n, d.op == 0x0D),
       (.decompress n, d.op == 0x0E), (.syncLocalGeneration n, d.op == 0x0F && mode 3 == 0),
       (.syncReceiveBuffer n, d.op == 0x0F && mode 3 == 1), (.syncHopperCompletions n, d.op == 0x0F && mode 3 == 2),
       (.checkPlot n, system && d.op == 0x10), (.undefinedOpCode n, (opFor system false d.op).isNone)]
    (s.nextHopper n = none → ∀ d, ∀ c ∈ rows s false d, Answers c.1 s s) ∧
    ∀ h, s.nextHopper n = some h →
      let v := if isSystem h then s else refreshBuffer s n
      (v.nextDesc n h = none → ∀ d, ∀ c ∈ rows v (isSystem h) d, Answers c.1 s v) ∧
      ∀ d, v.nextDesc n h = some d → ∀ c ∈ rows v (isSystem h) d,
        (c.2 = false → Answers c.1 s v) ∧
        (c.2 = true → Yields c.1 s fun t =>
          (t.hopper h).inflight = true ∧ (t.hopper h).stage = .running ∧
          t.bits (Reg.furStatus n) 2 0 = (if isSystem h then 2 else 1) ∧
          t.reg (Reg.furTask n) = BitVec.ofNat 32 (0x80000000 + h) ∧
          t.reg (Reg.furTaskTag n) = BitVec.ofNat 32 d.tag ∧
          t.reg (Reg.furTiles n) = BitVec.ofNat 32 (d.tiles * 65536) ∧
          t.reg (Reg.furTaskCycles n) = 0 ∧
          ∃ k, (t.furrow n).task = some k ∧ k.hopper = h ∧ k.start = s.now ∧ k.committed = 0)

/-- R90, R107, R312, R383: TILE_COMMIT of a task that commits. Nothing is left to commit, or the task is ending:
nothing changes. An instruction store with an uncorrectable word ends it with cause 0x0B, a mismatch of a concurrent
check with 0x23, a rejected message with 0x10, a poisoned tile with 0x0A; an unmet gate or condition is noted as its
wait. Then the wait is over, the cycles spent on a condition of the op counting among its own, the tile's accesses are
charged, and while the yoke does not admit them the task waits. Otherwise the tile's pieces are written, then the
checksum granule, then the stubble word; a piece that a mailbox slot drops ends the task with cause 0x05. The task's
count of committed tiles and FUR_TILES go up by one, and the tile's CRC-32C joins its checksums. -/
def Obligations.TileCommitWritesTileChecksumStubble : Prop :=
  ∀ (s : State) (n : Nat), s.held = false → n < 64 → ∀ mismatch : Bool,
    let c := Instr.tileCommit { furrow := n, mismatch := mismatch }
    ((s.furrow n).task = none → Answers c s s) ∧
    ∀ t, (s.furrow n).task = some t →
      let ends (cause : Nat) : Prop := Yields c s fun u =>
        (u.furrow n).task = some { t with stage := .ending cause, wait := .none, tilesLeft := [], charged := false } ∧
        (∀ m, m ≠ n → u.furrow m = s.furrow m) ∧ u = { s with furrows := u.furrows, yokes := u.yokes }
      (∀ cause, t.stage = .ending cause → Answers c s s) ∧
      (t.stage = .committing → (s.furrow n).stores ≠ [] → ends 0x0B) ∧
      (t.stage = .committing → (s.furrow n).stores = [] → t.resuming = false →
        (t.tilesLeft = [] → Answers c s s) ∧
        ∀ k rest, t.tilesLeft = k :: rest →
          let v := if t.charged then s else taskCharge s n t (tileAccesses s n t k)
          let k' := v.finalTile k
          let w := (writePieces v n (k'.pieces ++ k'.copies)).1
          let slot := w.header t.desc 8 + 32 * (t.committed / 8)
          let crcs := t.crcs ++ [crc32c (k'.pieces.flatMap (·.2))]
          (mismatch = true → ends 0x23) ∧
          (mismatch = false →
            (s.taskRejected n t = true → ends 0x10) ∧
            (s.taskRejected n t = false → k.poison = true → ends 0x0A) ∧
            (s.taskRejected n t = false → k.poison = false →
              (s.nextWait n t ≠ .none → Yields c s fun u =>
                ∃ t', (u.furrow n).task = some t' ∧ t'.wait = s.nextWait n t ∧
                  t'.waitTick = (if t.wait = t'.wait then t.waitTick else s.now) ∧
                  t'.extra = (if t.wait = t'.wait then t.extra else (s.endWait t).extra) ∧
                  t' = { t with wait := t'.wait, waitTick := t'.waitTick, extra := t'.extra } ∧
                  u = setTask s n (some t')) ∧
              (s.nextWait n t = .none →
                (v.yokeWaits n = true → Answers c s (setTask v n (some { v.endWait t with charged := true }))) ∧
                (v.yokeWaits n = false → (writePieces v n (k'.pieces ++ k'.copies)).2 = false →
                  Answers c s (toEnding w n (v.endWait t) 0x05)) ∧
                (v.yokeWaits n = false → (writePieces v n (k'.pieces ++ k'.copies)).2 = true → inMailbox slot = false →
                  Yields c s fun u =>
                    u.bits (Reg.furTiles n) 15 0 = (t.committed + 1) % 2 ^ 16 ∧
                    (u.furrow n).task = some { v.endWait t with committed := t.committed + 1, tilesLeft := rest, crcs := crcs
                                                                drafts := [], events := addEvents t.events k'.events
                                                                wait := .none, charged := false } ∧
                    (t.drafts = [] →
                      u.mem = (writeStubble (storeGranule w slot (crcGranule crcs t.committed)) t.desc (t.committed + 1)
                        0 1 (addEvents t.events k'.events)).mem))))))

/-- R106, R108, R109, R111, R198, R211: TASK_DONE of a task with every tile committed, outside a CHECK_PLOT, once the
yoke admits its provenance accesses, whose cycles are within its budget: the hopper's head and done count go up by
one, nothing of it is in flight, and the Furrow is idle with the task's cycles, those of its resumptions besides, in
FUR_TASK_CYCLES. While the yoke does not admit, the task waits. That a task ends at the later of its count and the
cycles it has run (log 39), and that the buffer is refreshed at its end (log 63), are the model's choices. A Furrow
without a task, or with tiles left to commit, is unchanged. -/
def Obligations.TaskDoneAdvancesTheHopper : Prop :=
  ∀ (s : State) (n : Nat), s.held = false → n < 64 →
    ((s.furrow n).task = none → Answers (.taskDone n) s s) ∧
    ∀ t, (s.furrow n).task = some t → t.stage = .committing → (s.furrow n).stores = [] → t.resuming = false →
      (t.tilesLeft ≠ [] → Answers (.taskDone n) s s) ∧
      (t.tilesLeft = [] → t.outer = none → s.taskRejected n t = false → s.readsPoisoned (tagReads s t.desc) = false →
        let v := if t.charged then s else taskCharge s n t (tagAccesses s t.desc)
        let takes := t.cycles + t.extra
        let at_end := runUntil s (s.cycleTick t takes)
        (v.yokeWaits n = true →
          Answers (.taskDone n) s (refreshBuffer (setTask v n (some { t with charged := true })) n)) ∧
        (v.yokeWaits n = false → inMailbox (s.header t.desc 3) = false → max takes (s.ranCycles t) ≤ t.desc.budget →
          Yields (.taskDone n) s fun u =>
            let x := s.hopper t.hopper
            u.hopper t.hopper = { x with head := (x.head + 1) % 65536, done := (x.done + 1) % 2 ^ 32, inflight := false
                                         tries := 0, stage := .idle } ∧
            (∀ h, h ≠ t.hopper → u.hopper h = s.hopper h) ∧
            (u.furrow n).task = none ∧ u.bit (Reg.furTask n) 31 = false ∧
            u.bits (Reg.furTaskCycles n) 14 0 = min (max takes (at_end.ranCycles t)) 32767 ∧
            (s.bits (Reg.furStatus n) 2 0 ≠ 3 → u.bits (Reg.furStatus n) 2 0 = 0) ∧ u.now = at_end.now))

/-- R103, R199, R200, R203: TASK_DONE of a user task that is to end with a fault cause. FUR_FAULT and the hopper's
entry show 0x2000 + cause, the event of the cause's class is raised and the Furrow is idle. The hopper runs the task
again while the cause is of class F2, its Field does not stop and tries are left; otherwise it is frozen, with F3
0x2204 where its tries are used up. That a stopping Field's hopper takes no retry is the model's reading of R203 (log
40). The events after it are those of the next descriptor's fetch. -/
def Obligations.TaskFaultRetriesOrFreezes : Prop :=
  ∀ (s : State) (n : Nat) (t : Task) (cause : Nat), s.held = false → n < 64 → (s.furrow n).task = some t →
    t.stage = .ending cause → t.outer = none → isSystem t.hopper = false → cause < 256 →
    let x := s.hopper t.hopper
    let again := causeClass cause = 2 ∧ s.fieldState x.field ≠ fldStopping ∧ x.tries < x.retries
    let usedUp := causeClass cause = 2 ∧ s.fieldState x.field ≠ fldStopping ∧ x.retries ≤ x.tries
    Yields (.taskDone n) s fun u =>
      u.bits (Reg.furFault n) 15 0 = 0x2000 + cause ∧ u.bit (Reg.furFault n) 16 = true ∧
      (u.hopper t.hopper).fault = 0x2000 + cause ∧
      (u.hopper t.hopper).stage = (if again then .idle else .frozen) ∧
      (u.hopper t.hopper).tries = (if again then x.tries + 1 else x.tries) ∧
      (u.hopper t.hopper).head = x.head ∧ (u.hopper t.hopper).inflight = x.inflight ∧
      (u.furrow n).task = none ∧ u.bit (Reg.furTask n) 31 = false ∧
      ∃ es, u.island.net = s.island.net ++ [taskFaultEvent n cause (s.taskField n t)] ++
        (if usedUp then [{ code := 0x2204, cls := 3, inst := t.hopper, field := some x.field }] else []) ++ es

/-- R104, R130, R395: STUBBLE_WRITE_ACK takes the oldest final stubble write of the Furrow that is neither discarded
nor waiting at the yoke: a user task's word lands, at the acknowledgement (log 37). Of a faulted task nothing else
changes. A done task that used one guarded slot and no receive buffer and is in no stage of a martingale moves that
slot's generation on: a write makes it readable by its count of readers, the last read frees it, an earlier read
counts. -/
def Obligations.StubbleAckMovesGenerations : Prop :=
  ∀ (s : State) (n : Nat), s.held = false → n < 64 →
    ((s.furrow n).unacked.find? (s.ackable n) = none → Answers (.stubbleWriteAck n) s s) ∧
    ∀ u, (s.furrow n).unacked.find? (s.ackable n) = some u →
      let us := (s.furrow n).unacked.erase u
      let taken := s.setFurrow n { s.furrow n with unacked := us }
      let v := match u.word with
        | some (a, w) => storeGranule taken a w
        | none => taken
      (u.done = false → Answers (.stubbleWriteAck n) s v) ∧
      (u.done = true → u.uses = [] → u.buffers = [] → u.stageNo = 0 → Answers (.stubbleWriteAck n) s v) ∧
      ∀ x, u.done = true → u.uses = [x] → u.buffers = [] → u.stageNo = 0 →
        let r := Reg.furSbSlotGen x.furrow x.slot
        Yields (.stubbleWriteAck n) s fun t =>
          (t.furrow n).unacked = us ∧ SameRegsBut [r] v t ∧
          (∀ m, t.furrow m = { v.furrow m with advanced := (t.furrow m).advanced }) ∧
          t = { v with regs := t.regs, furrows := t.furrows } ∧
          (x.write = true →
            t.bits r 15 0 = (v.bits r 15 0 + 1) % 2 ^ 16 ∧ t.bits r 19 16 = v.bits r 23 20) ∧
          (x.write = false → v.bits r 19 16 ≤ 1 → t.bits r 15 0 = (v.bits r 15 0 + 1) % 2 ^ 16 ∧ t.bits r 19 16 = 0) ∧
          (x.write = false → 1 < v.bits r 19 16 →
            t.bits r 15 0 = v.bits r 15 0 ∧ t.bits r 19 16 = v.bits r 19 16 - 1)

/-- R109, R134: the running task reaches its budget, or is held at a gate for its timeout. BUDGET_EXPIRY runs the
clock to the budget's cycle and ends the task with cause 0x09. GATE_TIMEOUT, with an access held at the gate, runs the
clock to the end of the timeout, raises F3 0x2105, sets FUR_SB_STATUS and the slot in FUR_SB_GATE; of a task of no
Field it changes nothing else, and of a Field's task it stops the Field, FLD_STOP showing the code and the task to end
with cause 0x0D; a budget that ends in the same cycle of CLK_CORE, or has ended, is reported instead. -/
def Obligations.BudgetsAndGatesEndTasks : Prop :=
  ∀ (s : State) (n : Nat), s.held = false → n < 64 →
    ((s.furrow n).task = none → Answers (.budgetExpiry n) s s) ∧
    (∀ t c, (s.furrow n).task = some t → t.stage = .ending c → Answers (.budgetExpiry n) s s) ∧
    (∀ t, (s.furrow n).task = some t → (∀ c, t.stage ≠ .ending c) → t.outer = none → Yields (.budgetExpiry n) s fun u =>
      (u.furrow n).task = some { t with stage := .ending 0x09, wait := .none, tilesLeft := [], charged := false } ∧
      u.now = (runUntil s (s.cycleTick t t.desc.budget)).now ∧
      u = { s with time := u.time, furrows := u.furrows, yokes := u.yokes } ∧ ∀ m, m ≠ n → u.furrow m = s.furrow m) ∧
    (s.oldestHeld n = none → Answers (.gateTimeout n) s s) ∧
    ∀ m k since, s.oldestHeld n = some (m, k, since) →
      let due := since + s.gateTimeout n * s.coreTicks
      let early := (s.budgetTick m).any fun b => b / max s.coreTicks 1 ≤ due / max s.coreTicks 1
      (early = true → Answers (.gateTimeout n) s (budgetExpiry s m)) ∧
      (early = false → Yields (.gateTimeout n) s fun u =>
        u.bit (Reg.furSbStatus n) 2 = true ∧ u.bits (Reg.furSbGate n) 23 16 = k % 256) ∧
      (early = false → (∀ t, (s.furrow m).task = some t → s.taskField m t = none) →
        Yields (.gateTimeout n) s fun u =>
          u.now = (runUntil s due).now ∧ SameRegsBut [Reg.furSbStatus n, Reg.furSbGate n] s u ∧
          u = { s.raise { code := 0x2105, cls := 3, inst := n, info := some k } with regs := u.regs, time := u.time }) ∧
      (∀ t f, early = false → (s.furrow m).task = some t → s.taskField m t = some f →
        s.fieldState f = fldRunning ∨ s.fieldState f = fldQuiescing → Yields (.gateTimeout n) s fun u =>
          u.fieldState f = fldStopping ∧ u.bits (Reg.fldStop f) 15 0 = 0x2105 ∧
          (∃ es, u.island.net = s.island.net ++ { code := 0x2105, cls := 3, inst := n, info := some k } :: es) ∧
          (u.furrow m).task = some { t with stage := .ending 0x0D, wait := .none, tilesLeft := [], charged := false })

/-- R209 to R214: parking. A task that waits parkably while a task of its class or a higher one is ready moves to a
free slot, the lowest (log 97), its wait over, its hopper parked, the Furrow idle; one whose count has reached its
budget ends instead, and with no such task ready, or no free slot, nothing changes. An idle Furrow resumes the parked
task that its scheduler takes: the slot empties and the Furrow runs the task, its parked ticks and 24 cycles added,
its running stubble write pending while the yoke does not admit it. A task parked for its Field's limit that cannot
resume ends faulted with cause 0x0F; where it can, only the clock runs. -/
def Obligations.ParkingMovesTasksAndSlots : Prop :=
  ∀ (s : State) (n : Nat), s.held = false → n < 64 →
    ((s.furrow n).task = none → Answers (.taskPark n) s s) ∧
    (∀ t f, (s.furrow n).task = some t → s.fieldOf n = some f → isSystem t.hopper = false → t.resuming = false →
      (s.nextWait n t).parkable = true → s.fieldState f = fldRunning →
      (s.readyAbove n (s.hopper t.hopper).cls = false → Answers (.taskPark n) s s) ∧
      (s.readyAbove n (s.hopper t.hopper).cls = true →
        (t.desc.budget ≤ s.ranCycles t → Answers (.taskPark n) s (budgetExpiry s n)) ∧
        (s.ranCycles t < t.desc.budget → (s.furrow n).freeSlot = none → Answers (.taskPark n) s s) ∧
        ∀ k, s.ranCycles t < t.desc.budget → (s.furrow n).freeSlot = some k → Yields (.taskPark n) s fun u =>
          (u.hopper t.hopper).stage = .parked ∧ (u.hopper t.hopper).park = k ∧
          (u.furrow n).task = none ∧
          (∃ p, mapGet none (u.furrow n).slots k = some p ∧ p.task = s.endWait t ∧ p.tick = s.now) ∧
          u.bits (Reg.furStatus n) 2 0 = 0 ∧ u.bit (Reg.furTask n) 31 = false)) ∧
    (∀ t, (s.furrow n).task = some t → Answers (.taskResume n) s s) ∧
    (∀ k p, (s.furrow n).task = none → s.bits (Reg.furStatus n) 2 0 = 0 → s.choice n parkedHolds = .resume k →
      mapGet none (s.furrow n).slots k = some p → Yields (.taskResume n) s fun u =>
        (u.hopper p.task.hopper).stage = .running ∧
        (∃ b, (u.furrow n).task = some { p.task with paused := p.task.paused + (s.now - p.tick)
                                                     extra := p.task.extra + 24, resuming := b, charged := b }) ∧
        mapGet none (u.furrow n).slots k = none ∧ u.bits (Reg.furStatus n) 2 0 = 1 ∧
        u.reg (Reg.furTask n) = BitVec.ofNat 32 (0x80000000 + p.task.hopper) ∧
        u.reg (Reg.furTaskTag n) = BitVec.ofNat 32 p.task.desc.tag ∧
        u.now = (runUntil s (s.now + 24 * s.coreTicks)).now) ∧
    ∀ slot, slot < 8 →
      (mapGet none (s.furrow n).slots slot = none → Answers (.parkLimitExpiry n slot) s s) ∧
      ∀ p f, mapGet none (s.furrow n).slots slot = some p → s.fieldOf n = some f →
        let limit := s.bits (Reg.fldPark f) 19 0
        let run := runUntil s (p.tick + limit * 6400)
        (limit = 0 → Answers (.parkLimitExpiry n slot) s s) ∧
        (limit ≠ 0 → parkedHolds run n p.task = true → Answers (.parkLimitExpiry n slot) s run) ∧
        (limit ≠ 0 → parkedHolds run n p.task = false → Yields (.parkLimitExpiry n slot) s fun u =>
          mapGet none (u.furrow n).slots slot = none ∧ (u.hopper p.task.hopper).stage = .frozen ∧
          (u.hopper p.task.hopper).fault = 0x200F ∧ u.bits (Reg.furFault n) 15 0 = 0x200F ∧
          u.island.net.getLast? = some (taskFaultEvent n 0x0F (some f)))

/-- R34, R116, R117, R124 to R127, R139: SEEDBED_ACCESS. An access outside the requester's reach is refused, and a
read then answers all zeros to the Reeve and to a host; one that arrives before the seedbed is ready is held. A read
answers the row's granules, poisoned where a check failed, and changes no byte. A write of whole granules stores them,
clean or poisoned, and changes no other byte; another length is dropped with F0 0x2107, but padded with zeros for a
Furrow. R138: the seedbed scrub. A read of a bank that this round has not read yet meets the errors of the row at the
pointer, changes no byte, and once all sixteen banks are read moves FUR_SB_SCRUB to the next bank row. A write-back
makes each granule of the bank that waits for one clean, and touches no other mark and no byte. That a round counts
its banks one by one (log 45), and that errors are marks on granules (log 46), are the model's choices. -/
def Obligations.SeedbedAccessAndScrubKeepGranules : Prop :=
  (∀ (s : State) (x : SeedAccess), s.held = false → (Instr.seedbedAccess x).wellFormed = true →
    let a := seedbedBase x.furrow + 128 * x.row + 32 * x.first
    let n := 32 * x.count
    (s.reaches (.req x.req) a n (x.wdata != []) = false →
      (x.wdata ≠ [] → Answers (.seedbedAccess x) s (deniedAccess s x.req a)) ∧
      (x.wdata = [] → (∀ m, x.req ≠ .furrow m) →
        Answers (.seedbedAccess x) s ((deniedAccess s x.req a).emit (.row (List.replicate n 0) false))) ∧
      (x.wdata = [] → ∀ m, x.req = .furrow m → Answers (.seedbedAccess x) s (deniedAccess s x.req a))) ∧
    (s.reaches (.req x.req) a n (x.wdata != []) = true → s.bit (Reg.furSbStatus x.furrow) 0 = false →
      Answers (.seedbedAccess x) s (holdAccess s (.row x))) ∧
    (s.reaches (.req x.req) a n (x.wdata != []) = true → s.bit (Reg.furSbStatus x.furrow) 0 = true →
      (x.wdata = [] → Yields (.seedbedAccess x) s fun t =>
        t.outbox = s.outbox ++ [.row (s.bytes a n) (t.poisoned a n)] ∧ SameBytes s t ∧
        (∀ i < 4, t.mark (a / 128 * 4 + i) = metMark (s.mark (a / 128 * 4 + i)) ((x.upsets[i]?).getD .clean))) ∧
      (x.wdata ≠ [] → x.wdata.length ≠ n → (∀ m, x.req ≠ .furrow m) →
        Answers (.seedbedAccess x) s (s.raise { code := 0x2107, cls := 0, inst := x.furrow })) ∧
      (x.wdata ≠ [] → x.wdata.length = n ∨ (∃ m, x.req = .furrow m) → Yields (.seedbedAccess x) s fun t =>
        t.bytes a n = (x.wdata ++ List.replicate n 0).take n ∧ SameBytesOutside a n s t ∧
        t.poisoned a n = x.wpoison ∧ SameRegsBut [] s t ∧ t.outbox = s.outbox))) ∧
  (∀ (s : State) (n bank : Nat) (upsets : List Upset), s.held = false → n < 64 → bank < 16 →
    let f := s.furrow n
    let r := s.bits (Reg.furSbScrub n) 26 16
    (f.scrubbed.contains bank = true → Answers (.seedbedScrubRead n bank upsets) s s) ∧
    (f.scrubbed.contains bank = false → Yields (.seedbedScrubRead n bank upsets) s fun t =>
      SameBytes s t ∧
      (f.scrubbed.length + 1 < 16 → (t.furrow n).scrubbed = f.scrubbed ++ [bank] ∧ t.bits (Reg.furSbScrub n) 26 16 = r) ∧
      (16 ≤ f.scrubbed.length + 1 → (t.furrow n).scrubbed = [] ∧
        t.bits (Reg.furSbScrub n) 26 16 = (r + 1) % 2048)) ∧
    Yields (.seedbedScrubWriteBack n bank) s (fun t =>
      (t.furrow n).writeBack = f.writeBack.filter (fun (b, _) => b != bank) ∧
      (∀ a, (bank, a) ∈ f.writeBack → t.mark (a / 32) = .clean) ∧
      (∀ g, (∀ a, (bank, a) ∈ f.writeBack → a / 32 ≠ g) → t.mark g = s.mark g) ∧
      t = { s with furrows := t.furrows, marks := t.marks }))

/-- R34, R135: the Reeve or the management function within its reach writes a slot's generation, and an odd one loads
its count of readers; in the cycle in which an advance of that slot takes effect the write stands over the count from
before it, with F0 0x2106; a change that takes effect in the next cycle, which the model has applied at its
acknowledgement, is applied again to what is written (log 64). Any other requester's write is refused. R172, R186:
FENCE_REQUEST writes the fence's generation, and FUR_HW_FENCE_STATUS shows whether a task of the Furrow still reads an
older snapshot; nothing else changes. -/
def Obligations.GenerationsAndFencesAreWritten : Prop :=
  (∀ (s : State) (req : Requester) (n k : Nat) (gen : BitVec 16), s.held = false → n < 64 → k < 256 →
    let r := Reg.furSbSlotGen n k
    let may := (req == .reeve || req == .mgmt) && s.recoveryReach req r
    let due := (s.advancesIn n k 0).filter (·.moves)
    let later := s.advancesIn n k 1
    let readers := match (due ++ later).head? with
      | some x => x.left % 16
      | none => s.bits r 19 16
    (may = true → ∃ u,
      u.bits r 15 0 = gen.toNat ∧ u.bits r 19 16 = (if gen.toNat % 2 = 1 then s.bits r 23 20 else readers) ∧
      u.bits r 31 20 = s.bits r 31 20 ∧ SameRegsBut [r] s u ∧
      (due = [] → u = { s with regs := u.regs }) ∧
      (due ≠ [] → u = { s.raise { code := 0x2106, cls := 0, inst := n } with regs := u.regs, furrows := u.furrows } ∧
        (∀ m, m ≠ n → u.furrow m = s.furrow m) ∧
        u.furrow n = { s.furrow n with advanced := (s.furrow n).advanced.filter fun y => !due.contains y }) ∧
      Answers (.slotGenerationWrite req n k gen) s (later.foldl
        (fun v x => advanceSlot v { furrow := n, slot := k, gen := 0, write := x.write }) u)) ∧
    (may = false → Answers (.slotGenerationWrite req n k gen) s (deniedAccess s req r))) ∧
  (∀ (s : State) (n : Nat) (gen : Word), s.held = false → n < 64 →
    Yields (.fenceRequest n gen) s fun t =>
      t.reg (Reg.furHwFenceGen n) = gen ∧
      t.bit (Reg.furHwFenceStatus n) 0 = !(s.setReg (Reg.furHwFenceGen n) gen).fenceHeld n ∧
      SameRegsBut [Reg.furHwFenceGen n, Reg.furHwFenceStatus n] s t ∧ t = { s with regs := t.regs })

/-- The counter clears of every unit: the counters that the clear bit names read 0 and nothing else changes.
INTK_PIPE_FRAMES, which holds a frame number, is none of those that INTK_CTRL.cnt_clear names (log 22). -/
def Obligations.CounterClearsClearTheirCounters : Prop :=
  ∀ s : State, s.held = false →
    let clears (c : Instr) (as : List Nat) : Prop :=
      Yields c s fun t => (∀ a ∈ as, t.reg a = 0) ∧ SameRegsBut as s t ∧ t = { s with regs := t.regs }
    let clearsField (c : Instr) (as bs : List Nat) (msb lsb : Nat) : Prop :=
      Yields c s fun t => (∀ a ∈ as, t.reg a = 0) ∧ (∀ a ∈ bs, t.bits a msb lsb = 0) ∧
        (∀ a ∈ bs, ∀ i, i < lsb ∨ msb < i → t.bit a i = s.bit a i) ∧
        SameRegsBut (as ++ bs) s t ∧ t = { s with regs := t.regs }
    (∀ n < 64,
      clears (.furCntClear n) [Reg.furMacLo n, Reg.furMacHi n, Reg.furGatedLo n, Reg.furGatedHi n] ∧
      clears (.furSbCntClear n) [Reg.furSbEccCnt n] ∧
      clearsField (.furZcCntClear n) [Reg.furZcRaw n, Reg.furZcMoved n] [Reg.furRkEcc n] 23 0 ∧
      clearsField (.furHwCntClear n) [Reg.furHwUnbucketed n, Reg.furHwSkipped n] [Reg.furHwEcc n] 23 0) ∧
    clears .droveCntClear ((List.range 4).map Reg.drovePortDrop ++ (List.range 16).map Reg.drovePeerRetx ++
      (List.range 256).map Reg.droveResid) ∧
    clears .dramCntClear ((List.range 32).map Reg.dramChEcc) ∧
    clears .headCntClear [Reg.headEcc] ∧
    clearsField .intkCntClear ((List.range 16).map Reg.intkPipeDrop)
      ((List.range 8).map Reg.intkRxStatus ++ (List.range 4).map Reg.intkEthStatus) 31 16 ∧
    clears .reinCntClear ((List.range 256).map Reg.reinChCount) ∧
    clears .chuteCntClear ((List.range 12).map Reg.tackCount ++ (List.range 24).map Reg.chuteEcc) ∧
    clears .brdlCntClear ((List.range 8).map Reg.brdlChCount)

/-- R196, R206: a doorbell within reach that no reason of R196 refuses sets the hopper's tail, and the buffer of the
hopper's Furrow follows the choice (log 63); nothing else changes. A refused one leaves every hopper as it was, shows
hopper and reason in HOP_ERR and raises F0 0x2201; one that firmware recovery denies (R34, R441) has no effect but its
entry. R196: the reasons of a refused doorbell, in their order: a system hopper for anyone but the safety controller
(3), a hopper outside the requester's Field (2), a hopper that is not enabled (1), more tasks than the ring holds
(0). -/
def Obligations.DoorbellsSetTheTailOrAreRefused : Prop :=
  (∀ (s : State) (req : Requester) (h : Nat) (tail : BitVec 16), s.held = false → h < 32768 →
    let v := s.setHopper h { s.hopper h with tail := tail.toNat }
    let reached := s.recoveryReach req Reg.hopDoorbell
    (reached = false → Answers (.doorbell req h tail) s (deniedAccess s req Reg.hopDoorbell)) ∧
    (reached = true → doorbellRefusal s (.req req) h tail.toNat = none → isSystem h = true →
      Answers (.doorbell req h tail) s v) ∧
    (reached = true → doorbellRefusal s (.req req) h tail.toNat = none → isSystem h = false →
      Answers (.doorbell req h tail) s (refreshBuffer v (s.hopper h).furrow)) ∧
    ∀ reason, reached = true → doorbellRefusal s (.req req) h tail.toNat = some reason → Yields (.doorbell req h tail) s fun t =>
      t.reg Reg.hopErr = BitVec.ofNat 32 (0x80000000 + reason * 0x10000 + h) ∧ reason < 4 ∧
      t.island.net = s.island.net ++ [{ code := 0x2201, cls := 0, inst := h }] ∧
      SameRegsBut [Reg.hopErr] s t ∧ t.hoppers = s.hoppers ∧ SameBytes s t) ∧
  (∀ (s : State) (f h tail : Nat),
    let x := s.hopper h
    let refusal := doorbellRefusal s (.req (.field f)) h tail
    (isSystem h = true → refusal = some 3) ∧
    (isSystem h = false → s.hopperIn f h = false → refusal = some 2) ∧
    (isSystem h = false → s.hopperIn f h = true → x.enable = false → refusal = some 1) ∧
    (isSystem h = false → s.hopperIn f h = true → x.enable = true →
      refusal = if (tail + 65536 - x.head) % 65536 ≤ 2 ^ x.k then none else some 0))

/-- R198, R204, R34: HOP_SKIP takes the head's task in flight out of a user hopper whose Field is quiesced or stopped;
any other skip raises F0 0x220A and changes nothing. HOP_CNT_RESET clears the done count. A requester that may not act
on the hopper is refused. -/
def Obligations.HopperControlSkipsAndResets : Prop :=
  ∀ (s : State) (req : Requester) (h : Nat), s.held = false → h < 32768 →
    let x := s.hopper h
    let st := s.fieldState x.field
    let skips := !isSystem h && x.inflight && (st == fldQuiesced || st == fldStopped) && s.hopperIn x.field h
    (s.mayControl req h = true →
      (skips = true → Answers (.hopSkip req h) s
        (s.setHopper h { x with head := (x.head + 1) % 65536, inflight := false, tries := 0, stage := .idle })) ∧
      (skips = false → Answers (.hopSkip req h) s (s.raise { code := 0x220A, cls := 0, inst := h })) ∧
      Answers (.hopCntReset req h) s (s.setHopper h { x with done := 0 })) ∧
    (s.mayControl req h = false →
      Answers (.hopSkip req h) s (deniedAccess s req Reg.hopSkip) ∧
      Answers (.hopCntReset req h) s (deniedAccess s req Reg.hopCntReset))

/-- R200, R201, R202: the requests of FLD_CTRL by a requester within reach. Start takes a ready, quiesced or gleaned
stopped Field to running with its yokes full, unless the device is in safe state; quiesce takes a running Field to
quiescing and counts from 0; stop takes a running or quiescing Field to stopping and a ready or quiesced one to
stopped, each with F0 0x2206, the code in FLD_STOP and the tick in FLD_STOP_TICK. A request that the table does not
allow raises F0 0x2207 and changes nothing; one out of reach is refused. At which commands the Furrows' buffers follow
the choice is the model's (log 63). -/
def Obligations.FieldRequestsFollowTheTable : Prop :=
  ∀ (s : State) (req : Requester) (f : Nat), s.held = false → f < 8 →
    let st := s.fieldState f
    let refused := s.raise { code := 0x2207, cls := 0, inst := f }
    let mayStart := !s.bit Reg.safeStatus 2 &&
      (st == fldReady || st == fldQuiesced || (st == fldStopped && s.bit (Reg.fldStatus f) 7))
    (s.reaches (.req req) (Reg.fldCtrl f) 4 true = false →
      Answers (.fieldStart req f) s (deniedAccess s req (Reg.fldCtrl f)) ∧
      Answers (.fieldQuiesce req f) s (deniedAccess s req (Reg.fldCtrl f)) ∧
      Answers (.fieldStop req f) s (deniedAccess s req (Reg.fldCtrl f))) ∧
    (s.reaches (.req req) (Reg.fldCtrl f) 4 true = true →
      (mayStart = true →
        let u := runField s f
        Answers (.fieldStart req f) s ((s.furrowsOf f).foldl refreshBuffer u) ∧ u.fieldState f = fldRunning ∧
        u.bit (Reg.fldStatus f) 7 = false ∧
        (∀ r < 3, u.reg (Reg.yokeLevel f r) = BitVec.ofNat 32 (s.bits (Reg.yokeDepth f r) 20 0)) ∧
        SameRegsBut (Reg.fldStatus f :: (List.range 3).map (Reg.yokeLevel f)) s u ∧
        u = { s with regs := u.regs, hoppers := u.hoppers, pcie := u.pcie, outbox := u.outbox }) ∧
      (mayStart = false → Answers (.fieldStart req f) s refused) ∧
      (st = fldRunning → Yields (.fieldQuiesce req f) s fun t =>
        t.fieldState f = fldQuiescing ∧ (t.field f).quiesceTicks = 0 ∧ SameRegsBut [Reg.fldStatus f] s t ∧
        t.hoppers = s.hoppers ∧ ∀ n, (t.furrow n).task = (s.furrow n).task ∧ (t.furrow n).slots = (s.furrow n).slots) ∧
      (st ≠ fldRunning → Answers (.fieldQuiesce req f) s refused) ∧
      (st = fldRunning ∨ st = fldQuiescing → Yields (.fieldStop req f) s fun t =>
        t.fieldState f = fldStopping ∧ t.bits (Reg.fldStop f) 15 0 = 0x2206 ∧
        t.reg64 (Reg.fldStopTickLo f) (Reg.fldStopTickHi f) = s.now % 2 ^ 64 ∧
        ∃ es, t.island.net = s.island.net ++ { code := 0x2206, cls := 0, inst := f } :: es) ∧
      (st = fldReady ∨ st = fldQuiesced → Yields (.fieldStop req f) s fun t =>
        t.fieldState f = fldStopped ∧ t.bit (Reg.fldStatus f) 7 = true ∧ t.bits (Reg.fldGleanCount f) 15 0 = 0 ∧
        t.bits (Reg.fldStop f) 15 0 = 0x2206 ∧
        t.island.net = s.island.net ++ [{ code := 0x2206, cls := 0, inst := f }]) ∧
      (st = fldUnconfigured ∨ st = fldStopping ∨ st = fldStopped → Answers (.fieldStop req f) s refused))

/-- R200 to R203: the events of a Field. Quiescing with nothing running or parked ends in quiesced; at its limit it
stops with F3 0x2205, the code in FLD_STOP; stopping ends in stopped once every final stubble write is acknowledged,
or 25,600 cycles of CLK_CORE after the trigger, when each hopper whose write is not acknowledged is noted, with F2
0x2208. The same holds then of the writes that a Field which stopped ready or quiesced is still owed. In any other
state the event changes nothing. R219 to R222: GLEANING of a stopped Field that is not gleaned yet. Without room for
the entries in the Field's own DRAM region it fails, with F2 0x220B once; otherwise it writes one entry of 32 bytes
per hopper with a task in flight, and no other byte, FLD_GLEAN_COUNT is their number and the Field shows gleaned. Each
entry holds its hopper, the head, the flags of R203 and its CRC-32C; the first one the tag, the committed count, the
totals, fault, state and address that R220 gives: none where the descriptor is poisoned or fails its CRC, a count of 0
where the stubble word cannot be read, and otherwise the leading tiles whose stored copies match, with F2 0x2209 where
that trims the count. A Field in another state, or gleaned, is unchanged. -/
def Obligations.FieldEventsAndGleaningFollowTheTable : Prop :=
  (∀ (s : State) (f : Nat), s.held = false → f < 8 →
    let st := s.fieldState f
    let due := s.reg64 (Reg.fldStopTickLo f) (Reg.fldStopTickHi f) + 25600 * s.coreTicks
    let noAck (h : Nat) : Event := { code := 0x2208, cls := 2, inst := h }
    (st = fldQuiescing → s.fieldIdle f = true → Yields (.quiesceComplete f) s fun t =>
      t.fieldState f = fldQuiesced ∧ SameRegsBut [Reg.fldStatus f] s t ∧ t.hoppers = s.hoppers ∧ t.furrows = s.furrows) ∧
    (¬ (st = fldQuiescing ∧ s.fieldIdle f = true) → Answers (.quiesceComplete f) s s) ∧
    (st = fldQuiescing → s.quiesceLimit f ≤ (s.field f).quiesceTicks → Yields (.quiesceLimitExpiry f) s fun t =>
      t.fieldState f = fldStopping ∧ t.bits (Reg.fldStop f) 15 0 = 0x2205 ∧
      ∃ es, t.island.net = s.island.net ++ { code := 0x2205, cls := 3, inst := f } :: es) ∧
    (¬ (st = fldQuiescing ∧ s.quiesceLimit f ≤ (s.field f).quiesceTicks) → Answers (.quiesceLimitExpiry f) s s) ∧
    (st = fldStopping → s.unackedHoppers f = [] → Yields (.fieldStopped f) s fun t =>
      t.fieldState f = fldStopped ∧ SameRegsBut [Reg.fldStatus f] s t ∧ t.hoppers = s.hoppers ∧ t.furrows = s.furrows) ∧
    (¬ (st = fldStopping ∧ s.unackedHoppers f = []) → Answers (.fieldStopped f) s s) ∧
    (st = fldStopping → Yields (.stopAckTimeout f) s fun t =>
      t.fieldState f = fldStopped ∧ t.now = (runUntil s due).now ∧
      t.island.net = s.island.net ++ (s.unackedHoppers f).map noAck ∧
      ∀ h ∈ s.unackedHoppers f, (t.hopper h).noAck = true) ∧
    (st ≠ fldStopping → s.owedHoppers f ≠ [] → Yields (.stopAckTimeout f) s fun t =>
      t.fieldState f = st ∧ t.now = (runUntil s due).now ∧ t.owedHoppers f = [] ∧
      t.island.net = s.island.net ++ (s.owedHoppers f).map noAck ∧
      ∀ h ∈ s.owedHoppers f, (t.hopper h).noAck = true) ∧
    (st ≠ fldStopping → s.owedHoppers f = [] → Answers (.stopAckTimeout f) s s)) ∧
  (∀ (s : State) (f : Nat), s.held = false → f < 8 →
    let hs := (s.hoppersOf f).filter fun h => (s.hopper h).inflight
    let a := s.reg64 (Reg.fldGleanAddrLo f) (Reg.fldGleanAddrHi f)
    let room := a % 32 = 0 ∧ s.inFieldDram f a (32 * hs.length) = true
    (s.fieldState f ≠ fldStopped ∨ s.bit (Reg.fldStatus f) 7 = true → Answers (.gleaning f) s s) ∧
    (s.fieldState f = fldStopped → s.bit (Reg.fldStatus f) 7 = false →
      (¬ room → Answers (.gleaning f) s
        ((s.raiseIf (!(s.field f).gleanFailed) { code := 0x220B, cls := 2, inst := f }).setField f
          { s.field f with gleanFailed := true })) ∧
      (room → Yields (.gleaning f) s fun t =>
        t.bits (Reg.fldGleanCount f) 15 0 = hs.length % 65536 ∧ t.bit (Reg.fldStatus f) 7 = true ∧
        (t.field f).gleanFailed = false ∧
        (a + 32 * hs.length ≤ 0x2000000000 →
          SameBytesOutside a (32 * hs.length) s t ∧
          (∀ i h, hs[i]? = some h →
            let x := s.hopper h
            let e := t.bytes (a + 32 * i) 32
            leAt e 0 2 = h % 65536 ∧ leAt e 2 2 = x.head % 65536 ∧ leAt e 24 4 = 0 ∧
            leAt e 28 4 = (crc32c (e.take 28)).toNat ∧
            leAt e 15 1 / 4 = bval x.noAck + 2 * bval x.wasParked) ∧
          ∀ h, hs.head? = some h →
            let x := s.hopper h
            let d := s.descAt x.headSlot
            let w := s.view d.stubbleAddr 16
            let lost := s.poisoned x.headSlot 64 = true ∨ d.crcOk = false
            let unreadable := s.poisoned d.stubbleAddr 32 = true ∨ stubbleReadable w d = false ∨
              (s.extentRegion d.stubbleAddr 32).isNone = true
            let good := goodTiles s d ((tileExtents s x.furrow d).getD []) (leAt w 4 2)
            let e := t.bytes a 32
            (lost → leAt e 4 4 = 0 ∧ leAt e 8 2 = 0 ∧ leAt e 15 1 % 4 = 1) ∧
            (¬ lost → leAt e 4 4 = d.tag % 2 ^ 32 ∧ leAt e 10 2 = d.tiles % 65536 ∧ leAt e 12 2 = leAt w 8 2 ∧
              leAt e 14 1 = leAt w 10 1 % 8 ∧ leAt e 16 8 = d.stubbleAddr % 2 ^ 40) ∧
            (¬ lost → unreadable → leAt e 8 2 = 0 ∧ leAt e 15 1 % 4 = 1) ∧
            (¬ lost → ¬ unreadable → leAt e 8 2 = good ∧ leAt e 15 1 % 4 = 2 * bval (decide (good < leAt w 4 2)) ∧
              (good < leAt w 4 2 → { code := 0x2209, cls := 2, inst := f } ∈ t.island.net))))))

/-- R203, R110: a stop trigger on a running or quiescing Field. Its state is stopping, FLD_STOP shows the code and
FLD_STOP_TICK the tick, and every user task that runs on a Furrow of the Field and has not failed is to end with cause
0x0D; tasks on other Furrows go on. -/
def Obligations.StopTriggerEndsTheFieldsTasks : Prop :=
  ∀ (s : State) (f code : Nat), f < 8 → code < 65536 → s.fieldState f = fldRunning ∨ s.fieldState f = fldQuiescing →
    let t := stopField s f code
    t.fieldState f = fldStopping ∧
    t.bits (Reg.fldStop f) 15 0 = code ∧
    t.reg64 (Reg.fldStopTickLo f) (Reg.fldStopTickHi f) = s.now % 2 ^ 64 ∧
    (∀ n k, n < 64 → s.fieldOf n = some f → (s.furrow n).task = some k → (∀ c, k.stage ≠ .ending c) →
      isSystem k.hopper = false →
      (t.furrow n).task = some { k with stage := .ending 0x0D, wait := .none, tilesLeft := [], charged := false }) ∧
    (∀ n, s.fieldOf n ≠ some f → (t.furrow n).task = (s.furrow n).task ∧ (t.furrow n).slots = (s.furrow n).slots)

/-- R229, R35: a received Droveway frame that fails a check of R229 is discarded, whatever its kind: for its
end-to-end CRC it is counted in DROVE_PORT_DROP.crc with F1 0x0601, otherwise in DROVE_PORT_DROP.other; nothing else
changes. A good frame of a kind that another command names is not this command's. Of a message that waits for the end
of its cycle of CLK_IO the judgement comes first (R239, log 93). -/
def Obligations.DroveChecksDiscardFrames : Prop :=
  ∀ (r : State) (f : DroveFrame), r.held = false → f.port < 4 →
    let s := settleLate r
    let h := readHeader f.bytes
    ∀ c ∈ [(Instr.droveDispatchRx f, h.kind == 1), (.droveCombineRx f, h.kind == 2), (.drovePutRx f, h.kind == 3),
        (.droveGetRx f, h.kind == 4), (.droveBalePushRx f, h.kind == 5), (.droveAckRx f, h.kind == 6 && !bitOf h.flags 5),
        (.droveOpenRx f, h.kind == 6 && bitOf h.flags 5), (.droveNackRx f, h.kind == 7)],
      (s.droveCheck f = .other → Yields c.1 r fun t =>
        t.bits (Reg.drovePortDrop f.port) 15 0 = min (s.bits (Reg.drovePortDrop f.port) 15 0 + 1) 65535 ∧
        SameRegsBut [Reg.drovePortDrop f.port] s t ∧ t = { s with regs := t.regs }) ∧
      (s.droveCheck f = .crc → Yields c.1 r fun t =>
        t.bits (Reg.drovePortDrop f.port) 31 16 = min (s.bits (Reg.drovePortDrop f.port) 31 16 + 1) 65535 ∧
        SameRegsBut [Reg.drovePortDrop f.port] s t ∧
        t = { s.raise { code := 0x0601, cls := 1, inst := f.port } with regs := t.regs }) ∧
      (s.droveCheck f = .good → c.2 = false → Answers c.1 r s)

/-- R231, R232, R234, R237, R239: a good data frame of any kind on its stream. A closed stream, or a number below the
expected one, changes nothing; a number ahead of it queues a NACK with the expected number, and then changes nothing
until DROVE_RTO has passed, when it queues one again. The expected number advances the stream; a message already
delivered raises F0 0x0607, and a new one that its buffer takes is recorded and its payload is written to its place in
the round's half, in DRAM or, with whole granules, in a seedbed, and no other byte changes. One that the buffer or the
window rejects is answered by a NACK with its reason and F0 0x0606; of one for round c + 2 the judgement waits for the
end of its cycle of CLK_IO, which the model takes at the next Droveway command (log 93). -/
def Obligations.DroveDataFramesInOrder : Prop :=
  (∀ (r : State) (f : DroveFrame), r.held = false → f.port < 4 → (settleLate r).droveCheck f = .good →
    let s := settleLate r
    let h := readHeader f.bytes
    let q := f.port
    let x := s.stream q h.src
    ∀ c ∈ [(1, Instr.droveDispatchRx f), (2, .droveCombineRx f), (3, .drovePutRx f), (5, .droveBalePushRx f),
        (4, .droveGetRx f)], h.kind = c.1 →
      (x.rxOpen = false → Answers c.2 r s) ∧
      (x.rxOpen = true → h.seq ≠ x.expected → seqFrom x.expected h.seq = false → Answers c.2 r s) ∧
      (x.rxOpen = true → h.seq ≠ x.expected → seqFrom x.expected h.seq = true →
        (∀ k, x.nackTick = some k → k + s.rto ≤ s.now) → Yields c.2 r fun t =>
        (t.drovePort q).control = (s.drovePort q).control ++ [{ peer := h.src, nack := true, seq := x.expected, reason := 1 }] ∧
        t.stream q h.src = { x with nackTick := some s.now } ∧ t = { s with drove := t.drove }) ∧
      (∀ k, x.rxOpen = true → h.seq ≠ x.expected → seqFrom x.expected h.seq = true → x.nackTick = some k →
        s.now < k + s.rto → Answers c.2 r s) ∧
      (x.rxOpen = true → h.seq = x.expected → (s.drovePeer h.src).duplicate h.msgId = true → Yields c.2 r fun t =>
        (t.stream q h.src).expected = (x.expected + 1) % 2 ^ 32 ∧
        t = { s.raise { code := 0x0607, cls := 0, inst := h.src } with drove := t.drove }) ∧
      (x.rxOpen = true → h.seq = x.expected → (s.drovePeer h.src).duplicate h.msgId = false → h.kind ≠ 4 →
        s.rejects h.msg = none → Yields c.2 r fun t =>
          let e := s.entry 0xD 2 h.msg.buffer
          let a := leAt e 16 8 + h.msg.round % 2 * leAt e 8 4 + h.msg.offset
          (t.stream q h.src).expected = (x.expected + 1) % 2 ^ 32 ∧
          t.drovePeer h.src = (s.drovePeer h.src).record h.msgId ∧
          (a < 0x2000000000 →
            t.bytes a h.msg.payload.length = h.msg.payload ∧ SameBytesOutside a h.msg.payload.length s t) ∧
          ∀ m, seedbedOf a = some m → t.bytes a h.msg.payload.length = h.msg.payload ∧
            SameBytesOutside (a / 32 * 32) (roundUp (a % 32 + h.msg.payload.length) 32) s t) ∧
      (x.rxOpen = true → h.seq = x.expected → (s.drovePeer h.src).duplicate h.msgId = false → h.kind ≠ 4 →
        ∀ why, s.rejects h.msg = some why →
        (why = 4 → h.msg.round = (s.roundOf h.msg.buffer + 2) % 65536 → Yields c.2 r fun t =>
          (t.stream q h.src).expected = (x.expected + 1) % 2 ^ 32 ∧
          t.drove.late = some ⟨some q, h.src, h.msg, s.ioCycle⟩ ∧ t = { s with drove := t.drove }) ∧
        (why ≠ 4 ∨ h.msg.round ≠ (s.roundOf h.msg.buffer + 2) % 65536 → Yields c.2 r fun t =>
          (t.stream q h.src).expected = (x.expected + 1) % 2 ^ 32 ∧
          (t.drovePort q).control = (s.drovePort q).control ++
            [{ peer := h.src, nack := true, seq := (x.expected + 1) % 2 ^ 32, reason := why, msgId := h.msgId }] ∧
          t = { s.raise { code := 0x0606, cls := 0, inst := q } with drove := t.drove })) ∧
      (x.rxOpen = true → h.seq = x.expected → (s.drovePeer h.src).duplicate h.msgId = false → h.kind = 4 →
        ∀ why, s.getRejects h.src h.msg = some why → Yields c.2 r fun t =>
          (t.stream q h.src).expected = (x.expected + 1) % 2 ^ 32 ∧
          (t.drovePort q).control = (s.drovePort q).control ++
            [{ peer := h.src, nack := true, seq := (x.expected + 1) % 2 ^ 32, reason := why, msgId := h.msgId }] ∧
          t = { s.raise { code := 0x0606, cls := 0, inst := q } with drove := t.drove }) ∧
      (x.rxOpen = true → h.seq = x.expected → (s.drovePeer h.src).duplicate h.msgId = false → h.kind = 4 →
        s.getRejects h.src h.msg = none → Yields c.2 r fun t =>
          (t.stream q h.src).expected = (x.expected + 1) % 2 ^ 32 ∧
          (t.drovePeer h.src).highest = ((s.drovePeer h.src).record h.msgId).highest ∧
          (t.drovePeer h.src).seen = ((s.drovePeer h.src).record h.msgId).seen ∧
          (s.drove.own = [] → h.src ≠ s.chipId → SameBytes s t))) ∧
  ∀ r : State,
    (r.drove.late = none → settleLate r = r) ∧
    (settleLate r).drove.late = none ∧
    ∀ l q, r.drove.late = some l → l.port = some q → r.roundOpen l.msg.buffer l.msg.round = false →
      (settleLate r).island.net = r.island.net ++ [{ code := 0x0606, cls := 0, inst := q }] ∧
      ((settleLate r).drovePort q).control = (r.drovePort q).control ++
        [{ peer := l.src, nack := true, seq := (r.stream q l.src).expected, reason := 4, msgId := l.msg.msgId }]

/-- R230, R232, R233: a good ACK takes every frame below its number out of the stream's window, a NACK too, with the
frame of the message that it rejects for a reason from 3 to 6; with reason 1 it marks every remaining frame from its
number on for retransmission. An ACK with OPEN opens the stream both ways: the number expected is 0 and the window is
numbered again from 0; it is answered by another, unless it is itself the answer to one (log 16). Of a message that
waits for the end of its cycle the judgement comes first (R239, log 93). -/
def Obligations.DroveAcknowledgementsMoveTheWindow : Prop :=
  ∀ (r : State) (f : DroveFrame), r.held = false → f.port < 4 → (settleLate r).droveCheck f = .good →
    let s := settleLate r
    let h := readHeader f.bytes
    let q := f.port
    let x := s.stream q h.src
    let kept := x.window.filter fun w => !(w.seq != h.seq && seqFrom w.seq h.seq)
    (h.kind = 6 → bitOf h.flags 5 = false → Yields (.droveAckRx f) r fun t =>
      (t.stream q h.src).window.map (·.seq) = kept.map (·.seq) ∧ (t.stream q h.src).expected = x.expected ∧ SameBytes s t) ∧
    (h.kind = 7 → Yields (.droveNackRx f) r fun t =>
      let rejects (w : WindowFrame) : Bool := 3 ≤ h.reason && h.reason ≤ 6 && w.msg.msgId == h.msgId
      (t.stream q h.src).window.map (·.seq) = (kept.filter fun w => !rejects w).map (·.seq) ∧
      (h.reason = 1 → ∀ w ∈ (t.stream q h.src).window, seqFrom h.seq w.seq = true → w.again = true) ∧ SameBytes s t) ∧
    (h.kind = 6 → bitOf h.flags 5 = true → Yields (.droveOpenRx f) r fun t =>
      (t.stream q h.src).rxOpen = true ∧ (t.stream q h.src).expected = 0 ∧
      (t.stream q h.src).window.map (·.seq) = List.range x.window.length ∧
      (t.stream q h.src).nextSeq = x.window.length ∧ t.streamUp q h.src = true ∧
      (t.drovePort q).control = (s.drovePort q).control ++
        (if s.openAnswered q h.src then [] else [{ peer := h.src, nack := false, seq := 0, openIt := true }]) ∧ SameBytes s t)

/-- R226, R230: DROVE_FRAME_TX. A port whose link is down sends nothing. A waiting control frame leaves first; then a
window frame marked for retransmission whose admission has come; then, round robin over the Fields, a new frame, which
takes the stream's next sequence number and enters its window; a frame of poisoned data leaves as such (log 28). With
none of these nothing changes. Of a message that waits for the end of its cycle the judgement comes first (R239, log
93). -/
def Obligations.DroveTransmitsByPriority : Prop :=
  ∀ (r : State) (q : Nat), r.held = false → q < 4 →
    let s := settleLate r
    (s.bit (Reg.drovePortStatus q) 0 = false → Answers (.droveFrameTx q) r s) ∧
    (s.bit (Reg.drovePortStatus q) 0 = true →
      (∀ c cs, (s.drovePort q).control = c :: cs → Yields (.droveFrameTx q) r fun t =>
        t.drovePort q = { s.drovePort q with control := cs } ∧
        t = { s with drove := t.drove, outbox := s.outbox ++ [.frame q (controlFrame s q c)] }) ∧
      ((s.drovePort q).control = [] → ((List.range 16).findSome? (resendOn s q)) = none →
        (s.nextNew q = none → Answers (.droveFrameTx q) r s) ∧
        ∀ m, s.nextNew q = some m → Yields (.droveFrameTx q) r fun t =>
          let x := s.stream q m.dst
          (t.stream q m.dst).nextSeq = (x.nextSeq + 1) % 2 ^ 32 ∧
          (t.stream q m.dst).window = x.window ++
            [{ seq := x.nextSeq, msg := { m with asked := false, admitted := false, sent := true } }] ∧
          (t.drovePort q).rr = (m.field + 1) % 8 ∧
          t.outbox = s.outbox ++ [frameOut q m.poison (dataFrame s q x.nextSeq m)] ∧
          SameRegsBut [Reg.drovePeerRetx m.dst] s t ∧ SameBytes s t) ∧
      ((s.drovePort q).control = [] → ∀ p w, (∀ k < p, resendOn s q k = none) → p < 16 →
        (s.stream q p).window.find? (·.again) = some w → w.msg.admitted = true → Yields (.droveFrameTx q) r fun t =>
          t.outbox = s.outbox ++ [frameOut q w.msg.poison (dataFrame s q w.seq w.msg)] ∧
          (t.reg (Reg.drovePeerRetx p)).toNat = min ((s.reg (Reg.drovePeerRetx p)).toNat + 1) (2 ^ 32 - 1) ∧
          SameRegsBut [Reg.drovePeerRetx p] s t ∧ SameBytes s t))

/-- R232, R233: the timers of a stream. The ACK timer sends the cumulative ACK that delivered frames wait for. The
retransmission timer of a stream with a window counts a timeout, raises F0 0x0602 and marks the whole window for
retransmission; the eighth in a row raises F2 0x0603 instead and empties the stream's window. Without a frame to
acknowledge, or with an empty window, nothing changes. R230, R233: the link of a Droveway port. A link that goes down
raises F2 0x0604 once, discards the port's control frames and shows the port down; one that comes up shows it up and
queues an ACK with OPEN for every peer of the unit whose stream is not open. Of a message that waits for the end of
its cycle the judgement comes first (R239, log 93). -/
def Obligations.DroveTimersAndLinksAct : Prop :=
  (∀ (r : State) (q p : Nat), r.held = false → q < 4 → p < 16 →
    let s := settleLate r
    let x := s.stream q p
    (x.sinceAck = 0 → Answers (.droveAckTimer q p) r s) ∧
    (x.sinceAck ≠ 0 → Yields (.droveAckTimer q p) r fun t =>
      t.stream q p = { x with sinceAck := 0 } ∧
      (t.drovePort q).control = (s.drovePort q).control ++ [{ peer := p, nack := false, seq := x.expected }] ∧
      t.now = (runUntil s (x.firstTick + 6400)).now ∧ t = { s with time := t.time, drove := t.drove }) ∧
    (x.window = [] → Answers (.droveRtoExpiry q p) r s) ∧
    (x.window ≠ [] → x.timeouts + 1 < 8 → Yields (.droveRtoExpiry q p) r fun t =>
      (t.stream q p).timeouts = x.timeouts + 1 ∧ t.now = (runUntil s (x.lastAdvance + s.rto)).now ∧
      (t.stream q p).window.map (·.seq) = x.window.map (·.seq) ∧
      t.island.net = s.island.net ++ [{ code := 0x0602, cls := 0, inst := q }] ∧ SameBytes s t) ∧
    (x.window ≠ [] → 8 ≤ x.timeouts + 1 → Yields (.droveRtoExpiry q p) r fun t =>
      (t.stream q p).window = [] ∧ t.streamUp q p = false ∧
      t.island.net = s.island.net ++ [{ code := 0x0603, cls := 2, inst := p }] ∧ SameBytes s t)) ∧
  (∀ (r : State) (q : Nat), r.held = false → q < 4 →
    let s := settleLate r
    (s.bit (Reg.drovePortStatus q) 0 = false → Answers (.drovePortLinkDown q) r s) ∧
    (s.bit (Reg.drovePortStatus q) 0 = true → Yields (.drovePortLinkDown q) r fun t =>
      t.bit (Reg.drovePortStatus q) 0 = false ∧ t.bit (Reg.drovePortStatus q) 3 = true ∧
      (t.drovePort q).control = [] ∧ (∀ p < 16, (t.stream q p).rxOpen = false) ∧
      t.island.net = s.island.net ++ [{ code := 0x0604, cls := 2, inst := q }] ∧ SameBytes s t) ∧
    Yields (.drovePortLinkUp q) r (fun t =>
      t.bit (Reg.drovePortStatus q) 0 = true ∧
      (∀ p < 16, p ≠ s.chipId → s.bit (Reg.drovePeer p) 0 = true → s.streamUp q p = false →
        { peer := p, nack := false, seq := 0, openIt := true } ∈ (t.drovePort q).control) ∧
      SameRegsBut [Reg.drovePortStatus q] s t ∧ t = { s with regs := t.regs, drove := t.drove }))

/-- R262 to R265, R34: DRAM accesses. A read of a mapped address within reach answers the block that holds it,
poisoned where its check failed, and changes no byte; the check's result is stored and raises its event: F1 0x0401 for
a corrected error, F2 0x0402 for an uncorrectable one, F4 0x0405 for a wrong address; poison sets the Reeve's bus
error with F0 0x0002. A write within reach stores its bytes and changes no other byte. An access that is not mapped or
not within reach is refused, and a read then answers all zeros to the Reeve and to a host. -/
def Obligations.DramAccessesCheckBlocks : Prop :=
  ∀ (s : State) (req : Requester) (a : Nat), s.held = false →
    (∀ u : Upset,
      let m := metMark (s.blockMark (a / 64)) u
      let ch := dramChannel (a / 64)
      (s.region a = some .dram → s.reaches (.req req) a 1 false = true → Yields (.dramRead req a u) s fun t =>
        t.outbox = s.outbox ++ [.row (s.bytes (a / 64 * 64) 64) (t.poisoned (a / 64 * 64) 64)] ∧ SameBytes s t ∧
        t.blockMark (a / 64) = m ∧
        t.island.net = s.island.net ++ (match m with
          | .clean => []
          | .single => [{ code := 0x0401, cls := 1, inst := ch }]
          | .double => [{ code := 0x0402, cls := 2, inst := ch }]
          | .wrongAddress => [{ code := 0x0405, cls := 4, inst := ch }]) ++
          (if req = .reeve ∧ (m = .double ∨ m = .wrongAddress) then [{ code := 0x0002, cls := 0 }] else []) ∧
        SameRegsBut ([Reg.dramErr, Reg.dramErrAddrLo, Reg.dramErrAddrHi, Reg.dramChEcc ch] ++
          if req = .reeve then [Reg.reeveBuserr, Reg.reeveBuserrAddrLo, Reg.reeveBuserrAddrHi] else []) s t) ∧
      (s.region a ≠ some .dram ∨ s.reaches (.req req) a 1 false = false →
        ((∀ m, req ≠ .furrow m) → Answers (.dramRead req a u) s
          ((deniedAccess s req (a / 64 * 64)).emit (.row (List.replicate 64 0) false))) ∧
        (∀ m, req = .furrow m → Answers (.dramRead req a u) s (deniedAccess s req (a / 64 * 64))))) ∧
    ∀ data : List Byte, data ≠ [] →
      (s.region a = some .dram → s.reaches (.req req) a data.length true = true →
        (∀ poison, Yields (.dramWrite req a data poison) s fun t =>
          t.bytes a data.length = data ∧ SameBytesOutside a data.length s t ∧ t.outbox = s.outbox) ∧
        (∀ u, Yields (.dramPartialWrite req a data u) s fun t =>
          t.bytes a data.length = data ∧ SameBytesOutside a data.length s t ∧ t.outbox = s.outbox)) ∧
      (s.region a ≠ some .dram ∨ s.reaches (.req req) a data.length true = false →
        (∀ poison, Answers (.dramWrite req a data poison) s (deniedAccess s req a)) ∧
        (∀ u, Answers (.dramPartialWrite req a data u) s (deniedAccess s req a)))

/-- R258, R268, R270: patrol scrub, refresh and the request to retrain. A scrub step of an installed DRAM changes no
byte and moves to the next block of the chunk; after the last one DRAM_SCRUB moves to the next local chunk, or to
chunk 0 with one more pass. A refresh takes the channel's next bank, at the rate of the last MR4 reading (log 80), and
changes nothing else. A retrain request places its channel first. R268, R269: DRAM_RETRAIN_SLICE. Before start-up has
ended nothing happens. Of a retraining in progress the slice is counted; the 256th one ends it: DRAM_CH_TRAIN shows
the margin, temperature and one more training, and a margin below DRAM_TRAIN_CTRL.margin_min sets
DRAM_STATUS.margin_low, raises F2 0x0406 and places the channel first. With none in progress the next channel's
retraining starts, if one is due. -/
def Obligations.DramUpkeepAndRetrainingKeepData : Prop :=
  (∀ (s : State) (upsets : List (Nat × Upset)), s.held = false →
    let loc := s.bits Reg.dramScrub 20 0
    (s.dramInstalled = 0 → Answers (.dramPatrolScrubRead upsets) s s) ∧
    (s.dramInstalled ≠ 0 → Yields (.dramPatrolScrubRead upsets) s fun t =>
      SameBytes s t ∧ t.dram.scrubBlock = (s.dram.scrubBlock + 1) % 32 ∧
      (s.dram.scrubBlock < 31 → t.bits Reg.dramScrub 20 0 = loc) ∧
      (31 ≤ s.dram.scrubBlock → loc + 1 < s.dramInstalled / 65536 → t.bits Reg.dramScrub 20 0 = (loc + 1) % 2 ^ 21) ∧
      (31 ≤ s.dram.scrubBlock → s.dramInstalled / 65536 ≤ loc + 1 → t.bits Reg.dramScrub 20 0 = 0 ∧
        t.bits Reg.dramScrub 31 21 = (s.bits Reg.dramScrub 31 21 + 1) % 2 ^ 11)) ∧
    ∀ c < 32,
      Yields (.dramRefresh c) s (fun t =>
        (mapGet (0, 0) t.dram.refresh c).1 =
          ((mapGet (0, 0) s.dram.refresh c).1 + 1) % (16 * (1 + s.bits Reg.dramCfg 3 3)) ∧
        (mapGet (0, 0) t.dram.refresh c).2 = Config.refreshRate c s.dram.mr4Tick ∧
        (∀ k, k ≠ c → mapGet (0, 0) t.dram.refresh k = mapGet (0, 0) s.dram.refresh k) ∧
        t = { s with dram := { s.dram with refresh := t.dram.refresh } }) ∧
      Answers (.dramRetrainNow c) s
        { s with dram := { s.dram with front := c :: s.dram.front.filter (· != c) } }) ∧
  (∀ (s : State) (margin : Nat) (temp : Int), s.held = false →
    let c := s.bits Reg.dramStatus 4 0
    (s.bit Reg.reeveBoot 31 = false → Answers (.dramRetrainSlice margin temp) s s) ∧
    (s.bit Reg.reeveBoot 31 = true → s.bit Reg.dramStatus 8 = true → s.dram.slices + 1 < 256 →
      Answers (.dramRetrainSlice margin temp) s { s with dram := { s.dram with slices := s.dram.slices + 1 } }) ∧
    (s.bit Reg.reeveBoot 31 = true → s.bit Reg.dramStatus 8 = true → 256 ≤ s.dram.slices + 1 →
      Yields (.dramRetrainSlice margin temp) s fun t =>
        t.bit Reg.dramStatus 8 = false ∧ t.dram.slices = 0 ∧
        t.bits (Reg.dramChTrain c) 31 24 = min margin 255 ∧ t.bits (Reg.dramChTrain c) 23 16 = unsignedOf temp 8 ∧
        t.bits (Reg.dramChTrain c) 15 0 = min (s.bits (Reg.dramChTrain c) 15 0 + 1) 65535 ∧
        SameRegsBut [Reg.dramChTrain c, Reg.dramStatus] s t ∧
        (s.bits Reg.dramTrainCtrl 31 24 ≤ margin → t.island = s.island) ∧
        (margin < s.bits Reg.dramTrainCtrl 31 24 → t.bit Reg.dramStatus 9 = true ∧
          t.dram.front = c :: s.dram.front.filter (· != c) ∧
          t.island.net = s.island.net ++ [{ code := 0x0406, cls := 2, inst := c }])) ∧
    (s.bit Reg.reeveBoot 31 = true → s.bit Reg.dramStatus 8 = false → s.nextTrain = none →
      Answers (.dramRetrainSlice margin temp) s s) ∧
    ∀ k r, s.bit Reg.reeveBoot 31 = true → s.bit Reg.dramStatus 8 = false → s.nextTrain = some (k, r) →
      Yields (.dramRetrainSlice margin temp) s fun t =>
        t.bit Reg.dramStatus 8 = true ∧ t.bits Reg.dramStatus 4 0 = k % 32 ∧ t.dram.slices = 1 ∧
        SameRegsBut [Reg.dramStatus] s t ∧ t = { s with regs := t.regs, dram := t.dram })

/-- R126, R271 to R277: an error that a packet meets at a router input of its path, recorded in HEAD_ERR and HEAD_ECC:
a corrected word raises F1 0x0301; an uncorrectable header discards the packet with 0x0303, F3 on the Field of its
channel and F4 on the system channel; an uncorrectable data word of a packet that carries bytes raises F2 0x0302: a
response's poison reaches its requester (log 98), and a write's word is stored poisoned, at every seedbed that a
multicast still reaches, cancelling the scrub's write-back of it. A flit without a credit raises F4 0x0304. A packet
without an error, whose error lies off its path, or whose source does not send on its channel, changes nothing. -/
def Obligations.HeadlandErrorsAreRecorded : Prop :=
  ∀ (s : State) (p : Packet), s.held = false → (Instr.headlandPacket p).wellFormed = true →
    let c := Instr.headlandPacket p
    let recorded (v t : State) (flag lsb : Nat) : Prop :=
      t.bits Reg.headErr 15 12 = p.vc ∧ t.bits Reg.headErr 9 7 = p.inPort ∧ t.bits Reg.headErr 6 0 = p.inRouter ∧
      t.bit Reg.headErr flag = true ∧ t.bits Reg.headEcc (lsb + 15) lsb = min (v.bits Reg.headEcc (lsb + 15) lsb + 1) 65535 ∧
      SameRegsBut [Reg.headErr, Reg.headEcc] v t
    let corrected (v t : State) : Prop := recorded v t 30 0 ∧
      t = { v.raise { code := 0x0301, cls := 1, inst := p.inRouter } with regs := t.regs }
    (onPath p p.inRouter = false ∨ s.carries p = false → Answers c s s) ∧
    (onPath p p.inRouter = true → s.carries p = true → p.noCredit = true →
      Answers c s (s.raise { code := 0x0304, cls := 4, inst := p.inRouter })) ∧
    (onPath p p.inRouter = true → s.carries p = true → p.noCredit = false →
      (p.upsetHead = .double ∨ p.upsetHead = .wrongAddress → Yields c s fun t => recorded s t 31 16 ∧
        t = { s.raise { code := 0x0303, cls := if p.vc = 8 then 4 else 3, inst := p.inRouter
                        field := if p.vc = 8 then none else some p.vc } with regs := t.regs }) ∧
      ∀ v, p.upsetHead = .clean ∧ v = s ∨ p.upsetHead = .single ∧ v = headCorrected s p →
        (p.upsetHead = .single → corrected s v) ∧
        (p.upsetWord = .clean ∨ p.bytes = 0 → Answers c s v) ∧
        (p.upsetWord = .single → p.bytes ≠ 0 → Yields c s (corrected v)) ∧
        (p.upsetWord = .double ∨ p.upsetWord = .wrongAddress → p.bytes ≠ 0 →
          (p.response = true → ∃ u, Answers c s (poisonRequester u p (p.granule / 32 * 32)) ∧ recorded v u 31 16 ∧
            u = { v.raise { code := 0x0302, cls := 2, inst := p.inRouter } with regs := u.regs }) ∧
          (p.response = false → Yields c s fun t => recorded v t 31 16 ∧
            (∀ a ∈ wordTargets p, if a < 0x2000000000 then t.blockMark (a / 64) = .double else t.mark (a / 32) = .double) ∧
            (∀ g, (∀ a ∈ wordTargets p, a / 64 ≠ g / 2) → t.mark g = s.mark g) ∧
            (∀ m, ∃ ws, t.furrow m = { s.furrow m with writeBack := ws } ∧
              ∀ a ∈ wordTargets p, seedbedOf a = some m → ∀ x ∈ ws, x.2 / 32 ≠ a / 32) ∧
            t = { v.raise { code := 0x0302, cls := 2, inst := p.inRouter } with
              regs := t.regs, marks := t.marks, furrows := t.furrows })))

/-- R279, R281 to R285: CSI2_FRAME_START of a receiver and virtual channel bound to one pipeline whose check row does
not run. A receiver without lanes takes nothing. A good header leaves the pipeline with a frame of that number in
progress. Where nothing is in progress or due at the boundary and the number follows, a disabled start is discarded
whole without being counted, and an enabled one whose Field runs and whose hoppers have room is counted in
INTK_PIPE_FRAMES and captured at its own tick where no FSYNC is bound, its line buffer's words written anew (log 28).
That a disabled start is not counted is the model's choice (log 22). -/
def Obligations.FrameStartOpensAFrame : Prop :=
  ∀ (s : State) (receiver vc number tick p : Nat), s.held = false → receiver < 8 → s.cameraPipes receiver vc = [p] →
    (s.pipe p).check = none →
    let c := Instr.csi2FrameStart receiver vc number .good tick
    (s.receiverOn receiver = false → Answers c s s) ∧
    (s.receiverOn receiver = true → Yields c s fun t => ∃ f, (t.pipe p).frame = some f ∧ f.number = number) ∧
    (s.receiverOn receiver = true → (s.pipe p).frame = none → commitAt (completeFrame s p) 3 p = s →
      numberFollows (s.pipe p).lastFrame (s.pipeAt p 20 2) number = true →
      (s.bit (Reg.intkPipeCtrl p) 31 = false → Yields c s fun t =>
        (∃ f, (t.pipe p).frame = some f ∧ f.stage = .discarded) ∧ SameRegsBut [] s t ∧ t = { s with intake := t.intake }) ∧
      (s.bit (Reg.intkPipeCtrl p) 31 = true → s.fieldState (s.pipeField p) = fldRunning → (s.pipe p).halted = false →
        s.hoppersReady p ((s.pipe p).delivered % s.pipeBuffers p) = true → s.pipeAt p 6 1 = 0xFF → Yields c s fun t =>
          t.reg (Reg.intkPipeFrames p) = s.reg (Reg.intkPipeFrames p) + 1 ∧
          t.reg64 (Reg.intkPipeCaptureLo p) (Reg.intkPipeCaptureHi p) = tick % 2 ^ 64 ∧
          (∃ f, (t.pipe p).frame = some f ∧ f.stage = .good ∧ f.capture = tick ∧ f.lines = []) ∧
          SameRegsBut [Reg.intkPipeFrames p, Reg.intkPipeCaptureLo p, Reg.intkPipeCaptureHi p] s t ∧
          t = { s.rewriteWords .intake p with regs := t.regs, intake := t.intake }))

/-- R279, R282, R283, R294, R298, R299, R302: the other CSI-2 packets with a good header. A receiver without lanes
takes nothing. A packet that no pipeline matches is counted at its receiver; one that arrives while the check row runs
waits in the receiver's line buffer of 64 KiB, with whether its Field then ran, or is lost where that is full. A Line
End changes nothing, a Line Start counts, a good long packet of a good frame adds its line, and a Frame End with every
line of its frame makes the frame due for completion and starts the check row; a dropped frame only ends. That the
check row starts at the Frame End's tick, and that a dropped frame's packets are not checked, are the model's choices
(log 22). -/
def Obligations.CameraPacketsBuildTheFrame : Prop :=
  ∀ (s : State) (receiver vc number : Nat) (k : LongPacket), s.held = false → receiver < 8 → k.receiver = receiver →
    k.vc = vc → k.ecc = .good →
    let unbound := Reg.intkRxStatus receiver
    let counted (c : Instr) : Prop := Yields c s fun t =>
      t.bits unbound 31 16 = min (s.bits unbound 31 16 + 1) 65535 ∧ SameRegsBut [unbound] s t ∧ t = { s with regs := t.regs }
    (s.receiverOn receiver = false → ∀ ecc tick,
      Answers (.csi2FrameStart receiver vc number ecc tick) s s ∧ Answers (.csi2FrameEnd receiver vc number ecc) s s ∧
      Answers (.csi2LineStart receiver vc number ecc) s s ∧ Answers (.csi2LineEnd receiver vc number ecc) s s ∧
      Answers (.csi2LongPacket k) s s) ∧
    (s.receiverOn receiver = true → s.cameraPipes receiver vc = [] → ∀ ecc tick,
      counted (.csi2FrameStart receiver vc number ecc tick) ∧ counted (.csi2FrameEnd receiver vc number ecc) ∧
      counted (.csi2LineStart receiver vc number ecc) ∧ counted (.csi2LineEnd receiver vc number ecc) ∧
      counted (.csi2LongPacket k)) ∧
    ∀ p, s.receiverOn receiver = true → s.cameraPipes receiver vc = [p] → s.pipeAt p 4 1 = k.dataType →
      let x := s.pipe p
      let holding (f : IntakeFrame) : State := s.setPipe p { x with frame := some f }
      (x.check.isSome = true → 65536 < s.waitingBytes receiver + 4 →
        Answers (.csi2LineEnd receiver vc number .good) s (s.setPipe p { x with overflow := true })) ∧
      (x.check.isSome = true → s.waitingBytes receiver + 4 ≤ 65536 →
        Answers (.csi2LineEnd receiver vc number .good) s
          (s.setPipe p { x with waiting := x.waiting ++ [(.lineEnd number .good, s.pipeRuns p)],
                                waitBytes := x.waitBytes + 4 })) ∧
      (x.check = none → Answers (.csi2LineEnd receiver vc number .good) s s) ∧
      (x.check = none → x.frame = none → Answers (.csi2FrameEnd receiver vc number .good) s s) ∧
      ∀ f, x.check = none → x.frame = some f →
        (f.stage = .dropped ∨ f.stage = .discarded →
          Answers (.csi2FrameEnd receiver vc number .good) s (s.setPipe p { x with frame := none })) ∧
        (f.stage = .good → bitOf (s.pipeAt p 10 1) 0 = false →
          Answers (.csi2LineStart receiver vc number .good) s (holding { f with starts := f.starts + 1 })) ∧
        (f.stage = .good → k.crcOk = true → 8 * k.payload.length = s.pipeAt p 12 2 * rawDepth (s.pipeAt p 4 1) →
          k.upset = .clean → k.checkBad = false → f.lines.length < s.pipeAt p 14 2 → f.lines.length + 1 < s.pipeScale p →
          Answers (.csi2LongPacket k) s (holding { f with count := f.count + 1, lines := f.lines ++ [k.payload] })) ∧
        (f.stage = .good → f.count = s.pipeAt p 14 2 → f.number = number →
          Answers (.csi2FrameEnd receiver vc number .good) s
            (s.setPipe p { x with frame := none, done := some { f with lines := [] }, check := some (f.settings, s.now) }))

/-- R290, R294, R298, R299: FRAME_COMPLETION and CHECK_ROW. A completion that is due counts one more delivered frame
and moves INTK_PIPE_STATE.buffer on; without one nothing changes. The check row of a frame is compared 4·W + 64 cycles
of CLK_IO after it started: INTK_PIPE_CHECK_LAST shows its CRC, a match with no packet waiting changes nothing else,
and a mismatch halts the pipeline and, where its Field runs, stops it. -/
def Obligations.FramesCompleteAndAreChecked : Prop :=
  ∀ (s : State) (p : Nat), s.held = false → p < 16 →
    ((s.pipe p).done = none → Answers (.frameCompletion p) s s) ∧
    (∀ f, (s.pipe p).done = some f → Yields (.frameCompletion p) s fun t =>
      (t.pipe p).done = none ∧ (t.pipe p).delivered = (s.pipe p).delivered + 1 ∧
      t.bits (Reg.intkPipeState p) 7 4 = (t.pipe p).delivered % t.pipeBuffers p % 16) ∧
    ((s.pipe p).check = none → Answers (.checkRow p) s s) ∧
    ∀ g t0, (s.pipe p).check = some (g, t0) →
      (s.checkCrc p g = g.check → (s.pipe p).waiting = [] → (s.pipe p).overflow = false → Yields (.checkRow p) s fun t =>
        t.reg (Reg.intkPipeCheckLast p) = s.checkCrc p g ∧ (t.pipe p).check = none ∧
        t.now = (runUntil s (t0 + 8 * (4 * s.pipeAt p 12 2 + 64))).now ∧
        SameRegsBut [Reg.intkPipeCheckLast p] s t ∧ t = { s with regs := t.regs, time := t.time, intake := t.intake }) ∧
      (s.checkCrc p g ≠ g.check → (s.pipe p).waiting = [] → (s.pipe p).overflow = false → Yields (.checkRow p) s fun t =>
        (t.pipe p).halted = true ∧ (t.pipe p).check = none ∧
        (s.fieldState (s.pipeField p) = fldRunning → t.fieldState (s.pipeField p) = fldStopping))

/-- R300, R301: sensor Ethernet. A port whose link is down receives and sends nothing. A frame of no stream, a PAUSE
frame and one above 9,216 bytes, which the model counts (log 22), are counted at the port; a good frame gives its
sequence value and its tick to every stream that it matches. A silence of the gap ends the group in progress, errored.
The link events set the port's status bits, and a control frame that leaves is timestamped. R282, R381,
INTK_RX_STATUS: a receiver that is synchronised loses it with its loss flag, which, as the port's link flag, is an F0
event whose cause no table gives (log 82); one that the harness has set up gains it. Any other receiver is
unchanged. -/
def Obligations.SensorEthernetAndReceiversAct : Prop :=
  (∀ (s : State) (f : SensorFrame), s.held = false → f.port < 4 →
    let st := Reg.intkEthStatus f.port
    let hits := (List.range 16).filter fun p => (s.streamPayload p f.port f.bytes).isSome
    (s.bit st 0 = false → Answers (.sensorEthFrameRx f) s s) ∧
    (s.bit st 0 = true → hits = [] ∨ f.pause = true ∨ 9216 < f.bytes.length + 4 → Yields (.sensorEthFrameRx f) s fun t =>
      t.bits st 31 16 = min (s.bits st 31 16 + 1) 65535 ∧ SameRegsBut [st] s t ∧ t = { s with regs := t.regs }) ∧
    (s.bit st 0 = true → hits ≠ [] → f.pause = false → f.bytes.length + 4 ≤ 9216 → f.fcsOk = true →
      Yields (.sensorEthFrameRx f) s fun t =>
        ∀ p ∈ hits, (t.pipe p).lastRow = f.sfdTick ∧ (t.pipe p).sequence.isSome = true) ∧
    (∀ bytes tick,
      (s.bit st 0 = true → Answers (.sensorEthTx f.port bytes tick) s (s.emit (.sensorTx f.port bytes tick))) ∧
      (s.bit st 0 = false → Answers (.sensorEthTx f.port bytes tick) s s)) ∧
    Yields (.sensorEthLinkDown f.port) s (fun t => t.bit st 0 = false ∧ t.bit st 1 = true ∧ SameRegsBut [st] s t ∧
      t = { s.raiseOpen 0x05 0 f.port with regs := t.regs }) ∧
    Yields (.sensorEthLinkUp f.port) s (fun t => t.bit st 0 = true ∧ SameRegsBut [st] s t ∧ t = { s with regs := t.regs }) ∧
    ∀ p < 16,
      ((s.pipe p).frame = none → Answers (.sensorEthGroupGap p) s s) ∧
      ((s.pipe p).frame ≠ none → s.pipeEthernet p = false → Answers (.sensorEthGroupGap p) s s) ∧
      ∀ g, (s.pipe p).frame = some g → s.pipeEthernet p = true → Yields (.sensorEthGroupGap p) s fun t =>
        (t.pipe p).frame = none ∧ t.now = (runUntil s ((s.pipe p).lastRow + s.streamAt p 32 4)).now ∧
        (g.stage = .good → t.bits (Reg.intkPipeDrop p) 31 16 = min (s.bits (Reg.intkPipeDrop p) 31 16 + 1) 65535 ∧
          t.island.net = s.island.net ++ [{ code := 0x0509, cls := 2, inst := p }])) ∧
  (∀ (s : State) (n : Nat), s.held = false → n < 8 →
    let r := Reg.intkRxStatus n
    (s.bit r 0 = true → Yields (.dphySyncLoss n) s fun t => t.bit r 0 = false ∧ t.bit r 3 = true ∧
      SameRegsBut [r] s t ∧ t = { s.raiseOpen 0x05 0 n with regs := t.regs }) ∧
    (s.bit r 0 = false → Answers (.dphySyncLoss n) s s) ∧
    (s.bits r 2 1 ≠ 0 → Yields (.dphyHsSynchronisation n) s fun t => t.bit r 0 = true ∧
      SameRegsBut [r] s t ∧ t = { s with regs := t.regs }) ∧
    (s.bits r 2 1 = 0 → Answers (.dphyHsSynchronisation n) s s))

/-- R425 to R428, R474: requests of the PCIe host to one of the nine functions. While the link is down none arrives.
With the link up, one that names no function's range, or a memory request to a function without Memory Space Enable,
in neither BAR or longer than R425 supports (log 32), is answered with status 1, PCIE_ERR and F0 0x0D04. A write
through BAR2 to reachable DRAM stores its bytes and no other, and a read answers them with status 0; a 32-bit write to
offset 0 of BAR0 is the function's doorbell, and a BAR0 read answers as many bytes as it asks for. A configuration
write sets what it names. -/
def Obligations.PcieRequestsReachTheDevice : Prop :=
  ∀ (s : State) (fn : Nat), s.held = false → fn < 9 →
    let r := functionRequester fn
    let refused (c : Instr) : Prop := Yields c s fun t => t.bit Reg.pcieErr 27 = true ∧ SameRegsBut [Reg.pcieErr] s t ∧
      t = { s.raise { code := 0x0D04, cls := 0 } with regs := t.regs, outbox := s.outbox ++ [.completion fn 1 false []] }
    (s.linkUp = false → Answers (.pcieUnsupportedRequest fn) s s ∧
      ∀ q, Answers (.pcieConfigurationRequest fn q) s s) ∧
    (s.linkUp = true → refused (.pcieUnsupportedRequest fn)) ∧
    (∀ (bar off : Nat) (data : List Byte) (poison : Bool),
      let write := Instr.pcieMemoryWrite fn bar off data poison
      let read := Instr.pcieMemoryRead fn bar off data.length
      let inside := inBar bar off data.length
      let live := s.linkUp = true ∧ s.bit (Reg.pcieFn fn) 1 = true ∧ inside = true
      let fits := data.length ≤ 512
      (s.linkUp = false → Answers write s s ∧ Answers read s s) ∧
      (s.linkUp = true → s.bit (Reg.pcieFn fn) 1 = false ∨ inside = false → refused write ∧ refused read) ∧
      (s.linkUp = true → ¬ fits → refused write) ∧
      (live → bar = 2 → s.region off = some .dram →
        (fits → s.accessible r off data.length true = true → Yields write s fun t =>
          t.bytes off data.length = data ∧ SameBytesOutside off data.length s t ∧ t.outbox = s.outbox) ∧
        (s.accessible r off data.length false = true → Yields read s fun t => SameBytes s t ∧
          t.outbox = s.outbox ++ [.completion fn 0 (t.poisoned off data.length) (s.bytes off data.length)])) ∧
      (live → bar = 0 → off = 0 → data.length = 4 → poison = false →
        Answers write s (ring s (.req r) (leNat data % 32768) (leNat data / 65536))) ∧
      (live → bar = 0 → Yields read s fun t => ∃ bs, bs.length = data.length ∧ SameBytes s t ∧
        t.outbox = s.outbox ++ [.completion fn 0 false bs])) ∧
    (s.linkUp = true → ∀ (on : Bool) (base off : Nat),
      Answers (.pcieConfigurationRequest fn (.memorySpace on)) s (s.setBit (Reg.pcieFn fn) 1 on) ∧
      Answers (.pcieConfigurationRequest fn (.d3hot on)) s (s.setFunction fn { s.function fn with d3hot := on }) ∧
      Answers (.pcieConfigurationRequest fn (.bar 0 base)) s
        (s.setFunction fn { s.function fn with bar0 := base / 2 ^ 16 * 2 ^ 16 % 2 ^ 64 }) ∧
      Answers (.pcieConfigurationRequest fn (.bar 2 base)) s
        (s.setFunction fn { s.function fn with bar2 := base / 2 ^ 39 * 2 ^ 39 % 2 ^ 64 }) ∧
      Yields (.pcieConfigurationRequest fn (.msixEnable on)) s (fun t => (t.function fn).msix = on) ∧
      (off < 4096 → Yields (.pcieConfigurationRequest fn (.read off)) s fun t => ∃ bs, bs.length = 4 ∧
        t = { s with freeCount := s.freeCount + 1, outbox := s.outbox ++ [.completion fn 0 false bs] }))

/-- R201, R424, R429, R474: the link's events. A Function Level Reset clears the function's memory enable and MSI-X
state, sets its flag and stops the Field of function f + 1 with F0 0x2206: from running or quiescing it goes to
stopping, from ready or quiesced to stopped. PERST_N takes the link down and does the same to every function. Training
brings it up with its width and speed, unless PERST_N is low. A correctable error is F1 0x0D01 and counted, an
uncorrectable one F2 0x0D03 and counted, a loss of the link F2 0x0D03 with PCIE_LINK cleared; without a link none of
them happens. -/
def Obligations.PcieLinkEventsShow : Prop :=
  ∀ s : State, s.held = false →
    let reset (fn : Nat) (t : State) : Prop :=
      t.bit (Reg.pcieFn fn) 2 = true ∧ t.bit (Reg.pcieFn fn) 1 = false ∧ t.function fn = {} ∧
      (fn ≠ 0 →
        let st := s.fieldState (fn - 1)
        let stop : Event := { code := 0x2206, cls := 0, inst := fn - 1 }
        (st = fldRunning ∨ st = fldQuiescing → t.fieldState (fn - 1) = fldStopping ∧ stop ∈ t.island.net) ∧
        (st = fldReady ∨ st = fldQuiesced → t.fieldState (fn - 1) = fldStopped ∧ stop ∈ t.island.net) ∧
        (st = fldUnconfigured ∨ st = fldStopping ∨ st = fldStopped → t.fieldState (fn - 1) = st))
    (s.linkUp = false → (∀ fn < 9, Answers (.pcieFlr fn) s s) ∧ Answers .pcieCorrectableError s s ∧ ∀ down, Answers (.pcieLinkDown down) s s) ∧
    (s.linkUp = true →
      (∀ fn < 9, Yields (.pcieFlr fn) s (reset fn)) ∧
      Yields .pcieCorrectableError s (fun t => t.bit Reg.pcieErr 28 = true ∧
        t.bits Reg.pcieCount 15 0 = min (s.bits Reg.pcieCount 15 0 + 1) 65535 ∧
        SameRegsBut [Reg.pcieErr, Reg.pcieCount] s t ∧ t = { s.raise { code := 0x0D01, cls := 1 } with regs := t.regs }) ∧
      Yields (.pcieLinkDown false) s (fun t => t.bit Reg.pcieErr 29 = true ∧
        t.bits Reg.pcieCount 31 16 = min (s.bits Reg.pcieCount 31 16 + 1) 65535 ∧
        SameRegsBut [Reg.pcieErr, Reg.pcieCount] s t ∧ t = { s.raise { code := 0x0D03, cls := 2 } with regs := t.regs }) ∧
      Yields (.pcieLinkDown true) s (fun t => t.bit Reg.pcieErr 31 = true ∧ t.reg Reg.pcieLink = 0 ∧
        SameRegsBut [Reg.pcieErr, Reg.pcieLink] s t ∧ t = { s.raise { code := 0x0D03, cls := 2 } with regs := t.regs })) ∧
    (∀ width speed, [1, 2, 4, 8].contains width = true → 1 ≤ speed → speed ≤ 5 →
      (s.pins.perst = true → Answers (.pcieLinkUp width speed) s s) ∧
      (s.pins.perst = false → Yields (.pcieLinkUp width speed) s fun t =>
        t.bit Reg.pcieLink 0 = true ∧ t.bits Reg.pcieLink 7 4 = width ∧ t.bits Reg.pcieLink 3 1 = speed ∧
        SameRegsBut [Reg.pcieLink] s t ∧ t = { s with regs := t.regs })) ∧
    (s.pins.perst = true → Answers .perstAssert s s) ∧
    (s.pins.perst = false → Yields .perstAssert s fun t =>
      t.pins = { s.pins with perst := true } ∧ t.reg Reg.pcieLink = 0 ∧ ∀ fn < 9, reset fn t)

/-- R312 to R315: what makes a rein pending. A whole-slot mailbox write by an allowed requester stores its 64 bytes
and no other and marks the slot written; any other is dropped with F0 0x070A, and a Furrow's ends its task with cause
0x05 besides; one that firmware recovery denies has no effect but its entry (R34, R441). Of a periodic rein with a
buckle transaction fastened at its next issue, that transaction commits first where its boundary comes before the due
tick (R318). A rein that is then off or not periodic has no due tick. Where the clock reaches the next due tick, the
latest one passed, phase + k·period, becomes the trigger tick of a pending rein; on a rein that was pending it is
coalesced with F0 0x0705. That a command names the event to which the clock runs is the model's choice (log 13). -/
def Obligations.ReinTriggersMakeReinsPending : Prop :=
  ∀ (s : State) (n : Nat), s.held = false → n < 256 →
    (∀ (r : Requester) (off : Nat) (data : List Byte),
      let reached := s.recoveryReach r mailboxBase
      (reached = false → (∀ m, r ≠ .furrow m) →
        Answers (.mailboxWrite r n off data) s (denied s r (mailboxBase + 64 * n + off))) ∧
      (reached = true → off = 0 → data.length = 64 → s.mayMail r n = true → Yields (.mailboxWrite r n off data) s fun t =>
        t.bytes (mailboxBase + 64 * n) 64 = data ∧ SameBytesOutside (mailboxBase + 64 * n) 64 s t ∧
        mapGet false t.rein.written n = true) ∧
      (reached = true → off ≠ 0 ∨ data.length ≠ 64 ∨ s.mayMail r n = false →
        ((∀ m, r ≠ .furrow m) →
          Answers (.mailboxWrite r n off data) s (s.raise { code := 0x070A, cls := 0, inst := n })) ∧
        ∀ m, r = .furrow m → Yields (.mailboxWrite r n off data) s fun t =>
          t = { s.raise { code := 0x070A, cls := 0, inst := n } with furrows := t.furrows, yokes := t.yokes } ∧
          (∀ k, (s.furrow m).task = some k → (∀ c, k.stage ≠ .ending c) →
            t.furrow m = { s.furrow m with
              task := some { k with stage := .ending 0x05, wait := .none, tilesLeft := [], charged := false } }) ∧
          ∀ j, j ≠ m → t.furrow j = s.furrow j)) ∧
    let v := commitAhead s n
    (s.fastenedAt n = false → v = s) ∧
    (v.reinOn n = false ∨ v.bit (Reg.reinChCtrl n) 26 = true ∨ v.bits (Reg.reinChPeriod n) 27 0 = 0 →
      Answers (.reinPeriodicDue n) s v) ∧
    (v.reinOn n = true → v.bit (Reg.reinChCtrl n) 26 = false → v.bits (Reg.reinChPeriod n) 27 0 ≠ 0 →
      let next := v.nextDue n (v.reinRec n).dueFrom
      let u := runUntil v next
      let period := 4 * v.bits (Reg.reinChPeriod n) 27 0
      let first := 4 * v.bits (Reg.reinChPhase n) 27 0 % period
      let t0 := u.now - (u.now - first) % period
      next ≤ u.now → Yields (.reinPeriodicDue n) s fun t =>
        (t.reinRec n).pending = true ∧ (t.reinRec n).trig = t0 ∧ (t.reinRec n).dueFrom = u.now + 1 ∧ t.now = u.now ∧
        ((v.reinRec n).pending = false → SameRegsBut [] v t ∧ t.island = v.island) ∧
        ((v.reinRec n).pending = true → t.bit (Reg.reinChStatus n) 19 = true ∧
          t.bits (Reg.reinChCount n) 9 0 = min (v.bits (Reg.reinChCount n) 9 0 + 1) 1023 ∧
          SameRegsBut [Reg.reinChStatus n, Reg.reinChCount n] v t ∧
          t.island.net = v.island.net ++ [{ code := 0x0705, cls := 0, inst := n }]))

/-- R315 to R318, R322, R329 to R331: issue, command write, release and lockstep mismatch. A silent engine, or one
without a pending rein, issues nothing; otherwise the transactions fastened at the rein that the arbiter chooses
commit in the cycle before its issue, the rein stops pending and, unless its state is off, has an evaluation due six
cycles later, in safe with the value of REIN_CH_SAFE there or where a state word is uncorrectable. The command write
shows the evaluation's results. A release places the command after those that go before it and stamps REIN_CH_REL_TICK
with the tick at which it entered, its own or the one to which a forward correction carried TIME_NOW past it (R44), or
raises F2 0x0706; a u_safe enters when there is room, and goes on waiting for that. A mismatch silences the engine
with F4 0x0707, and a rein that is off then stays off. When a commit comes too late for its issue (log 13), and that
the mismatch discards the evaluations in flight (log 88), are the model's choices. -/
def Obligations.ReinIssuesWritesAndReleases : Prop :=
  ∀ (s : State) (n : Nat), s.held = false → n < 256 →
    (s.rein.silent = true → Answers .reinIssue s s ∧ Answers .reinLockstepMismatch s s) ∧
    (s.nextIssue = none → Answers .reinIssue s s) ∧
    (∀ c, s.nextIssue = some (c, n) →
      let u := if s.fastenedAt n then runToCycle (commitAt (runToCycle s (c - 1)) 1 n) (max c (s.time.cycles + 1))
        else runToCycle s c
      let en := reinEntry u n
      let safe := (u.reinRec n).wordBad = true ∨ en.state = 4
      Yields .reinIssue s fun t =>
        (t.reinRec n).pending = false ∧ (t.reinRec n).lastIssue = some u.time.cycles ∧
        t.rein.lastIssue = some u.time.cycles ∧ t.time = u.time ∧
        (en.state = 0 → (u.reinRec n).wordBad = false → t.reinState n = 0) ∧
        (en.state ≠ 0 ∨ (u.reinRec n).wordBad = true → ∃ e, (t.reinRec n).eval = some e ∧ e.due = u.time.cycles + 6 ∧
          (safe → e.state = 4 ∧ e.u = u.sreg (Reg.reinChSafe n)))) ∧
    (s.rein.silent = false → Yields .reinLockstepMismatch s fun t => t.rein.silent = true ∧ t.bit Reg.reinStatus 0 = true ∧
      (∃ es, t.island.net = s.island.net ++ es ++ [{ code := 0x0707, cls := 4 }]) ∧
      (t.reinRec n).eval = none ∧ (s.reinState n = 0 → t.reinState n = 0) ∧ (s.reinState n ≠ 0 → t.reinState n = 4)) ∧
    ((s.reinRec n).eval = none → Answers (.reinCommandWrite n) s s) ∧
    (∀ e, (s.reinRec n).eval = some e → Yields (.reinCommandWrite n) s fun t =>
      t.reinState n = e.state % 8 ∧ t.reg (Reg.reinChU n) = BitVec.ofNat 32 (unsignedOf e.u 32) ∧
      t.reg64 (Reg.reinChOriginLo n) (Reg.reinChOriginHi n) = e.origin % 2 ^ 64 ∧
      (t.reinRec n).eval = none ∧ (t.reinRec n).i = e.i ∧ (t.reinRec n).uPrev = e.uPrev ∧
      t.time = (runToCycle s e.due).time) ∧
    ((s.reinRec n).release = none → Answers (.reinCommandRelease n) s s) ∧
    ∀ r, (s.reinRec n).release = some r →
      let u := runUntil s r.tick
      let v := (u.releasesBefore n r).foldl (fun s x => releaseOne s x.1 x.2) u
      let gone := v.setRein n { v.reinRec n with release := none }
      (s.rein.silent = true → r.safe = false → Answers (.reinCommandRelease n) s gone) ∧
      (s.rein.silent = false ∨ r.safe = true →
        ((placeCommand gone n r.dest r.data).1 = true → Yields (.reinCommandRelease n) s fun t =>
          t.reg64 (Reg.reinChRelTickLo n) (Reg.reinChRelTickHi n) =
            (if r.safe then v.now else max r.tick v.time.stepTo) % 2 ^ 64 ∧ (t.reinRec n).release = none ∧
          SameRegsBut [Reg.reinChRelTickLo n, Reg.reinChRelTickHi n] (placeCommand gone n r.dest r.data).2 t ∧
          t = { (placeCommand gone n r.dest r.data).2 with regs := t.regs }) ∧
        ((placeCommand gone n r.dest r.data).1 = false →
          (r.safe = false → Answers (.reinCommandRelease n) s (gone.raise { code := 0x0706, cls := 2, inst := n })) ∧
          (r.safe = true → Answers (.reinCommandRelease n) s v)))

/-- R337 to R342, R348, R384: Tack ports. A port receives only while it is enabled and its link is up. A packet of up
to eight words, first and last marked, with no reserved bit and good CRCs, stamps TACK_RX_TICK and enters an unbound
receive chute whole, or is dropped with F2 0x0905 for lack of room. An idle port that may send takes L_tx words off
its chute and sends them as one packet. A link that goes down shows it with F2 0x0906, and one that comes up sets its
status bit. -/
def Obligations.TackPortsCarryPackets : Prop :=
  ∀ (s : State) (n : Nat), s.held = false → n < 12 →
    let st := Reg.tackStatus n
    Yields (.tackLinkUp n) s (fun t => t.bit st 0 = true ∧ SameRegsBut [st] s t ∧ t = { s with regs := t.regs }) ∧
    (s.bit st 0 = false → Answers (.tackLinkDown n) s s) ∧
    (s.bit st 0 = true → Yields (.tackLinkDown n) s fun t => t.bit st 0 = false ∧ t.bit st 4 = true ∧
      SameRegsBut [st] s t ∧ (t.tackPort n).staged = [] ∧
      t = { s.raise { code := 0x0906, cls := 2, inst := n } with regs := t.regs, tacks := t.tacks }) ∧
    (∀ ws, s.bit (Reg.tackCfg n) 1 = false ∨ s.bit st 0 = false → Answers (.tackPacketRx n ws) s s) ∧
    (∀ ws : List TackWord, s.bit (Reg.tackCfg n) 1 = true → s.bit st 0 = true → (s.tackPort n).staged = [] → ws ≠ [] →
      ws.length ≤ 8 →
      (∀ i (h : i < ws.length), ws[i].isFirst = decide (i = 0) ∧ ws[i].isLast = decide (i + 1 = ws.length) ∧
        ws[i].reserved = false ∧ ws[i].crc = linkCrc ws[i].isFirst ws[i].isLast false ws[i].data) →
      s.chuteBound (2 * n) = false →
      ((s.chute (2 * n)).words.length + ws.length ≤ 32 → Yields (.tackPacketRx n ws) s fun t =>
        (t.chute (2 * n)).words = (s.chute (2 * n)).words ++ ws.map (fun w => { data := w.data }) ∧
        t.reg64 (Reg.tackRxTickLo n) (Reg.tackRxTickHi n) = ((ws.getLast?.map (·.tick)).getD 0) % 2 ^ 64 ∧
        SameRegsBut [Reg.tackRxTickLo n, Reg.tackRxTickHi n, Reg.chuteStatus (2 * n), st] s t ∧ t.island = s.island) ∧
      (32 < (s.chute (2 * n)).words.length + ws.length → Yields (.tackPacketRx n ws) s fun t =>
        t.chute (2 * n) = s.chute (2 * n) ∧ t.bit st 5 = true ∧
        t.bits (Reg.tackCount n) 15 0 = min (s.bits (Reg.tackCount n) 15 0 + 1) 65535 ∧
        t.reg64 (Reg.tackRxTickLo n) (Reg.tackRxTickHi n) = ((ws.getLast?.map (·.tick)).getD 0) % 2 ^ 64 ∧
        SameRegsBut [Reg.tackRxTickLo n, Reg.tackRxTickHi n, st, Reg.tackCount n] s t ∧
        t.island.net = s.island.net ++ [{ code := 0x0905, cls := 2, inst := n }])) ∧
    ∀ ok,
      (s.mayTransmit n = false → Answers (.tackPacketTx n ok) s s) ∧
      (s.mayTransmit n = true →
        let c := 2 * n + 1
        let l := s.bits (Reg.chuteCfg c) 3 0
        (∀ w ∈ (s.chute c).words.take l, w.mark = .clean) → Yields (.tackPacketTx n ok) s fun t =>
          (t.chute c).words = (s.chute c).words.drop l ∧ SameRegsBut [Reg.chuteStatus c] s t ∧
          (∃ out, t.outbox = s.outbox ++ [.tackPacket n out] ∧ out.map (·.1) = ((s.chute c).words.take l).map (·.data)) ∧
          t.island.net = s.island.net ++ (if ok then [] else
            [{ code := 0x090A, cls := if s.chuteBound c then 4 else 2, inst := n }]))

/-- R345 to R347: software access to chutes. A write of CHUTE_DATA_HI on a transmit chute loads its holding register
alone; a write of CHUTE_DATA_LO pushes the two halves as one word, and on a full or bound chute is dropped, with
full_write and F0 0x0908. A read of CHUTE_DATA_LO on a receive chute answers the low half of the head word, latches
its high half and pops it; on an empty chute it answers 0, latches 0 and sets underrun with F0 0x0907; on a bound
chute it answers 0 and pops nothing, with F0 0x0908. A discard removes n words from the head, or with underrun and
0x0907 the fewer that there are; all removes every word; a word with an error is recorded as it leaves (R348). -/
def Obligations.ChutesMoveWords : Prop :=
  ∀ (s : State) (c : Nat), s.held = false → c < 24 →
    let x := s.chute c
    let cs := Reg.chuteStatus c
    (c % 2 = 1 → ∀ v : Word,
      Yields (.chuteHoldWrite c v) s (fun t => t.chute c = { x with hold := v } ∧ SameRegsBut [cs] s t ∧
        t = { s with regs := t.regs, chutes := t.chutes }) ∧
      (s.chuteBound c = false → x.words.length < 32 → Yields (.chutePush c v) s fun t =>
        t.chute c = { x with words := x.words ++ [{ data := x.hold ++ v }] } ∧ SameRegsBut [cs] s t ∧
        t = { s with regs := t.regs, chutes := t.chutes }) ∧
      (s.chuteBound c = true ∨ 32 ≤ x.words.length → Yields (.chutePush c v) s fun t =>
        t.bit cs 28 = true ∧ SameRegsBut [cs] s t ∧
        t = { s.raise { code := 0x0908, cls := 0, inst := c } with regs := t.regs })) ∧
    (c % 2 = 0 →
      let port := Reg.tackStatus (c / 2)
      Yields (.chuteDiscardAll c) s (fun t => t.chute c = { x with words := [] } ∧
        SameRegsBut [cs, port, Reg.chuteEcc c] s t ∧ ((∀ w ∈ x.words, w.mark = .clean) →
          SameRegsBut [cs, port] s t ∧ t = { s with regs := t.regs, chutes := t.chutes })) ∧
      (∀ n, 1 ≤ n → n ≤ 32 → Yields (.chuteDiscardN c n) s fun t =>
        t.chute c = { x with words := x.words.drop n } ∧ SameRegsBut [cs, port, Reg.chuteEcc c] s t ∧
        (x.words.length < n → t.bit cs 29 = true) ∧ ((∀ w ∈ x.words.take n, w.mark = .clean) →
          SameRegsBut [cs, port] s t ∧
          t = { (if x.words.length < n then s.raise { code := 0x0907, cls := 0, inst := c } else s) with
                  regs := t.regs, chutes := t.chutes })) ∧
      ∀ r, s.accessible r (Reg.chuteDataLo c) 4 false = true →
        (s.chuteBound c = true → Answers (.chutePop r c) s
          ((s.raise { code := 0x0908, cls := 0, inst := c }).emit (.readData 0))) ∧
        (s.chuteBound c = false → x.words = [] → Yields (.chutePop r c) s fun t =>
          t.bit cs 29 = true ∧ SameRegsBut [cs] s t ∧ mapFind t.latch (Reg.chuteDataHi c) = some 0 ∧
          t = { s.raise { code := 0x0907, cls := 0, inst := c } with
                  regs := t.regs, latch := t.latch, outbox := s.outbox ++ [.readData 0] }) ∧
        ∀ w ws, s.chuteBound c = false → x.words = w :: ws →
          Yields (.chutePop r c) s (fun t =>
            let lo := w.data.extractLsb' 0 32
            t.chute c = { x with words := ws } ∧ mapFind t.latch (Reg.chuteDataHi c) = some (w.data.extractLsb' 32 32) ∧
            (t.outbox = s.outbox ++ [.readData (lo.setWidth 64)] ∨ t.outbox = s.outbox ++ [.row (leBytes 4 lo.toNat) true])) ∧
          (w.mark = .clean → Yields (.chutePop r c) s fun t => SameRegsBut [cs, port] s t ∧
            t = { s with regs := t.regs, latch := t.latch, chutes := t.chutes
                         outbox := s.outbox ++ [.readData ((w.data.extractLsb' 0 32).setWidth 64)] }))

/-- R351, R353 to R357: CAN frames on a channel. A channel that is disabled, bus off or recovering receives nothing. A
frame that the acceptance table gives an object is stored there as new, lost where the last one was not acknowledged,
with its sequence counted on; any other is counted. A bus error counts up and takes the channel to error passive or
bus off by its counters. A recovery starts from bus off and ends with the counters at 0. An acknowledge clears new and
lost. -/
def Obligations.BridleReceivesAndConfinesErrors : Prop :=
  ∀ (s : State) (c : Nat) (f : CanFrame), s.held = false → c < 8 →
    let st := Reg.brdlChStatus c
    (s.bits (Reg.brdlChCtrl c) 1 0 = 0 ∨ s.brdlOff c = true → Answers (.canFrameRx c f) s s) ∧
    (s.bits (Reg.brdlChCtrl c) 1 0 ≠ 0 → s.brdlOff c = false →
      (f.remote = true ∨ s.objectFor c f = none → Yields (.canFrameRx c f) s fun t =>
        t.bits (Reg.brdlChCount c) 31 16 = min (s.bits (Reg.brdlChCount c) 31 16 + 1) 65535 ∧ t.objects = s.objects) ∧
      ∀ o, f.remote = false → s.objectFor c f = some o →
        (objectSize o < f.data.length → Yields (.canFrameRx c f) s fun t => t.objects = s.objects ∧
          t.bit (Reg.brdlChErr c) 28 = true) ∧
        (f.data.length ≤ objectSize o → Yields (.canFrameRx c f) s fun t =>
          (t.object o).data = f.data ∧ (t.object o).len = f.data.length ∧ (t.object o).tick = f.tick ∧
          (t.object o).new = true ∧ (t.object o).lost = (s.object o).new ∧ (t.object o).valid = true ∧
          (t.object o).channel = c ∧ (t.object o).seq = ((s.object o).seq + 1) % 65536 ∧
          ∀ p, p ≠ o → t.object p = s.object p)) ∧
    (∀ (tx : Bool) (a b : Nat),
      (s.bits (Reg.brdlChCtrl c) 1 0 = 0 → Answers (.canBusError c tx a b) s s) ∧
      (s.bits (Reg.brdlChCtrl c) 1 0 ≠ 0 → Yields (.canBusError c tx a b) s fun t =>
        t.bits st 22 14 = min (s.bits st 22 14 + a) 511 ∧ t.bits st 13 6 = min (s.bits st 13 6 + b) 255 ∧
        t.bit (Reg.brdlChErr c) 29 = true ∧ (tx = false → t.fifos = s.fifos) ∧
        (s.bits st 31 30 < 2 → t.bits st 31 30 =
          if 256 ≤ s.bits st 22 14 + a then 2 else if 128 ≤ s.bits st 22 14 + a ∨ 128 ≤ s.bits st 13 6 + b then 1 else 0) ∧
        (2 ≤ s.bits st 31 30 → t.bits st 31 30 = s.bits st 31 30))) ∧
    (s.bits st 31 30 = 2 → Yields (.brdlRecover c) s fun t => t.bits st 31 30 = 3 ∧ SameRegsBut [st] s t ∧
      t = { s with regs := t.regs }) ∧
    (s.bits st 31 30 ≠ 2 → Answers (.brdlRecover c) s s) ∧
    (s.bits st 31 30 = 3 → Yields (.busOffRecoveryDone c) s fun t => t.bits st 31 30 = 0 ∧ t.bits st 22 14 = 0 ∧
      t.bits st 13 6 = 0 ∧ SameRegsBut [st] s t ∧ t = { s with regs := t.regs }) ∧
    (s.bits st 31 30 ≠ 3 → Answers (.busOffRecoveryDone c) s s) ∧
    ∀ o < 2048, Answers (.brdlObjAck o) s (s.setObject o { s.object o with new := false, lost := false })

/-- R360 to R364, R366, R384: a channel's transmit FIFO. A post of a good descriptor outside safe state appends it
with its 64 data bytes, and any other is refused with F0 0x0808. A head that is sent leaves the FIFO with its frame
and counts in BRDL_CH_TX_DONE, one with an uncorrectable word leaves unsent with F2 0x0803. An abort removes an entry
that is not in transmission with F0 0x0809, and marks one that is, which then leaves where its attempt fails. That the
head of the queue is in transmission whenever the channel may send is the model's choice (log 14). -/
def Obligations.BridleFifoSendsAndAborts : Prop :=
  ∀ (s : State) (c : Nat), s.held = false → c < 8 →
    let d := s.bytes (stageBase c) 16
    let bad := 64 ≤ (s.fifo c).length ∨ s.kindEnabled c (leAt d 0 4 / 2 ^ 29) = false ∨
      lengthOk (leAt d 0 4 / 2 ^ 29) (leAt d 8 2) = false ∨ leAt d 13 1 ≠ 0 ∨ leAt d 12 1 / 4 ≠ 0 ∨
      s.brdlNormal c = false ∨ s.bit Reg.safeStatus 2 = true
    let count := Reg.brdlChCount c
    let aborted (k : Nat) (t : State) : Prop := t.bits count 15 0 = min (s.bits count 15 0 + k) 65535 ∧
      SameRegsBut [count, Reg.brdlChErr c] s t ∧ t.outbox = s.outbox
    (bad → Yields (.brdlPost c) s fun t => t.bit (Reg.brdlChErr c) 27 = true ∧ SameRegsBut [Reg.brdlChErr c] s t ∧
      t = { s.raise { code := 0x0808, cls := 0, inst := c } with regs := t.regs }) ∧
    (¬bad → Answers (.brdlPost c) s
      (s.setFifo c (s.fifo c ++ [{ desc := d, data := s.bytes (stageBase c + 16) 64, rein := false }]))) ∧
    (s.fifo c = [] → Answers (.brdlAbortHead c) s s ∧ Answers (.brdlAbortAll c) s s) ∧
    (s.sending c = false → Answers (.canArbitrationLoss c) s s ∧ ∀ ok, Answers (.canFrameTxDone c ok) s s) ∧
    ∀ e rest, s.fifo c = e :: rest →
      (s.sending c = false →
        Yields (.brdlAbortHead c) s (fun t => t.fifo c = rest ∧ aborted 1 t) ∧
        Yields (.brdlAbortAll c) s (fun t => t.fifo c = [] ∧ aborted (rest.length + 1) t)) ∧
      (s.sending c = true →
        Answers (.brdlAbortHead c) s (s.setFifo c ({ e with abort := true } :: rest)) ∧
        Yields (.brdlAbortAll c) s (fun t => t.fifo c = [{ e with abort := true }] ∧ aborted rest.length t) ∧
        (e.drop = false → e.abort = false → Answers (.canArbitrationLoss c) s s) ∧
        (e.drop = true → e.mark = .clean → Answers (.canArbitrationLoss c) s (s.setFifo c rest)) ∧
        (e.drop = true → Yields (.canArbitrationLoss c) s fun t => t.fifo c = rest ∧ SameRegsBut [Reg.brdlChErr c] s t ∧
          t.outbox = s.outbox) ∧
        (e.drop = false → e.abort = true → Yields (.canArbitrationLoss c) s fun t => t.fifo c = rest ∧ aborted 1 t) ∧
        (e.mark = .double → ∀ ok, Yields (.canFrameTxDone c ok) s fun t => t.fifo c = rest ∧ t.outbox = s.outbox ∧
          t.bit (Reg.brdlChErr c) 24 = true ∧ SameRegsBut [Reg.brdlChErr c] s t ∧
          t.island.net = s.island.net ++ [{ code := 0x0803, cls := 2, inst := c }]) ∧
        (e.mark = .clean → ∀ ok, Yields (.canFrameTxDone c ok) s fun t => t.fifo c = rest ∧
          t.outbox = s.outbox ++ [.canFrame c (entryFrame e)] ∧
          t.bits (Reg.brdlChTxDone c) 31 16 = leAt e.desc 14 2 ∧
          t.bits (Reg.brdlChTxDone c) 15 0 = (s.bits (Reg.brdlChTxDone c) 15 0 + 1) % 65536 ∧
          t.bits (Reg.brdlChStatus c) 22 14 = s.bits (Reg.brdlChStatus c) 22 14 - 1 ∧
          (ok = false → ∃ es, t.island.net = s.island.net ++ es ++
            [{ code := 0x080A, cls := if e.rein then 4 else 2, inst := c }])))

/-- R367 to R370, R374 to R376, R400: events and the safety island. Nothing waits: nothing changes. The oldest event
on the network enters the tally writer's queue with its tick; one of F2 or above asserts FAULT_N and starts its hold;
an F4 enters safe state, naming its code, and stops the running Fields; an F3 stops its Field. A lockstep mismatch and
a safe-state request report their F4 events, each copy of the safety controller its own (log 44). An injection in the
Fenced profile or of no checker is refused with F0 0x0A22 (which checkers there are: log 31); any other raises the
event of its code, and every event it raises carries the injected flag. -/
def Obligations.FaultReportsReachTheIsland : Prop :=
  ∀ s : State, s.held = false →
    Answers (.lockstepMismatch .reeve) s (s.raise { code := 0x0001, cls := 4 }) ∧
    Answers (.lockstepMismatch .timeBase) s (s.raise { code := 0x0203, cls := 4 }) ∧
    Answers (.lockstepMismatch .safetyController) s
      ((s.raise { code := 0x0A01, cls := 4 }).raise { code := 0x0A01, cls := 4 }) ∧
    Answers .safeEnter s (s.raise { code := 0x0A03, cls := 4 }) ∧
    (s.island.net = [] → Answers .faultReport s s) ∧
    (∀ e rest, s.island.net = e :: rest → Yields .faultReport s fun t =>
      t.island.queue = s.island.queue ++ [arrived s e] ∧ (∃ es, t.island.net = rest ++ es) ∧
      (2 ≤ e.cls → t.bit Reg.safeStatus 3 = true ∧ t.bit Reg.safeStatus 4 = false ∧
        t.island.holdTicks = max 1 (s.bits Reg.safePin 7 0)) ∧
      (e.cls < 2 → e.field = none → SameRegsBut [] s t ∧
        t = { s with island := { s.island with net := rest, queue := t.island.queue } }) ∧
      (e.cls = 4 → t.bit Reg.safeStatus 2 = true ∧ t.island.f4Causes = s.island.f4Causes ++ [e.code] ∧
        (s.bit Reg.safeStatus 2 = false → t.bits Reg.safeStatus 31 16 = e.code % 65536 ∧
          ∀ f < 8, s.fieldState f = fldRunning → t.fieldState f = fldStopping)) ∧
      (∀ f, e.cls = 3 → e.field = some f → f < 8 → s.fieldState f = fldRunning → t.fieldState f = fldStopping)) ∧
    ∀ code i,
      (s.bits Reg.safeStatus 1 0 = 1 ∨ isChecker code i = false →
        Answers (.safeInject code i) s (s.raise { code := 0x0A22, cls := 0 })) ∧
      (s.bits Reg.safeStatus 1 0 ≠ 1 → isChecker code i = true → Yields (.safeInject code i) s fun t =>
        ∃ es, t.island.net = s.island.net ++ es ∧ (∃ e ∈ es, e.code = code) ∧ ∀ e ∈ es, e.injected = true)

/-- R369, R377 to R380: the tally log. With nothing pending the writer does nothing. The next event, within its
source's rate and with more than 64 entries free, or of class F2 or above with at least 2 free, is written as its
32-byte entry at the write index and changes no other byte; one above its rate, or F0 or F1 with 64 or fewer free, or
with none free, is coalesced into its source's record without an entry; F2 or above on the last free entry writes the
F4 entry 0x0A05, whose info names the event, coalesces the event and enters safe state (that entry's bytes are stated
where no task ends with the entry into safe state). That the rate is judged before the space is the model's choice
(log 44). SAFE_TALLY_RD moves at most to the write index, and a value beyond it is refused with F0 0x0A22. -/
def Obligations.TallyLogTakesEvents : Prop :=
  ∀ s : State, s.held = false →
    (nextEvent s.island.queue = none → Answers .tallyWrite s s) ∧
    (∀ e, nextEvent s.island.queue = some e →
      let k := sourceKey e.event.code e.event.cls
      let rate := max 1 (s.bits Reg.safeTallyCtrl 7 0)
      let a := tallyBase + 32 * (s.tallyWr % 1024)
      let full := rate ≤ (s.tallySource k).written ∨ (e.event.cls < 2 ∧ s.tallyFree ≤ 64) ∨ (2 ≤ e.event.cls ∧ s.tallyFree = 0)
      (full → Yields .tallyWrite s fun t => SameBytes s t ∧ t.tallyWr = s.tallyWr ∧
        t.island.queue = s.island.queue.erase e ∧ (t.tallySource k).last = e.tick ∧
        (t.tallySource k).count = min ((s.tallySource k).count + 1) (2 ^ 48 - 1) ∧
        SameRegsBut [Reg.safeTallyStatus] s t) ∧
      ((s.tallySource k).written < rate → 64 < s.tallyFree ∨ (2 ≤ e.event.cls ∧ 2 ≤ s.tallyFree) →
        Yields .tallyWrite s fun t =>
        t.island.queue = s.island.queue.erase e ∧ t.tallyWr = (s.tallyWr + 1) % 65536 ∧ SameBytesOutside a 32 s t ∧
        t.le a 8 = e.tick % 2 ^ 64 ∧ t.le (a + 8) 2 = e.event.code % 65536 ∧
        t.le (a + 10) 1 = (e.event.cls + 16 * bval e.event.injected) % 256 ∧ t.le (a + 12) 4 = e.event.inst % 2 ^ 32 ∧
        (∀ x, e.event.info = some x → t.le (a + 16) 8 = x % 2 ^ 64) ∧ t.le (a + 26) 2 = s.tallyWr ∧
        t.le (a + 28) 4 = (crc32c (t.bytes a 28)).toNat ∧ SameRegsBut [Reg.safeTallyWr, Reg.safeTallyStatus] s t) ∧
      (2 ≤ e.event.cls → (s.tallySource k).written < rate → s.tallyFree = 1 → Yields .tallyWrite s fun t =>
        t.bit Reg.safeTallyStatus 31 = true ∧ t.bit Reg.safeStatus 2 = true ∧ t.bit Reg.safeStatus 3 = true ∧
        t.tallyWr = (s.tallyWr + 1) % 65536 ∧ (t.tallySource k).last = e.tick ∧
        (t.tallySource k).count = min ((s.tallySource k).count + 1) (2 ^ 48 - 1) ∧
        (s.bit Reg.safeStatus 2 = true ∨ (∀ n < 64, (s.furrow n).task = none ∧ (s.furrow n).slots = []) →
          t.le a 8 = s.now % 2 ^ 64 ∧ t.le (a + 8) 2 = 0x0A05 ∧ t.le (a + 10) 1 = 4 ∧ t.le (a + 12) 4 = 0 ∧
          t.le (a + 16) 8 = (e.event.code + 65536 * (e.event.inst % 2 ^ 32)) % 2 ^ 64 ∧ t.le (a + 26) 2 = s.tallyWr ∧
          t.le (a + 28) 4 = (crc32c (t.bytes a 28)).toNat ∧ SameBytesOutside a 32 s t))) ∧
    ∀ v : BitVec 16,
      let rd := s.bits Reg.safeTallyRd 15 0
      let beyond := (s.tallyWr + 65536 - rd) % 65536 < (v.toNat + 65536 - rd) % 65536
      (beyond → Answers (.tallyReadIndexWrite v) s (s.raise { code := 0x0A22, cls := 0 })) ∧
      (¬beyond → Yields (.tallyReadIndexWrite v) s fun t => t.bits Reg.safeTallyRd 15 0 = v.toNat ∧
        t.bits Reg.safeTallyStatus 10 0 = t.tallyFree ∧ SameRegsBut [Reg.safeTallyRd, Reg.safeTallyStatus] s t ∧
        t = { s with regs := t.regs })

/-- R370, R371, R373, R390, R396, R483: pins and timed events of the island. FAULT_N is released once its hold is
over, outside safe state, after start-up injection. FAULT_DYN toggles while the heartbeat comes and FAULT_N is not
asserted. A kick is counted with its place in the window; the end of a tick raises F4 0x0A04 where the watchdog was
not kicked just once and inside, each tick that has ended being judged once. A latest start makes the Furrow's
check-plot run due. A window's end restarts a martingale's count, with 0x0A10 where it fell short, and a power
window's end shows its average, with F2 0x0A0A above the fused limit. The mean is taken over the readings present,
compared exactly and shown truncated to 0.1 W (log 43); a tick lasts from its raise to the next tick's raise (log 44):
both are the model's choices. -/
def Obligations.SafetyPinsAndTimersAct : Prop :=
  ∀ s : State, s.held = false →
    (s.island.holdTicks = 0 → s.bit Reg.safeStatus 2 = false → s.bit Reg.safeStatus 7 = true → Yields .faultNRelease s fun t =>
      t.bit Reg.safeStatus 3 = false ∧ SameRegsBut [Reg.safeStatus] s t ∧ t = { s with regs := t.regs }) ∧
    (s.island.holdTicks ≠ 0 ∨ s.bit Reg.safeStatus 2 = true ∨ s.bit Reg.safeStatus 7 = false → Answers .faultNRelease s s) ∧
    (∀ beat, Yields (.faultDynToggle beat) s fun t =>
      t.bit Reg.safeStatus 4 = (beat && !s.bit Reg.safeStatus 3) ∧ SameRegsBut [Reg.safeStatus] s t ∧
      t = { s with regs := t.regs, pins := { s.pins with dyn := s.pins.dyn != (beat && !s.bit Reg.safeStatus 3) } }) ∧
    (s.bits Reg.safeWdt 9 0 = 0 → Answers .watchdogKick s s) ∧
    (s.bits Reg.safeWdt 9 0 ≠ 0 →
      let off := s.now % 6400000
      let inside := s.bits Reg.safeWdt 19 10 * 6400 ≤ off && off < s.bits Reg.safeWdt 9 0 * 6400
      (s.time.ticks ≤ s.island.wdtTick → Answers .watchdogKick s { s with island := { s.island with
        kicks := s.island.kicks + 1, kickBad := s.island.kickBad || !inside } }) ∧
      (s.island.wdtTick < s.time.ticks → Yields .watchdogKick s fun t =>
        t.island.kicks = 1 ∧ t.island.kickBad = !inside ∧ t.island.wdtTick = s.time.ticks ∧ SameRegsBut [] s t ∧
        t.island.net = s.island.net ++ s.watchdogEvents s.time.ticks)) ∧
    (let u := if s.island.wdtTick < s.time.ticks then s else runUntil s ((s.tickNumber + 1) * mgmtTicks)
     (u.time.ticks ≤ s.island.wdtTick → Answers .watchdogExpiry s u) ∧
     (s.island.wdtTick < u.time.ticks → Yields .watchdogExpiry s fun t => t.island.kicks = 0 ∧ t.island.kickBad = false ∧
       t.island.wdtTick = u.time.ticks ∧ t.now = u.now ∧ SameRegsBut [] s t ∧
       t.island.net = s.island.net ++ s.watchdogEvents u.time.ticks)) ∧
    (∀ n < 64,
      (s.reg Reg.safeCpPeriod = 0 ∨ 3 ≤ s.bits (Reg.furStatus n) 2 0 → Answers (.checkPlotDue n) s s) ∧
      (s.reg Reg.safeCpPeriod ≠ 0 → s.bits (Reg.furStatus n) 2 0 < 3 →
        let u := runUntil s (s.latestStart n (s.furrow n).run.nextK)
        let due : CheckRun := { (s.furrow n).run with due := true
                                                      nextK := (u.now - (s.reg (Reg.safeFurPhase n)).toNat) / (s.reg Reg.safeCpPeriod).toNat }
        Yields (.checkPlotDue n) s fun t => (t.furrow n).run = due ∧ t.now = u.now ∧
          ((s.furrow n).run.active = true → t = u.setFurrow n { s.furrow n with run := due }))) ∧
    (∀ m, 1 ≤ m → m < 256 →
      (s.mgOn m = false → Answers (.martingaleWindowEnd m) s s) ∧
      (s.mgOn m = true → Yields (.martingaleWindowEnd m) s fun t => t.bits (Reg.safeMgStatus m) 3 0 = 0 ∧
        (t.martingale m).evaluated = (s.martingale m).evaluated + 1 ∧ SameRegsBut [Reg.safeMgStatus m] s t ∧
        (s.bits (Reg.safeMgStatus m) 3 0 < s.bits (Reg.safeMgCfg m) 7 4 → t.bit (Reg.safeMgStatus m) 31 = true ∧
          ∃ e, e.code = 0x0A10 ∧ e.inst = m ∧ t.island.net = s.island.net ++ [e]) ∧
        (s.bits (Reg.safeMgCfg m) 7 4 ≤ s.bits (Reg.safeMgStatus m) 3 0 → t.island = { s.island with martingales := t.island.martingales }))) ∧
    (s.island.powerTicks = 0 → Answers .powerWindowEnd s s) ∧
    (s.island.powerTicks ≠ 0 →
      let avg := s.island.powerSum / s.island.powerTicks
      Yields .powerWindowEnd s fun t => t.bits Reg.safePwrAvg 15 0 = min avg 65535 ∧ t.island.powerTicks = 0 ∧
        t.island.powerSum = 0 ∧ SameRegsBut [Reg.safePwrAvg] s t ∧
        (s.island.powerSum ≤ 10 * s.bits Reg.fusePart 23 16 * s.island.powerTicks → t.island.net = s.island.net) ∧
        (10 * s.bits Reg.fusePart 23 16 * s.island.powerTicks < s.island.powerSum → t.bit Reg.safePwrAvg 31 = true ∧
          t.island.net = s.island.net ++ [{ code := 0x0A0A, cls := 2, info := some avg }]))

/-- R413, R415, R416: a harness load. A request by another than the Reeve or management is denied; one while a load is
busy, or from a source that R415 does not allow, is refused with F0 0x0B0B; otherwise the image is copied, HRNS_STATUS
is busy with its kind and no byte changes. HARNESS_APPLY without a load does nothing; a failing check ends the load as
rejected with that check's cause and changes no other register; an image of kind 0 or 1 that passes is applied with
cause 0x0C. One of kind 2 is shadowed in a transaction of requester 10 under the identifier of HRNS_CTRL and fastened
at its boundary, or ended with 0x20 where the set is not free and 0x22 where the checks of the fasten fail. What R413
to R416 leave open of a load is the model's choice (log 23). -/
def Obligations.HarnessLoadsAndApplies : Prop :=
  ∀ (s : State) (r : Requester), s.held = false →
    let st := Reg.hrnsStatus
    let host := (r = .reeve ∨ r = .mgmt) ∧ s.recoveryReach r Reg.hrnsCtrl = true
    let img := s.loader.staging
    let ended (t : State) (result cause : Nat) : Prop := t.bit st 31 = false ∧ t.bit st 29 = true ∧ t.bits st 26 25 = result ∧
      t.bits st 23 16 = cause
    (¬host → Answers (.harnessLoad r) s (deniedAccess s r Reg.hrnsCtrl)) ∧
    (host → s.loadRefused r = true → Yields (.harnessLoad r) s fun t => t.bits st 23 16 = 0x0B ∧ SameRegsBut [st] s t ∧
      t = { s.raise { code := 0x0B0B, cls := 0 } with regs := t.regs }) ∧
    (host → s.loadRefused r = false → Yields (.harnessLoad r) s fun t => t.bit st 31 = true ∧
      t.loader = { staging := s.imageAt s.loadSource } ∧ t.bits st 28 27 = imageKind t.loader.staging % 4 ∧ SameBytes s t) ∧
    (s.bit st 31 = false ∨ s.loader.passed = true → Answers .harnessApply s s) ∧
    (s.bit st 31 = true → s.loader.passed = false →
      (∀ c e, runChecks s img (fun _ => true) = .error (c, e) → Yields .harnessApply s fun t => ended t 2 c ∧
        t.bits Reg.hrnsErrLoc 15 0 = e.record % 65536 ∧ SameRegsBut [st, Reg.hrnsErrLoc] s t ∧ SameBytes s t ∧
        t.tables = s.tables) ∧
      ∀ xs, runChecks s img (fun _ => true) = .ok xs →
        (imageKind img = 2 →
          let id := if s.bits Reg.hrnsCtrl 15 0 = 0 then 0xFFFF else s.bits Reg.hrnsCtrl 15 0
          let opened := openBuckle { s with loader := { s.loader with passed := true } } 10 id
          let shadowed := (registerSettings xs).foldl (fun u (a, m, v) => shadowWrite u 10 a m v) opened
          let boundary := s.bits Reg.hrnsCtrl 25 24
          let onto := s.bits Reg.hrnsCtrl 23 16
          (s.buckleState 10 ≠ 0 ∨ s.kind1Busy = true → Yields .harnessApply s fun t => ended t 2 0x20) ∧
          (s.buckleState 10 = 0 → s.kind1Busy = false →
            ((fastenChecks shadowed 10 boundary onto).1 = true → Yields .harnessApply s fun t => t.bit st 31 = true ∧
              t.loader.passed = true ∧ t.buckleState 10 = 2 ∧ t.buckleId 10 = id ∧
              t.buckle 10 = { shadowed.buckle 10 with boundary := boundary, target := onto }) ∧
            ((fastenChecks shadowed 10 boundary onto).1 = false → Yields .harnessApply s fun t => ended t 3 0x22 ∧
              t.buckleState 10 = 0 ∧ t.buckle 10 = {}))) ∧
        (imageKind img ≠ 2 → s.conditionFail (imageKind img) xs = none → Yields .harnessApply s fun t => ended t 1 0x0C ∧
          t.reg Reg.hrnsSerial = BitVec.ofNat 32 (leAt img 12 4) ∧ (imageKind img = 0 → t.bit st 30 = true)) ∧
        (∀ e, imageKind img ≠ 2 → s.conditionFail (imageKind img) xs = some e → Yields .harnessApply s fun t =>
          ended t 2 9 ∧ SameRegsBut [st, Reg.hrnsErrLoc] s t ∧ SameBytes s t ∧ t.tables = s.tables))

/-- R419 to R423: the transaction of a buckle set. An OPEN of an idle set with a non-zero id opens it, any other is
refused with cause 0x20. A FASTEN whose checks pass leaves it fastening with its boundary and target, one whose checks
fail slips it with cause 0x22, and without an open transaction it is refused. A slip and the timeout of 100 ms end it
with causes 0x27 and 0x23, unless its commit falls in the same cycle or before, which then takes effect (for an
immediate boundary log 13), and change nothing on an idle set. A commit whose checks still pass makes its shadows
active and ends it with 0x25, otherwise with 0x24; a shadow of YOKE_RATE is the register's new value in the bits it
masks. That a FASTEN without an open transaction is refused with 0x22, and that OPEN clears BKL_FAIL and BKL_INFO, are
the model's choices (log 21). -/
def Obligations.BuckleTransactionsRun : Prop :=
  ∀ (s : State) (r id boundary target : Nat), s.held = false → r < 11 → id < 65536 → boundary < 4 → target < 256 →
    let st := Reg.bklStatus r
    let b := s.buckle r
    let ended (t : State) (outcome cause : Nat) : Prop := t.buckleState r = 0 ∧ t.bit st 26 = true ∧
      t.bits st 29 27 = outcome ∧ t.bits st 23 16 = cause ∧ t.buckle r = {}
    let refused (t : State) (cause : Nat) : Prop := t.bits st 23 16 = cause ∧ SameRegsBut [st] s t ∧ t.buckles = s.buckles ∧
      ∃ x, t.island.net = s.island.net ++ [{ code := 0x0B00 + cause, cls := 0, inst := r, info := some x }]
    (s.buckleState r ≠ 0 ∨ id = 0 ∨ s.kind1Busy = true → Yields (.buckleOpen r id) s fun t => refused t 0x20) ∧
    (s.buckleState r = 0 → id ≠ 0 → s.kind1Busy = false → Yields (.buckleOpen r id) s fun t =>
      t.buckleState r = 1 ∧ t.bits st 15 0 = id ∧ t.bit st 25 = false ∧ t.buckle r = { openTick := s.now } ∧
      t.reg (Reg.bklInfo r) = 0 ∧ SameRegsBut [st, Reg.bklFailLo r, Reg.bklFailHi r, Reg.bklInfo r] s t) ∧
    (s.buckleState r ≠ 1 → Yields (.buckleFasten r boundary target) s fun t => refused t 0x22) ∧
    (s.buckleState r = 1 → (fastenChecks s r boundary target).1 = true → Yields (.buckleFasten r boundary target) s fun t =>
      t.buckleState r = 2 ∧ t.buckle r = { b with boundary := boundary, target := target } ∧ SameRegsBut [st] s t) ∧
    (s.buckleState r = 1 → (fastenChecks s r boundary target).1 = false →
      Yields (.buckleFasten r boundary target) s fun t => ended t 4 0x22) ∧
    (s.buckleState r = 0 → Answers (.buckleSlip r) s s ∧ Answers (.buckleTimeout r) s s) ∧
    let committed (c : Instr) (u : State) : Prop :=
      ((fastenChecks u r b.boundary b.target).1 = false → Yields c s fun t => ended t 4 0x24 ∧ t.now = u.now) ∧
      ((fastenChecks u r b.boundary b.target).1 = true → Yields c s fun t => ended t 1 0x25 ∧
        ∀ f k m v, f < 8 → k < 3 → b.shadows = [(Reg.yokeRate f k, m, v)] →
          t.reg (Reg.yokeRate f k) = (s.reg (Reg.yokeRate f k) &&& ~~~m) ||| (v &&& m))
    (∀ x ∈ [(Instr.buckleSlip r, 2, 0x27, s.now), (.buckleTimeout r, 3, 0x23, b.openTick + 640000000)],
      let slips := Yields x.1 s fun t => ended t x.2.1 x.2.2.1 ∧ t.now = (runUntil s x.2.2.2).now
      (s.buckleState r ≠ 0 → s.buckleState r ≠ 2 → slips) ∧
      (s.buckleState r = 2 →
        (b.boundary = 0 → committed x.1 s) ∧
        (∀ c, b.boundary = 1 → s.sampleCycle b.target = some c → c ≤ s.cycleOf x.2.2.2 → committed x.1 (runToCycle s c)) ∧
        (b.boundary = 1 → (s.sampleCycle b.target).any (fun c => c ≤ s.cycleOf x.2.2.2) = false → slips) ∧
        (b.boundary = 2 → s.boundaryTick b ≤ max x.2.2.2 s.now → committed x.1 (runUntil s (s.boundaryTick b))) ∧
        (b.boundary = 2 → max x.2.2.2 s.now < s.boundaryTick b → slips) ∧
        (b.boundary = 3 → slips))) ∧
    (s.buckleState r ≠ 2 → Answers (.buckleCommit r) s s) ∧
    (s.buckleState r = 2 → committed (.buckleCommit r) (s.toBoundary b))

/-- R50, R241, R242, R452 to R458: frames from the Trace chain. A frame on a link that is down does not arrive, and
one with a bad CRC is counted with F0 0x000E; one of a type that another command names is not this command's. Any
other is passed on, and where it names another chip that is all. At its destination an address offer from upstream is
taken by a chip without an address; one with another address than its own shows addr_changed with F2 0x0005; the head,
and a chip that is offered 16 or more and passes the next number on, detects a chain error, as does a chip that hears
two heads: its flag, F2 0x0004 and CHAIN_ERR, of which each of the two is reported once (log 24). A heartbeat is
heard; a probe is answered; 256 replies give the hop's delay and the time to a part of a tick (the formula: log 51);
reports and notices fence; a received CHAIN_ERR sets a flag (which of the two is free, log 24); a MGMT message enters
the queue of 16 or is dropped with F0 0x000F. That a chip without an address counts no heartbeat of another one
without (log 24) and that a frame not of R453 counts as one with a bad CRC (log 92) are the model's choices. -/
def Obligations.ChainFramesArriveAndAct : Prop :=
  ∀ (s : State) (f : ChainFrame) (tick sent received up : Nat), s.held = false →
    let link := s.bit Reg.reeveChain (if f.fromUp then 27 else 26)
    let u := forward s f
    let a := leAt f.payload 0 1
    let w := if s.addressed = true ∧ a ≠ s.chipId then
        (u.setBit Reg.reeveChain 28 true).raise { code := 0x0005, cls := 2 } else u
    let v := chainLocal w false 1 (leBytes 1 (a + 1))
    let detects (heads : Bool) (x t : State) : Prop := t.bit Reg.reeveChain (if heads then 29 else 30) = true ∧
      t.island.net = x.island.net ++ [{ code := 0x0004, cls := 2 }] ∧ t.outbox = x.outbox ++ [.chainError heads] ∧
      t.chain.detected = x.chain.detected ++ [heads] ∧ SameRegsBut [Reg.reeveChain] s t
    let good (k : Nat) : Prop := link = true ∧ chainCrcOk f = true ∧ f.type = k
    let commands : List (Nat × Instr) := [(1, .chainAddrRx f), (2, .chainHeartbeatRx f), (3, .chainDelayProbeRx f tick),
      (4, .chainDelayReplyRx f sent received up), (5, .chainFenceReportRx f), (6, .chainFenceNoticeRx f),
      (7, .chainSafeReportRx f), (8, .chainErrRx f), (9, .chainMgmtRx f)]
    (∀ x ∈ commands,
      (link = false → Answers x.2 s s) ∧
      (link = true → chainCrcOk f = false → Yields x.2 s fun t =>
        t.bits Reg.reeveChainCnt 15 0 = min (s.bits Reg.reeveChainCnt 15 0 + 1) 65535 ∧ SameRegsBut [Reg.reeveChainCnt] s t ∧
        t = { s.raise { code := 0x000E, cls := 0 } with regs := t.regs }) ∧
      (link = true → chainCrcOk f = true → f.type ≠ x.1 → Answers x.2 s s) ∧
      (good x.1 → s.chainMine f = false → Answers x.2 s u)) ∧
    (f.linkLocal = true → u = s) ∧
    (f.linkLocal = false → f.broadcast = true → s.bit Reg.reeveChain (if f.fromUp then 26 else 27) = true →
      u = s.emit (.chainFrame (!f.fromUp) (chainBytes f.type (frameSrcByte f) (frameDstByte f) f.payload))) ∧
    (s.chainMine f = true →
      (good 1 → f.fromUp = true → s.pins.chainHead = true →
        (true ∈ s.chain.detected → Answers (.chainAddrRx f) s w) ∧
        (true ∉ s.chain.detected → Yields (.chainAddrRx f) s (detects true w))) ∧
      (good 1 → f.fromUp = false → Answers (.chainAddrRx f) s u) ∧
      (good 1 → f.fromUp = true → s.pins.chainHead = false → 16 ≤ a →
        (false ∈ s.chain.detected → Answers (.chainAddrRx f) s v) ∧
        (false ∉ s.chain.detected → Yields (.chainAddrRx f) s (detects false v))) ∧
      (good 1 → f.fromUp = true → s.pins.chainHead = false → s.addressed = true → a < 16 → Answers (.chainAddrRx f) s w) ∧
      (good 1 → f.fromUp = true → s.pins.chainHead = false → s.addressed = false → a < 16 →
        Yields (.chainAddrRx f) s fun t => t.addressed = true ∧ t.chipId = a ∧ t.chain.step6 = none ∧
          SameRegsBut [Reg.reeveChain] s t) ∧
      (good 2 → f.unaddressed = true → Answers (.chainHeartbeatRx f) s u) ∧
      (good 2 → f.unaddressed = false → f.src = 0 → 0 ∈ s.chain.heard ∨ (s.addressed = true ∧ s.chipId = 0) →
        true ∉ s.chain.detected → bitOf (leAt f.payload 4 1) 0 = false → Yields (.chainHeartbeatRx f) s (detects true u)) ∧
      (good 2 → f.unaddressed = false → f.src ≠ 0 → bitOf (leAt f.payload 4 1) 0 = false →
        Yields (.chainHeartbeatRx f) s fun t => f.src ∈ t.chain.heard ∧ mapGet 0 t.chain.missed f.src = 0 ∧
          t = { u with chain := { u.chain with heard := t.chain.heard, missed := t.chain.missed } }) ∧
      (good 3 → Answers (.chainDelayProbeRx f tick) s (if f.fromUp then u else u.emit (.delayReply tick s.now))) ∧
      (good 4 → f.fromUp = false ∨ s.pins.chainHead = true → Answers (.chainDelayReplyRx f sent received up) s u) ∧
      (good 4 → f.fromUp = true → s.pins.chainHead = false →
        let xs := s.time.delays ++ [128 * ((received : Int) - sent)]
        let delay := (xs.foldl (· + ·) 0 / 256).toNat
        (xs.length < 256 → Answers (.chainDelayReplyRx f sent received up) s { u with time := { u.time with delays := xs } }) ∧
        (256 ≤ xs.length → (256 * up + delay) / 256 < 2 ^ 64 → Yields (.chainDelayReplyRx f sent received up) s fun t =>
          t.time.delays = [] ∧ t.now = (256 * up + delay) / 256 ∧
          t.time.phase = (256 * up + delay) % 256 * 2 ^ 32 ∧ t.bit Reg.timeStatus 1 = true ∧
          t.reg Reg.timeChainDelay = BitVec.ofNat 32 delay)) ∧
      (good 5 → s.addressed = false ∨ s.chipId ≠ 0 → Answers (.chainFenceReportRx f) s u) ∧
      (good 5 → s.addressed = true → s.chipId = 0 → Yields (.chainFenceReportRx f) s fun t =>
        let p := leAt f.payload 0 1 % 16
        (p ∈ t.chain.reports ∨ p ∈ t.chain.noticed ∨ s.bit (Reg.drovePeer p) 2 = true) ∧ SameRegsBut [] s t) ∧
      (good 6 → leAt f.payload 0 1 % 16 ≠ s.chipId →
        Answers (.chainFenceNoticeRx f) s (fenceDue u (leAt f.payload 0 1 % 16))) ∧
      (good 7 → Answers (.chainSafeReportRx f) s (if f.unaddressed then u else reportFence u f.src)) ∧
      (good 8 → Yields (.chainErrRx f) s fun t => (t.bit Reg.reeveChain 29 = true ∨ t.bit Reg.reeveChain 30 = true) ∧
        SameRegsBut [Reg.reeveChain] s t ∧ t = { u with regs := t.regs }) ∧
      (good 9 → s.chain.queue.length < 16 → Yields (.chainMgmtRx f) s fun t =>
        t.chain.queue = s.chain.queue ++ [(f.src, slice f.payload 0 64)] ∧
        t.bits Reg.reeveChainStatus 4 0 = s.chain.queue.length + 1 ∧ SameRegsBut [Reg.reeveChainStatus] s t) ∧
      (good 9 → 16 ≤ s.chain.queue.length → Yields (.chainMgmtRx f) s fun t => t.chain = s.chain ∧
        t.bits Reg.reeveChainCnt 31 16 = min (s.bits Reg.reeveChainCnt 31 16 + 1) 65535 ∧
        SameRegsBut [Reg.reeveChainCnt] s t ∧ t.island.net = s.island.net ++ [{ code := 0x000F, cls := 0 }]))

/-- R241, R452, R455, R457, R458: the Reeve's side of the chain and its links. A send while one is in progress is
refused; otherwise REEVE_CHAIN_TX leaves, for a broadcast on both links that are up and for one address towards it,
and the sender is busy for the frame's time. A pop removes the oldest message. The link events set their bits, and the
address timeout ends the wait of step 6 100 ms after it began. R241, R242: DROVE_PEER.fence_req and a heartbeat
missing for three management ticks report a live peer for fencing: the chain head notes it once, another addressed
chip with its upstream link up sends FENCE_REPORT to the head, and a chip whose chain is down (the head's downstream
link, another's upstream one) marks it due for the next management tick. A peer that is not live, or whose heartbeat
is not that long missing, changes nothing. That a chip without an address sends to one address on both links is the
model's choice (log 24). -/
def Obligations.ChainSendsAndFenceReports : Prop :=
  (∀ s : State, s.held = false →
    let b (dst : Nat) := chainBytes 9 s.chainSrc dst (s.bytes chainTxBase 64)
    let on (up : Bool) (x : List Byte) : List Output :=
      if s.bit Reg.reeveChain (if up then 27 else 26) then [.chainFrame up x] else []
    let sent (out : List Output) : State :=
      { s with chain := { s.chain with busyUntil := s.now + 4672 }, outbox := s.outbox ++ out }
    (s.sendBusy = true → ∀ dst < 16, ∀ all, Answers (.chainSend all dst) s s) ∧
    (s.sendBusy = false → ∀ dst < 16,
      Answers (.chainSend true dst) s (sent (on true (b 16) ++ on false (b 16))) ∧
      (s.addressed = true → dst ≠ s.chipId → Answers (.chainSend false dst) s (sent (on (dst < s.chipId) (b dst)))) ∧
      (s.addressed = true → dst = s.chipId → Answers (.chainSend false dst) s (sent [])) ∧
      (s.addressed = false → Answers (.chainSend false dst) s (sent (on true (b dst) ++ on false (b dst))))) ∧
    (Yields .chainPop s fun t => t.chain.queue = s.chain.queue.drop 1 ∧
      t.bits Reg.reeveChainStatus 4 0 = (s.chain.queue.length - 1) % 32 ∧ SameRegsBut [Reg.reeveChainStatus] s t ∧
      t = { s with regs := t.regs, chain := { s.chain with queue := t.chain.queue } }) ∧
    (∀ up, Yields (.traceLinkUp up) s (fun t => t.bit Reg.reeveChain (if up then 27 else 26) = true ∧
        SameRegsBut [Reg.reeveChain] s t ∧ t = { s with regs := t.regs }) ∧
      Yields (.traceLinkDown up) s fun t => t.bit Reg.reeveChain (if up then 27 else 26) = false ∧
        SameRegsBut [Reg.reeveChain] s t ∧ t = { s with regs := t.regs }) ∧
    (s.chain.step6 = none → Answers .chainAddressTimeout s s) ∧
    ∀ t0, s.chain.step6 = some t0 → Yields .chainAddressTimeout s fun t =>
      t.chain.step6 = none ∧ t.now = (runUntil s (t0 + 640000000)).now ∧
      t = { s with time := t.time, chain := { s.chain with step6 := none } }) ∧
  (∀ (s : State) (p : Nat), s.held = false → p < 16 →
    let late := 3 ≤ mapGet 0 s.chain.missed p
    (¬ late → Answers (.peerHeartbeatTimeout p) s s) ∧
    ∀ c ∈ [Instr.droveFenceReq p, .peerHeartbeatTimeout p], (c = .peerHeartbeatTimeout p → late) →
      (s.livePeer p = false → Answers c s s) ∧
      (s.livePeer p = true → s.addressed = true → s.chipId = 0 → s.bit Reg.reeveChain 26 = true →
        (p ∉ s.chain.reports → p ∉ s.chain.noticed →
          Answers c s { s with chain := { s.chain with reports := s.chain.reports ++ [p] } }) ∧
        (p ∈ s.chain.reports ∨ p ∈ s.chain.noticed → Answers c s s)) ∧
      (s.livePeer p = true → s.addressed = true → s.chipId ≠ 0 → s.bit Reg.reeveChain 27 = true →
        Answers c s (chainUnicast s 0x05 0 (leBytes 1 p))) ∧
      (s.livePeer p = true → s.addressed = false ∨ (s.chipId = 0 ∧ s.bit Reg.reeveChain 26 = false) ∨
          (s.chipId ≠ 0 ∧ s.bit Reg.reeveChain 27 = false) →
        Answers c s { s with chain := { s.chain with due := mapSet none s.chain.due p (some (s.tickNumber + 1)) } }))

/-- R437, R441, R459 to R463: Reeve commands. REEVE_CTRL.boot acts in firmware recovery alone: an accepted image at
Reeve SRAM offset 0 starts the device on path 3 (in one step, log 25, and to its end on that path, log 50), any other
is F2 0x000B. The write gather sends its 32 or 64 bytes as one request to an aligned address, or is F0 0x0010, and its
acknowledge clears busy: the request writes DRAM, a seedbed that is ready (one that is not holds it) or a whole
mailbox slot, and outside the Reeve's reach it is denied. A link's retraining runs in 256 slices and ends with its
margin, temperature and count in REEVE_LINK; a margin below 10/64 UI is F2 0x060B, 0x050E or 0x0D05 and places the
link first in the rotation. A D-PHY slice starts in LP state alone, and an aborted one is taken again, the last one
too. Fuses are programmed for the Reeve, in the Open profile, with a serial no lower, and otherwise not, with F0
0x0C02. -/
def Obligations.ReeveCommandsAct : Prop :=
  ∀ (s : State) (env : StartEnv) (margin : Nat) (sl : LinkSlice), s.held = false →
    let wg := Reg.reeveWgCtrl
    let a := s.reg64 Reg.reeveWgAddrLo Reg.reeveWgAddrHi
    let x := s.links
    (s.recovering = false → Answers (.reeveBootCommand env) s s) ∧
    (s.recovering = true → s.firmwareOk true (s.firmwareAt 0x5800000000) = true →
      Yields (.reeveBootCommand env) s fun t => StartEnded t env 3 9) ∧
    (s.recovering = true → s.firmwareOk true (s.firmwareAt 0x5800000000) = false →
      Answers (.reeveBootCommand env) s (s.raise { code := 0x000B, cls := 2 })) ∧
    (∀ len < 128,
      let good := s.bit wg 30 = false ∧ (len = 32 ∨ len = 64) ∧ a % len = 0
      (¬good → Yields (.writeGatherGo len) s fun t => t.bits wg 6 0 = len ∧ SameRegsBut [wg] s t ∧
        t = { s.raise { code := 0x0010, cls := 0 } with regs := t.regs }) ∧
      (good → s.region a = some .dram → s.accessible .reeve a len true = true → Yields (.writeGatherGo len) s fun t =>
        t.bit wg 30 = true ∧ t.bits wg 6 0 = len ∧ t.bytes a len = s.bytes gatherBase len ∧ SameBytesOutside a len s t) ∧
      (∀ m, good → s.region a = some (.seedbed m) → s.accessible .reeve a len true = true →
        (s.bit (Reg.furSbStatus m) 0 = true → Yields (.writeGatherGo len) s fun t => t.bit wg 30 = true ∧
          t.bytes a len = s.bytes gatherBase len ∧ SameBytesOutside a len s t) ∧
        (s.bit (Reg.furSbStatus m) 0 = false → Yields (.writeGatherGo len) s fun t => t.bit wg 30 = true ∧ SameBytes s t ∧
          t.boot.heldSeed = s.boot.heldSeed ++ [.write .reeve a (s.bytes gatherBase len) false])) ∧
      (∀ slot < 256, good → a = mailboxBase + 64 * slot →
        (len = 64 → Yields (.writeGatherGo len) s fun t => t.bit wg 30 = true ∧ t.bytes a 64 = s.bytes gatherBase 64 ∧
          SameBytesOutside a 64 s t ∧ mapGet false t.rein.written slot = true) ∧
        (len = 32 → Yields (.writeGatherGo len) s fun t => t.bit wg 30 = true ∧ SameBytes s t ∧
          t.island.net = s.island.net ++ [{ code := 0x070A, cls := 0, inst := slot }])) ∧
      (good → windowOf a ≠ some .mailbox → s.accessible .reeve a len true = false →
        Answers (.writeGatherGo len) s (denied ((s.setBits wg 6 0 len).setBit wg 30 true) .reeve a))) ∧
    (Yields .writeGatherAck s fun t => t.bit wg 30 = false ∧ SameRegsBut [wg] s t ∧ t = { s with regs := t.regs }) ∧
    let slice := Instr.linkRetrainSlice margin sl
    let waits (k : Nat) : Prop := 4 ≤ k ∧ k < 12 ∧ sl.lanesLp = false
    (s.bit Reg.reeveBoot 31 = false → Answers slice s s) ∧
    (s.bit Reg.reeveBoot 31 = true →
      (x.current = none → s.nextLink = none → Answers slice s s) ∧
      (∀ k rot, x.current = none → s.nextLink = some (k, rot) → (waits k → Answers slice s s) ∧
        (¬waits k → Yields slice s fun t => t.links.current = some k ∧ t.links.slices = 1 ∧ t = { s with links := t.links })) ∧
      ∀ k, x.current = some k → (waits k → Answers slice s s) ∧
        (¬waits k → x.slices + 1 < 256 → Answers slice s { s with links := { x with slices := x.slices + 1, done := none } }) ∧
        (¬waits k → 256 ≤ x.slices + 1 → k < 17 → Yields slice s fun t =>
          t.links.current = none ∧ t.links.slices = 0 ∧ t.bits (Reg.reeveLink k) 31 24 = min margin 255 ∧
          t.bits (Reg.reeveLink k) 23 16 = unsignedOf sl.temp 8 ∧
          t.bits (Reg.reeveLink k) 15 0 = min (s.bits (Reg.reeveLink k) 15 0 + 1) 65535 ∧
          SameRegsBut [Reg.reeveLink k] s t ∧
          (10 ≤ margin → t.island = s.island ∧ t.links.front = x.front) ∧
          (margin < 10 → t.links.front.head? = some k ∧ ∃ i, t.island.net = s.island.net ++
            [{ code := if k < 4 then 0x060B else if k < 16 then 0x050E else 0x0D05, cls := 2, inst := i }] ∧
            (k < 4 → i = k) ∧ (k = 16 → i = 0)))) ∧
    (∀ n < 8,
      (x.current = some (4 + n) → Answers (.dphySliceAbort n) s { s with links := { x with slices := x.slices - 1 } }) ∧
      (x.current ≠ some (4 + n) → (∀ d, x.done = some d → x.current = none → d.link ≠ 4 + n) →
        Answers (.dphySliceAbort n) s s) ∧
      ∀ d, x.current = none → x.done = some d → d.link = 4 + n → Yields (.dphySliceAbort n) s fun t =>
        t.links.current = some (4 + n) ∧ t.links.slices = 255 ∧ t.links.front = d.front ∧ t.links.done = none ∧
        t.reg (Reg.reeveLink (4 + n)) = d.reg ∧ SameRegsBut [Reg.reeveLink (4 + n)] s t) ∧
    ∀ r : Requester,
      let good := r = .reeve ∧ s.bits Reg.safeStatus 1 0 ≠ 1 ∧ (s.reg Reg.fuseMinSerial).toNat ≤ (s.reg Reg.fuseProgSerial).toNat
      (good → Yields (.fuseProgram r) s fun t => t.reg Reg.fuseMinSerial = s.reg Reg.fuseProgSerial ∧
        t.bits Reg.fuseKey 7 4 = (s.bits Reg.fuseKey 7 4 ||| s.bits Reg.fuseProg 3 0) ∧
        SameRegsBut [Reg.fuseKey, Reg.fuseMinSerial] s t ∧ t = { s.raise { code := 0x0C03, cls := 0 } with regs := t.regs }) ∧
      (¬good → Answers (.fuseProgram r) s (s.raise { code := 0x0C02, cls := 0 }))

/-- R21: a read of the low register of a 64-bit quantity answers the low half and latches the high half as it then
stands, whatever was latched before; the high register answers the latched half, whatever the quantity has become, and
the latch is then empty. Nothing else changes. -/
def Obligations.LowReadsLatchTheHighHalf : Prop :=
  ∀ (s : State) (r : Requester) (a : Nat) (d e : RegDesc) (i j k l : Nat),
    let readable (u : State) (b : Nat) : Prop := u.held = false ∧ u.accessible r b 4 false = true ∧ windowOf b = none ∧
      (u.region b).any Region.isRegs = true ∧ b % 4 = 0 ∧ (gatherReg b = true → r = .reeve)
    regAt a = some (d, i, k) → d.base ∈ lowRows → regAt (a + 4) = some (e, j, l) → e.base ≠ Reg.chuteDataLo 0 →
    readable s a → mapFind s.latch a = none →
    let hi := s.readValue e (a + 4) j
    Yields (.registerRead r a 4) s (fun t => mapFind t.latch (a + 4) = some hi ∧
      t = { s with latch := t.latch, outbox := s.outbox ++ [.readData ((s.readValue d a i).setWidth 64)] }) ∧
    ∀ u : State, readable u (a + 4) → mapFind u.latch (a + 4) = some hi → Yields (.registerRead r (a + 4) 4) u fun t =>
      mapFind t.latch (a + 4) = none ∧
      t = { u with latch := t.latch, outbox := u.outbox ++ [.readData (hi.setWidth 64)] }

/-- R14 to R17, R21, R34: register and memory accesses of a requester. A denied write changes no register and no byte,
a denied read answers 0; both raise the access's F0 entry (its code is free, log 12). A register takes only an aligned
32-bit write: REEVE_GPIO_OUT then holds the value. An aligned 32-bit read answers the register's value as shown, a low
half of a 64-bit quantity latches its high half, and a latched half is answered once. Reeve SRAM takes and answers 1
to 8 bytes. -/
def Obligations.RegistersAndMemoryAnswer : Prop :=
  ∀ (s : State) (r : Requester) (a n : Nat) (v : Word64), s.held = false → 1 ≤ n → n ≤ 8 → (∀ m, r ≠ .furrow m) →
    let read (addr k : Nat) := Instr.registerRead r addr k
    let register (addr : Nat) (d : RegDesc) (i j : Nat) : Prop := s.accessible r addr 4 false = true ∧ windowOf addr = none ∧
      (s.region addr).any Region.isRegs = true ∧ addr % 4 = 0 ∧ gatherReg addr = false ∧ regAt addr = some (d, i, j) ∧
      d.base ≠ Reg.chuteDataLo 0
    (s.accessible r a n false = false → Answers (read a n) s ((denied s r a).emit (.readData 0))) ∧
    (windowOf a = none → (s.region a).isSome = true → s.accessible r a n true = false →
      Answers (.registerWrite r a n v) s (denied s r a)) ∧
    (windowOf a = none → (s.region a).any Region.isRegs = true → s.accessible r a n true = true → n ≠ 4 ∨ a % 4 ≠ 0 →
      Answers (.registerWrite r a n v) s s) ∧
    (s.accessible r Reg.reeveGpioOut 4 true = true → Yields (.registerWrite r Reg.reeveGpioOut 4 v) s fun t =>
      t.reg Reg.reeveGpioOut = v.setWidth 32 ∧ SameRegsBut [Reg.reeveGpioOut] s t ∧ t = { s with regs := t.regs }) ∧
    (∀ d i j, register a d i j → mapFind s.latch a = none → d.base ∉ lowRows →
      Answers (read a 4) s (s.emit (.readData ((s.readValue d a i).setWidth 64)))) ∧
    (∀ d i j x, register a d i j → mapFind s.latch a = some x →
      Answers (read a 4) s ({ s with latch := mapErase s.latch a }.emit (.readData (x.setWidth 64)))) ∧
    (s.accessible r Reg.timeNowLo 4 false = true → mapFind s.latch Reg.timeNowLo = none → Yields (read Reg.timeNowLo 4) s fun t =>
      mapFind t.latch Reg.timeNowHi = some (BitVec.ofNat 32 (s.now / 2 ^ 32)) ∧
      t = { s with latch := t.latch, outbox := s.outbox ++ [.readData (BitVec.ofNat 64 (s.now % 2 ^ 32))] }) ∧
    (s.region a = some .sram →
      (s.accessible r a n true = true → Yields (.registerWrite r a n v) s fun t =>
        t.bytes a n = leBytes n v.toNat ∧ SameBytesOutside a n s t ∧ SameRegsBut [] s t) ∧
      (s.accessible r a n false = true → s.poisoned a n = false →
        Answers (read a n) s (s.emit (.readData (BitVec.ofNat 64 (s.le a n))))))

/-- R138, R163, R191, R256, R385: the scrub of one word of a SEC-DED memory. A clean word changes no byte and raises
nothing; a correctable error is F1 and is corrected in place; an uncorrectable one is F2 and stays, to be found again,
with the codes of the memory's block and its unit as instance; in a hopper entry it is F3 0x2203 for the Field whose
range holds the hopper. An uncorrectable word in a Furrow's line or score buffer ends the task of that unit with 0x0A;
an object with one is not valid. An instruction store's correction shows in FUR_FW with F1, and an uncorrectable word
there ends the task that runs with 0x0B, or is recorded by the sweep with F3 0x200B. What the scrub of a word of a
buffer in use finds and leaves, and the CRC of a lost tally entry (log 28), the code of a store's correction (log 82)
and that of a word found in an idle Furrow (log 90) are the model's choices. -/
def Obligations.MemoryScrubReportsErrors : Prop :=
  ∀ (s : State) (m : ScrubMemory), s.held = false → m.wellFormed = true →
    let events (u : Upset) (es : List Event) : Prop := Yields (.secDedMemoryScrub m u) s fun t =>
      t.island.net = s.island.net ++ es ∧ SameBytes s t
    let found (corr uncorr inst : Nat) : Prop :=
      events .single [{ code := corr, cls := 1, inst := inst }] ∧ events .double [{ code := uncorr, cls := 2, inst := inst }]
    let one (mark : Mark) (corr uncorr inst : Nat) : Prop :=
      (mark = .clean → events .clean [] ∧ found corr uncorr inst) ∧
      (mark = .double → ∀ u, events u [{ code := uncorr, cls := 2, inst := inst }])
    let word (b : WordBuffer) (i k corr uncorr : Nat) : Prop := one (s.word b i k) corr uncorr i ∧
      (s.word b i k = .clean → Yields (.secDedMemoryScrub m .single) s fun t => t.word b i k = .clean) ∧
      Yields (.secDedMemoryScrub m .double) s fun t => t.word b i k = .double
    let unit (n : Nat) (ops : List Nat) : Prop :=
      ∀ t0, (s.furrow n).task = some t0 → t0.stage ≠ .checking → (∀ c, t0.stage ≠ .ending c) →
        (t0.desc.op ∈ ops → Yields (.secDedMemoryScrub m .double) s fun t =>
          (t.furrow n).task = some { t0 with stage := .ending 0x0A, wait := .none, tilesLeft := [], charged := false }) ∧
        (t0.desc.op ∉ ops → Yields (.secDedMemoryScrub m .double) s fun t => t.furrow n = s.furrow n)
    (∀ n k, m = .lineBuffer n k → word .line n k 0x2030 0x2031 ∧ unit n [0x02, 0x03, 0x04]) ∧
    (∀ n k, m = .scoreBuffer n k → word .score n k 0x2032 0x2033 ∧ unit n [0x05]) ∧
    (∀ q k, m = .droveBuffer q k → word .drove q k 0x0609 0x0608) ∧
    (∀ p k, m = .intakeLine p k → word .intake p k 0x050B 0x050C) ∧
    (∀ o, m = .bridleObject o → one (s.object o).mark 0x0801 0x0802 o ∧
      Yields (.secDedMemoryScrub m .double) s fun t => (t.object o).valid = false ∧ (t.object o).mark = .double) ∧
    (∀ n, m = .reinState n → one (s.reinRec n).bad 0x0708 0x0709 n ∧
      Yields (.secDedMemoryScrub m .double) s fun t => (t.reinRec n).bad = .double) ∧
    (∀ h, m = .hopper h →
      ((s.hopper h).mark = .clean → events .clean [] ∧ events .single [{ code := 0x2202, cls := 1, inst := h }]) ∧
      (h < 32704 → ∀ u, u = .double ∨ (s.hopper h).mark = .double → Yields (.secDedMemoryScrub m u) s fun t =>
        SameBytes s t ∧ (t.hopper h).mark = .double ∧ ∃ fld, t.island.net = s.island.net ++
            [{ code := 0x2203, cls := 3, inst := h, field := fld }] ∧
          (∀ f, fld = some f → f < 8 ∧ s.hopperIn f h = true) ∧ ∀ f < 8, s.hopperIn f h = true → fld ≠ none)) ∧
    (∀ c k, m = .bridleFifo c k → ((s.fifo c).length ≤ k → ∀ u, events u []) ∧
      ∀ e, (s.fifo c)[k]? = some e → one e.mark 0x080B 0x0803 c) ∧
    (∀ c k, m = .chute c k → ((s.chute c).words.length ≤ k → ∀ u, events u []) ∧
      ∀ w, (s.chute c).words[k]? = some w → one w.mark 0x0901 0x0902 c) ∧
    (∀ n k, m = .instructionStore n k →
      let kept := mapGet .clean (s.furrow n).stores k
      (kept = .clean → events .clean [] ∧
        Yields (.secDedMemoryScrub m .single) s fun t => t.bit (Reg.furFw n) (8 + k) = true ∧ SameRegsBut [Reg.furFw n] s t ∧
          SameBytes s t ∧ ∃ e, e.cls = 1 ∧ e.inst = n ∧ e.code / 256 = 0x20 ∧ t.island.net = s.island.net ++ [e]) ∧
      Yields (.secDedMemoryScrub m .double) s fun t => mapGet .clean (t.furrow n).stores k = .double ∧
        (s.storeInUse n = false →
          t.island.net = s.island.net ++ [{ code := 0x200B, cls := 3, inst := n }] ∧ (t.furrow n).task = (s.furrow n).task) ∧
        ∀ t0, (s.furrow n).task = some t0 → s.storeInUse n = true → t.island = s.island ∧
          (t.furrow n).task = some { t0 with stage := .ending 0x0B, wait := .none, tilesLeft := [], charged := false }) ∧
    ∀ k, m = .tally k →
      (s.mark ((tallyBase + 32 * k) / 32) = .clean → events .clean [] ∧ events .single [{ code := 0x0A08, cls := 1 }]) ∧
      ∀ u, u = .double ∨ s.mark ((tallyBase + 32 * k) / 32) = .double → Yields (.secDedMemoryScrub m u) s fun t =>
        t.island.net = s.island.net ++ [{ code := 0x0A09, cls := 2 }] ∧
        SameBytesOutside (tallyBase + 32 * k + 28) 4 s t ∧
        t.le (tallyBase + 32 * k + 28) 4 ≠ (crc32c (t.bytes (tallyBase + 32 * k) 28)).toNat

/-- A step takes the command at the front of the queue and runs it on the rest: the statement that carries every
statement about exec to a run. R43, R46, log 1, log 13: with an empty queue a step is one cycle of CLK_FAST. TIME_NOW
advances by 4 ticks and by the carry of the phase accumulator; nothing but the time base changes, and a device held by
PORST_N does not count. -/
def Obligations.StepsTakeTheFrontCommandOrIdle : Prop :=
  (∀ (s : State) (c : Instr) (rest : List Instr), s.pending = c :: rest → step s = exec c { s with pending := rest }) ∧
  (∀ s : State, s.pending = [] →
    ∃ t, step s = .next t ∧ t = { s with time := t.time } ∧
      (s.pins.porst = true → t = s) ∧
      (s.pins.porst = false →
        let acc : Int := s.time.phase + s.rate
        t.now = (s.now + (4 + acc / 2 ^ 40).toNat) % 2 ^ 64 ∧ (t.time.phase : Int) = acc % 2 ^ 40))

/-- R20, R30: State.reset. PORST_N is low, every register reads its Reset value, every byte of memory reads 0 (log 4),
nothing waits in the queue, on the fault-report network or in the tally log's queue, no transaction is open, and the
invariants hold. -/
def Obligations.ResetStateHoldsResetValues : Prop :=
  State.reset.pins.porst = true ∧ State.reset.held = true ∧ (∀ a, State.reset.reg a = regReset a) ∧
    (∀ a, State.reset.byte a = 0) ∧ State.reset.pending = [] ∧ State.reset.island.net = [] ∧ State.reset.island.queue = [] ∧
    (∀ r < 11, State.reset.buckleState r = 0) ∧ (∀ f < 8, State.reset.fieldState f = fldUnconfigured) ∧
    State.reset.now = 0 ∧ State.reset.outbox = [] ∧ QueueWellFormed State.reset ∧ Memory.wf State.reset.mem = true

/-- Every command completes in every state, whatever its operands, leaving the queue as it was: none stops with a
fault and none is refused. R20, log 34: a device that is held in reset ignores every command but those of pins,
clocks, supplies and the test port. An operand that names no unit of the device stands for a free one (log 92), so
there too the command completes. A run never stops: k steps complete for every k, and run the first k commands in
order, so that after as many steps as there are commands the queue is empty and stays so (log 1). The invariant of the
queue: from a queue of well-formed commands every step leaves such a queue. -/
def Obligations.CommandsCompleteInOrder : Prop :=
  (∀ (c : Instr) (s : State), ∃ t, exec c s = .next t ∧ t.pending = s.pending) ∧
  (∀ (c : Instr) (s : State), s.held = true → actsWhileHeld c = false → exec c s = .next s) ∧
  (∀ (s : State) (k : Nat), ∃ t, steps k s = .next t ∧ t.pending = s.pending.drop k) ∧
  (∀ s t : State, QueueWellFormed s → step s = .next t → QueueWellFormed t)

/-- R53, R76, R77, R95, R97, R107: what a REDUCE task of integer formats computes. Once its operands may be read, the
task reads them and holds its tiles, and no byte of memory has changed: row i lies in tile i / tile_rows at dst_addr +
i·ldd, one element in a granule padded with zeros. Its value is the sum of the row's elements modulo 2^32 read as
INT32, their maximum or their minimum, narrowed to fmt_out: outside the format's range it is the range limit of that
sign, and of UINT8 a negative value gives 0. -/
def Obligations.ReduceTaskComputesSaturatedRows : Prop :=
  ∀ (s : State) (n : Nat) (t : Task), s.held = false → n < 64 → (s.furrow n).task = some t → t.stage = .reading →
    t.desc.op = 0x08 → t.resuming = false → (s.furrow n).stores = [] → s.taskRejected n t = false →
    s.nextWait n t = .none → t.charged = true → s.yokeWaits n = false →
    let d := t.desc
    let len := s.param d 0
    let rows := s.param d 1
    let fn := s.param d 4
    let tileRows := s.param d 5
    let value (fmt v : Nat) : Int := if fmt = 2 then v else signedOf v (fmtWidth fmt)
    let lowest (fmt : Nat) : Int := if fmt = 2 then 0 else -(2 ^ (fmtWidth fmt - 1))
    let highest (fmt : Nat) : Int := if fmt = 2 then 255 else 2 ^ (fmtWidth fmt - 1) - 1
    d.zcA = false → d.zcDst = false → d.fmtA ∈ [1, 2, 3, 4] → d.fmtOut ∈ [1, 2, 3, 4] → fn ≤ 2 →
    1 ≤ len → 1 ≤ rows → 1 ≤ tileRows →
    Yields (.taskDone n) s fun u => ∃ k, (u.furrow n).task = some k ∧ k.stage = .committing ∧ k.committed = t.committed ∧
      SameBytes s u ∧
      ∀ i < rows,
        let width := fmtWidth d.fmtA / 8
        let xs := (List.range len).map fun j =>
          value d.fmtA (leNat (s.view (d.aAddr + i * s.param d 2 + j * width) width))
        let result := if fn = 0 then signedOf (unsignedOf xs.sum 32) 32
          else if fn = 1 then xs.foldl max (-(2 ^ 31)) else xs.foldl min (2 ^ 31 - 1)
        ∃ tile row, k.tilesLeft[i / tileRows]? = some tile ∧
          tile.pieces[i % tileRows]? = some (d.dstAddr + i * s.param d 3, row) ∧ row.length = 32 ∧
          leAt row 0 (fmtWidth d.fmtOut / 8) =
            unsignedOf (max (lowest d.fmtOut) (min (highest d.fmtOut) result)) (fmtWidth d.fmtOut) ∧
          ∀ b ∈ row.drop (fmtWidth d.fmtOut / 8), b = 0

/-- Memory keeps its canonical form (rising addresses, no byte listed that reads as an unlisted one): the invariant
holds at reset, and from every state that has it, every command that completes, and so every step, leaves a state that
has it. -/
def Obligations.MemoryStaysCanonical : Prop :=
  Memory.wf State.reset.mem = true ∧
    (∀ (s t : State) (c : Instr), Memory.wf s.mem = true → exec c s = .next t → Memory.wf t.mem = true) ∧
    (∀ s t : State, Memory.wf s.mem = true → step s = .next t → Memory.wf t.mem = true)
end

