-- ==== Sys2Proof/Laws/Bits.lean ====
section
/-! SUPPORT. Laws of bit fields: what a field reads after a write to it, and that a write leaves every other field. -/

namespace Sys2Proof.Machine

theorem withBits_eq (v msb lsb x : Nat) :
    withBits v msb lsb x = (v / 2 ^ lsb / 2 ^ (msb + 1 - lsb) * 2 ^ (msb + 1 - lsb) + x % 2 ^ (msb + 1 - lsb)) * 2 ^ lsb +
      v % 2 ^ lsb := by
  unfold withBits bitsOf
  generalize 2 ^ lsb = P, 2 ^ (msb + 1 - lsb) = Q
  have h1 := Nat.div_add_mod v P
  have h2 := Nat.div_add_mod (v / P) Q
  generalize v / P / Q = h, v / P % Q = f, v % P = r, x % Q = y at *
  rw [← h2, Nat.mul_add] at h1
  have e1 : (h * Q + y) * P = P * (Q * h) + y * P := by
    rw [Nat.add_mul, Nat.mul_comm (h * Q) P, Nat.mul_comm h Q]
  have e2 : f * P = P * f := Nat.mul_comm f P
  omega

/-- A field reads what was written to it. -/
theorem bitsOf_withBits_self (v msb lsb x : Nat) : bitsOf (withBits v msb lsb x) msb lsb = x % 2 ^ (msb + 1 - lsb) := by
  have hP : 0 < 2 ^ lsb := Nat.two_pow_pos _
  rw [withBits_eq, bitsOf, Nat.mul_comm, Nat.mul_add_div hP, Nat.div_eq_of_lt (Nat.mod_lt _ hP), Nat.add_zero,
    Nat.mul_comm, Nat.mul_add_mod, Nat.mod_mod]

theorem testBit_withBits (v msb lsb x i : Nat) :
    (withBits v msb lsb x).testBit i =
      if lsb ≤ i ∧ i < msb + 1 then x.testBit (i - lsb) else v.testBit i := by
  have hP : 0 < 2 ^ lsb := Nat.two_pow_pos _
  have hv : v % 2 ^ lsb < 2 ^ lsb := Nat.mod_lt _ hP
  rw [withBits_eq, Nat.mul_comm, Nat.testBit_two_pow_mul_add _ hv, Nat.testBit_mod_two_pow]
  by_cases hl : i < lsb
  · rw [if_pos hl, if_neg (by omega)]; simp [hl]
  · have hx : x % 2 ^ (msb + 1 - lsb) < 2 ^ (msb + 1 - lsb) := Nat.mod_lt _ (Nat.two_pow_pos _)
    rw [if_neg hl, Nat.mul_comm, Nat.testBit_two_pow_mul_add _ hx, Nat.testBit_mod_two_pow]
    by_cases hm : i < msb + 1
    · have h1 : i - lsb < msb + 1 - lsb := by omega
      have h2 : lsb ≤ i := by omega
      simp [hm, h1, h2]
    · have h1 : ¬ i - lsb < msb + 1 - lsb := by omega
      rw [if_neg h1, if_neg (by omega), Nat.testBit_div_two_pow, Nat.testBit_div_two_pow]
      by_cases hml : lsb ≤ msb + 1
      · congr 1; omega
      · congr 1; omega

theorem bitsOf_testBit (v msb lsb i : Nat) :
    (bitsOf v msb lsb).testBit i = (decide (i < msb + 1 - lsb) && v.testBit (i + lsb)) := by
  rw [bitsOf, Nat.testBit_mod_two_pow, Nat.testBit_div_two_pow]

/-- A write to a field leaves every other field. -/
theorem bitsOf_withBits_disjoint (v msb lsb x msb' lsb' : Nat) (h : msb' < lsb ∨ msb < lsb') :
    bitsOf (withBits v msb lsb x) msb' lsb' = bitsOf v msb' lsb' := by
  apply Nat.eq_of_testBit_eq
  intro i
  rw [bitsOf_testBit, bitsOf_testBit, testBit_withBits]
  by_cases hi : i < msb' + 1 - lsb'
  · rw [if_neg (by omega)]
  · simp [hi]

theorem bitOf_eq (v i : Nat) : bitOf v i = (bitsOf v i i == 1) := by
  simp [bitOf, bitsOf]

theorem withBits_lt {v n : Nat} (msb lsb x : Nat) (hv : v < 2 ^ n) (hm : msb < n) :
    withBits v msb lsb x < 2 ^ n := by
  apply Nat.lt_pow_two_of_testBit
  intro i hi
  rw [testBit_withBits, if_neg (by omega)]
  exact Nat.testBit_lt_two_pow (Nat.lt_of_lt_of_le hv (Nat.pow_le_pow_right (by decide) hi))

theorem ofNat_withBits_toNat (w : Word) {msb : Nat} (lsb x : Nat) (hm : msb < 32) :
    (BitVec.ofNat 32 (withBits w.toNat msb lsb x)).toNat = withBits w.toNat msb lsb x := by
  rw [BitVec.toNat_ofNat]
  exact Nat.mod_eq_of_lt (withBits_lt msb lsb x w.isLt hm)

end Sys2Proof.Machine
end

