-- ==== Sys2Proof/Laws/Map.lean ====
section
/-! SUPPORT. Laws of the sparse maps: a read after a write, and the canonical form that every write keeps. -/

namespace Sys2Proof.Machine

variable {α : Type}

theorem mapFind_erase (m : SMap α) (a b : Nat) :
    mapFind (mapErase m a) b = if b = a then none else mapFind m b := by
  induction m with
  | nil => simp [mapErase, mapFind]
  | cons e m ih =>
    obtain ⟨k, w⟩ := e
    by_cases hk : a = k <;> by_cases hb : b = a <;> by_cases hbk : b = k <;> simp_all [mapErase, mapFind]

theorem mapFind_insert (m : SMap α) (a b : Nat) (v : α) :
    mapFind (mapInsert m a v) b = if b = a then some v else mapFind m b := by
  induction m with
  | nil => simp [mapInsert, mapFind]
  | cons e m ih =>
    obtain ⟨k, w⟩ := e
    by_cases hlt : a < k
    · by_cases hb : b = a <;> simp [mapInsert, mapFind, hlt, hb]
    · by_cases hk : a = k
      · by_cases hb : b = a <;> by_cases hbk : b = k <;> simp_all [mapInsert, mapFind]
      · rw [mapInsert, if_neg hlt, if_neg hk]
        by_cases hbk : b = k <;> by_cases hb : b = a <;> simp_all [mapFind]

/-- A read after a write: the written key holds the value, every other key what it held. -/
theorem mapGet_mapSet [DecidableEq α] (d : α) (m : SMap α) (a b : Nat) (v : α) :
    mapGet d (mapSet d m a v) b = if b = a then v else mapGet d m b := by
  unfold mapSet mapGet
  by_cases hv : v = d <;> by_cases hb : b = a <;> simp [hv, hb, mapFind_erase, mapFind_insert]

@[simp] theorem mapGet_mapSet_self [DecidableEq α] (d : α) (m : SMap α) (a : Nat) (v : α) :
    mapGet d (mapSet d m a v) a = v := by simp [mapGet_mapSet]

theorem mapGet_mapSet_ne [DecidableEq α] (d : α) (m : SMap α) {a b : Nat} (v : α) (h : b ≠ a) :
    mapGet d (mapSet d m a v) b = mapGet d m b := by simp [mapGet_mapSet, h]

@[simp] theorem mapGet_nil (d : α) (a : Nat) : mapGet d [] a = d := rfl

/-! The canonical form. -/

theorem keysAbove_mono {lo hi : Nat} (h : lo ≤ hi) (m : SMap α) (hm : keysAbove hi m = true) : keysAbove lo m = true := by
  induction m with
  | nil => rfl
  | cons e m ih =>
    obtain ⟨k, w⟩ := e
    simp only [keysAbove, Bool.and_eq_true, decide_eq_true_eq] at hm ⊢
    exact ⟨by omega, ih hm.2⟩

theorem keysAbove_erase {lo : Nat} (m : SMap α) (a : Nat) (h : keysAbove lo m = true) :
    keysAbove lo (mapErase m a) = true := by
  induction m with
  | nil => rfl
  | cons e m ih =>
    obtain ⟨k, w⟩ := e
    simp only [keysAbove, Bool.and_eq_true, decide_eq_true_eq] at h
    by_cases hk : a = k
    · rw [mapErase, if_pos hk]; exact ih h.2
    · simp [mapErase, hk, keysAbove, ih, h]

theorem keysAbove_insert {lo : Nat} (m : SMap α) (a : Nat) (v : α) (h : keysAbove lo m = true) (ha : lo < a) :
    keysAbove lo (mapInsert m a v) = true := by
  induction m with
  | nil => simp [mapInsert, keysAbove, ha]
  | cons e m ih =>
    obtain ⟨k, w⟩ := e
    simp only [keysAbove, Bool.and_eq_true, decide_eq_true_eq] at h
    by_cases hlt : a < k
    · simp [mapInsert, hlt, keysAbove, ha, h]
    · by_cases hk : a = k
      · simp [mapInsert, hk, keysAbove, h]
      · simp [mapInsert, hlt, hk, keysAbove, ih, h]

theorem mapWf_erase [DecidableEq α] (d : Nat → α) (m : SMap α) (a : Nat) (h : mapWf d m = true) :
    mapWf d (mapErase m a) = true := by
  induction m with
  | nil => rfl
  | cons e m ih =>
    obtain ⟨k, w⟩ := e
    simp only [mapWf, Bool.and_eq_true] at h
    by_cases hk : a = k
    · rw [mapErase, if_pos hk]; exact ih h.2
    · simp [mapErase, hk, mapWf, keysAbove_erase m a h.1.1, ih h.2, of_decide_eq_true h.1.2]

theorem mapWf_insert [DecidableEq α] (d : Nat → α) (m : SMap α) (a : Nat) (v : α) (hv : v ≠ d a)
    (h : mapWf d m = true) : mapWf d (mapInsert m a v) = true := by
  induction m with
  | nil => simp [mapInsert, mapWf, keysAbove, hv]
  | cons e m ih =>
    obtain ⟨k, w⟩ := e
    have h0 := h
    simp only [mapWf, Bool.and_eq_true] at h
    by_cases hlt : a < k
    · simp [mapInsert, hlt, mapWf, keysAbove, hv, h, keysAbove_mono (Nat.le_of_lt hlt) m h.1.1,
        of_decide_eq_true h.1.2]
    · by_cases hk : a = k
      · subst hk; simp [mapInsert, mapWf, hv, h]
      · simp [mapInsert, hlt, hk, mapWf, keysAbove_insert m a v h.1.1 (by omega), ih h.2, of_decide_eq_true h.1.2]

/-- A write keeps the canonical form. -/
theorem mapWf_set [DecidableEq α] (d : Nat → α) (m : SMap α) (a : Nat) (v : α) (h : mapWf d m = true) :
    mapWf d (mapSet (d a) m a v) = true := by
  unfold mapSet
  split
  · exact mapWf_erase d m a h
  · exact mapWf_insert d m a v ‹_› h

end Sys2Proof.Machine
end

