-- ==== Sys2Proof/Laws/State.lean ====
section
/-! SUPPORT. The small laws of the state: for each named update, what every field and every reader gives after it. -/

namespace Sys2Proof.Machine

variable (s : State)

/-! Each update leaves every field but its own. -/


@[simp] theorem State.setReg_pending (a : Nat) (v : Word) : (s.setReg a v).pending = s.pending := by rfl
@[simp] theorem State.setReg_latch (a : Nat) (v : Word) : (s.setReg a v).latch = s.latch := by rfl
@[simp] theorem State.setReg_mem (a : Nat) (v : Word) : (s.setReg a v).mem = s.mem := by rfl
@[simp] theorem State.setReg_marks (a : Nat) (v : Word) : (s.setReg a v).marks = s.marks := by rfl
@[simp] theorem State.setReg_words (a : Nat) (v : Word) : (s.setReg a v).words = s.words := by rfl
@[simp] theorem State.setReg_tables (a : Nat) (v : Word) : (s.setReg a v).tables = s.tables := by rfl
@[simp] theorem State.setReg_time (a : Nat) (v : Word) : (s.setReg a v).time = s.time := by rfl
@[simp] theorem State.setReg_pins (a : Nat) (v : Word) : (s.setReg a v).pins = s.pins := by rfl
@[simp] theorem State.setReg_furrows (a : Nat) (v : Word) : (s.setReg a v).furrows = s.furrows := by rfl
@[simp] theorem State.setReg_hoppers (a : Nat) (v : Word) : (s.setReg a v).hoppers = s.hoppers := by rfl
@[simp] theorem State.setReg_fields (a : Nat) (v : Word) : (s.setReg a v).fields = s.fields := by rfl
@[simp] theorem State.setReg_yokes (a : Nat) (v : Word) : (s.setReg a v).yokes = s.yokes := by rfl
@[simp] theorem State.setReg_island (a : Nat) (v : Word) : (s.setReg a v).island = s.island := by rfl
@[simp] theorem State.setReg_rein (a : Nat) (v : Word) : (s.setReg a v).rein = s.rein := by rfl
@[simp] theorem State.setReg_tacks (a : Nat) (v : Word) : (s.setReg a v).tacks = s.tacks := by rfl
@[simp] theorem State.setReg_chutes (a : Nat) (v : Word) : (s.setReg a v).chutes = s.chutes := by rfl
@[simp] theorem State.setReg_fifos (a : Nat) (v : Word) : (s.setReg a v).fifos = s.fifos := by rfl
@[simp] theorem State.setReg_objects (a : Nat) (v : Word) : (s.setReg a v).objects = s.objects := by rfl
@[simp] theorem State.setReg_buckles (a : Nat) (v : Word) : (s.setReg a v).buckles = s.buckles := by rfl
@[simp] theorem State.setReg_loader (a : Nat) (v : Word) : (s.setReg a v).loader = s.loader := by rfl
@[simp] theorem State.setReg_drove (a : Nat) (v : Word) : (s.setReg a v).drove = s.drove := by rfl
@[simp] theorem State.setReg_chain (a : Nat) (v : Word) : (s.setReg a v).chain = s.chain := by rfl
@[simp] theorem State.setReg_dram (a : Nat) (v : Word) : (s.setReg a v).dram = s.dram := by rfl
@[simp] theorem State.setReg_intake (a : Nat) (v : Word) : (s.setReg a v).intake = s.intake := by rfl
@[simp] theorem State.setReg_pcie (a : Nat) (v : Word) : (s.setReg a v).pcie = s.pcie := by rfl
@[simp] theorem State.setReg_firmware (a : Nat) (v : Word) : (s.setReg a v).firmware = s.firmware := by rfl
@[simp] theorem State.setReg_boot (a : Nat) (v : Word) : (s.setReg a v).boot = s.boot := by rfl
@[simp] theorem State.setReg_links (a : Nat) (v : Word) : (s.setReg a v).links = s.links := by rfl
@[simp] theorem State.setReg_outbox (a : Nat) (v : Word) : (s.setReg a v).outbox = s.outbox := by rfl
@[simp] theorem State.setReg_freeCount (a : Nat) (v : Word) : (s.setReg a v).freeCount = s.freeCount := by rfl

@[simp] theorem State.setBits_pending (a msb lsb v : Nat) : (s.setBits a msb lsb v).pending = s.pending := by rfl
@[simp] theorem State.setBits_latch (a msb lsb v : Nat) : (s.setBits a msb lsb v).latch = s.latch := by rfl
@[simp] theorem State.setBits_mem (a msb lsb v : Nat) : (s.setBits a msb lsb v).mem = s.mem := by rfl
@[simp] theorem State.setBits_marks (a msb lsb v : Nat) : (s.setBits a msb lsb v).marks = s.marks := by rfl
@[simp] theorem State.setBits_words (a msb lsb v : Nat) : (s.setBits a msb lsb v).words = s.words := by rfl
@[simp] theorem State.setBits_tables (a msb lsb v : Nat) : (s.setBits a msb lsb v).tables = s.tables := by rfl
@[simp] theorem State.setBits_time (a msb lsb v : Nat) : (s.setBits a msb lsb v).time = s.time := by rfl
@[simp] theorem State.setBits_pins (a msb lsb v : Nat) : (s.setBits a msb lsb v).pins = s.pins := by rfl
@[simp] theorem State.setBits_furrows (a msb lsb v : Nat) : (s.setBits a msb lsb v).furrows = s.furrows := by rfl
@[simp] theorem State.setBits_hoppers (a msb lsb v : Nat) : (s.setBits a msb lsb v).hoppers = s.hoppers := by rfl
@[simp] theorem State.setBits_fields (a msb lsb v : Nat) : (s.setBits a msb lsb v).fields = s.fields := by rfl
@[simp] theorem State.setBits_yokes (a msb lsb v : Nat) : (s.setBits a msb lsb v).yokes = s.yokes := by rfl
@[simp] theorem State.setBits_island (a msb lsb v : Nat) : (s.setBits a msb lsb v).island = s.island := by rfl
@[simp] theorem State.setBits_rein (a msb lsb v : Nat) : (s.setBits a msb lsb v).rein = s.rein := by rfl
@[simp] theorem State.setBits_tacks (a msb lsb v : Nat) : (s.setBits a msb lsb v).tacks = s.tacks := by rfl
@[simp] theorem State.setBits_chutes (a msb lsb v : Nat) : (s.setBits a msb lsb v).chutes = s.chutes := by rfl
@[simp] theorem State.setBits_fifos (a msb lsb v : Nat) : (s.setBits a msb lsb v).fifos = s.fifos := by rfl
@[simp] theorem State.setBits_objects (a msb lsb v : Nat) : (s.setBits a msb lsb v).objects = s.objects := by rfl
@[simp] theorem State.setBits_buckles (a msb lsb v : Nat) : (s.setBits a msb lsb v).buckles = s.buckles := by rfl
@[simp] theorem State.setBits_loader (a msb lsb v : Nat) : (s.setBits a msb lsb v).loader = s.loader := by rfl
@[simp] theorem State.setBits_drove (a msb lsb v : Nat) : (s.setBits a msb lsb v).drove = s.drove := by rfl
@[simp] theorem State.setBits_chain (a msb lsb v : Nat) : (s.setBits a msb lsb v).chain = s.chain := by rfl
@[simp] theorem State.setBits_dram (a msb lsb v : Nat) : (s.setBits a msb lsb v).dram = s.dram := by rfl
@[simp] theorem State.setBits_intake (a msb lsb v : Nat) : (s.setBits a msb lsb v).intake = s.intake := by rfl
@[simp] theorem State.setBits_pcie (a msb lsb v : Nat) : (s.setBits a msb lsb v).pcie = s.pcie := by rfl
@[simp] theorem State.setBits_firmware (a msb lsb v : Nat) : (s.setBits a msb lsb v).firmware = s.firmware := by rfl
@[simp] theorem State.setBits_boot (a msb lsb v : Nat) : (s.setBits a msb lsb v).boot = s.boot := by rfl
@[simp] theorem State.setBits_links (a msb lsb v : Nat) : (s.setBits a msb lsb v).links = s.links := by rfl
@[simp] theorem State.setBits_outbox (a msb lsb v : Nat) : (s.setBits a msb lsb v).outbox = s.outbox := by rfl
@[simp] theorem State.setBits_freeCount (a msb lsb v : Nat) : (s.setBits a msb lsb v).freeCount = s.freeCount := by rfl

@[simp] theorem State.setBit_pending (a i : Nat) (b : Bool) : (s.setBit a i b).pending = s.pending := by rfl
@[simp] theorem State.setBit_latch (a i : Nat) (b : Bool) : (s.setBit a i b).latch = s.latch := by rfl
@[simp] theorem State.setBit_mem (a i : Nat) (b : Bool) : (s.setBit a i b).mem = s.mem := by rfl
@[simp] theorem State.setBit_marks (a i : Nat) (b : Bool) : (s.setBit a i b).marks = s.marks := by rfl
@[simp] theorem State.setBit_words (a i : Nat) (b : Bool) : (s.setBit a i b).words = s.words := by rfl
@[simp] theorem State.setBit_tables (a i : Nat) (b : Bool) : (s.setBit a i b).tables = s.tables := by rfl
@[simp] theorem State.setBit_time (a i : Nat) (b : Bool) : (s.setBit a i b).time = s.time := by rfl
@[simp] theorem State.setBit_pins (a i : Nat) (b : Bool) : (s.setBit a i b).pins = s.pins := by rfl
@[simp] theorem State.setBit_furrows (a i : Nat) (b : Bool) : (s.setBit a i b).furrows = s.furrows := by rfl
@[simp] theorem State.setBit_hoppers (a i : Nat) (b : Bool) : (s.setBit a i b).hoppers = s.hoppers := by rfl
@[simp] theorem State.setBit_fields (a i : Nat) (b : Bool) : (s.setBit a i b).fields = s.fields := by rfl
@[simp] theorem State.setBit_yokes (a i : Nat) (b : Bool) : (s.setBit a i b).yokes = s.yokes := by rfl
@[simp] theorem State.setBit_island (a i : Nat) (b : Bool) : (s.setBit a i b).island = s.island := by rfl
@[simp] theorem State.setBit_rein (a i : Nat) (b : Bool) : (s.setBit a i b).rein = s.rein := by rfl
@[simp] theorem State.setBit_tacks (a i : Nat) (b : Bool) : (s.setBit a i b).tacks = s.tacks := by rfl
@[simp] theorem State.setBit_chutes (a i : Nat) (b : Bool) : (s.setBit a i b).chutes = s.chutes := by rfl
@[simp] theorem State.setBit_fifos (a i : Nat) (b : Bool) : (s.setBit a i b).fifos = s.fifos := by rfl
@[simp] theorem State.setBit_objects (a i : Nat) (b : Bool) : (s.setBit a i b).objects = s.objects := by rfl
@[simp] theorem State.setBit_buckles (a i : Nat) (b : Bool) : (s.setBit a i b).buckles = s.buckles := by rfl
@[simp] theorem State.setBit_loader (a i : Nat) (b : Bool) : (s.setBit a i b).loader = s.loader := by rfl
@[simp] theorem State.setBit_drove (a i : Nat) (b : Bool) : (s.setBit a i b).drove = s.drove := by rfl
@[simp] theorem State.setBit_chain (a i : Nat) (b : Bool) : (s.setBit a i b).chain = s.chain := by rfl
@[simp] theorem State.setBit_dram (a i : Nat) (b : Bool) : (s.setBit a i b).dram = s.dram := by rfl
@[simp] theorem State.setBit_intake (a i : Nat) (b : Bool) : (s.setBit a i b).intake = s.intake := by rfl
@[simp] theorem State.setBit_pcie (a i : Nat) (b : Bool) : (s.setBit a i b).pcie = s.pcie := by rfl
@[simp] theorem State.setBit_firmware (a i : Nat) (b : Bool) : (s.setBit a i b).firmware = s.firmware := by rfl
@[simp] theorem State.setBit_boot (a i : Nat) (b : Bool) : (s.setBit a i b).boot = s.boot := by rfl
@[simp] theorem State.setBit_links (a i : Nat) (b : Bool) : (s.setBit a i b).links = s.links := by rfl
@[simp] theorem State.setBit_outbox (a i : Nat) (b : Bool) : (s.setBit a i b).outbox = s.outbox := by rfl
@[simp] theorem State.setBit_freeCount (a i : Nat) (b : Bool) : (s.setBit a i b).freeCount = s.freeCount := by rfl

@[simp] theorem State.addSat_pending (a msb lsb k : Nat) : (s.addSat a msb lsb k).pending = s.pending := by rfl
@[simp] theorem State.addSat_latch (a msb lsb k : Nat) : (s.addSat a msb lsb k).latch = s.latch := by rfl
@[simp] theorem State.addSat_mem (a msb lsb k : Nat) : (s.addSat a msb lsb k).mem = s.mem := by rfl
@[simp] theorem State.addSat_marks (a msb lsb k : Nat) : (s.addSat a msb lsb k).marks = s.marks := by rfl
@[simp] theorem State.addSat_words (a msb lsb k : Nat) : (s.addSat a msb lsb k).words = s.words := by rfl
@[simp] theorem State.addSat_tables (a msb lsb k : Nat) : (s.addSat a msb lsb k).tables = s.tables := by rfl
@[simp] theorem State.addSat_time (a msb lsb k : Nat) : (s.addSat a msb lsb k).time = s.time := by rfl
@[simp] theorem State.addSat_pins (a msb lsb k : Nat) : (s.addSat a msb lsb k).pins = s.pins := by rfl
@[simp] theorem State.addSat_furrows (a msb lsb k : Nat) : (s.addSat a msb lsb k).furrows = s.furrows := by rfl
@[simp] theorem State.addSat_hoppers (a msb lsb k : Nat) : (s.addSat a msb lsb k).hoppers = s.hoppers := by rfl
@[simp] theorem State.addSat_fields (a msb lsb k : Nat) : (s.addSat a msb lsb k).fields = s.fields := by rfl
@[simp] theorem State.addSat_yokes (a msb lsb k : Nat) : (s.addSat a msb lsb k).yokes = s.yokes := by rfl
@[simp] theorem State.addSat_island (a msb lsb k : Nat) : (s.addSat a msb lsb k).island = s.island := by rfl
@[simp] theorem State.addSat_rein (a msb lsb k : Nat) : (s.addSat a msb lsb k).rein = s.rein := by rfl
@[simp] theorem State.addSat_tacks (a msb lsb k : Nat) : (s.addSat a msb lsb k).tacks = s.tacks := by rfl
@[simp] theorem State.addSat_chutes (a msb lsb k : Nat) : (s.addSat a msb lsb k).chutes = s.chutes := by rfl
@[simp] theorem State.addSat_fifos (a msb lsb k : Nat) : (s.addSat a msb lsb k).fifos = s.fifos := by rfl
@[simp] theorem State.addSat_objects (a msb lsb k : Nat) : (s.addSat a msb lsb k).objects = s.objects := by rfl
@[simp] theorem State.addSat_buckles (a msb lsb k : Nat) : (s.addSat a msb lsb k).buckles = s.buckles := by rfl
@[simp] theorem State.addSat_loader (a msb lsb k : Nat) : (s.addSat a msb lsb k).loader = s.loader := by rfl
@[simp] theorem State.addSat_drove (a msb lsb k : Nat) : (s.addSat a msb lsb k).drove = s.drove := by rfl
@[simp] theorem State.addSat_chain (a msb lsb k : Nat) : (s.addSat a msb lsb k).chain = s.chain := by rfl
@[simp] theorem State.addSat_dram (a msb lsb k : Nat) : (s.addSat a msb lsb k).dram = s.dram := by rfl
@[simp] theorem State.addSat_intake (a msb lsb k : Nat) : (s.addSat a msb lsb k).intake = s.intake := by rfl
@[simp] theorem State.addSat_pcie (a msb lsb k : Nat) : (s.addSat a msb lsb k).pcie = s.pcie := by rfl
@[simp] theorem State.addSat_firmware (a msb lsb k : Nat) : (s.addSat a msb lsb k).firmware = s.firmware := by rfl
@[simp] theorem State.addSat_boot (a msb lsb k : Nat) : (s.addSat a msb lsb k).boot = s.boot := by rfl
@[simp] theorem State.addSat_links (a msb lsb k : Nat) : (s.addSat a msb lsb k).links = s.links := by rfl
@[simp] theorem State.addSat_outbox (a msb lsb k : Nat) : (s.addSat a msb lsb k).outbox = s.outbox := by rfl
@[simp] theorem State.addSat_freeCount (a msb lsb k : Nat) : (s.addSat a msb lsb k).freeCount = s.freeCount := by rfl

@[simp] theorem State.addWrap_pending (a msb lsb k : Nat) : (s.addWrap a msb lsb k).pending = s.pending := by rfl
@[simp] theorem State.addWrap_latch (a msb lsb k : Nat) : (s.addWrap a msb lsb k).latch = s.latch := by rfl
@[simp] theorem State.addWrap_mem (a msb lsb k : Nat) : (s.addWrap a msb lsb k).mem = s.mem := by rfl
@[simp] theorem State.addWrap_marks (a msb lsb k : Nat) : (s.addWrap a msb lsb k).marks = s.marks := by rfl
@[simp] theorem State.addWrap_words (a msb lsb k : Nat) : (s.addWrap a msb lsb k).words = s.words := by rfl
@[simp] theorem State.addWrap_tables (a msb lsb k : Nat) : (s.addWrap a msb lsb k).tables = s.tables := by rfl
@[simp] theorem State.addWrap_time (a msb lsb k : Nat) : (s.addWrap a msb lsb k).time = s.time := by rfl
@[simp] theorem State.addWrap_pins (a msb lsb k : Nat) : (s.addWrap a msb lsb k).pins = s.pins := by rfl
@[simp] theorem State.addWrap_furrows (a msb lsb k : Nat) : (s.addWrap a msb lsb k).furrows = s.furrows := by rfl
@[simp] theorem State.addWrap_hoppers (a msb lsb k : Nat) : (s.addWrap a msb lsb k).hoppers = s.hoppers := by rfl
@[simp] theorem State.addWrap_fields (a msb lsb k : Nat) : (s.addWrap a msb lsb k).fields = s.fields := by rfl
@[simp] theorem State.addWrap_yokes (a msb lsb k : Nat) : (s.addWrap a msb lsb k).yokes = s.yokes := by rfl
@[simp] theorem State.addWrap_island (a msb lsb k : Nat) : (s.addWrap a msb lsb k).island = s.island := by rfl
@[simp] theorem State.addWrap_rein (a msb lsb k : Nat) : (s.addWrap a msb lsb k).rein = s.rein := by rfl
@[simp] theorem State.addWrap_tacks (a msb lsb k : Nat) : (s.addWrap a msb lsb k).tacks = s.tacks := by rfl
@[simp] theorem State.addWrap_chutes (a msb lsb k : Nat) : (s.addWrap a msb lsb k).chutes = s.chutes := by rfl
@[simp] theorem State.addWrap_fifos (a msb lsb k : Nat) : (s.addWrap a msb lsb k).fifos = s.fifos := by rfl
@[simp] theorem State.addWrap_objects (a msb lsb k : Nat) : (s.addWrap a msb lsb k).objects = s.objects := by rfl
@[simp] theorem State.addWrap_buckles (a msb lsb k : Nat) : (s.addWrap a msb lsb k).buckles = s.buckles := by rfl
@[simp] theorem State.addWrap_loader (a msb lsb k : Nat) : (s.addWrap a msb lsb k).loader = s.loader := by rfl
@[simp] theorem State.addWrap_drove (a msb lsb k : Nat) : (s.addWrap a msb lsb k).drove = s.drove := by rfl
@[simp] theorem State.addWrap_chain (a msb lsb k : Nat) : (s.addWrap a msb lsb k).chain = s.chain := by rfl
@[simp] theorem State.addWrap_dram (a msb lsb k : Nat) : (s.addWrap a msb lsb k).dram = s.dram := by rfl
@[simp] theorem State.addWrap_intake (a msb lsb k : Nat) : (s.addWrap a msb lsb k).intake = s.intake := by rfl
@[simp] theorem State.addWrap_pcie (a msb lsb k : Nat) : (s.addWrap a msb lsb k).pcie = s.pcie := by rfl
@[simp] theorem State.addWrap_firmware (a msb lsb k : Nat) : (s.addWrap a msb lsb k).firmware = s.firmware := by rfl
@[simp] theorem State.addWrap_boot (a msb lsb k : Nat) : (s.addWrap a msb lsb k).boot = s.boot := by rfl
@[simp] theorem State.addWrap_links (a msb lsb k : Nat) : (s.addWrap a msb lsb k).links = s.links := by rfl
@[simp] theorem State.addWrap_outbox (a msb lsb k : Nat) : (s.addWrap a msb lsb k).outbox = s.outbox := by rfl
@[simp] theorem State.addWrap_freeCount (a msb lsb k : Nat) : (s.addWrap a msb lsb k).freeCount = s.freeCount := by rfl

@[simp] theorem State.setReg64_pending (lo hi v : Nat) : (s.setReg64 lo hi v).pending = s.pending := by rfl
@[simp] theorem State.setReg64_latch (lo hi v : Nat) : (s.setReg64 lo hi v).latch = s.latch := by rfl
@[simp] theorem State.setReg64_mem (lo hi v : Nat) : (s.setReg64 lo hi v).mem = s.mem := by rfl
@[simp] theorem State.setReg64_marks (lo hi v : Nat) : (s.setReg64 lo hi v).marks = s.marks := by rfl
@[simp] theorem State.setReg64_words (lo hi v : Nat) : (s.setReg64 lo hi v).words = s.words := by rfl
@[simp] theorem State.setReg64_tables (lo hi v : Nat) : (s.setReg64 lo hi v).tables = s.tables := by rfl
@[simp] theorem State.setReg64_time (lo hi v : Nat) : (s.setReg64 lo hi v).time = s.time := by rfl
@[simp] theorem State.setReg64_pins (lo hi v : Nat) : (s.setReg64 lo hi v).pins = s.pins := by rfl
@[simp] theorem State.setReg64_furrows (lo hi v : Nat) : (s.setReg64 lo hi v).furrows = s.furrows := by rfl
@[simp] theorem State.setReg64_hoppers (lo hi v : Nat) : (s.setReg64 lo hi v).hoppers = s.hoppers := by rfl
@[simp] theorem State.setReg64_fields (lo hi v : Nat) : (s.setReg64 lo hi v).fields = s.fields := by rfl
@[simp] theorem State.setReg64_yokes (lo hi v : Nat) : (s.setReg64 lo hi v).yokes = s.yokes := by rfl
@[simp] theorem State.setReg64_island (lo hi v : Nat) : (s.setReg64 lo hi v).island = s.island := by rfl
@[simp] theorem State.setReg64_rein (lo hi v : Nat) : (s.setReg64 lo hi v).rein = s.rein := by rfl
@[simp] theorem State.setReg64_tacks (lo hi v : Nat) : (s.setReg64 lo hi v).tacks = s.tacks := by rfl
@[simp] theorem State.setReg64_chutes (lo hi v : Nat) : (s.setReg64 lo hi v).chutes = s.chutes := by rfl
@[simp] theorem State.setReg64_fifos (lo hi v : Nat) : (s.setReg64 lo hi v).fifos = s.fifos := by rfl
@[simp] theorem State.setReg64_objects (lo hi v : Nat) : (s.setReg64 lo hi v).objects = s.objects := by rfl
@[simp] theorem State.setReg64_buckles (lo hi v : Nat) : (s.setReg64 lo hi v).buckles = s.buckles := by rfl
@[simp] theorem State.setReg64_loader (lo hi v : Nat) : (s.setReg64 lo hi v).loader = s.loader := by rfl
@[simp] theorem State.setReg64_drove (lo hi v : Nat) : (s.setReg64 lo hi v).drove = s.drove := by rfl
@[simp] theorem State.setReg64_chain (lo hi v : Nat) : (s.setReg64 lo hi v).chain = s.chain := by rfl
@[simp] theorem State.setReg64_dram (lo hi v : Nat) : (s.setReg64 lo hi v).dram = s.dram := by rfl
@[simp] theorem State.setReg64_intake (lo hi v : Nat) : (s.setReg64 lo hi v).intake = s.intake := by rfl
@[simp] theorem State.setReg64_pcie (lo hi v : Nat) : (s.setReg64 lo hi v).pcie = s.pcie := by rfl
@[simp] theorem State.setReg64_firmware (lo hi v : Nat) : (s.setReg64 lo hi v).firmware = s.firmware := by rfl
@[simp] theorem State.setReg64_boot (lo hi v : Nat) : (s.setReg64 lo hi v).boot = s.boot := by rfl
@[simp] theorem State.setReg64_links (lo hi v : Nat) : (s.setReg64 lo hi v).links = s.links := by rfl
@[simp] theorem State.setReg64_outbox (lo hi v : Nat) : (s.setReg64 lo hi v).outbox = s.outbox := by rfl
@[simp] theorem State.setReg64_freeCount (lo hi v : Nat) : (s.setReg64 lo hi v).freeCount = s.freeCount := by rfl

@[simp] theorem State.setFurrow_pending (n : Nat) (f : Furrow) : (s.setFurrow n f).pending = s.pending := by rfl
@[simp] theorem State.setFurrow_regs (n : Nat) (f : Furrow) : (s.setFurrow n f).regs = s.regs := by rfl
@[simp] theorem State.setFurrow_latch (n : Nat) (f : Furrow) : (s.setFurrow n f).latch = s.latch := by rfl
@[simp] theorem State.setFurrow_mem (n : Nat) (f : Furrow) : (s.setFurrow n f).mem = s.mem := by rfl
@[simp] theorem State.setFurrow_marks (n : Nat) (f : Furrow) : (s.setFurrow n f).marks = s.marks := by rfl
@[simp] theorem State.setFurrow_words (n : Nat) (f : Furrow) : (s.setFurrow n f).words = s.words := by rfl
@[simp] theorem State.setFurrow_tables (n : Nat) (f : Furrow) : (s.setFurrow n f).tables = s.tables := by rfl
@[simp] theorem State.setFurrow_time (n : Nat) (f : Furrow) : (s.setFurrow n f).time = s.time := by rfl
@[simp] theorem State.setFurrow_pins (n : Nat) (f : Furrow) : (s.setFurrow n f).pins = s.pins := by rfl
@[simp] theorem State.setFurrow_hoppers (n : Nat) (f : Furrow) : (s.setFurrow n f).hoppers = s.hoppers := by rfl
@[simp] theorem State.setFurrow_fields (n : Nat) (f : Furrow) : (s.setFurrow n f).fields = s.fields := by rfl
@[simp] theorem State.setFurrow_yokes (n : Nat) (f : Furrow) : (s.setFurrow n f).yokes = s.yokes := by rfl
@[simp] theorem State.setFurrow_island (n : Nat) (f : Furrow) : (s.setFurrow n f).island = s.island := by rfl
@[simp] theorem State.setFurrow_rein (n : Nat) (f : Furrow) : (s.setFurrow n f).rein = s.rein := by rfl
@[simp] theorem State.setFurrow_tacks (n : Nat) (f : Furrow) : (s.setFurrow n f).tacks = s.tacks := by rfl
@[simp] theorem State.setFurrow_chutes (n : Nat) (f : Furrow) : (s.setFurrow n f).chutes = s.chutes := by rfl
@[simp] theorem State.setFurrow_fifos (n : Nat) (f : Furrow) : (s.setFurrow n f).fifos = s.fifos := by rfl
@[simp] theorem State.setFurrow_objects (n : Nat) (f : Furrow) : (s.setFurrow n f).objects = s.objects := by rfl
@[simp] theorem State.setFurrow_buckles (n : Nat) (f : Furrow) : (s.setFurrow n f).buckles = s.buckles := by rfl
@[simp] theorem State.setFurrow_loader (n : Nat) (f : Furrow) : (s.setFurrow n f).loader = s.loader := by rfl
@[simp] theorem State.setFurrow_drove (n : Nat) (f : Furrow) : (s.setFurrow n f).drove = s.drove := by rfl
@[simp] theorem State.setFurrow_chain (n : Nat) (f : Furrow) : (s.setFurrow n f).chain = s.chain := by rfl
@[simp] theorem State.setFurrow_dram (n : Nat) (f : Furrow) : (s.setFurrow n f).dram = s.dram := by rfl
@[simp] theorem State.setFurrow_intake (n : Nat) (f : Furrow) : (s.setFurrow n f).intake = s.intake := by rfl
@[simp] theorem State.setFurrow_pcie (n : Nat) (f : Furrow) : (s.setFurrow n f).pcie = s.pcie := by rfl
@[simp] theorem State.setFurrow_firmware (n : Nat) (f : Furrow) : (s.setFurrow n f).firmware = s.firmware := by rfl
@[simp] theorem State.setFurrow_boot (n : Nat) (f : Furrow) : (s.setFurrow n f).boot = s.boot := by rfl
@[simp] theorem State.setFurrow_links (n : Nat) (f : Furrow) : (s.setFurrow n f).links = s.links := by rfl
@[simp] theorem State.setFurrow_outbox (n : Nat) (f : Furrow) : (s.setFurrow n f).outbox = s.outbox := by rfl
@[simp] theorem State.setFurrow_freeCount (n : Nat) (f : Furrow) : (s.setFurrow n f).freeCount = s.freeCount := by rfl

@[simp] theorem State.setHopper_pending (h : Nat) (x : Hopper) : (s.setHopper h x).pending = s.pending := by rfl
@[simp] theorem State.setHopper_regs (h : Nat) (x : Hopper) : (s.setHopper h x).regs = s.regs := by rfl
@[simp] theorem State.setHopper_latch (h : Nat) (x : Hopper) : (s.setHopper h x).latch = s.latch := by rfl
@[simp] theorem State.setHopper_mem (h : Nat) (x : Hopper) : (s.setHopper h x).mem = s.mem := by rfl
@[simp] theorem State.setHopper_marks (h : Nat) (x : Hopper) : (s.setHopper h x).marks = s.marks := by rfl
@[simp] theorem State.setHopper_words (h : Nat) (x : Hopper) : (s.setHopper h x).words = s.words := by rfl
@[simp] theorem State.setHopper_tables (h : Nat) (x : Hopper) : (s.setHopper h x).tables = s.tables := by rfl
@[simp] theorem State.setHopper_time (h : Nat) (x : Hopper) : (s.setHopper h x).time = s.time := by rfl
@[simp] theorem State.setHopper_pins (h : Nat) (x : Hopper) : (s.setHopper h x).pins = s.pins := by rfl
@[simp] theorem State.setHopper_furrows (h : Nat) (x : Hopper) : (s.setHopper h x).furrows = s.furrows := by rfl
@[simp] theorem State.setHopper_fields (h : Nat) (x : Hopper) : (s.setHopper h x).fields = s.fields := by rfl
@[simp] theorem State.setHopper_yokes (h : Nat) (x : Hopper) : (s.setHopper h x).yokes = s.yokes := by rfl
@[simp] theorem State.setHopper_island (h : Nat) (x : Hopper) : (s.setHopper h x).island = s.island := by rfl
@[simp] theorem State.setHopper_rein (h : Nat) (x : Hopper) : (s.setHopper h x).rein = s.rein := by rfl
@[simp] theorem State.setHopper_tacks (h : Nat) (x : Hopper) : (s.setHopper h x).tacks = s.tacks := by rfl
@[simp] theorem State.setHopper_chutes (h : Nat) (x : Hopper) : (s.setHopper h x).chutes = s.chutes := by rfl
@[simp] theorem State.setHopper_fifos (h : Nat) (x : Hopper) : (s.setHopper h x).fifos = s.fifos := by rfl
@[simp] theorem State.setHopper_objects (h : Nat) (x : Hopper) : (s.setHopper h x).objects = s.objects := by rfl
@[simp] theorem State.setHopper_buckles (h : Nat) (x : Hopper) : (s.setHopper h x).buckles = s.buckles := by rfl
@[simp] theorem State.setHopper_loader (h : Nat) (x : Hopper) : (s.setHopper h x).loader = s.loader := by rfl
@[simp] theorem State.setHopper_drove (h : Nat) (x : Hopper) : (s.setHopper h x).drove = s.drove := by rfl
@[simp] theorem State.setHopper_chain (h : Nat) (x : Hopper) : (s.setHopper h x).chain = s.chain := by rfl
@[simp] theorem State.setHopper_dram (h : Nat) (x : Hopper) : (s.setHopper h x).dram = s.dram := by rfl
@[simp] theorem State.setHopper_intake (h : Nat) (x : Hopper) : (s.setHopper h x).intake = s.intake := by rfl
@[simp] theorem State.setHopper_pcie (h : Nat) (x : Hopper) : (s.setHopper h x).pcie = s.pcie := by rfl
@[simp] theorem State.setHopper_firmware (h : Nat) (x : Hopper) : (s.setHopper h x).firmware = s.firmware := by rfl
@[simp] theorem State.setHopper_boot (h : Nat) (x : Hopper) : (s.setHopper h x).boot = s.boot := by rfl
@[simp] theorem State.setHopper_links (h : Nat) (x : Hopper) : (s.setHopper h x).links = s.links := by rfl
@[simp] theorem State.setHopper_outbox (h : Nat) (x : Hopper) : (s.setHopper h x).outbox = s.outbox := by rfl
@[simp] theorem State.setHopper_freeCount (h : Nat) (x : Hopper) : (s.setHopper h x).freeCount = s.freeCount := by rfl

@[simp] theorem State.setField_pending (f : Nat) (x : Field) : (s.setField f x).pending = s.pending := by rfl
@[simp] theorem State.setField_regs (f : Nat) (x : Field) : (s.setField f x).regs = s.regs := by rfl
@[simp] theorem State.setField_latch (f : Nat) (x : Field) : (s.setField f x).latch = s.latch := by rfl
@[simp] theorem State.setField_mem (f : Nat) (x : Field) : (s.setField f x).mem = s.mem := by rfl
@[simp] theorem State.setField_marks (f : Nat) (x : Field) : (s.setField f x).marks = s.marks := by rfl
@[simp] theorem State.setField_words (f : Nat) (x : Field) : (s.setField f x).words = s.words := by rfl
@[simp] theorem State.setField_tables (f : Nat) (x : Field) : (s.setField f x).tables = s.tables := by rfl
@[simp] theorem State.setField_time (f : Nat) (x : Field) : (s.setField f x).time = s.time := by rfl
@[simp] theorem State.setField_pins (f : Nat) (x : Field) : (s.setField f x).pins = s.pins := by rfl
@[simp] theorem State.setField_furrows (f : Nat) (x : Field) : (s.setField f x).furrows = s.furrows := by rfl
@[simp] theorem State.setField_hoppers (f : Nat) (x : Field) : (s.setField f x).hoppers = s.hoppers := by rfl
@[simp] theorem State.setField_yokes (f : Nat) (x : Field) : (s.setField f x).yokes = s.yokes := by rfl
@[simp] theorem State.setField_island (f : Nat) (x : Field) : (s.setField f x).island = s.island := by rfl
@[simp] theorem State.setField_rein (f : Nat) (x : Field) : (s.setField f x).rein = s.rein := by rfl
@[simp] theorem State.setField_tacks (f : Nat) (x : Field) : (s.setField f x).tacks = s.tacks := by rfl
@[simp] theorem State.setField_chutes (f : Nat) (x : Field) : (s.setField f x).chutes = s.chutes := by rfl
@[simp] theorem State.setField_fifos (f : Nat) (x : Field) : (s.setField f x).fifos = s.fifos := by rfl
@[simp] theorem State.setField_objects (f : Nat) (x : Field) : (s.setField f x).objects = s.objects := by rfl
@[simp] theorem State.setField_buckles (f : Nat) (x : Field) : (s.setField f x).buckles = s.buckles := by rfl
@[simp] theorem State.setField_loader (f : Nat) (x : Field) : (s.setField f x).loader = s.loader := by rfl
@[simp] theorem State.setField_drove (f : Nat) (x : Field) : (s.setField f x).drove = s.drove := by rfl
@[simp] theorem State.setField_chain (f : Nat) (x : Field) : (s.setField f x).chain = s.chain := by rfl
@[simp] theorem State.setField_dram (f : Nat) (x : Field) : (s.setField f x).dram = s.dram := by rfl
@[simp] theorem State.setField_intake (f : Nat) (x : Field) : (s.setField f x).intake = s.intake := by rfl
@[simp] theorem State.setField_pcie (f : Nat) (x : Field) : (s.setField f x).pcie = s.pcie := by rfl
@[simp] theorem State.setField_firmware (f : Nat) (x : Field) : (s.setField f x).firmware = s.firmware := by rfl
@[simp] theorem State.setField_boot (f : Nat) (x : Field) : (s.setField f x).boot = s.boot := by rfl
@[simp] theorem State.setField_links (f : Nat) (x : Field) : (s.setField f x).links = s.links := by rfl
@[simp] theorem State.setField_outbox (f : Nat) (x : Field) : (s.setField f x).outbox = s.outbox := by rfl
@[simp] theorem State.setField_freeCount (f : Nat) (x : Field) : (s.setField f x).freeCount = s.freeCount := by rfl

@[simp] theorem State.setFunction_pending (n : Nat) (x : PcieFunction) : (s.setFunction n x).pending = s.pending := by rfl
@[simp] theorem State.setFunction_regs (n : Nat) (x : PcieFunction) : (s.setFunction n x).regs = s.regs := by rfl
@[simp] theorem State.setFunction_latch (n : Nat) (x : PcieFunction) : (s.setFunction n x).latch = s.latch := by rfl
@[simp] theorem State.setFunction_mem (n : Nat) (x : PcieFunction) : (s.setFunction n x).mem = s.mem := by rfl
@[simp] theorem State.setFunction_marks (n : Nat) (x : PcieFunction) : (s.setFunction n x).marks = s.marks := by rfl
@[simp] theorem State.setFunction_words (n : Nat) (x : PcieFunction) : (s.setFunction n x).words = s.words := by rfl
@[simp] theorem State.setFunction_tables (n : Nat) (x : PcieFunction) : (s.setFunction n x).tables = s.tables := by rfl
@[simp] theorem State.setFunction_time (n : Nat) (x : PcieFunction) : (s.setFunction n x).time = s.time := by rfl
@[simp] theorem State.setFunction_pins (n : Nat) (x : PcieFunction) : (s.setFunction n x).pins = s.pins := by rfl
@[simp] theorem State.setFunction_furrows (n : Nat) (x : PcieFunction) : (s.setFunction n x).furrows = s.furrows := by rfl
@[simp] theorem State.setFunction_hoppers (n : Nat) (x : PcieFunction) : (s.setFunction n x).hoppers = s.hoppers := by rfl
@[simp] theorem State.setFunction_fields (n : Nat) (x : PcieFunction) : (s.setFunction n x).fields = s.fields := by rfl
@[simp] theorem State.setFunction_yokes (n : Nat) (x : PcieFunction) : (s.setFunction n x).yokes = s.yokes := by rfl
@[simp] theorem State.setFunction_island (n : Nat) (x : PcieFunction) : (s.setFunction n x).island = s.island := by rfl
@[simp] theorem State.setFunction_rein (n : Nat) (x : PcieFunction) : (s.setFunction n x).rein = s.rein := by rfl
@[simp] theorem State.setFunction_tacks (n : Nat) (x : PcieFunction) : (s.setFunction n x).tacks = s.tacks := by rfl
@[simp] theorem State.setFunction_chutes (n : Nat) (x : PcieFunction) : (s.setFunction n x).chutes = s.chutes := by rfl
@[simp] theorem State.setFunction_fifos (n : Nat) (x : PcieFunction) : (s.setFunction n x).fifos = s.fifos := by rfl
@[simp] theorem State.setFunction_objects (n : Nat) (x : PcieFunction) : (s.setFunction n x).objects = s.objects := by rfl
@[simp] theorem State.setFunction_buckles (n : Nat) (x : PcieFunction) : (s.setFunction n x).buckles = s.buckles := by rfl
@[simp] theorem State.setFunction_loader (n : Nat) (x : PcieFunction) : (s.setFunction n x).loader = s.loader := by rfl
@[simp] theorem State.setFunction_drove (n : Nat) (x : PcieFunction) : (s.setFunction n x).drove = s.drove := by rfl
@[simp] theorem State.setFunction_chain (n : Nat) (x : PcieFunction) : (s.setFunction n x).chain = s.chain := by rfl
@[simp] theorem State.setFunction_dram (n : Nat) (x : PcieFunction) : (s.setFunction n x).dram = s.dram := by rfl
@[simp] theorem State.setFunction_intake (n : Nat) (x : PcieFunction) : (s.setFunction n x).intake = s.intake := by rfl
@[simp] theorem State.setFunction_firmware (n : Nat) (x : PcieFunction) : (s.setFunction n x).firmware = s.firmware := by rfl
@[simp] theorem State.setFunction_boot (n : Nat) (x : PcieFunction) : (s.setFunction n x).boot = s.boot := by rfl
@[simp] theorem State.setFunction_links (n : Nat) (x : PcieFunction) : (s.setFunction n x).links = s.links := by rfl
@[simp] theorem State.setFunction_outbox (n : Nat) (x : PcieFunction) : (s.setFunction n x).outbox = s.outbox := by rfl
@[simp] theorem State.setFunction_freeCount (n : Nat) (x : PcieFunction) : (s.setFunction n x).freeCount = s.freeCount := by rfl

@[simp] theorem State.mapToken_pending (g : WarmToken → WarmToken) : (s.mapToken g).pending = s.pending := by rfl
@[simp] theorem State.mapToken_regs (g : WarmToken → WarmToken) : (s.mapToken g).regs = s.regs := by rfl
@[simp] theorem State.mapToken_latch (g : WarmToken → WarmToken) : (s.mapToken g).latch = s.latch := by rfl
@[simp] theorem State.mapToken_mem (g : WarmToken → WarmToken) : (s.mapToken g).mem = s.mem := by rfl
@[simp] theorem State.mapToken_marks (g : WarmToken → WarmToken) : (s.mapToken g).marks = s.marks := by rfl
@[simp] theorem State.mapToken_words (g : WarmToken → WarmToken) : (s.mapToken g).words = s.words := by rfl
@[simp] theorem State.mapToken_tables (g : WarmToken → WarmToken) : (s.mapToken g).tables = s.tables := by rfl
@[simp] theorem State.mapToken_time (g : WarmToken → WarmToken) : (s.mapToken g).time = s.time := by rfl
@[simp] theorem State.mapToken_pins (g : WarmToken → WarmToken) : (s.mapToken g).pins = s.pins := by rfl
@[simp] theorem State.mapToken_furrows (g : WarmToken → WarmToken) : (s.mapToken g).furrows = s.furrows := by rfl
@[simp] theorem State.mapToken_hoppers (g : WarmToken → WarmToken) : (s.mapToken g).hoppers = s.hoppers := by rfl
@[simp] theorem State.mapToken_fields (g : WarmToken → WarmToken) : (s.mapToken g).fields = s.fields := by rfl
@[simp] theorem State.mapToken_yokes (g : WarmToken → WarmToken) : (s.mapToken g).yokes = s.yokes := by rfl
@[simp] theorem State.mapToken_island (g : WarmToken → WarmToken) : (s.mapToken g).island = s.island := by rfl
@[simp] theorem State.mapToken_rein (g : WarmToken → WarmToken) : (s.mapToken g).rein = s.rein := by rfl
@[simp] theorem State.mapToken_tacks (g : WarmToken → WarmToken) : (s.mapToken g).tacks = s.tacks := by rfl
@[simp] theorem State.mapToken_chutes (g : WarmToken → WarmToken) : (s.mapToken g).chutes = s.chutes := by rfl
@[simp] theorem State.mapToken_fifos (g : WarmToken → WarmToken) : (s.mapToken g).fifos = s.fifos := by rfl
@[simp] theorem State.mapToken_objects (g : WarmToken → WarmToken) : (s.mapToken g).objects = s.objects := by rfl
@[simp] theorem State.mapToken_buckles (g : WarmToken → WarmToken) : (s.mapToken g).buckles = s.buckles := by rfl
@[simp] theorem State.mapToken_loader (g : WarmToken → WarmToken) : (s.mapToken g).loader = s.loader := by rfl
@[simp] theorem State.mapToken_drove (g : WarmToken → WarmToken) : (s.mapToken g).drove = s.drove := by rfl
@[simp] theorem State.mapToken_chain (g : WarmToken → WarmToken) : (s.mapToken g).chain = s.chain := by rfl
@[simp] theorem State.mapToken_dram (g : WarmToken → WarmToken) : (s.mapToken g).dram = s.dram := by rfl
@[simp] theorem State.mapToken_intake (g : WarmToken → WarmToken) : (s.mapToken g).intake = s.intake := by rfl
@[simp] theorem State.mapToken_pcie (g : WarmToken → WarmToken) : (s.mapToken g).pcie = s.pcie := by rfl
@[simp] theorem State.mapToken_firmware (g : WarmToken → WarmToken) : (s.mapToken g).firmware = s.firmware := by rfl
@[simp] theorem State.mapToken_links (g : WarmToken → WarmToken) : (s.mapToken g).links = s.links := by rfl
@[simp] theorem State.mapToken_outbox (g : WarmToken → WarmToken) : (s.mapToken g).outbox = s.outbox := by rfl
@[simp] theorem State.mapToken_freeCount (g : WarmToken → WarmToken) : (s.mapToken g).freeCount = s.freeCount := by rfl

@[simp] theorem State.poke_pending (a : Nat) (bs : List Byte) : (s.poke a bs).pending = s.pending := by rfl
@[simp] theorem State.poke_regs (a : Nat) (bs : List Byte) : (s.poke a bs).regs = s.regs := by rfl
@[simp] theorem State.poke_latch (a : Nat) (bs : List Byte) : (s.poke a bs).latch = s.latch := by rfl
@[simp] theorem State.poke_marks (a : Nat) (bs : List Byte) : (s.poke a bs).marks = s.marks := by rfl
@[simp] theorem State.poke_words (a : Nat) (bs : List Byte) : (s.poke a bs).words = s.words := by rfl
@[simp] theorem State.poke_tables (a : Nat) (bs : List Byte) : (s.poke a bs).tables = s.tables := by rfl
@[simp] theorem State.poke_time (a : Nat) (bs : List Byte) : (s.poke a bs).time = s.time := by rfl
@[simp] theorem State.poke_pins (a : Nat) (bs : List Byte) : (s.poke a bs).pins = s.pins := by rfl
@[simp] theorem State.poke_furrows (a : Nat) (bs : List Byte) : (s.poke a bs).furrows = s.furrows := by rfl
@[simp] theorem State.poke_hoppers (a : Nat) (bs : List Byte) : (s.poke a bs).hoppers = s.hoppers := by rfl
@[simp] theorem State.poke_fields (a : Nat) (bs : List Byte) : (s.poke a bs).fields = s.fields := by rfl
@[simp] theorem State.poke_yokes (a : Nat) (bs : List Byte) : (s.poke a bs).yokes = s.yokes := by rfl
@[simp] theorem State.poke_island (a : Nat) (bs : List Byte) : (s.poke a bs).island = s.island := by rfl
@[simp] theorem State.poke_rein (a : Nat) (bs : List Byte) : (s.poke a bs).rein = s.rein := by rfl
@[simp] theorem State.poke_tacks (a : Nat) (bs : List Byte) : (s.poke a bs).tacks = s.tacks := by rfl
@[simp] theorem State.poke_chutes (a : Nat) (bs : List Byte) : (s.poke a bs).chutes = s.chutes := by rfl
@[simp] theorem State.poke_fifos (a : Nat) (bs : List Byte) : (s.poke a bs).fifos = s.fifos := by rfl
@[simp] theorem State.poke_objects (a : Nat) (bs : List Byte) : (s.poke a bs).objects = s.objects := by rfl
@[simp] theorem State.poke_buckles (a : Nat) (bs : List Byte) : (s.poke a bs).buckles = s.buckles := by rfl
@[simp] theorem State.poke_loader (a : Nat) (bs : List Byte) : (s.poke a bs).loader = s.loader := by rfl
@[simp] theorem State.poke_drove (a : Nat) (bs : List Byte) : (s.poke a bs).drove = s.drove := by rfl
@[simp] theorem State.poke_chain (a : Nat) (bs : List Byte) : (s.poke a bs).chain = s.chain := by rfl
@[simp] theorem State.poke_dram (a : Nat) (bs : List Byte) : (s.poke a bs).dram = s.dram := by rfl
@[simp] theorem State.poke_intake (a : Nat) (bs : List Byte) : (s.poke a bs).intake = s.intake := by rfl
@[simp] theorem State.poke_pcie (a : Nat) (bs : List Byte) : (s.poke a bs).pcie = s.pcie := by rfl
@[simp] theorem State.poke_firmware (a : Nat) (bs : List Byte) : (s.poke a bs).firmware = s.firmware := by rfl
@[simp] theorem State.poke_boot (a : Nat) (bs : List Byte) : (s.poke a bs).boot = s.boot := by rfl
@[simp] theorem State.poke_links (a : Nat) (bs : List Byte) : (s.poke a bs).links = s.links := by rfl
@[simp] theorem State.poke_outbox (a : Nat) (bs : List Byte) : (s.poke a bs).outbox = s.outbox := by rfl
@[simp] theorem State.poke_freeCount (a : Nat) (bs : List Byte) : (s.poke a bs).freeCount = s.freeCount := by rfl

@[simp] theorem State.setMark_pending (g : Nat) (m : Mark) : (s.setMark g m).pending = s.pending := by rfl
@[simp] theorem State.setMark_regs (g : Nat) (m : Mark) : (s.setMark g m).regs = s.regs := by rfl
@[simp] theorem State.setMark_latch (g : Nat) (m : Mark) : (s.setMark g m).latch = s.latch := by rfl
@[simp] theorem State.setMark_mem (g : Nat) (m : Mark) : (s.setMark g m).mem = s.mem := by rfl
@[simp] theorem State.setMark_words (g : Nat) (m : Mark) : (s.setMark g m).words = s.words := by rfl
@[simp] theorem State.setMark_tables (g : Nat) (m : Mark) : (s.setMark g m).tables = s.tables := by rfl
@[simp] theorem State.setMark_time (g : Nat) (m : Mark) : (s.setMark g m).time = s.time := by rfl
@[simp] theorem State.setMark_pins (g : Nat) (m : Mark) : (s.setMark g m).pins = s.pins := by rfl
@[simp] theorem State.setMark_furrows (g : Nat) (m : Mark) : (s.setMark g m).furrows = s.furrows := by rfl
@[simp] theorem State.setMark_hoppers (g : Nat) (m : Mark) : (s.setMark g m).hoppers = s.hoppers := by rfl
@[simp] theorem State.setMark_fields (g : Nat) (m : Mark) : (s.setMark g m).fields = s.fields := by rfl
@[simp] theorem State.setMark_yokes (g : Nat) (m : Mark) : (s.setMark g m).yokes = s.yokes := by rfl
@[simp] theorem State.setMark_island (g : Nat) (m : Mark) : (s.setMark g m).island = s.island := by rfl
@[simp] theorem State.setMark_rein (g : Nat) (m : Mark) : (s.setMark g m).rein = s.rein := by rfl
@[simp] theorem State.setMark_tacks (g : Nat) (m : Mark) : (s.setMark g m).tacks = s.tacks := by rfl
@[simp] theorem State.setMark_chutes (g : Nat) (m : Mark) : (s.setMark g m).chutes = s.chutes := by rfl
@[simp] theorem State.setMark_fifos (g : Nat) (m : Mark) : (s.setMark g m).fifos = s.fifos := by rfl
@[simp] theorem State.setMark_objects (g : Nat) (m : Mark) : (s.setMark g m).objects = s.objects := by rfl
@[simp] theorem State.setMark_buckles (g : Nat) (m : Mark) : (s.setMark g m).buckles = s.buckles := by rfl
@[simp] theorem State.setMark_loader (g : Nat) (m : Mark) : (s.setMark g m).loader = s.loader := by rfl
@[simp] theorem State.setMark_drove (g : Nat) (m : Mark) : (s.setMark g m).drove = s.drove := by rfl
@[simp] theorem State.setMark_chain (g : Nat) (m : Mark) : (s.setMark g m).chain = s.chain := by rfl
@[simp] theorem State.setMark_dram (g : Nat) (m : Mark) : (s.setMark g m).dram = s.dram := by rfl
@[simp] theorem State.setMark_intake (g : Nat) (m : Mark) : (s.setMark g m).intake = s.intake := by rfl
@[simp] theorem State.setMark_pcie (g : Nat) (m : Mark) : (s.setMark g m).pcie = s.pcie := by rfl
@[simp] theorem State.setMark_firmware (g : Nat) (m : Mark) : (s.setMark g m).firmware = s.firmware := by rfl
@[simp] theorem State.setMark_boot (g : Nat) (m : Mark) : (s.setMark g m).boot = s.boot := by rfl
@[simp] theorem State.setMark_links (g : Nat) (m : Mark) : (s.setMark g m).links = s.links := by rfl
@[simp] theorem State.setMark_outbox (g : Nat) (m : Mark) : (s.setMark g m).outbox = s.outbox := by rfl
@[simp] theorem State.setMark_freeCount (g : Nat) (m : Mark) : (s.setMark g m).freeCount = s.freeCount := by rfl

@[simp] theorem State.raise_pending (e : Event) : (s.raise e).pending = s.pending := by rfl
@[simp] theorem State.raise_regs (e : Event) : (s.raise e).regs = s.regs := by rfl
@[simp] theorem State.raise_latch (e : Event) : (s.raise e).latch = s.latch := by rfl
@[simp] theorem State.raise_mem (e : Event) : (s.raise e).mem = s.mem := by rfl
@[simp] theorem State.raise_marks (e : Event) : (s.raise e).marks = s.marks := by rfl
@[simp] theorem State.raise_words (e : Event) : (s.raise e).words = s.words := by rfl
@[simp] theorem State.raise_tables (e : Event) : (s.raise e).tables = s.tables := by rfl
@[simp] theorem State.raise_time (e : Event) : (s.raise e).time = s.time := by rfl
@[simp] theorem State.raise_pins (e : Event) : (s.raise e).pins = s.pins := by rfl
@[simp] theorem State.raise_furrows (e : Event) : (s.raise e).furrows = s.furrows := by rfl
@[simp] theorem State.raise_hoppers (e : Event) : (s.raise e).hoppers = s.hoppers := by rfl
@[simp] theorem State.raise_fields (e : Event) : (s.raise e).fields = s.fields := by rfl
@[simp] theorem State.raise_yokes (e : Event) : (s.raise e).yokes = s.yokes := by rfl
@[simp] theorem State.raise_rein (e : Event) : (s.raise e).rein = s.rein := by rfl
@[simp] theorem State.raise_tacks (e : Event) : (s.raise e).tacks = s.tacks := by rfl
@[simp] theorem State.raise_chutes (e : Event) : (s.raise e).chutes = s.chutes := by rfl
@[simp] theorem State.raise_fifos (e : Event) : (s.raise e).fifos = s.fifos := by rfl
@[simp] theorem State.raise_objects (e : Event) : (s.raise e).objects = s.objects := by rfl
@[simp] theorem State.raise_buckles (e : Event) : (s.raise e).buckles = s.buckles := by rfl
@[simp] theorem State.raise_loader (e : Event) : (s.raise e).loader = s.loader := by rfl
@[simp] theorem State.raise_drove (e : Event) : (s.raise e).drove = s.drove := by rfl
@[simp] theorem State.raise_chain (e : Event) : (s.raise e).chain = s.chain := by rfl
@[simp] theorem State.raise_dram (e : Event) : (s.raise e).dram = s.dram := by rfl
@[simp] theorem State.raise_intake (e : Event) : (s.raise e).intake = s.intake := by rfl
@[simp] theorem State.raise_pcie (e : Event) : (s.raise e).pcie = s.pcie := by rfl
@[simp] theorem State.raise_firmware (e : Event) : (s.raise e).firmware = s.firmware := by rfl
@[simp] theorem State.raise_boot (e : Event) : (s.raise e).boot = s.boot := by rfl
@[simp] theorem State.raise_links (e : Event) : (s.raise e).links = s.links := by rfl
@[simp] theorem State.raise_outbox (e : Event) : (s.raise e).outbox = s.outbox := by rfl
@[simp] theorem State.raise_freeCount (e : Event) : (s.raise e).freeCount = s.freeCount := by rfl

@[simp] theorem State.raiseOpen_pending (k cls i : Nat) : (s.raiseOpen k cls i).pending = s.pending := by rfl
@[simp] theorem State.raiseOpen_regs (k cls i : Nat) : (s.raiseOpen k cls i).regs = s.regs := by rfl
@[simp] theorem State.raiseOpen_latch (k cls i : Nat) : (s.raiseOpen k cls i).latch = s.latch := by rfl
@[simp] theorem State.raiseOpen_mem (k cls i : Nat) : (s.raiseOpen k cls i).mem = s.mem := by rfl
@[simp] theorem State.raiseOpen_marks (k cls i : Nat) : (s.raiseOpen k cls i).marks = s.marks := by rfl
@[simp] theorem State.raiseOpen_words (k cls i : Nat) : (s.raiseOpen k cls i).words = s.words := by rfl
@[simp] theorem State.raiseOpen_tables (k cls i : Nat) : (s.raiseOpen k cls i).tables = s.tables := by rfl
@[simp] theorem State.raiseOpen_time (k cls i : Nat) : (s.raiseOpen k cls i).time = s.time := by rfl
@[simp] theorem State.raiseOpen_pins (k cls i : Nat) : (s.raiseOpen k cls i).pins = s.pins := by rfl
@[simp] theorem State.raiseOpen_furrows (k cls i : Nat) : (s.raiseOpen k cls i).furrows = s.furrows := by rfl
@[simp] theorem State.raiseOpen_hoppers (k cls i : Nat) : (s.raiseOpen k cls i).hoppers = s.hoppers := by rfl
@[simp] theorem State.raiseOpen_fields (k cls i : Nat) : (s.raiseOpen k cls i).fields = s.fields := by rfl
@[simp] theorem State.raiseOpen_yokes (k cls i : Nat) : (s.raiseOpen k cls i).yokes = s.yokes := by rfl
@[simp] theorem State.raiseOpen_rein (k cls i : Nat) : (s.raiseOpen k cls i).rein = s.rein := by rfl
@[simp] theorem State.raiseOpen_tacks (k cls i : Nat) : (s.raiseOpen k cls i).tacks = s.tacks := by rfl
@[simp] theorem State.raiseOpen_chutes (k cls i : Nat) : (s.raiseOpen k cls i).chutes = s.chutes := by rfl
@[simp] theorem State.raiseOpen_fifos (k cls i : Nat) : (s.raiseOpen k cls i).fifos = s.fifos := by rfl
@[simp] theorem State.raiseOpen_objects (k cls i : Nat) : (s.raiseOpen k cls i).objects = s.objects := by rfl
@[simp] theorem State.raiseOpen_buckles (k cls i : Nat) : (s.raiseOpen k cls i).buckles = s.buckles := by rfl
@[simp] theorem State.raiseOpen_loader (k cls i : Nat) : (s.raiseOpen k cls i).loader = s.loader := by rfl
@[simp] theorem State.raiseOpen_drove (k cls i : Nat) : (s.raiseOpen k cls i).drove = s.drove := by rfl
@[simp] theorem State.raiseOpen_chain (k cls i : Nat) : (s.raiseOpen k cls i).chain = s.chain := by rfl
@[simp] theorem State.raiseOpen_dram (k cls i : Nat) : (s.raiseOpen k cls i).dram = s.dram := by rfl
@[simp] theorem State.raiseOpen_intake (k cls i : Nat) : (s.raiseOpen k cls i).intake = s.intake := by rfl
@[simp] theorem State.raiseOpen_pcie (k cls i : Nat) : (s.raiseOpen k cls i).pcie = s.pcie := by rfl
@[simp] theorem State.raiseOpen_firmware (k cls i : Nat) : (s.raiseOpen k cls i).firmware = s.firmware := by rfl
@[simp] theorem State.raiseOpen_boot (k cls i : Nat) : (s.raiseOpen k cls i).boot = s.boot := by rfl
@[simp] theorem State.raiseOpen_links (k cls i : Nat) : (s.raiseOpen k cls i).links = s.links := by rfl
@[simp] theorem State.raiseOpen_outbox (k cls i : Nat) : (s.raiseOpen k cls i).outbox = s.outbox := by rfl
@[simp] theorem State.raiseOpen_freeCount (k cls i : Nat) : (s.raiseOpen k cls i).freeCount = s.freeCount := by rfl

@[simp] theorem State.setWord_pending (b : WordBuffer) (i k : Nat) (m : Mark) : (s.setWord b i k m).pending = s.pending := by rfl
@[simp] theorem State.setWord_regs (b : WordBuffer) (i k : Nat) (m : Mark) : (s.setWord b i k m).regs = s.regs := by rfl
@[simp] theorem State.setWord_latch (b : WordBuffer) (i k : Nat) (m : Mark) : (s.setWord b i k m).latch = s.latch := by rfl
@[simp] theorem State.setWord_mem (b : WordBuffer) (i k : Nat) (m : Mark) : (s.setWord b i k m).mem = s.mem := by rfl
@[simp] theorem State.setWord_marks (b : WordBuffer) (i k : Nat) (m : Mark) : (s.setWord b i k m).marks = s.marks := by rfl
@[simp] theorem State.setWord_tables (b : WordBuffer) (i k : Nat) (m : Mark) : (s.setWord b i k m).tables = s.tables := by rfl
@[simp] theorem State.setWord_time (b : WordBuffer) (i k : Nat) (m : Mark) : (s.setWord b i k m).time = s.time := by rfl
@[simp] theorem State.setWord_pins (b : WordBuffer) (i k : Nat) (m : Mark) : (s.setWord b i k m).pins = s.pins := by rfl
@[simp] theorem State.setWord_furrows (b : WordBuffer) (i k : Nat) (m : Mark) : (s.setWord b i k m).furrows = s.furrows := by rfl
@[simp] theorem State.setWord_hoppers (b : WordBuffer) (i k : Nat) (m : Mark) : (s.setWord b i k m).hoppers = s.hoppers := by rfl
@[simp] theorem State.setWord_fields (b : WordBuffer) (i k : Nat) (m : Mark) : (s.setWord b i k m).fields = s.fields := by rfl
@[simp] theorem State.setWord_yokes (b : WordBuffer) (i k : Nat) (m : Mark) : (s.setWord b i k m).yokes = s.yokes := by rfl
@[simp] theorem State.setWord_island (b : WordBuffer) (i k : Nat) (m : Mark) : (s.setWord b i k m).island = s.island := by rfl
@[simp] theorem State.setWord_rein (b : WordBuffer) (i k : Nat) (m : Mark) : (s.setWord b i k m).rein = s.rein := by rfl
@[simp] theorem State.setWord_tacks (b : WordBuffer) (i k : Nat) (m : Mark) : (s.setWord b i k m).tacks = s.tacks := by rfl
@[simp] theorem State.setWord_chutes (b : WordBuffer) (i k : Nat) (m : Mark) : (s.setWord b i k m).chutes = s.chutes := by rfl
@[simp] theorem State.setWord_fifos (b : WordBuffer) (i k : Nat) (m : Mark) : (s.setWord b i k m).fifos = s.fifos := by rfl
@[simp] theorem State.setWord_objects (b : WordBuffer) (i k : Nat) (m : Mark) : (s.setWord b i k m).objects = s.objects := by rfl
@[simp] theorem State.setWord_buckles (b : WordBuffer) (i k : Nat) (m : Mark) : (s.setWord b i k m).buckles = s.buckles := by rfl
@[simp] theorem State.setWord_loader (b : WordBuffer) (i k : Nat) (m : Mark) : (s.setWord b i k m).loader = s.loader := by rfl
@[simp] theorem State.setWord_drove (b : WordBuffer) (i k : Nat) (m : Mark) : (s.setWord b i k m).drove = s.drove := by rfl
@[simp] theorem State.setWord_chain (b : WordBuffer) (i k : Nat) (m : Mark) : (s.setWord b i k m).chain = s.chain := by rfl
@[simp] theorem State.setWord_dram (b : WordBuffer) (i k : Nat) (m : Mark) : (s.setWord b i k m).dram = s.dram := by rfl
@[simp] theorem State.setWord_intake (b : WordBuffer) (i k : Nat) (m : Mark) : (s.setWord b i k m).intake = s.intake := by rfl
@[simp] theorem State.setWord_pcie (b : WordBuffer) (i k : Nat) (m : Mark) : (s.setWord b i k m).pcie = s.pcie := by rfl
@[simp] theorem State.setWord_firmware (b : WordBuffer) (i k : Nat) (m : Mark) : (s.setWord b i k m).firmware = s.firmware := by rfl
@[simp] theorem State.setWord_boot (b : WordBuffer) (i k : Nat) (m : Mark) : (s.setWord b i k m).boot = s.boot := by rfl
@[simp] theorem State.setWord_links (b : WordBuffer) (i k : Nat) (m : Mark) : (s.setWord b i k m).links = s.links := by rfl
@[simp] theorem State.setWord_outbox (b : WordBuffer) (i k : Nat) (m : Mark) : (s.setWord b i k m).outbox = s.outbox := by rfl
@[simp] theorem State.setWord_freeCount (b : WordBuffer) (i k : Nat) (m : Mark) : (s.setWord b i k m).freeCount = s.freeCount := by rfl

@[simp] theorem State.rewriteWords_pending (b : WordBuffer) (i : Nat) : (s.rewriteWords b i).pending = s.pending := by rfl
@[simp] theorem State.rewriteWords_regs (b : WordBuffer) (i : Nat) : (s.rewriteWords b i).regs = s.regs := by rfl
@[simp] theorem State.rewriteWords_latch (b : WordBuffer) (i : Nat) : (s.rewriteWords b i).latch = s.latch := by rfl
@[simp] theorem State.rewriteWords_mem (b : WordBuffer) (i : Nat) : (s.rewriteWords b i).mem = s.mem := by rfl
@[simp] theorem State.rewriteWords_marks (b : WordBuffer) (i : Nat) : (s.rewriteWords b i).marks = s.marks := by rfl
@[simp] theorem State.rewriteWords_tables (b : WordBuffer) (i : Nat) : (s.rewriteWords b i).tables = s.tables := by rfl
@[simp] theorem State.rewriteWords_time (b : WordBuffer) (i : Nat) : (s.rewriteWords b i).time = s.time := by rfl
@[simp] theorem State.rewriteWords_pins (b : WordBuffer) (i : Nat) : (s.rewriteWords b i).pins = s.pins := by rfl
@[simp] theorem State.rewriteWords_furrows (b : WordBuffer) (i : Nat) : (s.rewriteWords b i).furrows = s.furrows := by rfl
@[simp] theorem State.rewriteWords_hoppers (b : WordBuffer) (i : Nat) : (s.rewriteWords b i).hoppers = s.hoppers := by rfl
@[simp] theorem State.rewriteWords_fields (b : WordBuffer) (i : Nat) : (s.rewriteWords b i).fields = s.fields := by rfl
@[simp] theorem State.rewriteWords_yokes (b : WordBuffer) (i : Nat) : (s.rewriteWords b i).yokes = s.yokes := by rfl
@[simp] theorem State.rewriteWords_island (b : WordBuffer) (i : Nat) : (s.rewriteWords b i).island = s.island := by rfl
@[simp] theorem State.rewriteWords_rein (b : WordBuffer) (i : Nat) : (s.rewriteWords b i).rein = s.rein := by rfl
@[simp] theorem State.rewriteWords_tacks (b : WordBuffer) (i : Nat) : (s.rewriteWords b i).tacks = s.tacks := by rfl
@[simp] theorem State.rewriteWords_chutes (b : WordBuffer) (i : Nat) : (s.rewriteWords b i).chutes = s.chutes := by rfl
@[simp] theorem State.rewriteWords_fifos (b : WordBuffer) (i : Nat) : (s.rewriteWords b i).fifos = s.fifos := by rfl
@[simp] theorem State.rewriteWords_objects (b : WordBuffer) (i : Nat) : (s.rewriteWords b i).objects = s.objects := by rfl
@[simp] theorem State.rewriteWords_buckles (b : WordBuffer) (i : Nat) : (s.rewriteWords b i).buckles = s.buckles := by rfl
@[simp] theorem State.rewriteWords_loader (b : WordBuffer) (i : Nat) : (s.rewriteWords b i).loader = s.loader := by rfl
@[simp] theorem State.rewriteWords_drove (b : WordBuffer) (i : Nat) : (s.rewriteWords b i).drove = s.drove := by rfl
@[simp] theorem State.rewriteWords_chain (b : WordBuffer) (i : Nat) : (s.rewriteWords b i).chain = s.chain := by rfl
@[simp] theorem State.rewriteWords_dram (b : WordBuffer) (i : Nat) : (s.rewriteWords b i).dram = s.dram := by rfl
@[simp] theorem State.rewriteWords_intake (b : WordBuffer) (i : Nat) : (s.rewriteWords b i).intake = s.intake := by rfl
@[simp] theorem State.rewriteWords_pcie (b : WordBuffer) (i : Nat) : (s.rewriteWords b i).pcie = s.pcie := by rfl
@[simp] theorem State.rewriteWords_firmware (b : WordBuffer) (i : Nat) : (s.rewriteWords b i).firmware = s.firmware := by rfl
@[simp] theorem State.rewriteWords_boot (b : WordBuffer) (i : Nat) : (s.rewriteWords b i).boot = s.boot := by rfl
@[simp] theorem State.rewriteWords_links (b : WordBuffer) (i : Nat) : (s.rewriteWords b i).links = s.links := by rfl
@[simp] theorem State.rewriteWords_outbox (b : WordBuffer) (i : Nat) : (s.rewriteWords b i).outbox = s.outbox := by rfl
@[simp] theorem State.rewriteWords_freeCount (b : WordBuffer) (i : Nat) : (s.rewriteWords b i).freeCount = s.freeCount := by rfl

@[simp] theorem State.emit_pending (o : Output) : (s.emit o).pending = s.pending := by rfl
@[simp] theorem State.emit_regs (o : Output) : (s.emit o).regs = s.regs := by rfl
@[simp] theorem State.emit_latch (o : Output) : (s.emit o).latch = s.latch := by rfl
@[simp] theorem State.emit_mem (o : Output) : (s.emit o).mem = s.mem := by rfl
@[simp] theorem State.emit_marks (o : Output) : (s.emit o).marks = s.marks := by rfl
@[simp] theorem State.emit_words (o : Output) : (s.emit o).words = s.words := by rfl
@[simp] theorem State.emit_tables (o : Output) : (s.emit o).tables = s.tables := by rfl
@[simp] theorem State.emit_time (o : Output) : (s.emit o).time = s.time := by rfl
@[simp] theorem State.emit_pins (o : Output) : (s.emit o).pins = s.pins := by rfl
@[simp] theorem State.emit_furrows (o : Output) : (s.emit o).furrows = s.furrows := by rfl
@[simp] theorem State.emit_hoppers (o : Output) : (s.emit o).hoppers = s.hoppers := by rfl
@[simp] theorem State.emit_fields (o : Output) : (s.emit o).fields = s.fields := by rfl
@[simp] theorem State.emit_yokes (o : Output) : (s.emit o).yokes = s.yokes := by rfl
@[simp] theorem State.emit_island (o : Output) : (s.emit o).island = s.island := by rfl
@[simp] theorem State.emit_rein (o : Output) : (s.emit o).rein = s.rein := by rfl
@[simp] theorem State.emit_tacks (o : Output) : (s.emit o).tacks = s.tacks := by rfl
@[simp] theorem State.emit_chutes (o : Output) : (s.emit o).chutes = s.chutes := by rfl
@[simp] theorem State.emit_fifos (o : Output) : (s.emit o).fifos = s.fifos := by rfl
@[simp] theorem State.emit_objects (o : Output) : (s.emit o).objects = s.objects := by rfl
@[simp] theorem State.emit_buckles (o : Output) : (s.emit o).buckles = s.buckles := by rfl
@[simp] theorem State.emit_loader (o : Output) : (s.emit o).loader = s.loader := by rfl
@[simp] theorem State.emit_drove (o : Output) : (s.emit o).drove = s.drove := by rfl
@[simp] theorem State.emit_chain (o : Output) : (s.emit o).chain = s.chain := by rfl
@[simp] theorem State.emit_dram (o : Output) : (s.emit o).dram = s.dram := by rfl
@[simp] theorem State.emit_intake (o : Output) : (s.emit o).intake = s.intake := by rfl
@[simp] theorem State.emit_pcie (o : Output) : (s.emit o).pcie = s.pcie := by rfl
@[simp] theorem State.emit_firmware (o : Output) : (s.emit o).firmware = s.firmware := by rfl
@[simp] theorem State.emit_boot (o : Output) : (s.emit o).boot = s.boot := by rfl
@[simp] theorem State.emit_links (o : Output) : (s.emit o).links = s.links := by rfl
@[simp] theorem State.emit_freeCount (o : Output) : (s.emit o).freeCount = s.freeCount := by rfl

@[simp] theorem State.takeFree_pending : (s.takeFree.2).pending = s.pending := by rfl
@[simp] theorem State.takeFree_regs : (s.takeFree.2).regs = s.regs := by rfl
@[simp] theorem State.takeFree_latch : (s.takeFree.2).latch = s.latch := by rfl
@[simp] theorem State.takeFree_mem : (s.takeFree.2).mem = s.mem := by rfl
@[simp] theorem State.takeFree_marks : (s.takeFree.2).marks = s.marks := by rfl
@[simp] theorem State.takeFree_words : (s.takeFree.2).words = s.words := by rfl
@[simp] theorem State.takeFree_tables : (s.takeFree.2).tables = s.tables := by rfl
@[simp] theorem State.takeFree_time : (s.takeFree.2).time = s.time := by rfl
@[simp] theorem State.takeFree_pins : (s.takeFree.2).pins = s.pins := by rfl
@[simp] theorem State.takeFree_furrows : (s.takeFree.2).furrows = s.furrows := by rfl
@[simp] theorem State.takeFree_hoppers : (s.takeFree.2).hoppers = s.hoppers := by rfl
@[simp] theorem State.takeFree_fields : (s.takeFree.2).fields = s.fields := by rfl
@[simp] theorem State.takeFree_yokes : (s.takeFree.2).yokes = s.yokes := by rfl
@[simp] theorem State.takeFree_island : (s.takeFree.2).island = s.island := by rfl
@[simp] theorem State.takeFree_rein : (s.takeFree.2).rein = s.rein := by rfl
@[simp] theorem State.takeFree_tacks : (s.takeFree.2).tacks = s.tacks := by rfl
@[simp] theorem State.takeFree_chutes : (s.takeFree.2).chutes = s.chutes := by rfl
@[simp] theorem State.takeFree_fifos : (s.takeFree.2).fifos = s.fifos := by rfl
@[simp] theorem State.takeFree_objects : (s.takeFree.2).objects = s.objects := by rfl
@[simp] theorem State.takeFree_buckles : (s.takeFree.2).buckles = s.buckles := by rfl
@[simp] theorem State.takeFree_loader : (s.takeFree.2).loader = s.loader := by rfl
@[simp] theorem State.takeFree_drove : (s.takeFree.2).drove = s.drove := by rfl
@[simp] theorem State.takeFree_chain : (s.takeFree.2).chain = s.chain := by rfl
@[simp] theorem State.takeFree_dram : (s.takeFree.2).dram = s.dram := by rfl
@[simp] theorem State.takeFree_intake : (s.takeFree.2).intake = s.intake := by rfl
@[simp] theorem State.takeFree_pcie : (s.takeFree.2).pcie = s.pcie := by rfl
@[simp] theorem State.takeFree_firmware : (s.takeFree.2).firmware = s.firmware := by rfl
@[simp] theorem State.takeFree_boot : (s.takeFree.2).boot = s.boot := by rfl
@[simp] theorem State.takeFree_links : (s.takeFree.2).links = s.links := by rfl
@[simp] theorem State.takeFree_outbox : (s.takeFree.2).outbox = s.outbox := by rfl

@[simp] theorem State.withQueue_regs (q : List Instr) : (s.withQueue q).regs = s.regs := by rfl
@[simp] theorem State.withQueue_latch (q : List Instr) : (s.withQueue q).latch = s.latch := by rfl
@[simp] theorem State.withQueue_mem (q : List Instr) : (s.withQueue q).mem = s.mem := by rfl
@[simp] theorem State.withQueue_marks (q : List Instr) : (s.withQueue q).marks = s.marks := by rfl
@[simp] theorem State.withQueue_words (q : List Instr) : (s.withQueue q).words = s.words := by rfl
@[simp] theorem State.withQueue_tables (q : List Instr) : (s.withQueue q).tables = s.tables := by rfl
@[simp] theorem State.withQueue_time (q : List Instr) : (s.withQueue q).time = s.time := by rfl
@[simp] theorem State.withQueue_pins (q : List Instr) : (s.withQueue q).pins = s.pins := by rfl
@[simp] theorem State.withQueue_furrows (q : List Instr) : (s.withQueue q).furrows = s.furrows := by rfl
@[simp] theorem State.withQueue_hoppers (q : List Instr) : (s.withQueue q).hoppers = s.hoppers := by rfl
@[simp] theorem State.withQueue_fields (q : List Instr) : (s.withQueue q).fields = s.fields := by rfl
@[simp] theorem State.withQueue_yokes (q : List Instr) : (s.withQueue q).yokes = s.yokes := by rfl
@[simp] theorem State.withQueue_island (q : List Instr) : (s.withQueue q).island = s.island := by rfl
@[simp] theorem State.withQueue_rein (q : List Instr) : (s.withQueue q).rein = s.rein := by rfl
@[simp] theorem State.withQueue_tacks (q : List Instr) : (s.withQueue q).tacks = s.tacks := by rfl
@[simp] theorem State.withQueue_chutes (q : List Instr) : (s.withQueue q).chutes = s.chutes := by rfl
@[simp] theorem State.withQueue_fifos (q : List Instr) : (s.withQueue q).fifos = s.fifos := by rfl
@[simp] theorem State.withQueue_objects (q : List Instr) : (s.withQueue q).objects = s.objects := by rfl
@[simp] theorem State.withQueue_buckles (q : List Instr) : (s.withQueue q).buckles = s.buckles := by rfl
@[simp] theorem State.withQueue_loader (q : List Instr) : (s.withQueue q).loader = s.loader := by rfl
@[simp] theorem State.withQueue_drove (q : List Instr) : (s.withQueue q).drove = s.drove := by rfl
@[simp] theorem State.withQueue_chain (q : List Instr) : (s.withQueue q).chain = s.chain := by rfl
@[simp] theorem State.withQueue_dram (q : List Instr) : (s.withQueue q).dram = s.dram := by rfl
@[simp] theorem State.withQueue_intake (q : List Instr) : (s.withQueue q).intake = s.intake := by rfl
@[simp] theorem State.withQueue_pcie (q : List Instr) : (s.withQueue q).pcie = s.pcie := by rfl
@[simp] theorem State.withQueue_firmware (q : List Instr) : (s.withQueue q).firmware = s.firmware := by rfl
@[simp] theorem State.withQueue_boot (q : List Instr) : (s.withQueue q).boot = s.boot := by rfl
@[simp] theorem State.withQueue_links (q : List Instr) : (s.withQueue q).links = s.links := by rfl
@[simp] theorem State.withQueue_outbox (q : List Instr) : (s.withQueue q).outbox = s.outbox := by rfl
@[simp] theorem State.withQueue_freeCount (q : List Instr) : (s.withQueue q).freeCount = s.freeCount := by rfl

/-! Each update leaves every reader of another field. -/

@[simp] theorem State.setReg_furrow (a : Nat) (v : Word) (b' : Nat) : (s.setReg a v).furrow b' = s.furrow b' := by rfl
@[simp] theorem State.setReg_hopper (a : Nat) (v : Word) (b' : Nat) : (s.setReg a v).hopper b' = s.hopper b' := by rfl
@[simp] theorem State.setReg_field (a : Nat) (v : Word) (b' : Nat) : (s.setReg a v).field b' = s.field b' := by rfl
@[simp] theorem State.setReg_function (a : Nat) (v : Word) (b' : Nat) : (s.setReg a v).function b' = s.function b' := by rfl
@[simp] theorem State.setReg_now (a : Nat) (v : Word) : (s.setReg a v).now = s.now := by rfl
@[simp] theorem State.setReg_byte (a : Nat) (v : Word) (b' : Nat) : (s.setReg a v).byte b' = s.byte b' := by rfl
@[simp] theorem State.setReg_bytes (a : Nat) (v : Word) (b' c' : Nat) : (s.setReg a v).bytes b' c' = s.bytes b' c' := by rfl
@[simp] theorem State.setReg_mark (a : Nat) (v : Word) (b' : Nat) : (s.setReg a v).mark b' = s.mark b' := by rfl
@[simp] theorem State.setReg_word (a : Nat) (v : Word) (b' : WordBuffer) (i' k' : Nat) : (s.setReg a v).word b' i' k' = s.word b' i' k' := by rfl
@[simp] theorem State.setReg_held (a : Nat) (v : Word) : (s.setReg a v).held = s.held := by rfl
@[simp] theorem State.setReg_inReset (a : Nat) (v : Word) : (s.setReg a v).inReset = s.inReset := by rfl

@[simp] theorem State.setBits_furrow (a msb lsb v : Nat) (b' : Nat) : (s.setBits a msb lsb v).furrow b' = s.furrow b' := by rfl
@[simp] theorem State.setBits_hopper (a msb lsb v : Nat) (b' : Nat) : (s.setBits a msb lsb v).hopper b' = s.hopper b' := by rfl
@[simp] theorem State.setBits_field (a msb lsb v : Nat) (b' : Nat) : (s.setBits a msb lsb v).field b' = s.field b' := by rfl
@[simp] theorem State.setBits_function (a msb lsb v : Nat) (b' : Nat) : (s.setBits a msb lsb v).function b' = s.function b' := by rfl
@[simp] theorem State.setBits_now (a msb lsb v : Nat) : (s.setBits a msb lsb v).now = s.now := by rfl
@[simp] theorem State.setBits_byte (a msb lsb v : Nat) (b' : Nat) : (s.setBits a msb lsb v).byte b' = s.byte b' := by rfl
@[simp] theorem State.setBits_bytes (a msb lsb v : Nat) (b' c' : Nat) : (s.setBits a msb lsb v).bytes b' c' = s.bytes b' c' := by rfl
@[simp] theorem State.setBits_mark (a msb lsb v : Nat) (b' : Nat) : (s.setBits a msb lsb v).mark b' = s.mark b' := by rfl
@[simp] theorem State.setBits_word (a msb lsb v : Nat) (b' : WordBuffer) (i' k' : Nat) : (s.setBits a msb lsb v).word b' i' k' = s.word b' i' k' := by rfl
@[simp] theorem State.setBits_held (a msb lsb v : Nat) : (s.setBits a msb lsb v).held = s.held := by rfl
@[simp] theorem State.setBits_inReset (a msb lsb v : Nat) : (s.setBits a msb lsb v).inReset = s.inReset := by rfl

@[simp] theorem State.setBit_furrow (a i : Nat) (b : Bool) (b' : Nat) : (s.setBit a i b).furrow b' = s.furrow b' := by rfl
@[simp] theorem State.setBit_hopper (a i : Nat) (b : Bool) (b' : Nat) : (s.setBit a i b).hopper b' = s.hopper b' := by rfl
@[simp] theorem State.setBit_field (a i : Nat) (b : Bool) (b' : Nat) : (s.setBit a i b).field b' = s.field b' := by rfl
@[simp] theorem State.setBit_function (a i : Nat) (b : Bool) (b' : Nat) : (s.setBit a i b).function b' = s.function b' := by rfl
@[simp] theorem State.setBit_now (a i : Nat) (b : Bool) : (s.setBit a i b).now = s.now := by rfl
@[simp] theorem State.setBit_byte (a i : Nat) (b : Bool) (b' : Nat) : (s.setBit a i b).byte b' = s.byte b' := by rfl
@[simp] theorem State.setBit_bytes (a i : Nat) (b : Bool) (b' c' : Nat) : (s.setBit a i b).bytes b' c' = s.bytes b' c' := by rfl
@[simp] theorem State.setBit_mark (a i : Nat) (b : Bool) (b' : Nat) : (s.setBit a i b).mark b' = s.mark b' := by rfl
@[simp] theorem State.setBit_word (a i : Nat) (b : Bool) (b' : WordBuffer) (i' k' : Nat) : (s.setBit a i b).word b' i' k' = s.word b' i' k' := by rfl
@[simp] theorem State.setBit_held (a i : Nat) (b : Bool) : (s.setBit a i b).held = s.held := by rfl
@[simp] theorem State.setBit_inReset (a i : Nat) (b : Bool) : (s.setBit a i b).inReset = s.inReset := by rfl

@[simp] theorem State.addSat_furrow (a msb lsb k : Nat) (b' : Nat) : (s.addSat a msb lsb k).furrow b' = s.furrow b' := by rfl
@[simp] theorem State.addSat_hopper (a msb lsb k : Nat) (b' : Nat) : (s.addSat a msb lsb k).hopper b' = s.hopper b' := by rfl
@[simp] theorem State.addSat_field (a msb lsb k : Nat) (b' : Nat) : (s.addSat a msb lsb k).field b' = s.field b' := by rfl
@[simp] theorem State.addSat_function (a msb lsb k : Nat) (b' : Nat) : (s.addSat a msb lsb k).function b' = s.function b' := by rfl
@[simp] theorem State.addSat_now (a msb lsb k : Nat) : (s.addSat a msb lsb k).now = s.now := by rfl
@[simp] theorem State.addSat_byte (a msb lsb k : Nat) (b' : Nat) : (s.addSat a msb lsb k).byte b' = s.byte b' := by rfl
@[simp] theorem State.addSat_bytes (a msb lsb k : Nat) (b' c' : Nat) : (s.addSat a msb lsb k).bytes b' c' = s.bytes b' c' := by rfl
@[simp] theorem State.addSat_mark (a msb lsb k : Nat) (b' : Nat) : (s.addSat a msb lsb k).mark b' = s.mark b' := by rfl
@[simp] theorem State.addSat_word (a msb lsb k : Nat) (b' : WordBuffer) (i' k' : Nat) : (s.addSat a msb lsb k).word b' i' k' = s.word b' i' k' := by rfl
@[simp] theorem State.addSat_held (a msb lsb k : Nat) : (s.addSat a msb lsb k).held = s.held := by rfl
@[simp] theorem State.addSat_inReset (a msb lsb k : Nat) : (s.addSat a msb lsb k).inReset = s.inReset := by rfl

@[simp] theorem State.addWrap_furrow (a msb lsb k : Nat) (b' : Nat) : (s.addWrap a msb lsb k).furrow b' = s.furrow b' := by rfl
@[simp] theorem State.addWrap_hopper (a msb lsb k : Nat) (b' : Nat) : (s.addWrap a msb lsb k).hopper b' = s.hopper b' := by rfl
@[simp] theorem State.addWrap_field (a msb lsb k : Nat) (b' : Nat) : (s.addWrap a msb lsb k).field b' = s.field b' := by rfl
@[simp] theorem State.addWrap_function (a msb lsb k : Nat) (b' : Nat) : (s.addWrap a msb lsb k).function b' = s.function b' := by rfl
@[simp] theorem State.addWrap_now (a msb lsb k : Nat) : (s.addWrap a msb lsb k).now = s.now := by rfl
@[simp] theorem State.addWrap_byte (a msb lsb k : Nat) (b' : Nat) : (s.addWrap a msb lsb k).byte b' = s.byte b' := by rfl
@[simp] theorem State.addWrap_bytes (a msb lsb k : Nat) (b' c' : Nat) : (s.addWrap a msb lsb k).bytes b' c' = s.bytes b' c' := by rfl
@[simp] theorem State.addWrap_mark (a msb lsb k : Nat) (b' : Nat) : (s.addWrap a msb lsb k).mark b' = s.mark b' := by rfl
@[simp] theorem State.addWrap_word (a msb lsb k : Nat) (b' : WordBuffer) (i' k' : Nat) : (s.addWrap a msb lsb k).word b' i' k' = s.word b' i' k' := by rfl
@[simp] theorem State.addWrap_held (a msb lsb k : Nat) : (s.addWrap a msb lsb k).held = s.held := by rfl
@[simp] theorem State.addWrap_inReset (a msb lsb k : Nat) : (s.addWrap a msb lsb k).inReset = s.inReset := by rfl

@[simp] theorem State.setReg64_furrow (lo hi v : Nat) (b' : Nat) : (s.setReg64 lo hi v).furrow b' = s.furrow b' := by rfl
@[simp] theorem State.setReg64_hopper (lo hi v : Nat) (b' : Nat) : (s.setReg64 lo hi v).hopper b' = s.hopper b' := by rfl
@[simp] theorem State.setReg64_field (lo hi v : Nat) (b' : Nat) : (s.setReg64 lo hi v).field b' = s.field b' := by rfl
@[simp] theorem State.setReg64_function (lo hi v : Nat) (b' : Nat) : (s.setReg64 lo hi v).function b' = s.function b' := by rfl
@[simp] theorem State.setReg64_now (lo hi v : Nat) : (s.setReg64 lo hi v).now = s.now := by rfl
@[simp] theorem State.setReg64_byte (lo hi v : Nat) (b' : Nat) : (s.setReg64 lo hi v).byte b' = s.byte b' := by rfl
@[simp] theorem State.setReg64_bytes (lo hi v : Nat) (b' c' : Nat) : (s.setReg64 lo hi v).bytes b' c' = s.bytes b' c' := by rfl
@[simp] theorem State.setReg64_mark (lo hi v : Nat) (b' : Nat) : (s.setReg64 lo hi v).mark b' = s.mark b' := by rfl
@[simp] theorem State.setReg64_word (lo hi v : Nat) (b' : WordBuffer) (i' k' : Nat) : (s.setReg64 lo hi v).word b' i' k' = s.word b' i' k' := by rfl
@[simp] theorem State.setReg64_held (lo hi v : Nat) : (s.setReg64 lo hi v).held = s.held := by rfl
@[simp] theorem State.setReg64_inReset (lo hi v : Nat) : (s.setReg64 lo hi v).inReset = s.inReset := by rfl

@[simp] theorem State.setFurrow_reg (n : Nat) (f : Furrow) (b' : Nat) : (s.setFurrow n f).reg b' = s.reg b' := by rfl
@[simp] theorem State.setFurrow_bits (n : Nat) (f : Furrow) (b' m' l' : Nat) : (s.setFurrow n f).bits b' m' l' = s.bits b' m' l' := by rfl
@[simp] theorem State.setFurrow_bit (n : Nat) (f : Furrow) (b' j' : Nat) : (s.setFurrow n f).bit b' j' = s.bit b' j' := by rfl
@[simp] theorem State.setFurrow_reg64 (n : Nat) (f : Furrow) (p' q' : Nat) : (s.setFurrow n f).reg64 p' q' = s.reg64 p' q' := by rfl
@[simp] theorem State.setFurrow_hopper (n : Nat) (f : Furrow) (b' : Nat) : (s.setFurrow n f).hopper b' = s.hopper b' := by rfl
@[simp] theorem State.setFurrow_field (n : Nat) (f : Furrow) (b' : Nat) : (s.setFurrow n f).field b' = s.field b' := by rfl
@[simp] theorem State.setFurrow_function (n : Nat) (f : Furrow) (b' : Nat) : (s.setFurrow n f).function b' = s.function b' := by rfl
@[simp] theorem State.setFurrow_now (n : Nat) (f : Furrow) : (s.setFurrow n f).now = s.now := by rfl
@[simp] theorem State.setFurrow_byte (n : Nat) (f : Furrow) (b' : Nat) : (s.setFurrow n f).byte b' = s.byte b' := by rfl
@[simp] theorem State.setFurrow_bytes (n : Nat) (f : Furrow) (b' c' : Nat) : (s.setFurrow n f).bytes b' c' = s.bytes b' c' := by rfl
@[simp] theorem State.setFurrow_mark (n : Nat) (f : Furrow) (b' : Nat) : (s.setFurrow n f).mark b' = s.mark b' := by rfl
@[simp] theorem State.setFurrow_word (n : Nat) (f : Furrow) (b' : WordBuffer) (i' k' : Nat) : (s.setFurrow n f).word b' i' k' = s.word b' i' k' := by rfl
@[simp] theorem State.setFurrow_held (n : Nat) (f : Furrow) : (s.setFurrow n f).held = s.held := by rfl
@[simp] theorem State.setFurrow_inReset (n : Nat) (f : Furrow) : (s.setFurrow n f).inReset = s.inReset := by rfl

@[simp] theorem State.setHopper_reg (h : Nat) (x : Hopper) (b' : Nat) : (s.setHopper h x).reg b' = s.reg b' := by rfl
@[simp] theorem State.setHopper_bits (h : Nat) (x : Hopper) (b' m' l' : Nat) : (s.setHopper h x).bits b' m' l' = s.bits b' m' l' := by rfl
@[simp] theorem State.setHopper_bit (h : Nat) (x : Hopper) (b' j' : Nat) : (s.setHopper h x).bit b' j' = s.bit b' j' := by rfl
@[simp] theorem State.setHopper_reg64 (h : Nat) (x : Hopper) (p' q' : Nat) : (s.setHopper h x).reg64 p' q' = s.reg64 p' q' := by rfl
@[simp] theorem State.setHopper_furrow (h : Nat) (x : Hopper) (b' : Nat) : (s.setHopper h x).furrow b' = s.furrow b' := by rfl
@[simp] theorem State.setHopper_field (h : Nat) (x : Hopper) (b' : Nat) : (s.setHopper h x).field b' = s.field b' := by rfl
@[simp] theorem State.setHopper_function (h : Nat) (x : Hopper) (b' : Nat) : (s.setHopper h x).function b' = s.function b' := by rfl
@[simp] theorem State.setHopper_now (h : Nat) (x : Hopper) : (s.setHopper h x).now = s.now := by rfl
@[simp] theorem State.setHopper_byte (h : Nat) (x : Hopper) (b' : Nat) : (s.setHopper h x).byte b' = s.byte b' := by rfl
@[simp] theorem State.setHopper_bytes (h : Nat) (x : Hopper) (b' c' : Nat) : (s.setHopper h x).bytes b' c' = s.bytes b' c' := by rfl
@[simp] theorem State.setHopper_mark (h : Nat) (x : Hopper) (b' : Nat) : (s.setHopper h x).mark b' = s.mark b' := by rfl
@[simp] theorem State.setHopper_word (h : Nat) (x : Hopper) (b' : WordBuffer) (i' k' : Nat) : (s.setHopper h x).word b' i' k' = s.word b' i' k' := by rfl
@[simp] theorem State.setHopper_held (h : Nat) (x : Hopper) : (s.setHopper h x).held = s.held := by rfl
@[simp] theorem State.setHopper_inReset (h : Nat) (x : Hopper) : (s.setHopper h x).inReset = s.inReset := by rfl

@[simp] theorem State.setField_reg (f : Nat) (x : Field) (b' : Nat) : (s.setField f x).reg b' = s.reg b' := by rfl
@[simp] theorem State.setField_bits (f : Nat) (x : Field) (b' m' l' : Nat) : (s.setField f x).bits b' m' l' = s.bits b' m' l' := by rfl
@[simp] theorem State.setField_bit (f : Nat) (x : Field) (b' j' : Nat) : (s.setField f x).bit b' j' = s.bit b' j' := by rfl
@[simp] theorem State.setField_reg64 (f : Nat) (x : Field) (p' q' : Nat) : (s.setField f x).reg64 p' q' = s.reg64 p' q' := by rfl
@[simp] theorem State.setField_furrow (f : Nat) (x : Field) (b' : Nat) : (s.setField f x).furrow b' = s.furrow b' := by rfl
@[simp] theorem State.setField_hopper (f : Nat) (x : Field) (b' : Nat) : (s.setField f x).hopper b' = s.hopper b' := by rfl
@[simp] theorem State.setField_function (f : Nat) (x : Field) (b' : Nat) : (s.setField f x).function b' = s.function b' := by rfl
@[simp] theorem State.setField_now (f : Nat) (x : Field) : (s.setField f x).now = s.now := by rfl
@[simp] theorem State.setField_byte (f : Nat) (x : Field) (b' : Nat) : (s.setField f x).byte b' = s.byte b' := by rfl
@[simp] theorem State.setField_bytes (f : Nat) (x : Field) (b' c' : Nat) : (s.setField f x).bytes b' c' = s.bytes b' c' := by rfl
@[simp] theorem State.setField_mark (f : Nat) (x : Field) (b' : Nat) : (s.setField f x).mark b' = s.mark b' := by rfl
@[simp] theorem State.setField_word (f : Nat) (x : Field) (b' : WordBuffer) (i' k' : Nat) : (s.setField f x).word b' i' k' = s.word b' i' k' := by rfl
@[simp] theorem State.setField_held (f : Nat) (x : Field) : (s.setField f x).held = s.held := by rfl
@[simp] theorem State.setField_inReset (f : Nat) (x : Field) : (s.setField f x).inReset = s.inReset := by rfl

@[simp] theorem State.setFunction_reg (n : Nat) (x : PcieFunction) (b' : Nat) : (s.setFunction n x).reg b' = s.reg b' := by rfl
@[simp] theorem State.setFunction_bits (n : Nat) (x : PcieFunction) (b' m' l' : Nat) : (s.setFunction n x).bits b' m' l' = s.bits b' m' l' := by rfl
@[simp] theorem State.setFunction_bit (n : Nat) (x : PcieFunction) (b' j' : Nat) : (s.setFunction n x).bit b' j' = s.bit b' j' := by rfl
@[simp] theorem State.setFunction_reg64 (n : Nat) (x : PcieFunction) (p' q' : Nat) : (s.setFunction n x).reg64 p' q' = s.reg64 p' q' := by rfl
@[simp] theorem State.setFunction_furrow (n : Nat) (x : PcieFunction) (b' : Nat) : (s.setFunction n x).furrow b' = s.furrow b' := by rfl
@[simp] theorem State.setFunction_hopper (n : Nat) (x : PcieFunction) (b' : Nat) : (s.setFunction n x).hopper b' = s.hopper b' := by rfl
@[simp] theorem State.setFunction_field (n : Nat) (x : PcieFunction) (b' : Nat) : (s.setFunction n x).field b' = s.field b' := by rfl
@[simp] theorem State.setFunction_now (n : Nat) (x : PcieFunction) : (s.setFunction n x).now = s.now := by rfl
@[simp] theorem State.setFunction_byte (n : Nat) (x : PcieFunction) (b' : Nat) : (s.setFunction n x).byte b' = s.byte b' := by rfl
@[simp] theorem State.setFunction_bytes (n : Nat) (x : PcieFunction) (b' c' : Nat) : (s.setFunction n x).bytes b' c' = s.bytes b' c' := by rfl
@[simp] theorem State.setFunction_mark (n : Nat) (x : PcieFunction) (b' : Nat) : (s.setFunction n x).mark b' = s.mark b' := by rfl
@[simp] theorem State.setFunction_word (n : Nat) (x : PcieFunction) (b' : WordBuffer) (i' k' : Nat) : (s.setFunction n x).word b' i' k' = s.word b' i' k' := by rfl
@[simp] theorem State.setFunction_held (n : Nat) (x : PcieFunction) : (s.setFunction n x).held = s.held := by rfl
@[simp] theorem State.setFunction_inReset (n : Nat) (x : PcieFunction) : (s.setFunction n x).inReset = s.inReset := by rfl

@[simp] theorem State.mapToken_reg (g : WarmToken → WarmToken) (b' : Nat) : (s.mapToken g).reg b' = s.reg b' := by rfl
@[simp] theorem State.mapToken_bits (g : WarmToken → WarmToken) (b' m' l' : Nat) : (s.mapToken g).bits b' m' l' = s.bits b' m' l' := by rfl
@[simp] theorem State.mapToken_bit (g : WarmToken → WarmToken) (b' j' : Nat) : (s.mapToken g).bit b' j' = s.bit b' j' := by rfl
@[simp] theorem State.mapToken_reg64 (g : WarmToken → WarmToken) (p' q' : Nat) : (s.mapToken g).reg64 p' q' = s.reg64 p' q' := by rfl
@[simp] theorem State.mapToken_furrow (g : WarmToken → WarmToken) (b' : Nat) : (s.mapToken g).furrow b' = s.furrow b' := by rfl
@[simp] theorem State.mapToken_hopper (g : WarmToken → WarmToken) (b' : Nat) : (s.mapToken g).hopper b' = s.hopper b' := by rfl
@[simp] theorem State.mapToken_field (g : WarmToken → WarmToken) (b' : Nat) : (s.mapToken g).field b' = s.field b' := by rfl
@[simp] theorem State.mapToken_function (g : WarmToken → WarmToken) (b' : Nat) : (s.mapToken g).function b' = s.function b' := by rfl
@[simp] theorem State.mapToken_now (g : WarmToken → WarmToken) : (s.mapToken g).now = s.now := by rfl
@[simp] theorem State.mapToken_byte (g : WarmToken → WarmToken) (b' : Nat) : (s.mapToken g).byte b' = s.byte b' := by rfl
@[simp] theorem State.mapToken_bytes (g : WarmToken → WarmToken) (b' c' : Nat) : (s.mapToken g).bytes b' c' = s.bytes b' c' := by rfl
@[simp] theorem State.mapToken_mark (g : WarmToken → WarmToken) (b' : Nat) : (s.mapToken g).mark b' = s.mark b' := by rfl
@[simp] theorem State.mapToken_word (g : WarmToken → WarmToken) (b' : WordBuffer) (i' k' : Nat) : (s.mapToken g).word b' i' k' = s.word b' i' k' := by rfl
@[simp] theorem State.mapToken_inReset (g : WarmToken → WarmToken) : (s.mapToken g).inReset = s.inReset := by rfl

@[simp] theorem State.poke_reg (a : Nat) (bs : List Byte) (b' : Nat) : (s.poke a bs).reg b' = s.reg b' := by rfl
@[simp] theorem State.poke_bits (a : Nat) (bs : List Byte) (b' m' l' : Nat) : (s.poke a bs).bits b' m' l' = s.bits b' m' l' := by rfl
@[simp] theorem State.poke_bit (a : Nat) (bs : List Byte) (b' j' : Nat) : (s.poke a bs).bit b' j' = s.bit b' j' := by rfl
@[simp] theorem State.poke_reg64 (a : Nat) (bs : List Byte) (p' q' : Nat) : (s.poke a bs).reg64 p' q' = s.reg64 p' q' := by rfl
@[simp] theorem State.poke_furrow (a : Nat) (bs : List Byte) (b' : Nat) : (s.poke a bs).furrow b' = s.furrow b' := by rfl
@[simp] theorem State.poke_hopper (a : Nat) (bs : List Byte) (b' : Nat) : (s.poke a bs).hopper b' = s.hopper b' := by rfl
@[simp] theorem State.poke_field (a : Nat) (bs : List Byte) (b' : Nat) : (s.poke a bs).field b' = s.field b' := by rfl
@[simp] theorem State.poke_function (a : Nat) (bs : List Byte) (b' : Nat) : (s.poke a bs).function b' = s.function b' := by rfl
@[simp] theorem State.poke_now (a : Nat) (bs : List Byte) : (s.poke a bs).now = s.now := by rfl
@[simp] theorem State.poke_mark (a : Nat) (bs : List Byte) (b' : Nat) : (s.poke a bs).mark b' = s.mark b' := by rfl
@[simp] theorem State.poke_word (a : Nat) (bs : List Byte) (b' : WordBuffer) (i' k' : Nat) : (s.poke a bs).word b' i' k' = s.word b' i' k' := by rfl
@[simp] theorem State.poke_held (a : Nat) (bs : List Byte) : (s.poke a bs).held = s.held := by rfl
@[simp] theorem State.poke_inReset (a : Nat) (bs : List Byte) : (s.poke a bs).inReset = s.inReset := by rfl

@[simp] theorem State.setMark_reg (g : Nat) (m : Mark) (b' : Nat) : (s.setMark g m).reg b' = s.reg b' := by rfl
@[simp] theorem State.setMark_bits (g : Nat) (m : Mark) (b' m' l' : Nat) : (s.setMark g m).bits b' m' l' = s.bits b' m' l' := by rfl
@[simp] theorem State.setMark_bit (g : Nat) (m : Mark) (b' j' : Nat) : (s.setMark g m).bit b' j' = s.bit b' j' := by rfl
@[simp] theorem State.setMark_reg64 (g : Nat) (m : Mark) (p' q' : Nat) : (s.setMark g m).reg64 p' q' = s.reg64 p' q' := by rfl
@[simp] theorem State.setMark_furrow (g : Nat) (m : Mark) (b' : Nat) : (s.setMark g m).furrow b' = s.furrow b' := by rfl
@[simp] theorem State.setMark_hopper (g : Nat) (m : Mark) (b' : Nat) : (s.setMark g m).hopper b' = s.hopper b' := by rfl
@[simp] theorem State.setMark_field (g : Nat) (m : Mark) (b' : Nat) : (s.setMark g m).field b' = s.field b' := by rfl
@[simp] theorem State.setMark_function (g : Nat) (m : Mark) (b' : Nat) : (s.setMark g m).function b' = s.function b' := by rfl
@[simp] theorem State.setMark_now (g : Nat) (m : Mark) : (s.setMark g m).now = s.now := by rfl
@[simp] theorem State.setMark_byte (g : Nat) (m : Mark) (b' : Nat) : (s.setMark g m).byte b' = s.byte b' := by rfl
@[simp] theorem State.setMark_bytes (g : Nat) (m : Mark) (b' c' : Nat) : (s.setMark g m).bytes b' c' = s.bytes b' c' := by rfl
@[simp] theorem State.setMark_word (g : Nat) (m : Mark) (b' : WordBuffer) (i' k' : Nat) : (s.setMark g m).word b' i' k' = s.word b' i' k' := by rfl
@[simp] theorem State.setMark_held (g : Nat) (m : Mark) : (s.setMark g m).held = s.held := by rfl
@[simp] theorem State.setMark_inReset (g : Nat) (m : Mark) : (s.setMark g m).inReset = s.inReset := by rfl

@[simp] theorem State.raise_reg (e : Event) (b' : Nat) : (s.raise e).reg b' = s.reg b' := by rfl
@[simp] theorem State.raise_bits (e : Event) (b' m' l' : Nat) : (s.raise e).bits b' m' l' = s.bits b' m' l' := by rfl
@[simp] theorem State.raise_bit (e : Event) (b' j' : Nat) : (s.raise e).bit b' j' = s.bit b' j' := by rfl
@[simp] theorem State.raise_reg64 (e : Event) (p' q' : Nat) : (s.raise e).reg64 p' q' = s.reg64 p' q' := by rfl
@[simp] theorem State.raise_furrow (e : Event) (b' : Nat) : (s.raise e).furrow b' = s.furrow b' := by rfl
@[simp] theorem State.raise_hopper (e : Event) (b' : Nat) : (s.raise e).hopper b' = s.hopper b' := by rfl
@[simp] theorem State.raise_field (e : Event) (b' : Nat) : (s.raise e).field b' = s.field b' := by rfl
@[simp] theorem State.raise_function (e : Event) (b' : Nat) : (s.raise e).function b' = s.function b' := by rfl
@[simp] theorem State.raise_now (e : Event) : (s.raise e).now = s.now := by rfl
@[simp] theorem State.raise_byte (e : Event) (b' : Nat) : (s.raise e).byte b' = s.byte b' := by rfl
@[simp] theorem State.raise_bytes (e : Event) (b' c' : Nat) : (s.raise e).bytes b' c' = s.bytes b' c' := by rfl
@[simp] theorem State.raise_mark (e : Event) (b' : Nat) : (s.raise e).mark b' = s.mark b' := by rfl
@[simp] theorem State.raise_word (e : Event) (b' : WordBuffer) (i' k' : Nat) : (s.raise e).word b' i' k' = s.word b' i' k' := by rfl
@[simp] theorem State.raise_held (e : Event) : (s.raise e).held = s.held := by rfl
@[simp] theorem State.raise_inReset (e : Event) : (s.raise e).inReset = s.inReset := by rfl

@[simp] theorem State.raiseOpen_reg (k cls i : Nat) (b' : Nat) : (s.raiseOpen k cls i).reg b' = s.reg b' := by rfl
@[simp] theorem State.raiseOpen_bits (k cls i : Nat) (b' m' l' : Nat) : (s.raiseOpen k cls i).bits b' m' l' = s.bits b' m' l' := by rfl
@[simp] theorem State.raiseOpen_bit (k cls i : Nat) (b' j' : Nat) : (s.raiseOpen k cls i).bit b' j' = s.bit b' j' := by rfl
@[simp] theorem State.raiseOpen_reg64 (k cls i : Nat) (p' q' : Nat) : (s.raiseOpen k cls i).reg64 p' q' = s.reg64 p' q' := by rfl
@[simp] theorem State.raiseOpen_furrow (k cls i : Nat) (b' : Nat) : (s.raiseOpen k cls i).furrow b' = s.furrow b' := by rfl
@[simp] theorem State.raiseOpen_hopper (k cls i : Nat) (b' : Nat) : (s.raiseOpen k cls i).hopper b' = s.hopper b' := by rfl
@[simp] theorem State.raiseOpen_field (k cls i : Nat) (b' : Nat) : (s.raiseOpen k cls i).field b' = s.field b' := by rfl
@[simp] theorem State.raiseOpen_function (k cls i : Nat) (b' : Nat) : (s.raiseOpen k cls i).function b' = s.function b' := by rfl
@[simp] theorem State.raiseOpen_now (k cls i : Nat) : (s.raiseOpen k cls i).now = s.now := by rfl
@[simp] theorem State.raiseOpen_byte (k cls i : Nat) (b' : Nat) : (s.raiseOpen k cls i).byte b' = s.byte b' := by rfl
@[simp] theorem State.raiseOpen_bytes (k cls i : Nat) (b' c' : Nat) : (s.raiseOpen k cls i).bytes b' c' = s.bytes b' c' := by rfl
@[simp] theorem State.raiseOpen_mark (k cls i : Nat) (b' : Nat) : (s.raiseOpen k cls i).mark b' = s.mark b' := by rfl
@[simp] theorem State.raiseOpen_word (k cls i : Nat) (b' : WordBuffer) (i' k' : Nat) : (s.raiseOpen k cls i).word b' i' k' = s.word b' i' k' := by rfl
@[simp] theorem State.raiseOpen_held (k cls i : Nat) : (s.raiseOpen k cls i).held = s.held := by rfl
@[simp] theorem State.raiseOpen_inReset (k cls i : Nat) : (s.raiseOpen k cls i).inReset = s.inReset := by rfl

@[simp] theorem State.setWord_reg (b : WordBuffer) (i k : Nat) (m : Mark) (b' : Nat) : (s.setWord b i k m).reg b' = s.reg b' := by rfl
@[simp] theorem State.setWord_bits (b : WordBuffer) (i k : Nat) (m : Mark) (b' m' l' : Nat) : (s.setWord b i k m).bits b' m' l' = s.bits b' m' l' := by rfl
@[simp] theorem State.setWord_bit (b : WordBuffer) (i k : Nat) (m : Mark) (b' j' : Nat) : (s.setWord b i k m).bit b' j' = s.bit b' j' := by rfl
@[simp] theorem State.setWord_reg64 (b : WordBuffer) (i k : Nat) (m : Mark) (p' q' : Nat) : (s.setWord b i k m).reg64 p' q' = s.reg64 p' q' := by rfl
@[simp] theorem State.setWord_furrow (b : WordBuffer) (i k : Nat) (m : Mark) (b' : Nat) : (s.setWord b i k m).furrow b' = s.furrow b' := by rfl
@[simp] theorem State.setWord_hopper (b : WordBuffer) (i k : Nat) (m : Mark) (b' : Nat) : (s.setWord b i k m).hopper b' = s.hopper b' := by rfl
@[simp] theorem State.setWord_field (b : WordBuffer) (i k : Nat) (m : Mark) (b' : Nat) : (s.setWord b i k m).field b' = s.field b' := by rfl
@[simp] theorem State.setWord_function (b : WordBuffer) (i k : Nat) (m : Mark) (b' : Nat) : (s.setWord b i k m).function b' = s.function b' := by rfl
@[simp] theorem State.setWord_now (b : WordBuffer) (i k : Nat) (m : Mark) : (s.setWord b i k m).now = s.now := by rfl
@[simp] theorem State.setWord_byte (b : WordBuffer) (i k : Nat) (m : Mark) (b' : Nat) : (s.setWord b i k m).byte b' = s.byte b' := by rfl
@[simp] theorem State.setWord_bytes (b : WordBuffer) (i k : Nat) (m : Mark) (b' c' : Nat) : (s.setWord b i k m).bytes b' c' = s.bytes b' c' := by rfl
@[simp] theorem State.setWord_mark (b : WordBuffer) (i k : Nat) (m : Mark) (b' : Nat) : (s.setWord b i k m).mark b' = s.mark b' := by rfl
@[simp] theorem State.setWord_held (b : WordBuffer) (i k : Nat) (m : Mark) : (s.setWord b i k m).held = s.held := by rfl
@[simp] theorem State.setWord_inReset (b : WordBuffer) (i k : Nat) (m : Mark) : (s.setWord b i k m).inReset = s.inReset := by rfl

@[simp] theorem State.rewriteWords_reg (b : WordBuffer) (i : Nat) (b' : Nat) : (s.rewriteWords b i).reg b' = s.reg b' := by rfl
@[simp] theorem State.rewriteWords_bits (b : WordBuffer) (i : Nat) (b' m' l' : Nat) : (s.rewriteWords b i).bits b' m' l' = s.bits b' m' l' := by rfl
@[simp] theorem State.rewriteWords_bit (b : WordBuffer) (i : Nat) (b' j' : Nat) : (s.rewriteWords b i).bit b' j' = s.bit b' j' := by rfl
@[simp] theorem State.rewriteWords_reg64 (b : WordBuffer) (i : Nat) (p' q' : Nat) : (s.rewriteWords b i).reg64 p' q' = s.reg64 p' q' := by rfl
@[simp] theorem State.rewriteWords_furrow (b : WordBuffer) (i : Nat) (b' : Nat) : (s.rewriteWords b i).furrow b' = s.furrow b' := by rfl
@[simp] theorem State.rewriteWords_hopper (b : WordBuffer) (i : Nat) (b' : Nat) : (s.rewriteWords b i).hopper b' = s.hopper b' := by rfl
@[simp] theorem State.rewriteWords_field (b : WordBuffer) (i : Nat) (b' : Nat) : (s.rewriteWords b i).field b' = s.field b' := by rfl
@[simp] theorem State.rewriteWords_function (b : WordBuffer) (i : Nat) (b' : Nat) : (s.rewriteWords b i).function b' = s.function b' := by rfl
@[simp] theorem State.rewriteWords_now (b : WordBuffer) (i : Nat) : (s.rewriteWords b i).now = s.now := by rfl
@[simp] theorem State.rewriteWords_byte (b : WordBuffer) (i : Nat) (b' : Nat) : (s.rewriteWords b i).byte b' = s.byte b' := by rfl
@[simp] theorem State.rewriteWords_bytes (b : WordBuffer) (i : Nat) (b' c' : Nat) : (s.rewriteWords b i).bytes b' c' = s.bytes b' c' := by rfl
@[simp] theorem State.rewriteWords_mark (b : WordBuffer) (i : Nat) (b' : Nat) : (s.rewriteWords b i).mark b' = s.mark b' := by rfl
@[simp] theorem State.rewriteWords_held (b : WordBuffer) (i : Nat) : (s.rewriteWords b i).held = s.held := by rfl
@[simp] theorem State.rewriteWords_inReset (b : WordBuffer) (i : Nat) : (s.rewriteWords b i).inReset = s.inReset := by rfl

@[simp] theorem State.emit_reg (o : Output) (b' : Nat) : (s.emit o).reg b' = s.reg b' := by rfl
@[simp] theorem State.emit_bits (o : Output) (b' m' l' : Nat) : (s.emit o).bits b' m' l' = s.bits b' m' l' := by rfl
@[simp] theorem State.emit_bit (o : Output) (b' j' : Nat) : (s.emit o).bit b' j' = s.bit b' j' := by rfl
@[simp] theorem State.emit_reg64 (o : Output) (p' q' : Nat) : (s.emit o).reg64 p' q' = s.reg64 p' q' := by rfl
@[simp] theorem State.emit_furrow (o : Output) (b' : Nat) : (s.emit o).furrow b' = s.furrow b' := by rfl
@[simp] theorem State.emit_hopper (o : Output) (b' : Nat) : (s.emit o).hopper b' = s.hopper b' := by rfl
@[simp] theorem State.emit_field (o : Output) (b' : Nat) : (s.emit o).field b' = s.field b' := by rfl
@[simp] theorem State.emit_function (o : Output) (b' : Nat) : (s.emit o).function b' = s.function b' := by rfl
@[simp] theorem State.emit_now (o : Output) : (s.emit o).now = s.now := by rfl
@[simp] theorem State.emit_byte (o : Output) (b' : Nat) : (s.emit o).byte b' = s.byte b' := by rfl
@[simp] theorem State.emit_bytes (o : Output) (b' c' : Nat) : (s.emit o).bytes b' c' = s.bytes b' c' := by rfl
@[simp] theorem State.emit_mark (o : Output) (b' : Nat) : (s.emit o).mark b' = s.mark b' := by rfl
@[simp] theorem State.emit_word (o : Output) (b' : WordBuffer) (i' k' : Nat) : (s.emit o).word b' i' k' = s.word b' i' k' := by rfl
@[simp] theorem State.emit_held (o : Output) : (s.emit o).held = s.held := by rfl
@[simp] theorem State.emit_inReset (o : Output) : (s.emit o).inReset = s.inReset := by rfl

@[simp] theorem State.takeFree_reg (b' : Nat) : (s.takeFree.2).reg b' = s.reg b' := by rfl
@[simp] theorem State.takeFree_bits (b' m' l' : Nat) : (s.takeFree.2).bits b' m' l' = s.bits b' m' l' := by rfl
@[simp] theorem State.takeFree_bit (b' j' : Nat) : (s.takeFree.2).bit b' j' = s.bit b' j' := by rfl
@[simp] theorem State.takeFree_reg64 (p' q' : Nat) : (s.takeFree.2).reg64 p' q' = s.reg64 p' q' := by rfl
@[simp] theorem State.takeFree_furrow (b' : Nat) : (s.takeFree.2).furrow b' = s.furrow b' := by rfl
@[simp] theorem State.takeFree_hopper (b' : Nat) : (s.takeFree.2).hopper b' = s.hopper b' := by rfl
@[simp] theorem State.takeFree_field (b' : Nat) : (s.takeFree.2).field b' = s.field b' := by rfl
@[simp] theorem State.takeFree_function (b' : Nat) : (s.takeFree.2).function b' = s.function b' := by rfl
@[simp] theorem State.takeFree_now : (s.takeFree.2).now = s.now := by rfl
@[simp] theorem State.takeFree_byte (b' : Nat) : (s.takeFree.2).byte b' = s.byte b' := by rfl
@[simp] theorem State.takeFree_bytes (b' c' : Nat) : (s.takeFree.2).bytes b' c' = s.bytes b' c' := by rfl
@[simp] theorem State.takeFree_mark (b' : Nat) : (s.takeFree.2).mark b' = s.mark b' := by rfl
@[simp] theorem State.takeFree_word (b' : WordBuffer) (i' k' : Nat) : (s.takeFree.2).word b' i' k' = s.word b' i' k' := by rfl
@[simp] theorem State.takeFree_held : (s.takeFree.2).held = s.held := by rfl
@[simp] theorem State.takeFree_inReset : (s.takeFree.2).inReset = s.inReset := by rfl

@[simp] theorem State.withQueue_reg (q : List Instr) (b' : Nat) : (s.withQueue q).reg b' = s.reg b' := by rfl
@[simp] theorem State.withQueue_bits (q : List Instr) (b' m' l' : Nat) : (s.withQueue q).bits b' m' l' = s.bits b' m' l' := by rfl
@[simp] theorem State.withQueue_bit (q : List Instr) (b' j' : Nat) : (s.withQueue q).bit b' j' = s.bit b' j' := by rfl
@[simp] theorem State.withQueue_reg64 (q : List Instr) (p' q' : Nat) : (s.withQueue q).reg64 p' q' = s.reg64 p' q' := by rfl
@[simp] theorem State.withQueue_furrow (q : List Instr) (b' : Nat) : (s.withQueue q).furrow b' = s.furrow b' := by rfl
@[simp] theorem State.withQueue_hopper (q : List Instr) (b' : Nat) : (s.withQueue q).hopper b' = s.hopper b' := by rfl
@[simp] theorem State.withQueue_field (q : List Instr) (b' : Nat) : (s.withQueue q).field b' = s.field b' := by rfl
@[simp] theorem State.withQueue_function (q : List Instr) (b' : Nat) : (s.withQueue q).function b' = s.function b' := by rfl
@[simp] theorem State.withQueue_now (q : List Instr) : (s.withQueue q).now = s.now := by rfl
@[simp] theorem State.withQueue_byte (q : List Instr) (b' : Nat) : (s.withQueue q).byte b' = s.byte b' := by rfl
@[simp] theorem State.withQueue_bytes (q : List Instr) (b' c' : Nat) : (s.withQueue q).bytes b' c' = s.bytes b' c' := by rfl
@[simp] theorem State.withQueue_mark (q : List Instr) (b' : Nat) : (s.withQueue q).mark b' = s.mark b' := by rfl
@[simp] theorem State.withQueue_word (q : List Instr) (b' : WordBuffer) (i' k' : Nat) : (s.withQueue q).word b' i' k' = s.word b' i' k' := by rfl
@[simp] theorem State.withQueue_held (q : List Instr) : (s.withQueue q).held = s.held := by rfl
@[simp] theorem State.withQueue_inReset (q : List Instr) : (s.withQueue q).inReset = s.inReset := by rfl

@[simp] theorem State.mapToken_held (g : WarmToken → WarmToken) : (s.mapToken g).held = s.held := by rfl

/-! A read after a write. -/

theorem State.reg_setReg (a b : Nat) (v : Word) : (s.setReg a v).reg b = if b = a then v else s.reg b := by
  unfold State.reg State.setReg
  by_cases h : b = a
  · subst h; simp
  · unfold mapSet mapGet
    simp only [h, if_false]
    split <;> simp [mapFind_erase, mapFind_insert, h]

@[simp] theorem State.reg_setReg_self (a : Nat) (v : Word) : (s.setReg a v).reg a = v := by simp [State.reg_setReg]

theorem State.reg_setReg_ne {a b : Nat} (v : Word) (h : b ≠ a) : (s.setReg a v).reg b = s.reg b := by
  simp [State.reg_setReg, h]

theorem State.reg_setBits (a msb lsb v b : Nat) :
    (s.setBits a msb lsb v).reg b =
      if b = a then BitVec.ofNat 32 (withBits (s.reg a).toNat msb lsb v) else s.reg b := by
  simp [State.setBits, State.reg_setReg]

theorem State.reg_setBits_ne {a b : Nat} (msb lsb v : Nat) (h : b ≠ a) : (s.setBits a msb lsb v).reg b = s.reg b := by
  simp [State.reg_setBits, h]

theorem State.reg_setBit_ne {a b : Nat} (i : Nat) (v : Bool) (h : b ≠ a) : (s.setBit a i v).reg b = s.reg b :=
  s.reg_setBits_ne i i _ h

theorem State.reg_addSat_ne {a b : Nat} (msb lsb k : Nat) (h : b ≠ a) : (s.addSat a msb lsb k).reg b = s.reg b :=
  s.reg_setBits_ne msb lsb _ h

theorem State.reg_addWrap_ne {a b : Nat} (msb lsb k : Nat) (h : b ≠ a) : (s.addWrap a msb lsb k).reg b = s.reg b :=
  s.reg_setBits_ne msb lsb _ h

theorem State.reg_setReg64_ne {lo hi b : Nat} (v : Nat) (h : b ≠ lo) (h' : b ≠ hi) :
    (s.setReg64 lo hi v).reg b = s.reg b := by
  simp [State.setReg64, State.reg_setReg, h, h']

/-- A 64-bit pair reads what was written to it. -/
theorem State.reg64_setReg64 {lo hi : Nat} (v : Nat) (h : lo ≠ hi) : (s.setReg64 lo hi v).reg64 lo hi = v % 2 ^ 64 := by
  simp only [State.reg64, State.setReg64, State.reg_setReg, if_neg h, if_true, BitVec.toNat_ofNat]
  omega

/-- A field reads what was written to it. -/
theorem State.bits_setBits_self (a v : Nat) {msb : Nat} (lsb : Nat) (hm : msb < 32) :
    (s.setBits a msb lsb v).bits a msb lsb = v % 2 ^ (msb + 1 - lsb) := by
  rw [State.bits, State.reg_setBits, if_pos rfl, ofNat_withBits_toNat _ _ _ hm, bitsOf_withBits_self]

/-- A write to a field leaves every other register and every other field. -/
theorem State.bits_setBits_of_disjoint (a v b : Nat) {msb lsb msb' lsb' : Nat} (hm : msb < 32)
    (h : b ≠ a ∨ msb' < lsb ∨ msb < lsb') : (s.setBits a msb lsb v).bits b msb' lsb' = s.bits b msb' lsb' := by
  rw [State.bits, State.reg_setBits]
  split
  · rename_i hba
    rw [ofNat_withBits_toNat _ _ _ hm, bitsOf_withBits_disjoint, State.bits, hba]
    exact h.resolve_left (by simp [hba])
  · rfl

theorem State.bits_setReg_ne {a b : Nat} (v : Word) (msb lsb : Nat) (h : b ≠ a) :
    (s.setReg a v).bits b msb lsb = s.bits b msb lsb := by
  simp [State.bits, State.reg_setReg_ne, h]

theorem State.bit_eq_bits (a i : Nat) : s.bit a i = (s.bits a i i == 1) := bitOf_eq _ _

/-- A bit reads what was written to it. -/
theorem State.bit_setBit_self (a : Nat) {i : Nat} (b : Bool) (hi : i < 32) : (s.setBit a i b).bit a i = b := by
  rw [State.bit_eq_bits, State.setBit, State.bits_setBits_self _ _ _ _ hi]
  cases b <;> simp [bval]

theorem State.bit_setBit_of_disjoint (a b : Nat) {i j : Nat} (v : Bool) (hi : i < 32) (h : b ≠ a ∨ j ≠ i) :
    (s.setBit a i v).bit b j = s.bit b j := by
  rw [State.bit_eq_bits, State.bit_eq_bits, State.setBit, State.bits_setBits_of_disjoint _ _ _ _ hi]
  omega

theorem State.bit_setBits_of_disjoint (a b v : Nat) {msb lsb j : Nat} (hm : msb < 32) (h : b ≠ a ∨ j < lsb ∨ msb < j) :
    (s.setBits a msb lsb v).bit b j = s.bit b j := by
  rw [State.bit_eq_bits, State.bit_eq_bits, State.bits_setBits_of_disjoint _ _ _ _ hm h]

theorem State.bits_setBit_of_disjoint (a b : Nat) {i msb lsb : Nat} (v : Bool) (hi : i < 32)
    (h : b ≠ a ∨ msb < i ∨ i < lsb) : (s.setBit a i v).bits b msb lsb = s.bits b msb lsb :=
  s.bits_setBits_of_disjoint a _ b hi h

/-- A count that saturates. -/
theorem State.bits_addSat_self (a k : Nat) {msb : Nat} (lsb : Nat) (hm : msb < 32) :
    (s.addSat a msb lsb k).bits a msb lsb = min (s.bits a msb lsb + k) (2 ^ (msb + 1 - lsb) - 1) := by
  rw [State.addSat, State.bits_setBits_self _ _ _ _ hm]
  apply Nat.mod_eq_of_lt
  have := Nat.two_pow_pos (msb + 1 - lsb)
  omega

/-- A count that wraps. -/
theorem State.bits_addWrap_self (a k : Nat) {msb : Nat} (lsb : Nat) (hm : msb < 32) :
    (s.addWrap a msb lsb k).bits a msb lsb = (s.bits a msb lsb + k) % 2 ^ (msb + 1 - lsb) :=
  s.bits_setBits_self a _ lsb hm

theorem State.furrow_setFurrow (a b : Nat) (f : Furrow) : (s.setFurrow a f).furrow b = if b = a then f else s.furrow b := by
  simp [State.furrow, State.setFurrow, mapGet_mapSet]

@[simp] theorem State.furrow_setFurrow_self (a : Nat) (f : Furrow) : (s.setFurrow a f).furrow a = f := by simp [State.furrow_setFurrow]

theorem State.furrow_setFurrow_ne {a b : Nat} (f : Furrow) (h : b ≠ a) : (s.setFurrow a f).furrow b = s.furrow b := by
  simp [State.furrow_setFurrow, h]

theorem State.hopper_setHopper (a b : Nat) (f : Hopper) : (s.setHopper a f).hopper b = if b = a then f else s.hopper b := by
  simp [State.hopper, State.setHopper, mapGet_mapSet]

@[simp] theorem State.hopper_setHopper_self (a : Nat) (f : Hopper) : (s.setHopper a f).hopper a = f := by simp [State.hopper_setHopper]

theorem State.hopper_setHopper_ne {a b : Nat} (f : Hopper) (h : b ≠ a) : (s.setHopper a f).hopper b = s.hopper b := by
  simp [State.hopper_setHopper, h]

theorem State.field_setField (a b : Nat) (f : Field) : (s.setField a f).field b = if b = a then f else s.field b := by
  simp [State.field, State.setField, mapGet_mapSet]

@[simp] theorem State.field_setField_self (a : Nat) (f : Field) : (s.setField a f).field a = f := by simp [State.field_setField]

theorem State.field_setField_ne {a b : Nat} (f : Field) (h : b ≠ a) : (s.setField a f).field b = s.field b := by
  simp [State.field_setField, h]

theorem State.function_setFunction (a b : Nat) (f : PcieFunction) : (s.setFunction a f).function b = if b = a then f else s.function b := by
  simp [State.function, State.setFunction, mapGet_mapSet]

@[simp] theorem State.function_setFunction_self (a : Nat) (f : PcieFunction) : (s.setFunction a f).function a = f := by simp [State.function_setFunction]

theorem State.function_setFunction_ne {a b : Nat} (f : PcieFunction) (h : b ≠ a) : (s.setFunction a f).function b = s.function b := by
  simp [State.function_setFunction, h]

theorem State.mark_setMark (g b : Nat) (m : Mark) : (s.setMark g m).mark b = if b = g then m else s.mark b := by
  simp [State.mark, State.setMark, mapGet_mapSet]

@[simp] theorem State.raise_net (e : Event) : (s.raise e).island.net = s.island.net ++ [e] := by rfl

@[simp] theorem State.emit_outbox (o : Output) : (s.emit o).outbox = s.outbox ++ [o] := by rfl

@[simp] theorem State.takeFree_freeCount : s.takeFree.2.freeCount = s.freeCount + 1 := by rfl

@[simp] theorem State.withQueue_pending (q : List Instr) : (s.withQueue q).pending = q := by rfl

@[simp] theorem State.withQueue_self : s.withQueue s.pending = s := by rfl

@[simp] theorem State.takeFree_value : s.takeFree.1 = Config.freeValue s.freeCount := by rfl

end Sys2Proof.Machine
end

