-- ==== Sys2Proof/Laws/Boot.lean ====
section
/-! SUPPORT. What a reset keeps: every register and byte after it, read by address; what ends a start. -/

namespace Sys2Proof.Machine

theorem mapFind_set [DecidableEq α] (d : α) (m : SMap α) (a b : Nat) (v : α) :
    mapFind (mapSet d m a v) b = if b = a then (if v = d then none else some v) else mapFind m b := by
  unfold mapSet
  split <;> by_cases hb : b = a <;> simp_all [mapFind_erase, mapFind_insert]

/-- Where no field of a register is kept, the reset value is all that is left. -/
theorem keepReg_reset (p : FieldDesc → Bool) (extra : Nat → Word) (a : Nat) :
    keepReg p extra a (regReset a) = regReset a := by
  unfold keepReg
  split
  · rename_i d i j h
    generalize regReset a = r, maskWhere d.fields p ||| extra a = m
    ext i hi
    simp only [BitVec.getElem_or, BitVec.getElem_and, BitVec.getElem_not]
    cases r[i] <;> cases m[i] <;> rfl
  · rfl

/-- A register after a reset is its value before it, in the fields kept, and its Reset value in the others. -/
theorem get_keepRegs (p : FieldDesc → Bool) (extra : Nat → Word) (m : SMap Word) (a : Nat) :
    mapGet (regReset a) (keepRegs p extra m) a = keepReg p extra a (mapGet (regReset a) m a) := by
  induction m with
  | nil => exact (keepReg_reset p extra a).symm
  | cons e m ih =>
    obtain ⟨k, v⟩ := e
    have ih' := ih
    unfold mapGet keepRegs at ih ⊢
    rw [List.foldr_cons, mapFind_set]
    by_cases hk : a = k
    · subst hk
      by_cases hv : keepReg p extra a v = regReset a <;> simp [hv, mapFind]
    · simp [hk, mapFind, ih]

theorem mask_none {fs : List FieldDesc} {p : FieldDesc → Bool} (h : ∀ f ∈ fs, p f = false) : maskWhere fs p = 0 := by
  have : ∀ m : Word, fs.foldl (fun m f => if p f then m ||| f.mask else m) m = m := by
    induction fs with
    | nil => intro m; rfl
    | cons f fs ih =>
      intro m
      simp only [List.foldl_cons, h f List.mem_cons_self, Bool.false_eq_true, if_false]
      exact ih (fun g hg => h g (List.mem_cons_of_mem f hg)) m
  exact this 0

/-- A register none of whose fields a reset keeps takes its Reset value. -/
theorem keepReg_of_none {p : FieldDesc → Bool} {extra : Nat → Word} {a : Nat} (v : Word) {d : RegDesc} {i j : Nat}
    (hd : regAt a = some (d, i, j)) (h : ∀ f ∈ d.fields, p f = false) (he : extra a = 0) :
    keepReg p extra a v = regReset a := by
  rw [keepReg, hd]
  simp only [mask_none h, he]
  generalize regReset a = r
  show v &&& (0#32 ||| 0#32) ||| r &&& ~~~(0#32 ||| 0#32) = r
  have : ~~~(0#32 ||| 0#32) = BitVec.allOnes 32 := by decide
  rw [this, BitVec.or_self, BitVec.and_zero, BitVec.zero_or, BitVec.and_allOnes]

/-- Memory after a reset: the windows it keeps read as before, every other byte 0. -/
theorem mapFind_filter (p : Nat → Bool) (m : SMap α) (a : Nat) :
    mapFind (m.filter fun (b, _) => p b) a = if p a then mapFind m a else none := by
  induction m with
  | nil => simp [mapFind]
  | cons e m ih =>
    obtain ⟨k, v⟩ := e
    by_cases hk : a = k
    · subst hk
      by_cases hp : p a = true <;> simp_all [mapFind]
    · by_cases hp : p k = true <;> simp_all [mapFind]

theorem mapGet_filter (d : α) (p : Nat → Bool) (m : SMap α) (a : Nat) :
    mapGet d (m.filter fun (b, _) => p b) a = if p a then mapGet d m a else d := by
  unfold mapGet
  rw [mapFind_filter]
  split <;> rfl

@[simp] theorem startEnded_withQueue (t : State) (q : List Instr) (env : StartEnv) (path step : Nat) :
    StartEnded (t.withQueue q) env path step ↔ StartEnded t env path step := by rfl

@[simp] theorem inRecovery_withQueue (t : State) (q : List Instr) : InRecovery (t.withQueue q) ↔ InRecovery t := by rfl

theorem reeveBoot_writes (u : State) (env : StartEnv) {path step : Nat} (hp : path < 4) (hs : step < 32) :
    StartEnded (((((u.setBits Reg.reeveBoot 30 29 path).setBits Reg.reeveBoot 28 24 step).setBits Reg.reeveBoot 23 0
      (min (env.ticks / 6400) (2 ^ 24 - 1))).setBit Reg.reeveBoot 31 true)) env path step := by
  refine ⟨State.bit_setBit_self _ _ _ (by decide), ?_, ?_, ?_⟩
  · rw [State.bits_setBit_of_disjoint _ _ _ _ (by decide) (by decide),
      State.bits_setBits_of_disjoint _ _ _ _ (by decide) (by decide),
      State.bits_setBits_of_disjoint _ _ _ _ (by decide) (by decide), State.bits_setBits_self _ _ _ _ (by decide)]
    exact Nat.mod_eq_of_lt hp
  · rw [State.bits_setBit_of_disjoint _ _ _ _ (by decide) (by decide),
      State.bits_setBits_of_disjoint _ _ _ _ (by decide) (by decide), State.bits_setBits_self _ _ _ _ (by decide)]
    exact Nat.mod_eq_of_lt hs
  · rw [State.bits_setBit_of_disjoint _ _ _ _ (by decide) (by decide), State.bits_setBits_self _ _ _ _ (by decide)]
    exact Nat.mod_eq_of_lt (by omega)

/-- The last writes of a start. -/
theorem endStart_ended (s : State) (env : StartEnv) {path step : Nat} (hp : path < 4) (hs : step < 32) :
    StartEnded (endStart s env path step) env path step := reeveBoot_writes _ env hp hs

theorem startFromStep3_ended (s : State) (env : StartEnv) {path : Nat} (code : Nat) (hp : path < 4) :
    StartEnded (startFromStep3 s env path code) env path 9 := by
  rw [startFromStep3]; exact endStart_ended _ env hp (by decide)

theorem startFromStep2_ended (s : State) (env : StartEnv) {path : Nat} (img : List Byte) (hp : path < 4) :
    StartEnded (startFromStep2 s env path img) env path 9 := by
  rw [startFromStep2]; exact startFromStep3_ended _ env _ hp

theorem enterRecovery_recovery (s : State) (env : StartEnv) : InRecovery (enterRecovery s env) := by
  rw [enterRecovery]
  refine ⟨?_, State.bits_setBits_self _ _ _ _ (by decide)⟩
  rw [State.bits_setBits_of_disjoint _ _ _ _ (by decide) (by decide)]
  exact (State.bits_setBits_self _ _ _ _ (by decide)).trans (by decide)

/-- A cold or full start ends ready at step 9, or in firmware recovery. -/
theorem startFull_cases (s : State) (env : StartEnv) {path : Nat} (hp : path < 4) :
    StartEnded (startFull s env path) env path 9 ∨ InRecovery (startFull s env path) := by
  rw [startFull]
  generalize tryFirmware true _ _ = r
  obtain ⟨u, _ | img⟩ := r
  · exact .inr (enterRecovery_recovery _ _)
  · exact .inl (startFromStep2_ended _ _ _ hp)

/-- The fast path ends at step 24, or as the full path at step 9 (R450). -/
theorem startFast_cases (s : State) (env : StartEnv) (t : WarmToken) :
    StartEnded (startFast s env t) env 1 24 ∨ StartEnded (startFast s env t) env 2 9 := by
  rw [startFast]
  split
  · exact .inr (startFromStep3_ended _ _ _ (by decide))
  · exact .inl (endStart_ended _ _ (by decide) (by decide))

/-- A warm start ends on the fast path, on the full path, or in firmware recovery (R449, R451). -/
theorem startWarm_cases (s : State) (env : StartEnv) :
    StartEnded (startWarm s env) env 1 24 ∨ StartEnded (startWarm s env) env 2 9 ∨ InRecovery (startWarm s env) := by
  have rej (u : State) (r : Nat) : StartEnded (startWarm.rejected env u r) env 2 9 ∨ InRecovery (startWarm.rejected env u r) := by
    rw [startWarm.rejected]; exact startFull_cases _ _ (by decide)
  rw [startWarm]
  split
  · split
    · exact (startFast_cases _ _ _).imp id .inl
    · exact .inr (rej _ _)
  · exact .inr (rej _ _)

end Sys2Proof.Machine
end

