-- ==== Sys2Proof/Laws/Ops.lean ====
section
/-! SUPPORT. Laws of the shared operations: folds over indices, the events that are raised on a condition. -/

namespace Sys2Proof.Machine

@[simp] theorem forUpTo_zero {σ : Type} (f : Nat → σ → σ) (s : σ) : forUpTo 0 f s = s := rfl

theorem forUpTo_succ {σ : Type} (n : Nat) (f : Nat → σ → σ) (s : σ) : forUpTo (n + 1) f s = f n (forUpTo n f s) := by
  simp [forUpTo, List.range_succ]

/-- What each index keeps, the fold keeps. -/
theorem forUpTo_induct {σ : Type} {P : σ → Prop} {n : Nat} {f : Nat → σ → σ} {s : σ} (h0 : P s)
    (hs : ∀ i u, i < n → P u → P (f i u)) : P (forUpTo n f s) := by
  induction n with
  | zero => exact h0
  | succ n ih =>
    rw [forUpTo_succ]
    exact hs n _ (Nat.lt_succ_self n) (ih fun i u hi => hs i u (Nat.lt_succ_of_lt hi))

/-- What each element keeps, a fold over a list keeps. -/
theorem foldl_induct {σ β : Type} {P : σ → Prop} {f : σ → β → σ} {s : σ} (l : List β) (h0 : P s)
    (hs : ∀ u x, x ∈ l → P u → P (f u x)) : P (l.foldl f s) := by
  induction l generalizing s with
  | nil => exact h0
  | cons x l ih =>
    exact ih (hs s x List.mem_cons_self h0) fun u y hy => hs u y (List.mem_cons_of_mem x hy)

@[simp] theorem raiseIf_true (s : State) (e : Event) : s.raiseIf true e = s.raise e := rfl

@[simp] theorem raiseIf_false (s : State) (e : Event) : s.raiseIf false e = s := rfl

@[simp] theorem onlyIf_true {σ : Type} (f : σ → σ) (s : σ) : onlyIf true f s = f s := rfl

@[simp] theorem onlyIf_false {σ : Type} (f : σ → σ) (s : σ) : onlyIf false f s = s := rfl

theorem signedOf_unsignedOf {x : Int} {w : Nat} (hw : 0 < w) (lo : -(2 ^ (w - 1) : Nat) ≤ x) (hi : x < (2 ^ (w - 1) : Nat)) :
    signedOf (unsignedOf x w) w = x := by
  obtain ⟨k, rfl⟩ : ∃ k, w = k + 1 := ⟨w - 1, by omega⟩
  simp only [Nat.add_sub_cancel] at lo hi
  unfold signedOf unsignedOf
  have h2 : (2 ^ (k + 1) : Nat) = 2 * 2 ^ k := by rw [Nat.pow_succ, Nat.mul_comm]
  have hp := Nat.two_pow_pos k
  simp only [Nat.add_sub_cancel]
  rw [h2]
  generalize (2 ^ k : Nat) = p at *
  by_cases hx : 0 ≤ x
  · have : x % ((2 * p : Nat) : Int) = x := Int.emod_eq_of_lt hx (by omega)
    rw [this, Nat.mod_eq_of_lt (by omega), if_pos (by omega)]
    omega
  · have : x % ((2 * p : Nat) : Int) = x + (2 * p : Nat) := by
      rw [← Int.add_emod_right, Int.emod_eq_of_lt (by omega) (by omega)]
    rw [this, Nat.mod_eq_of_lt (by omega), if_neg (by omega)]
    omega

end Sys2Proof.Machine
end

