-- ==== Sys2Proof/Laws/Memory.lean ====
section
/-! SUPPORT. Laws of memory: what a byte reads after each kind of write, and the canonical form that every operation keeps. -/

namespace Sys2Proof.Machine

/-! The canonical form. -/

theorem wf_memWrite (m : List Host.Cell) (a : Nat) (bs : List Byte) (h : Memory.wf m = true) :
    Memory.wf (memWrite m a bs) = true := by
  induction bs generalizing m a with
  | nil => exact h
  | cons b bs ih => exact ih _ _ (mapWf_set (fun _ => 0) m a b h)

theorem wf_filter (m : List Host.Cell) (p : Nat → Bool) (h : Memory.wf m = true) :
    Memory.wf (m.filter fun (a, _) => p a) = true := by
  have above (lo : Nat) (l : List Host.Cell) (hl : keysAbove lo l = true) :
      keysAbove lo (l.filter fun (a, _) => p a) = true := by
    induction l with
    | nil => rfl
    | cons e l ih =>
      obtain ⟨k, w⟩ := e
      simp only [keysAbove, Bool.and_eq_true] at hl
      by_cases hp : p k = true <;> simp_all [keysAbove]
  unfold Memory.wf at *
  induction m with
  | nil => rfl
  | cons e m ih =>
    obtain ⟨k, w⟩ := e
    simp only [mapWf, Bool.and_eq_true] at h
    by_cases hp : p k = true
    · have := above k m h.1.1
      simp_all [mapWf]
    · simp_all

/-- Memory right after reset is in canonical form. -/
theorem wf_reset : Memory.wf State.reset.mem = true := by rfl

/-! What a byte reads after a write. -/

theorem get_memWrite (m : List Host.Cell) (a : Nat) (bs : List Byte) (x : Nat) :
    mapGet 0 (memWrite m a bs) x = if a ≤ x ∧ x < a + bs.length then (bs[x - a]?).getD 0 else mapGet 0 m x := by
  induction bs generalizing m a with
  | nil => rw [memWrite, if_neg (by simp only [List.length_nil]; omega)]
  | cons b bs ih =>
    rw [memWrite, ih, mapGet_mapSet]
    simp only [List.length_cons]
    by_cases hx : x = a
    · subst hx; rw [if_neg (by omega), if_pos rfl, if_pos (by omega), Nat.sub_self]; rfl
    · by_cases hr : a + 1 ≤ x ∧ x < a + 1 + bs.length
      · have h1 : a ≤ x ∧ x < a + (bs.length + 1) := by omega
        have h2 : x - a = (x - (a + 1)) + 1 := by omega
        rw [if_pos hr, if_pos h1, h2, List.getElem?_cons_succ]
      · have h1 : ¬ (a ≤ x ∧ x < a + (bs.length + 1)) := by omega
        rw [if_neg hr, if_neg h1, if_neg hx]

/-- A read of a byte after a write of bytes. -/
theorem byte_poke (s : State) (a x : Nat) (bs : List Byte) :
    (s.poke a bs).byte x = if a ≤ x ∧ x < a + bs.length then (bs[x - a]?).getD 0 else s.byte x := get_memWrite _ _ _ _

@[simp] theorem markRange_mem (s : State) (a n : Nat) (m : Mark) : (s.markRange a n m).mem = s.mem := by
  unfold State.markRange
  exact foldl_induct (P := fun t : State => t.mem = s.mem) _ rfl fun u x _ h => by simpa using h

@[simp] theorem markRange_byte (s : State) (a n x : Nat) (m : Mark) : (s.markRange a n m).byte x = s.byte x := by
  rw [State.byte, markRange_mem]; rfl

@[simp] theorem setBlockMark_mem (s : State) (b : Nat) (m : Mark) : (setBlockMark s b m).mem = s.mem := by rfl

@[simp] theorem cancelWriteBacks_mem (s : State) (a n : Nat) : (cancelWriteBacks s a n).mem = s.mem := by
  unfold cancelWriteBacks
  split
  · dsimp only
    split <;> rfl
  · rfl

@[simp] theorem seedError_mem (s : State) (n g : Nat) (u c : Bool) : (seedError s n g u c).mem = s.mem := by
  unfold seedError
  cases u
  · simp only [Bool.false_or, if_false, Bool.false_eq_true, State.addSat_mem, State.setBit_mem]
    split <;> simp
  · simp

@[simp] theorem dramError_mem (s : State) (b : Nat) (u c : Bool) : (dramError s b u c).mem = s.mem := by
  unfold dramError
  cases u
  · simp only [Bool.false_or, if_false, Bool.false_eq_true, State.addSat_mem, State.setBit_mem]
    split <;> simp
  · simp

@[simp] theorem checkBlock_mem (s : State) (b : Nat) (u : Upset) (c : Bool) : (checkBlock s b u c).mem = s.mem := by
  unfold checkBlock
  dsimp only
  split <;> simp

@[simp] theorem readSeedRow_mem (s : State) (n row : Nat) (us : List Upset) : (readSeedRow s n row us).mem = s.mem := by
  unfold readSeedRow
  refine forUpTo_induct (P := fun t : State => t.mem = s.mem) rfl fun i u _ h => ?_
  dsimp only
  split <;> simp [h]

@[simp] theorem noteRead_mem (s : State) (a n : Nat) : (noteRead s a n).mem = s.mem := by
  unfold noteRead
  split
  · rfl
  · split
    · exact forUpTo_induct (P := fun t : State => t.mem = s.mem) rfl fun i u _ h => by simp [h]
    · split
      · exact forUpTo_induct (P := fun t : State => t.mem = s.mem) rfl fun i u _ h => by simp [h]
      · rfl

/-- Reads change no byte of memory. -/
@[simp] theorem noteReads_mem (s : State) (xs : List (Nat × Nat)) : (noteReads s xs).mem = s.mem :=
  foldl_induct (P := fun t : State => t.mem = s.mem) xs rfl fun u x _ h => by simp [h]

theorem writeBlock_mem (s : State) (b off : Nat) (bs : List Byte) (p : Bool) (u : Upset) (h : bs.length = 64 → off = 0) :
    (writeBlock s b off bs p u).mem = memWrite s.mem (64 * b + off) bs := by
  unfold writeBlock
  split
  · rename_i hl; rw [setBlockMark_mem, State.poke, h hl, Nat.add_zero]
  · dsimp only; rw [setBlockMark_mem, State.poke, checkBlock_mem]

/-- A byte of DRAM after a write of bytes. -/
theorem byte_writeDram (s : State) (a : Nat) (bs : List Byte) (p : Bool) (u : Upset) (fuel x : Nat)
    (hf : bs.length + a % 64 ≤ 64 * fuel) : (writeDram s a bs p u fuel).byte x =
      if a ≤ x ∧ x < a + bs.length then (bs[x - a]?).getD 0 else s.byte x := by
  induction fuel generalizing s a bs with
  | zero =>
    have : bs.length = 0 := by omega
    rw [writeDram, if_neg (by omega)]
  | succ fuel ih =>
    rw [writeDram]
    by_cases hb : bs = []
    · subst hb; rw [if_pos rfl, if_neg (by simp)]
    · rw [if_neg hb]
      dsimp only
      have hlen : 0 < bs.length := List.length_pos_iff.mpr hb
      have h64 : (a + (64 - a % 64)) % 64 = 0 := by omega
      rw [ih]
      · have hw : (writeBlock s (a / 64) (a % 64) (bs.take (64 - a % 64)) p u).mem = memWrite s.mem a (bs.take (64 - a % 64)) := by
          rw [writeBlock_mem, show 64 * (a / 64) + a % 64 = a by omega]
          rw [List.length_take]; omega
        have hbyte : (writeBlock s (a / 64) (a % 64) (bs.take (64 - a % 64)) p u).byte x = mapGet 0 (memWrite s.mem a (bs.take (64 - a % 64))) x := by
          rw [State.byte, hw]
        rw [hbyte, get_memWrite, List.length_drop, List.length_take, List.getElem?_drop, List.getElem?_take]
        by_cases h1 : a + (64 - a % 64) ≤ x ∧ x < a + (64 - a % 64) + (bs.length - (64 - a % 64))
        · rw [if_pos h1, if_pos (by omega)]
          congr 2; omega
        · rw [if_neg h1]
          by_cases h2 : a ≤ x ∧ x < a + min (64 - a % 64) bs.length
          · rw [if_pos h2, if_pos (by omega), if_pos (by omega)]
          · rw [if_neg h2, if_neg (by omega)]; rfl
      · rw [List.length_drop, h64]; omega

theorem writeSeed_byte (s : State) (a x : Nat) (bs : List Byte) (p : Bool) (ha : a % 32 = 0) (hl : bs.length % 32 = 0) :
    (writeSeed s a bs p).byte x = if a ≤ x ∧ x < a + bs.length then (bs[x - a]?).getD 0 else s.byte x := by
  unfold writeSeed
  have h1 : a / 32 * 32 = a := by omega
  have h2 : roundUp bs.length 32 - bs.length = 0 := by unfold roundUp ceilDiv; omega
  simp only [ha, List.replicate_zero, List.nil_append, h2, List.append_nil, h1, markRange_byte, byte_poke]
  split
  · rfl
  · rw [State.byte, cancelWriteBacks_mem]; rfl

/-- A byte after a write with check bits. In a seedbed the write is of whole granules (R117). -/
theorem byte_store (s : State) (a x : Nat) (bs : List Byte) (p : Bool)
    (h : 0x2000000000 ≤ a → (seedbedOf a).isSome = true → a % 32 = 0 ∧ bs.length % 32 = 0) :
    (s.store a bs p).byte x = if a ≤ x ∧ x < a + bs.length then (bs[x - a]?).getD 0 else s.byte x := by
  unfold State.store
  split
  · exact byte_writeDram _ _ _ _ _ _ _ (by omega)
  · split
    · have := h (by omega) ‹_›
      exact writeSeed_byte _ _ _ _ _ this.1 this.2
    · rw [markRange_byte, byte_poke]

theorem wf_writeDram (s : State) (a : Nat) (bs : List Byte) (p : Bool) (u : Upset) (fuel : Nat)
    (h : Memory.wf s.mem = true) : Memory.wf (writeDram s a bs p u fuel).mem = true := by
  induction fuel generalizing s a bs with
  | zero => exact h
  | succ fuel ih =>
    rw [writeDram]
    split
    · exact h
    · apply ih
      unfold writeBlock
      split
      · rw [setBlockMark_mem]; exact wf_memWrite _ _ _ h
      · dsimp only; rw [setBlockMark_mem]; exact wf_memWrite _ _ _ (by rwa [checkBlock_mem])

/-- Every write with check bits keeps the canonical form. -/
theorem wf_store (s : State) (a : Nat) (bs : List Byte) (p : Bool) (h : Memory.wf s.mem = true) :
    Memory.wf (s.store a bs p).mem = true := by
  unfold State.store
  split
  · exact wf_writeDram _ _ _ _ _ _ h
  · split
    · unfold writeSeed
      dsimp only
      rw [markRange_mem]
      exact wf_memWrite _ _ _ (by rwa [cancelWriteBacks_mem])
    · rw [markRange_mem]; exact wf_memWrite _ _ _ h

end Sys2Proof.Machine
end

