-- ==== Sys2Proof/Laws/Outcome.lean ====
section
/-! SUPPORT. What the outcome wrappers of a meaning answer: a held device, the queue, and the unit that a number stands for. -/

namespace Sys2Proof.Machine

@[simp] theorem always_eq (s t : State) : always s t = .next (t.withQueue s.pending) := by rfl

/-- A command of a running device leaves what its meaning gives, with the queue's rest as it was. -/
@[simp] theorem live_eq {s : State} (h : s.held = false) (t : State) : live s t = .next (t.withQueue s.pending) := by
  simp [live, h]

/-- While the device is held, a command of the running device changes nothing. -/
@[simp] theorem live_held {s : State} (h : s.held = true) (t : State) : live s t = .next s := by
  simp [live, always, State.withQueue, h]

/-- Whatever the device's mode, a command completes and leaves the queue as it was. -/
theorem live_completes (s t : State) : ∃ u, live s t = .next u ∧ u.pending = s.pending := ⟨_, rfl, rfl⟩

/-- A number that the device has a unit for stands for that unit. -/
@[simp] theorem withUnit_of {n i : Nat} (h : i < n) (s : State) (f : State → Nat → State) : withUnit s n i f = f s i := by
  simp [withUnit, h]

/-- Whatever the number, the command acts on a unit that the device has, after at most one free value is taken. -/
theorem withUnit_cases {n i : Nat} (hn : 0 < n) (s : State) (f : State → Nat → State) :
    ∃ k < n, ∃ t, (t = s ∨ t = s.takeFree.2) ∧ withUnit s n i f = f t k := by
  by_cases h : i < n
  · exact ⟨i, h, s, .inl rfl, withUnit_of h s f⟩
  · exact ⟨s.takeFree.1.toNat % n, Nat.mod_lt _ hn, _, .inr rfl, by simp only [withUnit, if_neg h]⟩

end Sys2Proof.Machine
end

