-- ==== Sys2Proof/Laws/Time.lean ====
section
/-! SUPPORT. What the clock's run changes: the time base alone. -/

namespace Sys2Proof.Machine

/-- A run of the clock changes the time base alone. -/
theorem runCycles_eq (s : State) (n : Nat) : runCycles s n = { s with time := (runCycles s n).time } := by
  unfold runCycles
  split <;> rfl

/-- A run of the clock changes the time base alone. -/
theorem runUntil_eq (s : State) (t : Nat) : runUntil s t = { s with time := (runUntil s t).time } := by
  unfold runUntil
  split
  · exact runCycles_eq _ _
  · rfl

/-- Of the time base a run moves TIME_NOW, the phase and the count of cycles, and makes ticks and refills due. -/
theorem runCycles_time (s : State) (n : Nat) : (runCycles s n).time =
    { s.time with now := (runCycles s n).time.now, phase := (runCycles s n).time.phase,
                  ticks := (runCycles s n).time.ticks, ticksDue := (runCycles s n).time.ticksDue, refillsDue := (runCycles s n).time.refillsDue,
                  cycles := (runCycles s n).time.cycles } := by
  unfold runCycles
  split <;> rfl

theorem runUntil_time (s : State) (t : Nat) : (runUntil s t).time =
    { s.time with now := (runUntil s t).time.now, phase := (runUntil s t).time.phase,
                  ticks := (runUntil s t).time.ticks, ticksDue := (runUntil s t).time.ticksDue, refillsDue := (runUntil s t).time.refillsDue,
                  cycles := (runUntil s t).time.cycles } := by
  unfold runUntil
  split
  · exact runCycles_time _ _
  · rfl

@[simp] theorem runUntil_fsync (s : State) (t n : Nat) : (runUntil s t).fsync n = s.fsync n := by
  unfold State.fsync; rw [runUntil_time]

theorem fsync_setFsync (s : State) (n k : Nat) (f : Fsync) : (s.setFsync n f).fsync k = if k = n then f else s.fsync k := by
  simp [State.fsync, State.setFsync, mapGet_mapSet]

@[simp] theorem runCycles_reg (s : State) (n a : Nat) : (runCycles s n).reg a = s.reg a := by
  rw [runCycles_eq]; rfl

@[simp] theorem runUntil_reg (s : State) (n a : Nat) : (runUntil s n).reg a = s.reg a := by
  rw [runUntil_eq]; rfl

@[simp] theorem runUntil_bits (s : State) (n a m l : Nat) : (runUntil s n).bits a m l = s.bits a m l := by
  rw [runUntil_eq]; rfl

@[simp] theorem runUntil_bit (s : State) (n a i : Nat) : (runUntil s n).bit a i = s.bit a i := by
  rw [runUntil_eq]; rfl

@[simp] theorem runUntil_pending (s : State) (n : Nat) : (runUntil s n).pending = s.pending := by
  rw [runUntil_eq]

@[simp] theorem runUntil_outbox (s : State) (n : Nat) : (runUntil s n).outbox = s.outbox := by
  rw [runUntil_eq]

@[simp] theorem runUntil_pins (s : State) (n : Nat) : (runUntil s n).pins = s.pins := by
  rw [runUntil_eq]

@[simp] theorem runUntil_held (s : State) (n : Nat) : (runUntil s n).held = s.held := by
  rw [runUntil_eq]; rfl

/-- A tick that TIME_NOW has reached needs no run. -/
theorem runUntil_of_reached {s : State} {t : Nat} (h : t ≤ s.now) : runUntil s t = s := by
  unfold runUntil; rw [if_neg (Nat.not_lt.mpr h)]


end Sys2Proof.Machine
end

