-- ==== Sys2Proof/Laws/Yields.lean ====
section
/-! SUPPORT. How a command's completion is shown: through the gate of a held device. -/

namespace Sys2Proof.Machine

@[simp] theorem sameRegsBut_withQueue (as : List Nat) (s t : State) (q : List Instr) :
    SameRegsBut as s (t.withQueue q) ↔ SameRegsBut as s t := by rfl

@[simp] theorem sameBytes_withQueue (s t : State) (q : List Instr) : SameBytes s (t.withQueue q) ↔ SameBytes s t := by rfl

@[simp] theorem sameBytesOutside_withQueue (lo n : Nat) (s t : State) (q : List Instr) :
    SameBytesOutside lo n s (t.withQueue q) ↔ SameBytesOutside lo n s t := by rfl

theorem yields_of_live {c : Instr} {s u : State} {P : State → Prop} (hx : exec c s = live s u)
    (hh : s.held = false) (hp : P (u.withQueue s.pending)) : Yields c s P := ⟨_, by rw [hx, live_eq hh], hp⟩

theorem yields_of_always {c : Instr} {s u : State} {P : State → Prop} (hx : exec c s = always s u)
    (hp : P (u.withQueue s.pending)) : Yields c s P := ⟨_, hx, hp⟩

theorem answers_of_live {c : Instr} {s u : State} (hx : exec c s = live s u) (hh : s.held = false) : Answers c s u := by
  rw [Answers, hx, live_eq hh]

end Sys2Proof.Machine
end

