-- ==== Sys2Proof/Tests/Slice0.lean ====
section
/-! SUPPORT. Tests: ill-formed and well-formed commands, one state per clause that meets the premises of each statement,
and small tests with values from the spec. -/

namespace Sys2Proof.Tests

set_option Elab.async false
set_option maxRecDepth 100000

open Sys2Proof Sys2Proof.Machine

/-! States. -/

/-- A device out of reset with its PLL locked. -/
def out : State := { State.reset with pins := { State.reset.pins with porst := false, outputsZ := false, pllLocked := true } }
/-- A device that has started: REEVE_BOOT.ready, start-up injection over. -/
def up : State := (out.setBit Reg.reeveBoot 31 true).setBit Reg.safeStatus 7 true
/-- A start in which every check passes. -/
def clean (ticks : Nat) : StartEnv :=
  { ticks := ticks, pllLocks := true, chainHead := true, fusesDisagree := false, badDramChannels := [], dramMargins := List.replicate 32 40,
    linkMargins := List.replicate 17 40, nodeTemps := List.replicate 8 30, badMemory := false, spareRowBanks := [], failedPhysical := [],
    missingBlocks := [], failedStores := [], checkers := 100, failedCheckers := [], pcieUp := some (8, 4), traceUp := true, traceDown := false,
    addrOffer := none, chainAlign := none, channelCheckBad := [], linkDownBad := [], tokenBad := false }
/-- A held device's environment of one start. -/
def envClean : StartEnv := clean 0
/-- The readings of one management tick. -/
def tickEnv : TickEnv :=
  { vinMilliVolt := 12000, currentDeci := 70000, powerDeci := 900, maxTj := -5, nodeTemps := [1, 2, 3, -4], servo := none, gpioLevels := 0x55 }
/-- A read of one granule of seedbed 0. -/
def seedRead : SeedAccess := { req := .reeve, furrow := 0, row := 0, first := 0, count := 1, wdata := [], wpoison := false, upsets := [] }
/-- A frame of no bytes. -/
def anyFrame : DroveFrame := ⟨0, true, []⟩
/-- A packet within one router. -/
def anyPacket : Packet :=
  { srcX := 0, srcY := 0, dstX := 0, dstY := 0, vc := 0, response := false, bytes := 64, upsetWord := .clean, upsetHead := .clean, inRouter := 0, inPort := 0, mask := 0, noCredit := false, granule := 0 }
/-- A long packet of no bytes. -/
def anyLong : LongPacket :=
  { receiver := 0, vc := 0, dataType := 0x2A, ecc := .good, crcOk := true, payload := [], upset := .clean, checkBad := false }
/-- A sensor frame of no bytes. -/
def anySensor : SensorFrame := ⟨0, true, false, 0, []⟩
/-- A Classical CAN frame of no bytes. -/
def anyCan : CanFrame :=
  { kind := 0, ident := 0, remote := false, af := 0, sdt := 0, vcid := 0, brs := false, esi := false, sec := false, tick := 0, data := [] }
/-- A chain frame of no bytes. -/
def anyChain : ChainFrame :=
  { fromUp := true, type := 1, src := 0, unaddressed := false, dst := 0, broadcast := false, linkLocal := true, payload := [], crc := 0 }
/-- A command that its check refuses. -/
def refused (c : Instr) : Bool := !c.wellFormed
/-- Bytes placed in memory. -/
def mem (s : State) (a : Nat) (bs : List Byte) : State := s.poke a bs
/-- TIME_NOW at n. -/
def atTick (s : State) (n : Nat) : State := { s with time := { s.time with now := n } }
/-- Bytes of numbers. -/
def bs (l : List Nat) : List Byte := l.map (BitVec.ofNat 8)
/-- Field f in state st with its hoppers, DRAM region and Furrows (ready seedbeds). -/
def withField (s : State) (f st : Nat) (furs : List Nat) : State :=
  let s := (s.setBits (Reg.fldStatus f) 2 0 st)
  let s := s.setReg (Reg.fldHoppers f) (BitVec.ofNat 32 (0x80000000 + (f * 16 + 15) * 65536 + f * 16))
  let s := s.setReg64 (Reg.fldDramBaseLo f) (Reg.fldDramBaseHi f) (f * 0x10000000)
  let s := s.setReg64 (Reg.fldDramLimitLo f) (Reg.fldDramLimitHi f) (f * 0x10000000 + 0xFFFFFFF)
  furs.foldl (fun s n => (((s.setBits (Reg.furStatus n) 2 0 0).setBit (Reg.furStatus n) 7 true).setBits (Reg.furStatus n) 6 4 f).setBit (Reg.furSbStatus n) 0 true) s
/-- An installed DRAM of the smallest size. -/
def dramUp (s : State) : State := s.setReg Reg.dramCfg 1#32
/-- The base of the seedbeds. -/
def SB : Nat := 0x4000000000
/-- A descriptor of 64 bytes with its CRC (R97). -/
def descBytes (op tag tiles budget param stub : Nat) (w0 : Nat := 0) (dst : Nat := 0) (w6 : Nat := 0) : List Byte :=
  let b := leBytes 8 (op + w0 + budget * 65536 + tag * 2^32) ++ leBytes 8 0 ++ leBytes 8 (SB + 0x1000) ++ leBytes 8 0 ++ leBytes 8 dst ++
    leBytes 8 (param + tiles * 2^40 + 4 * 2^56) ++ leBytes 8 (stub + w6 * 2^40) ++ leBytes 4 0
  b ++ leBytes 4 (crc32c b).toNat
/-- A ring of descriptors in seedbed 0. -/
def ring : Nat := SB + 0x10000
/-- An enabled hopper with one task. -/
def hop (f cls fur : Nat) (base : Nat := ring) : Hopper :=
  { base := base, k := 2, field := f, cls := cls, furrow := fur, retries := 1, enable := true, tail := 1 }
/-- Two running Fields on three Furrows; hopper 0 holds a MOVE. -/
def farm : State :=
  let s := withField (withField up 0 2 [0, 1]) 1 1 [2]
  let s := s.setHopper 0 (hop 0 1 0)
  (s.poke ring (descBytes 0x0C 77 2 100 (SB + 0x20000) (SB + 0x30000))).poke (SB + 0x20000 + 64) (leBytes 8 (SB + 0x40000))
/-- The same with another op and parameter 0. -/
def withOp (op p0 : Nat) : State := (farm.poke ring (descBytes op 77 2 100 (SB + 0x20000) (SB + 0x30000))).poke (SB + 0x20000 + 96) (leBytes 4 p0)
/-- A check-plot descriptor in the system hopper. -/
def sysCheck : State :=
  let h := sysHopper
  let s := farm.setHopper h { hop 0 0 0 (SB + 0x3F0000) with field := 0 }
  let s := s.poke (SB + 0x3F0000) (descBytes 0x10 5 1 1000 (SB + 0x3F1000) (SB + 0x3F2000))
  s.setFurrow 0 { s.furrow 0 with run := { due := true } }
/-- The descriptor of hopper 0. -/
def dsc : Desc := decodeDesc (descBytes 0x0C 77 2 100 (SB + 0x20000) (SB + 0x30000))
/-- A tile of 64 bytes. -/
def tile (j : Nat) : Tile := { pieces := [(SB + 0x50000 + 64 * j, bs (List.replicate 64 (j + 7)))] }
/-- A task of hopper 0 in a stage. -/
def task (st : Stage) (left : List Tile) (done : Nat) : Task :=
  { hopper := 0, desc := dsc, stage := st, stubble := true, charged := true, committed := done, tilesLeft := left, start := 0, cycles := 3 }
/-- Furrow 0 runs the task. -/
def running (t : Task) (s : State := farm) : State :=
  let s := s.setHopper t.hopper { s.hopper t.hopper with inflight := true, stage := .running }
  let s := (s.setBits (Reg.furStatus 0) 2 0 1).setReg (Reg.furTask 0) (BitVec.ofNat 32 (0x80000000 + t.hopper))
  s.setFurrow 0 { s.furrow 0 with task := some t }
/-- A slot: generation, readers left, readers loaded. -/
def gate (s : State) (n k gen readers load : Nat) : State := s.setReg (Reg.furSbSlotGen n k) (BitVec.ofNat 32 (gen + readers * 65536 + load * 2^20))
/-- Final stubble writes of Furrow 0 that wait. -/
def unk (us : List Unacked) (s : State := farm) : State := s.setFurrow 0 { s.furrow 0 with unacked := us }
/-- One such write. -/
def una (done : Bool) (uses : List SlotUse) : Unacked := { hopper := 0, done := done, uses := uses, stageNo := 0, capture := none, buffers := [] }
/-- A task of Furrow 0 that waits for slot 5 of Furrow 1. -/
def held : State := running { task .reading [] 0 with uses := [⟨1, 5, 3, false⟩] }
/-- The same with a task of a higher class ready. -/
def two : State := (held.setHopper 1 { hop 0 0 0 (SB + 0x11000) with furrow := 0 }).poke (SB + 0x11000) (descBytes 0x0C 78 1 100 (SB + 0x20000) (SB + 0x30000))
/-- A task of hopper 0 parked in slot 2. -/
def park1 (s : State) (uses : List SlotUse) : State :=
  let s := s.setHopper 0 { hop 0 1 0 with inflight := true, stage := .parked, park := 2 }
  s.setFurrow 0 { slots := [(2, some { task := { task .reading [] 0 with uses := uses }, tick := 0, order := 0 })], parks := 1 }
/-- A MAC address of each port of a chip. -/
def macOf (chip : Nat) : List Byte := (List.range 4).flatMap fun q => bs [2, 0, 0, 0, chip, q]
/-- DROVEWAY table 0: this chip. -/
def entryOwn (chip : Nat) : List Byte := bs [0, 0, 0, 3] ++ leBytes 2 5 ++ leBytes 2 0x88B5 ++ macOf chip
/-- DROVEWAY table 1: a peer. -/
def entryPeer (chip : Nat) : List Byte := bs (List.replicate 8 0) ++ macOf chip
/-- A chip of a unit of two, with one receive buffer. -/
def chip (me : Nat) (s : State := dramUp farm) : State :=
  let s := ((s.setBit Reg.reeveChain 31 true).setBits Reg.reeveChain 3 0 me)
  let s := (s.setEntry 0xD 0 0 (entryOwn me)).setEntry 0xD 1 (1 - me) (entryPeer (1 - me))
  let s := s.setEntry 0xD 2 7 (bs [0, 0, 1, 0] ++ leBytes 2 0xFFFF ++ leBytes 2 0 ++ leBytes 4 0x1000 ++ leBytes 4 0 ++ leBytes 8 0x2000)
  let s := s.setEntry 0xD 3 7 (bs [0, 0, 0xFF, 0] ++ leBytes 2 0xFFFF ++ leBytes 2 0 ++ leBytes 4 0x1000 ++ leBytes 4 0 ++ leBytes 8 0x2000)
  s.setBit (Reg.drovePeer (1 - me)) 0 true
/-- Chip 0. -/
def me0 : State := chip 0
/-- Port 2 with its stream to chip 1. -/
def open0 (x : Stream) (s : State := me0) : State := (setStreamUp (s.setBit (Reg.drovePortStatus 2) 0 true) 2 1 true).setStream 2 1 x
/-- A message of 40 bytes. -/
def msg (kind : Nat) (id : Nat := 9) (buf : Nat := 7) : Message :=
  { kind := kind, dst := 0, msgId := id, field := 0, buffer := buf, round := 0, offset := 64, aux := 40, tag := List.replicate 32 3#8, payload := List.replicate 40 0xAA#8 }
/-- A data frame of chip 1 as it arrives. -/
def dataFr (kind seq : Nat) (id : Nat := 9) (buf : Nat := 7) : DroveFrame := ⟨2, true, dataFrame (chip 1) 2 seq (msg kind id buf)⟩
/-- A control frame of chip 1. -/
def ctlFr (c : ControlFrame) : DroveFrame := ⟨2, true, controlFrame (chip 1) 2 c⟩
/-- A receive stream that expects frame 5. -/
def rx5 : Stream := { rxOpen := true, expected := 5 }
/-- A window of four frames. -/
def win : List WindowFrame := [3,4,5,6].map fun k => { seq := k, msg := { msg 3 (k + 7) with dst := 1 } }
/-- INTAKE table 0: a RAW8 pipeline of 8 by 4 samples. -/
def pipeEntry (receiver : Nat) : List Byte :=
  bs [0, 0, receiver, 0, 0x2A, 0, 0xFF, 0, 0, 2, 0, 0] ++ leBytes 2 8 ++ leBytes 2 4 ++ leBytes 4 0 ++ leBytes 4 0 ++ leBytes 4 0 ++ leBytes 4 0 ++ leBytes 4 0 ++ leBytes 4 4 ++ leBytes 8 (SB + 0x60000) ++
    leBytes 2 0 ++ leBytes 6 (2^48-1) ++ bs [1, 0, 0, 0, 0, 0, 0, 0]
/-- INTAKE table 1: a band buffer. -/
def bandEntry : List Byte := bs [0, 0, 1, 0, 0, 0, 0, 0] ++ leBytes 8 (SB + 0x70000) ++ leBytes 8 (SB + 0x74000)
/-- Pipeline 1 on receiver 3. -/
def cam (en : Bool) (s : State := farm) : State :=
  (((s.setEntry 8 0 1 (pipeEntry 3)).setEntry 8 1 8 bandEntry).setBit (Reg.intkPipeCtrl 1) 31 en).setBits (Reg.intkRxStatus 3) 2 1 2
/-- A long packet of p bytes. -/
def lpk (p : Nat) : LongPacket := { receiver := 3, vc := 0, dataType := 0x2A, ecc := .good, crcOk := true, payload := List.replicate p 5#8, upset := .clean, checkBad := false }
/-- Pipeline 1 with a frame in progress. -/
def inFrame (f : IntakeFrame) (s : State := cam true) : State := s.setPipe 1 { s.pipe 1 with frame := some f }
/-- Pipeline 2 on sensor Ethernet port 1. -/
def eth (s : State := farm) : State :=
  let s := s.setEntry 8 0 2 (pipeEntry 9)
  let s := s.setEntry 8 3 2 (bs [0, 0, 0, 0] ++ leBytes 2 5 ++ leBytes 2 0x88B6 ++ bs [2,0,0,0,0,9,0,0] ++ leBytes 2 0 ++ leBytes 2 0x0102 ++ leBytes 4 4 ++ leBytes 4 8 ++ leBytes 4 2 ++ leBytes 4 1000 ++ leBytes 4 0 ++ leBytes 24 0)
  (s.setEntry 8 1 16 bandEntry).setBit (Reg.intkEthStatus 1) 0 true
/-- A frame of its stream. -/
def ethFr (n : Nat) : SensorFrame := ⟨1, true, false, 555, bs [2,0,0,0,0,9, 6,6,6,6,6,6, 0x88, 0xB6, 1, 2, 0, 1] ++ List.replicate n 4#8⟩
/-- A packet from (1, 2) to (4, 5) with the errors it meets. -/
def pk (a : Nat) (vc : Nat) (h w : Upset) (resp nc : Bool) : Packet := { srcX := 1, srcY := 2, dstX := 4, dstY := 5, vc := vc, response := resp, bytes := 64, upsetWord := w, upsetHead := h, inRouter := a, inPort := 3, mask := 0, noCredit := nc, granule := SB + 64 }
/-- Rein 5 in a state and mode. -/
def rein1 (st mode : Nat) (s : State := farm) : State :=
  let s := (s.setBits (Reg.reinChStatus 5) 31 29 st).setBits (Reg.reinChCtrl 5) 1 0 mode
  ((s.setReg (Reg.reinChPeriod 5) 500#32).setReg (Reg.reinChPhase 5) 7#32).setReg (Reg.reinChSafe 5) 0xFFFFFF00#32
/-- Rein 5 pending. -/
def pend (s : State) : State := s.setRein 5 { s.reinRec 5 with pending := true, trig := 28 }
/-- An evaluation of a rein. -/
def ev : ReinEval := { due := 100, state := 2, cs := 0, cause := 0, bad := 5, plaus := 3, ov := true, entry := true, i := 77, dPrev := 0, yPrev := 0, uPrev := -5, u := -9, origin := 2^40, trig := 28, offset := 0, events := [] }
/-- A Tack packet of words. -/
def tw (l : List Nat) : List TackWord := (List.range l.length).map fun i =>
  let d := BitVec.ofNat 64 (l[i]?.getD 0); let f := i == 0; let z := i + 1 == l.length
  { isFirst := f, isLast := z, reserved := false, data := d, crc := linkCrc f z false d, tick := 1000 + i }
/-- Port 2 enabled with its link up. -/
def tack (s : State := up) : State := ((s.setReg (Reg.tackCfg 2) 3#32).setBit (Reg.tackStatus 2) 0 true).setBits (Reg.chuteCfg 5) 3 0 2
/-- Chute words. -/
def cw (l : List Nat) (m : Mark := .clean) : List ChuteWord := l.map fun x => { data := BitVec.ofNat 64 (x * 0x100000001 + 0xAB00000000), mark := m }
/-- A CAN frame. -/
def can (kind ident len : Nat) (remote : Bool := false) : CanFrame := { kind := kind, ident := ident, remote := remote, af := 5, sdt := 0, vcid := 0, brs := false, esi := false, sec := false, tick := 44, data := List.replicate len 6#8 }
/-- Channel 3 enabled, with two acceptance entries. -/
def brd (mode : Nat) (s : State := up) : State :=
  let s := s.setBits (Reg.brdlChCtrl 3) 1 0 mode
  (s.setEntry 10 0 4 (bs [1, 3, 0, 0] ++ leBytes 4 0x55 ++ leBytes 2 9 ++ leBytes 6 0)).setEntry 10 0 5 (bs [1, 3, 2, 0] ++ leBytes 4 0x56 ++ leBytes 2 2047 ++ leBytes 6 0)
/-- A transmit FIFO entry of three bytes. -/
def fe (m : Mark := .clean) : FifoEntry := { desc := leBytes 4 0x55 ++ leBytes 4 0 ++ leBytes 2 3 ++ bs [0,0,0,0] ++ leBytes 2 0x1234, data := List.replicate 64 9#8, rein := false, mark := m }
/-- A buckle set in a state. -/
def bkl (r st id : Nat) (b : Buckle) (s : State := up) : State := ((s.setBits (Reg.bklStatus r) 31 30 st).setBits (Reg.bklStatus r) 15 0 id).setBuckle r b
/-- A chain frame with its CRC. -/
def cf (fromUp : Bool) (type src dst : Nat) (un bc ll : Bool) (p : List Byte) : ChainFrame :=
  let f : ChainFrame := { fromUp := fromUp, type := type, src := src, unaddressed := un, dst := dst, broadcast := bc, linkLocal := ll, payload := p, crc := 0 }
  { f with crc := crc32c (leBytes 1 f.type ++ leBytes 1 (frameSrcByte f) ++ leBytes 1 (frameDstByte f) ++ leBytes 1 f.payload.length ++ f.payload) }
/-- Both chain links up. -/
def both (s : State) : State := (s.setBit Reg.reeveChain 26 true).setBit Reg.reeveChain 27 true
/-- A signed Reeve image. -/
def fwImg : List Byte := leBytes 288 0xe27d631ea25b0d8d9b482abb3f9a36add4d1194a1cc9cba91d55236733b5684420fc471e988ddd14e9032f79fe17762cf7f34b013da0da97ee4f4d4d2fe9c621b8d9888f04d9f5251298f40e930d9fd71ef515c9caa4f06f45e4426e581de2b3000000b48a96db326399a0da2c795d737b7b4a478d97b11c6b3ec12714fb667e52712d2be5092d4a18fa1a2a3da6d134419d22335f5b987d1595731dd1b55faa72f2727fb38cb26787264be53aa0806deff8667be51e150953383a51513d6795ad4aa104000000c80000ffff0f0e0d0c0b0a090807060504030201004077f79a00000000000000000000000000000000000000000000000000000000000000000000000000000000d9c908eb00000005000001200000000156524c4a
/-- A step of 5000 ticks forward. -/
def ahead : State := up.setReg64 Reg.timeStepLo Reg.timeStepHi 5000
/-- The same with FSYNC output 3 at a period of 1000 ticks. -/
def fsyncing : State :=
  ((ahead.setReg (Reg.timeFsyncPeriod 3) 1000#32).setBit (Reg.timeFsyncCtrl 3) 16 true).setBits (Reg.timeFsyncCtrl 3) 15 0 5
/-- Yoke bucket (0, 0) enabled, with requests that wait, at a level. -/
def yoked (q : List YokeRequest) (level : Nat) : State :=
  let e := (up.setReg (Reg.yokeRate 0 0) 0x80000010#32).setReg (Reg.yokeDepth 0 0) 100#32
  let e := { e with time := { e.time with refillsDue := 1 } }
  (e.setYoke 0 0 { queue := q, waited := true }).setReg (Reg.yokeLevel 0 0) (BitVec.ofNat 32 level)
/-- Bucket r of Field f enabled and empty. -/
def dry (f r : Nat) (s : State) : State :=
  ((s.setReg (Reg.yokeRate f r) 0x80000010#32).setReg (Reg.yokeDepth f r) 100#32).setReg (Reg.yokeLevel f r) 0#32
/-- Every bucket of Field 0 enabled and empty. -/
def stuck (s : State) : State := dry 0 0 (dry 0 1 (dry 0 2 s))
/-- The task with another budget. -/
def bud (n : Nat) (t : Task) : Task := { t with desc := { t.desc with budget := n } }
/-- Furrow 0's instruction store 2 holds an uncorrectable word. -/
def badStore (s : State) : State := s.setFurrow 0 { s.furrow 0 with stores := [(2, .double)] }
/-- Furrow 0's task waits at slot 5 of Furrow n since tick 0. -/
def heldAtGate (n : Nat) : State :=
  running { task .reading [] 0 with uses := [⟨n, 5, 3, false⟩], wait := .gate n 5 } (farm.setBits Reg.clkStatus 7 4 8)
/-- Field 0 has stopped with hopper 0's task in flight; its report goes to 0x1000. -/
def gleanable : State :=
  let s := (withField farm 0 6 []).setReg64 (Reg.fldGleanAddrLo 0) (Reg.fldGleanAddrHi 0) 0x1000
  s.setHopper 0 { hop 0 1 0 with inflight := true, stage := .frozen }
/-- The same stream, with the receive buffer in seedbed 0. -/
def seeded : State := (open0 rx5).setEntry 0xD 2 7
  (bs [0, 0, 1, 0] ++ leBytes 2 0xFFFF ++ leBytes 2 0 ++ leBytes 4 0x1000 ++ leBytes 4 0 ++ leBytes 8 (SB + 0x50000))
/-- The descriptor of a REDUCE of UINT8 rows to INT8. -/
def redDesc : Desc := { dsc with op := 0x08, fmtA := 2, fmtOut := 1 }
/-- Its parameters (the sums of two rows of three elements, a tile each) and its operand. -/
def reducing : State :=
  (farm.poke (SB + 0x20000 + 96) (leBytes 4 3 ++ leBytes 4 2 ++ leBytes 4 32 ++ leBytes 4 32 ++ leBytes 4 0 ++ leBytes 4 1)).poke
    (SB + 0x1000) (bs [200, 100, 50] ++ List.replicate 29 0 ++ bs [1, 2, 3])
/-- A message for chip 1 that is admitted at port 2. -/
def sender : State :=
  let s := open0 rx5
  s.setPort 2 { s.drovePort 2 with ready := [{ msg 3 12 with dst := 1, admitted := true }] }
/-- Frame 1 of a pipeline in progress. -/
def goodFrame : IntakeFrame := { number := 1 }
/-- The PCIe link up, with function 1's memory enabled. -/
def linked : State := (((dramUp farm).setReg Reg.pcieLink 0x45#32)).setBit (Reg.pcieFn 1) 1 true
/-- An F-class event of source 0x555. -/
def ev1 (cls : Nat) (f : Option Nat := none) : Event := { code := 0x0555, cls := cls, inst := 3, field := f, info := some 9 }
/-- Two events in the tally log's queue. -/
def tallied (e : Event) (s : State) : State :=
  { s with island := { s.island with queue := [{ event := e, tick := 77, cycle := 0 }, { event := ev1 0, tick := 79, cycle := 5 }] } }
/-- A transaction that shadows YOKE_RATE(2, 1), over an active rate and depth. -/
def shadowed (st : Nat) : State :=
  ((bkl 1 st 5 { openTick := 44, shadows := [(Reg.yokeRate 2 1, (3#32, 2#32))] }).setReg (Reg.yokeDepth 2 1) 0x5000#32).setReg (Reg.yokeRate 2 1) 0x80000555#32
/-- Chip 0 of a chain with both links up. -/
def chained : State := both me0
/-- Firmware recovery. -/
def inRecovery : State := (out.setBits Reg.reeveBoot 30 29 3).setBits Reg.reeveBoot 28 24 1
/-- The fused hash of the key that signs the images below. -/
def keyed (s : State) : State :=
  (List.range 12).foldl (fun s i => s.setReg (Reg.fuseKeyHash 0 i) (BitVec.ofNat 32 (([2119041360, 3467603606, 262510429, 3620230998, 1983553625, 2678683869, 3204095547, 2664369138, 2873486237, 2173594193, 2799264073, 526117033] : List Nat)[i]?.getD 0)))
    ((s.setReg Reg.fuseKey 1#32).setReg Reg.fusePart 0x643001#32)
/-- A harness image in the loader, on a chip with an address and a check-plot period. -/
def loading (k : List Byte) (s : State) : State :=
  { (((((keyed s).setBit Reg.reeveChain 31 true).setBits Reg.reeveChain 3 0 0).setReg Reg.safeCpPeriod 64000000#32).setBit
      Reg.hrnsStatus 31 true) with loader := { staging := k } }
/-- The checks of a loading image: none where one fails, else what the conditions of its kind find. -/
def checked (s : State) : Option (Option ErrLoc) :=
  match runChecks s s.loader.staging (fun _ => true) with
  | .ok xs => some (s.conditionFail (imageKind s.loader.staging) xs)
  | .error _ => none
/-- The flash holds a directory that names the signed Reeve image, whose key the fuses hold. -/
def flashed (s : State) : State :=
  let d := leBytes 4 0x52444C4A ++ leBytes 2 1 ++ leBytes 2 1 ++ leBytes 8 0 ++ leBytes 1 1 ++ leBytes 3 0 ++ leBytes 4 0x20000 ++ leBytes 100 0
  ((keyed s).poke flashBase (d ++ leBytes 4 (crc32c d).toNat)).poke (flashBase + 0x20000) fwImg
/-- A Reeve image of the flash is accepted. -/
def accepted (s : State) : Bool := (s.slotImages 1 s.firmwareAt).any fun x => s.firmwareOk true x.2
/-- The pins WARM_N and the PLL, and a cold start that waits for WARM_N. -/
def pinned (warm cold locked : Bool) (s : State) : State :=
  { s with pins := { s.pins with warm := warm, coldDue := cold, pllLocked := locked } }
/-- A start that waits for the PLL. -/
def waiting (warm : Bool) (s : State) : State := { s with boot := { s.boot with waiting := some (clean 100), warmWait := warm } }
/-- A complete warm token. -/
def tokened (s : State) : State :=
  { s with boot := { s.boot with token := some { map := List.range 64, complete := true, fwLength := 4, fwCrc := crc32c (up.bytes 0x5800000000 4) } } }
/-- A harness is in force. -/
def started (s : State) : State := s.setBit Reg.hrnsStatus 30 true
/-- A signed image of kind 0 (the fuses, twelve tables). -/
def k0 : List Byte := leBytes 360 0x58c32ffca73703df005725bc9f35f0a065b9a9caeac5136f1fc34174c3cb3806fb83fdd64bc937a0dce25a03bdd482a2b2360f0a0535162614ea2308e7b506c41837f9a902bd1e977ab14f029e99fc77cb14f2323d51f0820751233cbdb1d62000000b48a96db326399a0da2c795d737b7b4a478d97b11c6b3ec12714fb667e52712d2be5092d4a18fa1a2a3da6d134419d22335f5b987d1595731dd1b55faa72f2727fb38cb26787264be53aa0806deff8667be51e150953383a51513d6795ad4aa104000000c80000ffff000000000000000c00000000000000070000000000000006000000000000000500000000000000040000000000000003000000000000000200000000000000000000b0020032050100000000001800020000001800000001000000000000000000000000000000000000000000000000000000000000000000000000f3db36ff0000000000090001000000070000016800000001534e5248
/-- A signed image of kind 1 that changes nothing. -/
def k1 : List Byte := leBytes 272 0xfa6cb321c6c7d91e847fe720384bc578fdcce8cc17d625f1e4c84093b6987673df7ca59dbfa37cd0fc15a5f5b0ba5c5f035c420e999e637da8a97e29ac40da130a70d2522895eea8649ecb15991b3f7afee3398e1b57baa2e2e68d570bc8d9fd000000b48a96db326399a0da2c795d737b7b4a478d97b11c6b3ec12714fb667e52712d2be5092d4a18fa1a2a3da6d134419d22335f5b987d1595731dd1b55faa72f2727fb38cb26787264be53aa0806deff8667be51e150953383a51513d6795ad4aa104000000c80000ffff0000000000000000000000000000000000000000000000000000000000000000000000006f9423300000000000010001000000080000011000010001534e5248
/-- A signed image of kind 2 that writes a yoke. -/
def k2 : List Byte := leBytes 328 0x88b7ee0b3db7bbb2040295136e9ac3f7d4a2d2038258e15ea7b6ed18ed24ad5e4e92dc073eee0aa217057246adbdd4b7140d4eeb3a669880a3f3e6bb7c76c148df8f6cc88c87c7d2f2a8728f920dab84fd426fb7bb37bc45647dde498f431f7c000000b48a96db326399a0da2c795d737b7b4a478d97b11c6b3ec12714fb667e52712d2be5092d4a18fa1a2a3da6d134419d22335f5b987d1595731dd1b55faa72f2727fb38cb26787264be53aa0806deff8667be51e150953383a51513d6795ad4aa104000000c80000ffff00000000000010000000004800102004001fffff0018000100000000000001230000004800102000000fffff001800010000003000010003000000000000000000000000000000000000000000000000000000000000000000000000bcb99fc30000000000020001000000090000014800020001534e5248
/-- A signed image of kind 1 that writes a Field. -/
def k3 : List Byte := leBytes 304 0xed9d51bb24cd22fd28f1a1c1475d1c5d24d48155b172c9c97bdd8e6cc8670d6c382bf536ed95ffda1041d918809b55265a5d77b71619b0ca3962cdbef389fdf84dcd57df8808d618d8181bb668d65a8cfa0aa95c343cc7f9981dc63771b7d11000000b48a96db326399a0da2c795d737b7b4a478d97b11c6b3ec12714fb667e52712d2be5092d4a18fa1a2a3da6d134419d22335f5b987d1595731dd1b55faa72f2727fb38cb26787264be53aa0806deff8667be51e150953383a51513d6795ad4aa104000000c80000ffff000000000000000300000050000300000000000f00180001000000180000000400000000000000000000000000000000000000000000000000000000000000000000000046156da40000000000020001000000090000013000010001534e5248

/-! Well-formedness. -/


/-- Commands that name no unit, one per check of their rows: every check refuses its own. -/
theorem test_ill_formed_1 : (([.gptpEventMessageRx 4 0, .fsyncEdge 16, .fsyncPulseEnd 16, .yokeAdmit 8 0, .yokeAdmit 0 3, .matmul 64,
    .conv 64, .pool 64, .resample 64, .attnBlock 64, .kvAppend 64, .eltwise 64, .reduce 64, .route 64,
    .dispatchForward 64, .dispatchReturn 64, .dispatchPut 64, .dispatchBalePush 64, .combine 64,
    .combineFetch 64, .move 64, .compress 64, .decompress 64, .syncLocalGeneration 64, .syncReceiveBuffer 64,
    .syncHopperCompletions 64, .checkPlot 64, .undefinedOpCode 64, .tileCommit ⟨64, false⟩, .taskDone 64,
    .stubbleWriteAck 64, .budgetExpiry 64, .taskPark 64, .taskResume 64, .parkLimitExpiry 64 0,
    .parkLimitExpiry 0 8, .seedbedAccess { seedRead with furrow := 64 },
    .seedbedAccess { seedRead with row := 32768 }, .seedbedAccess { seedRead with first := 4 },
    .seedbedAccess { seedRead with count := 0 }, .seedbedAccess { seedRead with first := 1, count := 4 },
    .gateTimeout 64, .seedbedScrubRead 64 0 [], .seedbedScrubRead 0 16 [], .seedbedScrubWriteBack 64 0]
    : List Instr).all refused) = true := by decide +kernel

/-- Commands that name no unit, one per check of their rows: every check refuses its own. -/
theorem test_ill_formed_2 : (([.seedbedScrubWriteBack 0 16, .slotGenerationWrite .reeve 64 0 0, .slotGenerationWrite .reeve 0 256 0,
    .fenceRequest 64 0, .furCntClear 64, .furSbCntClear 64, .furZcCntClear 64, .furHwCntClear 64,
    .doorbell .reeve 32768 0, .hopSkip .reeve 32768, .hopCntReset .reeve 32768, .fieldStart .reeve 8,
    .fieldQuiesce .reeve 8, .fieldStop .reeve 8, .quiesceComplete 8, .quiesceLimitExpiry 8, .fieldStopped 8,
    .stopAckTimeout 8, .gleaning 8, .droveFrameTx 4, .droveDispatchRx { anyFrame with port := 4 },
    .droveCombineRx { anyFrame with port := 4 }, .drovePutRx { anyFrame with port := 4 },
    .droveBalePushRx { anyFrame with port := 4 }, .droveGetRx { anyFrame with port := 4 },
    .droveAckRx { anyFrame with port := 4 }, .droveOpenRx { anyFrame with port := 4 },
    .droveNackRx { anyFrame with port := 4 }, .droveAckTimer 4 0, .droveAckTimer 0 16, .droveRtoExpiry 4 0,
    .droveRtoExpiry 0 16, .drovePortLinkDown 4, .drovePortLinkUp 4, .droveFenceReq 16, .peerHeartbeatTimeout 16,
    .dramRefresh 32, .dramRetrainNow 32, .headlandPacket { anyPacket with srcX := 8 },
    .headlandPacket { anyPacket with srcY := 9 }, .headlandPacket { anyPacket with dstX := 8 },
    .headlandPacket { anyPacket with dstY := 9 }, .headlandPacket { anyPacket with vc := 9 },
    .headlandPacket { anyPacket with inRouter := 72 }, .headlandPacket { anyPacket with inPort := 5 }]
    : List Instr).all refused) = true := by decide +kernel

/-- Commands that name no unit, one per check of their rows: every check refuses its own. -/
theorem test_ill_formed_3 : (([.csi2FrameStart 8 0 0 .good 0, .csi2FrameEnd 8 0 0 .good, .csi2LineStart 8 0 0 .good,
    .csi2LineEnd 8 0 0 .good, .csi2LongPacket { anyLong with receiver := 8 }, .frameCompletion 16, .checkRow 16,
    .sensorEthFrameRx { anySensor with port := 4 }, .sensorEthGroupGap 16, .sensorEthLinkDown 4,
    .sensorEthTx 4 [] 0, .dphySyncLoss 8, .reinPeriodicDue 256, .reinCommandWrite 256, .reinCommandRelease 256,
    .mailboxWrite .reeve 256 0 [], .tackPacketRx 12 [], .tackLinkDown 12, .tackLinkUp 12, .tackPacketTx 12 true,
    .chutePop .reeve 24, .chutePop .reeve 1, .chuteHoldWrite 25 0, .chuteHoldWrite 2 0, .chutePush 25 0,
    .chutePush 2 0, .chuteDiscardN 24 1, .chuteDiscardN 1 1, .chuteDiscardN 0 0, .chuteDiscardN 0 33,
    .chuteDiscardAll 24, .chuteDiscardAll 1, .canFrameRx 8 anyCan, .canFrameTxDone 8 true, .canArbitrationLoss 8,
    .canBusError 8 true 0 0, .brdlPost 8, .brdlAbortHead 8, .brdlAbortAll 8, .brdlRecover 8,
    .busOffRecoveryDone 8, .brdlObjAck 2048, .checkPlotDue 64, .martingaleWindowEnd 0, .martingaleWindowEnd 256]
    : List Instr).all refused) = true := by decide +kernel

/-- Commands that name no unit, one per check of their rows: every check refuses its own. -/
theorem test_ill_formed_4 : (([.buckleOpen 11 0, .buckleOpen 0 65536, .buckleFasten 11 0 0, .buckleFasten 0 4 0, .buckleFasten 0 0 256,
    .buckleSlip 11, .buckleCommit 11, .buckleTimeout 11, .pcieMemoryWrite 9 0 0 [0] true,
    .pcieMemoryWrite 0 0 0 [] true, .pcieMemoryWrite 0 1 0 [0] true, .pcieMemoryWrite 0 0 65536 [0] true,
    .pcieMemoryWrite 0 2 549755813888 [0] true, .pcieMemoryWrite 0 0 0 (List.replicate 513 0) true, .pcieMemoryRead 9 0 0 1, .pcieMemoryRead 0 0 0 0,
    .pcieMemoryRead 0 1 0 1, .pcieMemoryRead 0 0 65536 1, .pcieMemoryRead 0 2 549755813888 1,
    .pcieMemoryRead 0 0 0 4097, .pcieFlr 9, .pcieUnsupportedRequest 9, .chainAddrRx { anyChain with src := 16 },
    .chainAddrRx { anyChain with dst := 16 }, .chainAddrRx { anyChain with payload := List.replicate 65 0 },
    .chainHeartbeatRx { anyChain with src := 16 }, .chainHeartbeatRx { anyChain with dst := 16 },
    .chainHeartbeatRx { anyChain with payload := List.replicate 65 0 },
    .chainDelayProbeRx { anyChain with src := 16 } 0, .chainDelayProbeRx { anyChain with dst := 16 } 0,
    .chainDelayProbeRx { anyChain with payload := List.replicate 65 0 } 0,
    .chainDelayReplyRx { anyChain with src := 16 } 0 0 0, .chainDelayReplyRx { anyChain with dst := 16 } 0 0 0,
    .chainDelayReplyRx { anyChain with payload := List.replicate 65 0 } 0 0 0,
    .chainFenceReportRx { anyChain with src := 16 }, .chainFenceReportRx { anyChain with dst := 16 },
    .chainFenceReportRx { anyChain with payload := List.replicate 65 0 },
    .chainFenceNoticeRx { anyChain with src := 16 }, .chainFenceNoticeRx { anyChain with dst := 16 },
    .chainFenceNoticeRx { anyChain with payload := List.replicate 65 0 },
    .chainSafeReportRx { anyChain with src := 16 }, .chainSafeReportRx { anyChain with dst := 16 },
    .chainSafeReportRx { anyChain with payload := List.replicate 65 0 }, .chainErrRx { anyChain with src := 16 },
    .chainErrRx { anyChain with dst := 16 }, .chainErrRx { anyChain with payload := List.replicate 65 0 }]
    : List Instr).all refused) = true := by decide +kernel

/-- Commands that name no unit, one per check of their rows: every check refuses its own. -/
theorem test_ill_formed_5 : (([.chainMgmtRx { anyChain with src := 16 }, .chainMgmtRx { anyChain with dst := 16 },
    .chainMgmtRx { anyChain with payload := List.replicate 65 0 }, .chainSend true 16, .writeGatherGo 128,
    .dphySliceAbort 8, .registerWrite .reeve 0 0 0, .registerWrite .reeve 0 9 0, .pcieLinkUp 3 1,
    .pcieLinkUp 1 0, .pcieLinkUp 1 6, .sensorEthLinkUp 4, .dphyHsSynchronisation 8,
    .secDedMemoryScrub (.lineBuffer 64 0) .clean, .secDedMemoryScrub (.lineBuffer 0 8192) .clean, .secDedMemoryScrub (.scoreBuffer 64 0) .clean,
    .secDedMemoryScrub (.intakeLine 16 0) .clean, .secDedMemoryScrub (.reinState 256) .clean,
    .secDedMemoryScrub (.hopper 32768) .clean, .secDedMemoryScrub (.bridleObject 2048) .clean,
    .secDedMemoryScrub (.bridleFifo 8 0) .clean, .secDedMemoryScrub (.bridleFifo 0 64) .clean, .secDedMemoryScrub (.chute 24 0) .clean,
    .secDedMemoryScrub (.chute 0 32) .clean, .secDedMemoryScrub (.instructionStore 64 0) .clean,
    .secDedMemoryScrub (.instructionStore 0 5) .clean, .secDedMemoryScrub (.droveBuffer 4 0) .clean,
    .secDedMemoryScrub (.tally 1024) .clean, .pcieConfigurationRequest 9 (.memorySpace true),
    .pcieConfigurationRequest 0 (.bar 1 0), .pcieConfigurationRequest 0 (.read 4096), .registerRead .reeve 0 0,
    .registerRead .reeve 0 9]
    : List Instr).all refused) = true := by decide +kernel

/-- One well-formed command per row. -/
theorem test_well_formed_1 : (([.porstAssert, .porstRelease envClean, .warmAssert true, .warmRelease envClean, .vinRise, .vinBrownout,
    .perstAssert, .safeReqAssert, .refclkOutOfRange, .pllLockLoss, .pllLock, .vinMonitorTrip,
    .temperatureMonitorTrip, .timeStep, .timeRateAdjWrite 0, .managementTick tickEnv, .chainAlignTimeout,
    .gptpEventMessageRx 0 0, .fsyncEdge 0, .fsyncPulseEnd 0, .yokeRefill, .yokeAdmit 0 0, .matmul 0, .conv 0,
    .pool 0, .resample 0, .attnBlock 0, .kvAppend 0, .eltwise 0, .reduce 0, .route 0, .dispatchForward 0,
    .dispatchReturn 0, .dispatchPut 0, .dispatchBalePush 0, .combine 0, .combineFetch 0, .move 0, .compress 0,
    .decompress 0, .syncLocalGeneration 0, .syncReceiveBuffer 0, .syncHopperCompletions 0, .checkPlot 0,
    .undefinedOpCode 0, .tileCommit ⟨0, false⟩, .taskDone 0, .stubbleWriteAck 0, .budgetExpiry 0, .taskPark 0,
    .taskResume 0, .parkLimitExpiry 0 0, .seedbedAccess seedRead, .gateTimeout 0, .seedbedScrubRead 0 0 [],
    .seedbedScrubWriteBack 0 0, .slotGenerationWrite .reeve 0 0 0, .fenceRequest 0 0, .furCntClear 0,
    .furSbCntClear 0, .furZcCntClear 0, .furHwCntClear 0, .doorbell .reeve 0 0, .hopSkip .reeve 0,
    .hopCntReset .reeve 0, .fieldStart .reeve 0, .fieldQuiesce .reeve 0, .fieldStop .reeve 0, .quiesceComplete 0,
    .quiesceLimitExpiry 0]
    : List Instr).all Instr.wellFormed) = true := by decide +kernel

/-- One well-formed command per row. -/
theorem test_well_formed_2 : (([.fieldStopped 0, .stopAckTimeout 0, .gleaning 0, .droveFrameTx 0, .droveDispatchRx anyFrame,
    .droveCombineRx anyFrame, .drovePutRx anyFrame, .droveBalePushRx anyFrame, .droveGetRx anyFrame,
    .droveAckRx anyFrame, .droveOpenRx anyFrame, .droveNackRx anyFrame, .droveAckTimer 0 0, .droveRtoExpiry 0 0,
    .drovePortLinkDown 0, .drovePortLinkUp 0, .droveFenceReq 0, .peerHeartbeatTimeout 0, .droveCntClear,
    .dramRead .reeve 0 .clean, .dramWrite .reeve 0 [] true, .dramPartialWrite .reeve 0 [] .clean,
    .dramPatrolScrubRead [], .dramRetrainSlice 0 0, .dramRefresh 0, .dramRetrainNow 0, .dramCntClear,
    .headlandPacket anyPacket, .headCntClear, .csi2FrameStart 0 0 0 .good 0, .csi2FrameEnd 0 0 0 .good,
    .csi2LineStart 0 0 0 .good, .csi2LineEnd 0 0 0 .good, .csi2LongPacket anyLong, .frameCompletion 0,
    .checkRow 0, .sensorEthFrameRx anySensor, .sensorEthGroupGap 0, .sensorEthLinkDown 0, .sensorEthTx 0 [] 0,
    .dphySyncLoss 0, .intkCntClear, .reinPeriodicDue 0, .reinIssue, .reinCommandWrite 0, .reinCommandRelease 0,
    .mailboxWrite .reeve 0 0 [], .reinLockstepMismatch, .reinCntClear, .tackPacketRx 0 [], .tackLinkDown 0,
    .tackLinkUp 0, .tackPacketTx 0 true, .chutePop .reeve 0, .chuteHoldWrite 1 0, .chutePush 1 0,
    .chuteDiscardN 0 1, .chuteDiscardAll 0, .chuteCntClear, .canFrameRx 0 anyCan, .canFrameTxDone 0 true,
    .canArbitrationLoss 0, .canBusError 0 true 0 0, .brdlPost 0, .brdlAbortHead 0, .brdlAbortAll 0,
    .brdlRecover 0, .busOffRecoveryDone 0, .brdlObjAck 0, .brdlCntClear]
    : List Instr).all Instr.wellFormed) = true := by decide +kernel

/-- One well-formed command per row. -/
theorem test_well_formed_3 : (([.faultReport, .tallyWrite, .faultNRelease, .faultDynToggle true, .lockstepMismatch .reeve, .watchdogKick,
    .watchdogExpiry, .safeEnter, .tallyReadIndexWrite 0, .checkPlotDue 0, .martingaleWindowEnd 1,
    .safeInject 0 0, .powerWindowEnd, .harnessLoad .reeve, .harnessApply, .buckleOpen 0 0, .buckleFasten 0 0 0,
    .buckleSlip 0, .buckleCommit 0, .buckleTimeout 0, .pcieMemoryWrite 0 0 0 [0] true, .pcieMemoryRead 0 0 0 1,
    .pcieFlr 0, .pcieUnsupportedRequest 0, .pcieLinkDown true, .pcieCorrectableError, .reeveBootCommand envClean,
    .chainAddrRx anyChain, .chainHeartbeatRx anyChain, .chainDelayProbeRx anyChain 0,
    .chainDelayReplyRx anyChain 0 0 0, .chainFenceReportRx anyChain, .chainFenceNoticeRx anyChain,
    .chainSafeReportRx anyChain, .chainErrRx anyChain, .chainMgmtRx anyChain, .chainSend true 0, .chainPop,
    .chainAddressTimeout, .writeGatherGo 0, .writeGatherAck, .linkRetrainSlice 0 ⟨0, true⟩, .dphySliceAbort 0,
    .fuseProgram .reeve, .jtagExtest, .jtagIdcode, .jtagBypass, .jtagSamplePreload ⟨[], []⟩,
    .registerWrite .reeve 0 1 0, .perstRelease, .pcieLinkUp 1 1, .sensorEthLinkUp 0, .dphyHsSynchronisation 0,
    .traceLinkDown true, .traceLinkUp true, .safeReqRelease, .referenceInRange,
    .secDedMemoryScrub (.tally 0) .clean, .pcieConfigurationRequest 0 (.read 0), .registerRead .reeve 0 1]
    : List Instr).all Instr.wellFormed) = true := by decide +kernel


/-! Small tests. -/

/-- The state after a command. -/
def after (c : Instr) (s : State) : State := match exec c s with | .next t => t | _ => s
/-- What a command adds to the fault-report network: codes, classes and instances. -/
def told (c : Instr) (s : State) : List (Nat × Nat × Nat) :=
  ((after c s).island.net.drop s.island.net.length).map fun e => (e.code, e.cls, e.inst)

/-- The check value of CRC-32C (Castagnoli), over the digits 1 to 9. -/
theorem test_crc32c_check_value : crc32c (bs [0x31, 0x32, 0x33, 0x34, 0x35, 0x36, 0x37, 0x38, 0x39]) = 0xE3069283#32 := by decide +kernel
/-- FIPS 180-4's example for SHA-384: the message abc. -/
theorem test_sha384_abc : sha384 (bs [0x61, 0x62, 0x63]) =
    0xcb00753f45a35e8bb5a03d699ac65007272c32ab0eded1631a8b605a43ff5bed8086072ba1e7cc2358baeca134c825a7#384 := by decide +kernel
/-- R486: IDCODE. -/
theorem test_idcode : (after .jtagIdcode State.reset).outbox = [.jtag 0x14816A3D] := by decide +kernel
/-- R46: the rate is clamped at the top, and at the bottom. -/
theorem test_rate_top : (after (.timeRateAdjWrite 0x7FFFFFFF#32) up).reg Reg.timeRateAdj = 219902326#32 := by decide +kernel
theorem test_rate_bottom : (after (.timeRateAdjWrite 0x80000000#32) up).rate = -219902326 := by decide +kernel
/-- R42: REFCLK out of range is F4 0x0101. -/
theorem test_refclk : told .refclkOutOfRange up = [(0x0101, 4, 0)] := by decide +kernel
/-- R43: an idle step is 4 ticks. -/
theorem test_idle_step : (match step up with | .next t => t.now | _ => 0) = up.now + 4 := by decide +kernel
/-- R196: a doorbell of a hopper that is not enabled, reason 1. -/
theorem test_doorbell_refused : (after (.doorbell .reeve 1 0) farm).reg Reg.hopErr = 0x80010001#32 ∧
    told (.doorbell .reeve 1 0) farm = [(0x2201, 0, 1)] := by decide +kernel
/-- R202: start of a ready Field. -/
theorem test_field_start : (after (.fieldStart .reeve 1) farm).reg (Reg.fldStatus 1) &&& 7#32 = 2#32 := by decide +kernel
/-- R96: a MOVE is taken; its hopper is in FUR_TASK. -/
theorem test_move_taken : (after (.move 0) farm).reg (Reg.furTask 0) = 0x80000000#32 ∧
    (after (.move 0) farm).reg (Reg.furTaskTag 0) = 77#32 := by decide +kernel
/-- The first tile of a task is committed. -/
theorem test_tile_committed : (after (.tileCommit ⟨0, false⟩) (running (task .committing [tile 0, tile 1] 0))).bits (Reg.furTiles 0) 15 0 = 1 := by decide +kernel
/-- R53, R77: the sum 200 + 100 + 50 of UINT8 saturates at 127 in INT8; 1 + 2 + 3 does not. -/
theorem test_reduce_saturates : (((after (.taskDone 0) (running { task .reading [] 0 with desc := redDesc } reducing)).furrow 0).task.map
    fun (k : Task) => k.tilesLeft.flatMap fun (x : Tile) => x.pieces.map fun y => (y.1, y.2.headD 0)) = some [(0, 127), (32, 6)] := by decide +kernel
/-- R130: the write of a slot with an even generation makes it odd and loads its readers. -/
theorem test_slot_generation : (after (.slotGenerationWrite .reeve 0 5 3) (gate farm 0 5 2 0 7)).reg (Reg.furSbSlotGen 0 5) = 0x770003#32 := by decide +kernel
/-- R263, R464: an uncorrectable DRAM error is F2 0x0402, and the Reeve that reads the block gets a bus error, 0x0002. -/
theorem test_dram_uncorrectable : (told (.dramRead .reeve 5 .double) (dramUp farm)).map (fun e => (e.1, e.2.1)) = [(0x0402, 2), (0x0002, 0)] := by decide +kernel
/-- R276: an uncorrectable header on the system channel is F4. -/
theorem test_headland_header : told (.headlandPacket (pk 17 8 .double .clean false false)) (up.setFurrow 17 { task := some { task .reading [] 0 with hopper := sysHopper + 17 } }) =
    [(0x0303, 4, 17)] := by decide +kernel
/-- R345: the two halves of a pushed word. -/
theorem test_chute_push : ((after (.chutePush 23 5#32) (after (.chuteHoldWrite 23 7#32) tack)).chute 23).words = [{ data := 0x700000005#64 }] := by decide +kernel
/-- R346: a pop of an empty chute underruns. -/
theorem test_chute_underrun : told (.chutePop .reeve 4) tack = [(0x0907, 0, 4)] := by decide +kernel
/-- A Tack packet of three words enters the receive chute; one of bad CRC does not. -/
theorem test_tack_packet : ((after (.tackPacketRx 2 (tw [1, 2, 3])) tack).chute 4).words.map (·.data) = [1, 2, 3] := by decide +kernel
theorem test_tack_crc : ((after (.tackPacketRx 2 ((tw [1, 2, 3]).map fun w => { w with crc := w.crc ^^^ 1 })) tack).chute 4).words = [] := by decide +kernel
/-- R354: a transmit error counter of 256 is bus off. -/
theorem test_bus_off : ((after (.canBusError 3 true 8 0) ((brd 1).setBits (Reg.brdlChStatus 3) 22 14 248)).bits (Reg.brdlChStatus 3) 31 30) = 2 := by decide +kernel
/-- R356: a frame that the table names reaches its object. -/
theorem test_can_object : ((after (.canFrameRx 3 (can 0 0x55 8)) (brd 1)).object 9).data = List.replicate 8 6#8 := by decide +kernel
/-- R400: no injection in the Fenced profile. -/
theorem test_inject_fenced : told (.safeInject 0x0401 0) (farm.setBits Reg.safeStatus 1 0 1) = [(0x0A22, 0, 0)] := by decide +kernel
/-- R370: an F4 event enters safe state and shows its code. -/
theorem test_safe_state : (after .faultReport (farm.raise (ev1 4))).bits Reg.safeStatus 31 16 = 0x555 ∧
    (after .faultReport (farm.raise (ev1 4))).bit Reg.safeStatus 2 = true := by decide +kernel
/-- R378: an entry's last word is the CRC of the others. -/
theorem test_tally_entry : (after .tallyWrite (tallied (ev1 2) up)).bytes (tallyBase + 8) 8 = bs [0x55, 0x05, 2, 0, 3, 0, 0, 0] := by decide +kernel
/-- R413, R410: an empty image fails check 1; the signature of a signed one is good, and not with a bit changed. -/
theorem test_harness_empty : (match runChecks (loading [] up) [] (fun _ => true) with | .error (c, _) => c | _ => 0) = 1 := by decide +kernel
theorem test_harness_signature : signatureOk k1 = true ∧ signatureOk (k1.set 12 9#8) = false := by decide +kernel
/-- R420: an OPEN with id 0 is refused with cause 0x20. -/
theorem test_open_zero : told (.buckleOpen 10 0) up = [(0x0B20, 0, 10)] := by decide +kernel
/-- R429: a Function Level Reset clears the memory enable and sets its flag. -/
theorem test_flr : (after (.pcieFlr 1) linked).reg (Reg.pcieFn 1) = 4#32 := by decide +kernel
/-- R454: an address offer names this chip. -/
theorem test_chain_address : (after (.chainAddrRx (cf true 1 1 0 false false true (bs [3]))) (both up)).chipId = 3 := by decide +kernel
/-- The table gives its rows no bits, so no word spells a command. -/
theorem test_no_word : decodeTableWord 32 0x12345678 = none := rfl

/-! The premises of the statements. -/

/-- PowerResetLeavesResetValues: states that meet the premises of each clause. -/
theorem witness_PowerResetLeavesResetValues :
    ((regAt Reg.safeStatus).any (fun x => x.1.fields.all (fun f => f.keep != .fuse)) = true) ∧
    (inFlash 0x6000000000 = true ∧ inFlash 0x100 = false) := by decide +kernel

/-- WarmResetKeepsWarmFields: states that meet the premises of each clause. -/
theorem witness_WarmResetKeepsWarmFields :
    ((State.reset.pins.porst || State.reset.pins.coldDue) = true) ∧
    (let s := { up with pins := { up.pins with coldDue := true } }
     (s.pins.porst || s.pins.coldDue) = true) ∧
    (let s := { up with pins := { up.pins with warm := true } }
     s.pins.porst = false ∧ s.pins.coldDue = false ∧ s.pins.warm = true) ∧
    (up.pins.porst = false ∧ up.pins.coldDue = false ∧ up.pins.warm = false) := by decide +kernel

/-- ReleasesStartTheDevice: states that meet the premises of each clause. -/
theorem witness_ReleasesStartTheDevice :
    (out.pins.porst = false ∧ out.pins.warm = false) ∧
    (({ State.reset with pins := { State.reset.pins with vinUp := false } } : State).pins.vinUp = false) ∧
    (let s := pinned true false false State.reset
     s.pins.porst = true ∧ s.pins.vinUp = true ∧ s.pins.warm = true) ∧
    (let s := State.reset
     s.pins.porst = true ∧ s.pins.vinUp = true ∧ s.pins.warm = false ∧ (clean 100).pllLocks = true ∧
     ({ clean 100 with pllLocks := false } : StartEnv).pllLocks = false ∧
     ((s.slotImages 1 s.firmwareAt).any fun x => s.firmwareOk true x.2) = false) ∧
    (accepted (flashed State.reset) = true ∧ (flashed State.reset).pins.porst = true) ∧
    (out.pins.porst = false ∧ out.boot.waiting = none ∧ accepted out = false) ∧
    (let s := waiting false out
     s.pins.porst = false ∧ s.boot.waiting = some (clean 100) ∧ s.boot.warmWait = false) ∧
    (let s := waiting true (tokened out)
     s.pins.porst = false ∧ s.boot.warmWait = true ∧ s.tokenReasons (clean 100) = 0 ∧
     (waiting true out).tokenReasons (clean 100) ≠ 0 ∧ (clean 100).channelCheckBad = [] ∧
     (clean 100).linkDownBad = [] ∧ ({ clean 100 with linkDownBad := [3] } : StartEnv).linkDownBad ≠ []) ∧
    (let s := pinned true false true up
     s.pins.warm = true ∧ s.pins.porst = false ∧ s.pins.coldDue = false ∧ s.pins.pllLocked = true ∧
     (pinned true false false up).pins.pllLocked = false) ∧
    (let s := pinned true true false up
     s.pins.warm = true ∧ s.pins.porst = false ∧ s.pins.coldDue = true ∧ (clean 100).pllLocks = true) := by decide +kernel

/-- MonitorAndTestPinsAct: states that meet the premises of each clause. -/
theorem witness_MonitorAndTestPinsAct :
    (up.pins.porst = false ∧ up.pins.pllLocked = true ∧ up.pins.safeReq = false) ∧
    (let s := { up with pins := { up.pins with pllLocked := false, safeReq := true } }
     s.pins.porst = false ∧ s.pins.pllLocked = false ∧ s.pins.safeReq = true) ∧
    (State.reset.pins.porst = true) := by decide +kernel

/-- RateCorrectionClampsAndCarries: states that meet the premises of each clause. -/
theorem witness_RateCorrectionClampsAndCarries :
    (up.held = false ∧ up.pins.porst = false) := by decide +kernel

/-- TimeStepsAndAlignmentLoss: states that meet the premises of each clause. -/
theorem witness_TimeStepsAndAlignmentLoss :
    (up.held = false ∧ signedOf (up.reg64 Reg.timeStepLo Reg.timeStepHi) 64 = 0) ∧
    (ahead.held = false ∧ signedOf (ahead.reg64 Reg.timeStepLo Reg.timeStepHi) 64 = 5000) ∧
    (fsyncing.held = false ∧ fsyncing.fsyncOn 3 = true ∧ fsyncing.fsyncNext 3 < fsyncing.now + 5000) ∧
    (let s := fsyncing.setReg64 Reg.timeStepLo Reg.timeStepHi (2 ^ 64 - 10)
     s.held = false ∧ signedOf (s.reg64 Reg.timeStepLo Reg.timeStepHi) 64 = -10 ∧
     (List.range 16).any (fun n => s.bit (Reg.timeFsyncCtrl n) 16) = true) ∧
    (let s := atTick (up.setReg64 Reg.timeStepLo Reg.timeStepHi (2 ^ 64 - 10)) 4
     s.held = false ∧ signedOf (s.reg64 Reg.timeStepLo Reg.timeStepHi) 64 = -10 ∧
     ((List.range 256).any s.reinOn || (List.range 16).any fun n => s.bit (Reg.timeFsyncCtrl n) 16) = false) ∧
    (let s := up.setBit Reg.timeStatus 1 true
     s.held = false ∧ s.bit Reg.timeStatus 1 = true ∧ up.bit Reg.timeStatus 1 = false) ∧
    (let s := atTick fsyncing 5000
     s.held = false ∧ s.fsyncOn 3 = true ∧ s.fsyncNext 3 < s.now ∧
     0 < signedOf (s.reg64 Reg.timeStepLo Reg.timeStepHi) 64) ∧
    (let s := fsyncing
     s.held = false ∧ nextMultiple (s.fsyncStart 3) (s.fsyncPeriod 3) s.now < s.now + 5000) := by decide +kernel

/-- FsyncEdgesFollowTheirSchedule: states that meet the premises of each clause. -/
theorem witness_FsyncEdgesFollowTheirSchedule :
    (fsyncing.held = false ∧ fsyncing.fsyncOn 3 = true ∧ fsyncing.fsyncOn 15 = false ∧
     (fsyncing.fsync 3).level = false) ∧
    (let s := fsyncing.setFsync 3 { start := 5000, level := true, endTick := 6000 }
     s.held = false ∧ (s.fsync 3).level = true) := by decide +kernel

/-- ManagementTickShowsReadings: states that meet the premises of each clause. -/
theorem witness_ManagementTickShowsReadings :
    (State.reset.held = true ∧ State.reset.time.ticksDue = 0 ∧ up.held = false ∧
     0 < ({ up with time := { up.time with ticksDue := 1 } } : State).time.ticksDue ∧ tickEnv.servo = none) := by decide +kernel

/-- YokesRefillAndAdmit: states that meet the premises of each clause. -/
theorem witness_YokesRefillAndAdmit :
    (let s := yoked [⟨5, .furrow 2⟩] 95
     s.held = false ∧ 0 < s.time.refillsDue ∧ s.yokeEnabled 0 0 = true ∧ s.yokeEnabled 7 2 = false) ∧
    (let s := yoked [] 95
     s.held = false ∧ (s.yoke 0 0).queue = [] ∧ s.drove.own = []) ∧
    (let s := yoked [⟨5, .furrow 2⟩] 0
     (s.yoke 0 0).queue = [⟨5, .furrow 2⟩] ∧ s.yokeEnabled 0 0 = true ∧ s.yokeLevel 0 0 ≤ 0) ∧
    (let s := yoked [⟨5, .furrow 2⟩] 1
     s.held = false ∧ (s.yoke 0 0).queue = [⟨5, .furrow 2⟩] ∧ s.yokeEnabled 0 0 = true ∧ 0 < s.yokeLevel 0 0) ∧
    (let s := up.setYoke 1 2 { queue := [⟨5, .furrow 2⟩], waited := false }
     s.held = false ∧ (s.yoke 1 2).queue = [⟨5, .furrow 2⟩] ∧ s.yokeEnabled 1 2 = false) := by decide +kernel

/-- AcceptedTaskRunsOnTheFurrow: states that meet the premises of each clause. -/
theorem witness_AcceptedTaskRunsOnTheFurrow :
    ((((List.range 0x12).map fun op => (op, withOp op 0)) ++ [(0xA, withOp 0xA 1), (0xA, withOp 0xA 2), (0xA, withOp 0xA 3), (0xB, withOp 0xB 1), (0xF, withOp 0xF 1), (0xF, withOp 0xF 2)]).all (fun x => x.2.held == false && x.2.nextHopper 0 == some 0 && ((refreshBuffer x.2 0).nextDesc 0 0).any fun (d : Desc) => d.op == x.1) = true) ∧
    (let s := refreshBuffer (withOp 0xA 3) 0
     (s.nextDesc 0 0).any (fun d => s.param d 0 == 3) = true) ∧
    (sysCheck.held = false ∧ sysCheck.nextHopper 0 = some sysHopper ∧ isSystem sysHopper = true ∧
     (sysCheck.nextDesc 0 sysHopper).any (fun (d : Desc) => d.op == 0x10) = true) ∧
    (let s := stuck (farm.setHopper 0 (hop 0 1 0 0))
     s.held = false ∧ s.nextHopper 0 = some 0 ∧ (refreshBuffer s 0).nextDesc 0 0 = none ∧ up.nextHopper 63 = none) ∧
    ((opFor false false 0x11).isNone = true) := by decide +kernel

/-- TileCommitWritesTileChecksumStubble: states that meet the premises of each clause. -/
theorem witness_TileCommitWritesTileChecksumStubble :
    (farm.held = false ∧ (farm.furrow 0).task = none) ∧
    (let t := task (.ending 5) [] 0
     ((running t).furrow 0).task = some t ∧ (running t).held = false) ∧
    (let t := task .committing [tile 0] 0
     let s := badStore (running t)
     s.held = false ∧ (s.furrow 0).task = some t ∧ (s.furrow 0).stores ≠ []) ∧
    (let t := task .committing [] 2
     ((running t).furrow 0).task = some t ∧ ((running t).furrow 0).stores = [] ∧ t.resuming = false) ∧
    (let t := { task .committing [tile 1] 1 with groups := [4] }
     let s := running t { farm with drove := { farm.drove with groups := [(4, { rejected := true })] } }
     s.held = false ∧ (s.furrow 0).task = some t ∧ s.taskRejected 0 t = true) ∧
    (let t := task .committing [{ tile 0 with poison := true }] 0
     let s := running t
     (s.furrow 0).task = some t ∧ s.taskRejected 0 t = false) ∧
    (let t := { task .committing [tile 0, tile 1] 0 with uses := [⟨0, 5, 3, true⟩] }
     let s := running t
     (s.furrow 0).task = some t ∧ s.taskRejected 0 t = false ∧ s.nextWait 0 t ≠ .none) ∧
    (let t := { task .committing [{ pieces := [(0x1000, List.replicate 64 7#8)] }] 1 with charged := false }
     let s := stuck (running t)
     let v := taskCharge s 0 t (tileAccesses s 0 t { pieces := [(0x1000, List.replicate 64 7#8)] })
     s.held = false ∧ (s.furrow 0).task = some t ∧ s.nextWait 0 t = .none ∧ v.yokeWaits 0 = true) ∧
    (let k : Tile := { pieces := [(mailboxBase + 8, List.replicate 64 7#8)] }
     let t := task .committing [k] 1
     let s := running t
     s.held = false ∧ (s.furrow 0).task = some t ∧ s.nextWait 0 t = .none ∧ s.yokeWaits 0 = false ∧
     (writePieces s 0 ((s.finalTile k).pieces ++ (s.finalTile k).copies)).2 = false) ∧
    (let t := task .committing [tile 0, tile 1] 0
     let s := running t
     s.held = false ∧ (s.furrow 0).task = some t ∧ s.taskRejected 0 t = false ∧ (tile 0).poison = false ∧
     s.nextWait 0 t = .none ∧ t.charged = true ∧ t.drafts = [] ∧ s.yokeWaits 0 = false ∧
     (writePieces s 0 ((s.finalTile (tile 0)).pieces ++ (s.finalTile (tile 0)).copies)).2 = true ∧
     inMailbox ((writePieces s 0 ((s.finalTile (tile 0)).pieces ++ (s.finalTile (tile 0)).copies)).1.header t.desc 8) = false) := by decide +kernel

/-- TaskDoneAdvancesTheHopper: states that meet the premises of each clause. -/
theorem witness_TaskDoneAdvancesTheHopper :
    (farm.held = false ∧ (farm.furrow 0).task = none) ∧
    (let t := task .committing [tile 1] 1
     ((running t).furrow 0).task = some t ∧ t.stage = .committing ∧ ((running t).furrow 0).stores = [] ∧
     t.resuming = false ∧ t.tilesLeft ≠ []) ∧
    (let t := task .committing [] 2
     let s := running t
     s.held = false ∧ (s.furrow 0).task = some t ∧ t.outer = none ∧ s.taskRejected 0 t = false ∧
     s.readsPoisoned (tagReads s t.desc) = false ∧ t.charged = true ∧ s.yokeWaits 0 = false ∧
     inMailbox (s.header t.desc 3) = false ∧ max (t.cycles + t.extra) (s.ranCycles t) ≤ t.desc.budget ∧
     s.bits (Reg.furStatus 0) 2 0 ≠ 3) ∧
    (let t := task .committing [] 2
     let s := (stuck (running t)).setYoke 0 0 { queue := [⟨1, .furrow 0⟩] }
     s.held = false ∧ (s.furrow 0).task = some t ∧ t.charged = true ∧ s.yokeWaits 0 = true) := by decide +kernel

/-- TaskFaultRetriesOrFreezes: states that meet the premises of each clause. -/
theorem witness_TaskFaultRetriesOrFreezes :
    (let t := task (.ending 9) [] 0
     let s := running t
     s.held = false ∧ (s.furrow 0).task = some t ∧ t.outer = none ∧ isSystem t.hopper = false ∧ causeClass 9 ≠ 2) ∧
    (let t := task (.ending 0x0A) [] 0
     let s := running t
     (s.furrow 0).task = some t ∧ causeClass 0x0A = 2 ∧ s.fieldState 0 ≠ fldStopping ∧
     (s.hopper 0).tries < (s.hopper 0).retries) ∧
    (let t := task (.ending 0x0A) [] 0
     let s := running t (farm.setHopper 0 { hop 0 1 0 with tries := 1 })
     (s.furrow 0).task = some t ∧ causeClass 0x0A = 2 ∧ s.fieldState 0 ≠ fldStopping ∧
     (s.hopper 0).retries ≤ (s.hopper 0).tries) := by decide +kernel

/-- StubbleAckMovesGenerations: states that meet the premises of each clause. -/
theorem witness_StubbleAckMovesGenerations :
    (farm.held = false ∧ (farm.furrow 0).unacked.find? (farm.ackable 0) = none) ∧
    (let u := una false []
     let s := unk [u]
     (s.furrow 0).unacked.find? (s.ackable 0) = some u ∧ u.done = false ∧ s.held = false) ∧
    (let u := { una true [] with word := some (SB + 0x30000, List.replicate 32 4#8) }
     let s := unk [u]
     (s.furrow 0).unacked.find? (s.ackable 0) = some u ∧ u.done = true ∧ u.uses = [] ∧ u.buffers = [] ∧ u.stageNo = 0) ∧
    (let u := una true [⟨0, 5, 65535, true⟩]
     let s := gate (unk [u]) 0 5 65535 0 15
     s.held = false ∧ (s.furrow 0).unacked.find? (s.ackable 0) = some u ∧ u.done = true ∧ u.buffers = [] ∧
     u.stageNo = 0 ∧ s.bits (Reg.furSbSlotGen 0 5) 15 0 = 65535) ∧
    (let u := una true [⟨0, 5, 3, false⟩]
     let s := gate (unk [u]) 0 5 3 1 2
     (s.furrow 0).unacked.find? (s.ackable 0) = some u ∧ s.bits (Reg.furSbSlotGen 0 5) 19 16 ≤ 1) ∧
    (let u := una true [⟨0, 5, 3, false⟩]
     let s := gate (unk [u]) 0 5 3 2 2
     (s.furrow 0).unacked.find? (s.ackable 0) = some u ∧ 1 < s.bits (Reg.furSbSlotGen 0 5) 19 16) := by decide +kernel

/-- BudgetsAndGatesEndTasks: states that meet the premises of each clause. -/
theorem witness_BudgetsAndGatesEndTasks :
    (farm.held = false ∧ (farm.furrow 0).task = none ∧ farm.oldestHeld 0 = none) ∧
    (let t := task (.ending 5) [] 0
     ((running t).furrow 0).task = some t) ∧
    (let t := task .reading [] 0
     let s := running t
     s.held = false ∧ (s.furrow 0).task = some t ∧ t.stage = .reading ∧ t.outer = none) ∧
    (let s := heldAtGate 1
     s.held = false ∧ s.oldestHeld 1 = some (0, 5, 0) ∧
     (s.budgetTick 0).any (fun b => b / max s.coreTicks 1 ≤ (0 + s.gateTimeout 1 * s.coreTicks) / max s.coreTicks 1) = true) ∧
    (let s := (heldAtGate 1).setReg (Reg.furSbCtrl 1) 10#32
     s.held = false ∧ s.oldestHeld 1 = some (0, 5, 0) ∧
     (s.budgetTick 0).any (fun b => b / max s.coreTicks 1 ≤ (0 + s.gateTimeout 1 * s.coreTicks) / max s.coreTicks 1) = false ∧
     s.taskField 0 (task .reading [] 0) = some 0) ∧
    (let t := { task .reading [] 0 with uses := [⟨1, 5, 3, false⟩], wait := .gate 1 5, hopper := sysHopper }
     let s := running t ((farm.setBits Reg.clkStatus 7 4 8).setReg (Reg.furSbCtrl 1) 10#32)
     s.held = false ∧ s.oldestHeld 1 = some (0, 5, 0) ∧
     (s.budgetTick 0).any (fun b => b / max s.coreTicks 1 ≤ (0 + s.gateTimeout 1 * s.coreTicks) / max s.coreTicks 1) = false ∧
     (s.furrow 0).task = some t ∧ s.taskField 0 t = none) ∧
    (let s := (heldAtGate 1).setReg (Reg.furSbCtrl 1) 10#32
     let t := { task .reading [] 0 with uses := [⟨1, 5, 3, false⟩], wait := .gate 1 5 }
     s.held = false ∧ s.oldestHeld 1 = some (0, 5, 0) ∧ (s.furrow 0).task = some t ∧ s.taskField 0 t = some 0 ∧
     s.fieldState 0 = fldRunning) := by decide +kernel

/-- ParkingMovesTasksAndSlots: states that meet the premises of each clause. -/
theorem witness_ParkingMovesTasksAndSlots :
    (farm.held = false ∧ (farm.furrow 0).task = none ∧ mapGet none (farm.furrow 0).slots 7 = none) ∧
    (let t := { task .committing [{ tile 0 with group := some 4 }] 1 with groups := [4] }
     let s := two.setFurrow 0 { two.furrow 0 with task := some t }
     let s := { s with drove := { s.drove with groups := [(4, { outstanding := 1 })] } }
     s.held = false ∧ (s.furrow 0).task = some t ∧ s.fieldOf 0 = some 0 ∧ isSystem t.hopper = false ∧
     t.resuming = false ∧ (s.nextWait 0 t).parkable = true ∧ s.fieldState 0 = fldRunning ∧
     s.readyAbove 0 (s.hopper t.hopper).cls = true ∧ s.ranCycles t < t.desc.budget ∧ (s.furrow 0).freeSlot = some 0) ∧
    (let t := { task .committing [{ tile 0 with group := some 4 }] 1 with groups := [4] }
     let s := two.setFurrow 0 { two.furrow 0 with task := some t }
     let s := { s with drove := { s.drove with groups := [(4, { outstanding := 1 })] } }
     (atTick s 100000).ranCycles t ≥ t.desc.budget ∧ (atTick s 100000).readyAbove 0 (s.hopper t.hopper).cls = true) ∧
    (let s := two.setFurrow 0 { two.furrow 0 with slots := (List.range 8).map fun k => (k, some { task := task .reading [] 0, tick := 0, order := k }) }
     (s.furrow 0).freeSlot = none) ∧
    (let s := farm.setHopper 0 (hop 0 0 0)
     s.readyAbove 1 0 = false) ∧
    (let s := park1 farm []
     s.held = false ∧ (s.furrow 0).task = none ∧ s.bits (Reg.furStatus 0) 2 0 = 0 ∧
     s.choice 0 parkedHolds = .resume 2 ∧
     mapGet none (s.furrow 0).slots 2 = some { task := task .reading [] 0, tick := 0, order := 0 } ∧
     s.fieldOf 0 = some 0 ∧ s.bits (Reg.fldPark 0) 19 0 = 0) ∧
    (let s := (park1 farm []).setReg (Reg.fldPark 0) 50#32
     s.bits (Reg.fldPark 0) 19 0 ≠ 0 ∧ parkedHolds (runUntil s (0 + 50 * 6400)) 0 (task .reading [] 0) = true) ∧
    (let t := { task .reading [] 0 with uses := [⟨1, 5, 3, false⟩] }
     let s := (park1 farm t.uses).setReg (Reg.fldPark 0) 50#32
     s.held = false ∧ mapGet none (s.furrow 0).slots 2 = some { task := t, tick := 0, order := 0 } ∧
     s.fieldOf 0 = some 0 ∧ parkedHolds (runUntil s (0 + 50 * 6400)) 0 t = false) := by decide +kernel

/-- SeedbedAccessAndScrubKeepGranules: states that meet the premises of each clause. -/
theorem witness_SeedbedAccessAndScrubKeepGranules :
    (let x := { seedRead with furrow := 63 }
     up.held = false ∧ (Instr.seedbedAccess x).wellFormed = true ∧ up.bit (Reg.furSbStatus 63) 0 = false ∧
     up.reaches (.req x.req) (seedbedBase 63) 32 false = true) ∧
    (let x := seedRead
     farm.held = false ∧ (Instr.seedbedAccess x).wellFormed = true ∧ farm.bit (Reg.furSbStatus x.furrow) 0 = true ∧
     farm.reaches (.req x.req) (seedbedBase x.furrow + 128 * x.row + 32 * x.first) (32 * x.count) false = true ∧
     x.wdata = []) ∧
    (let x := { seedRead with req := .field 1 }
     (Instr.seedbedAccess x).wellFormed = true ∧
     farm.reaches (.req x.req) (seedbedBase x.furrow + 128 * x.row + 32 * x.first) (32 * x.count) false = false ∧
     farm.reaches (.req x.req) (seedbedBase x.furrow + 128 * x.row + 32 * x.first) (32 * x.count) true = false) ∧
    (let x := { seedRead with req := .furrow 2 }
     (Instr.seedbedAccess x).wellFormed = true ∧
     farm.reaches (.req x.req) (seedbedBase x.furrow + 128 * x.row + 32 * x.first) (32 * x.count) false = false ∧
     farm.reaches (.req (.furrow 0)) (seedbedBase 0) 32 true = true) ∧
    (let x := { seedRead with wdata := [1, 2, 3] }
     (Instr.seedbedAccess x).wellFormed = true ∧
     farm.reaches (.req x.req) (seedbedBase x.furrow + 128 * x.row + 32 * x.first) (32 * x.count) true = true ∧
     x.wdata.length ≠ 32 * x.count) ∧
    (let x := { seedRead with row := 32767, first := 3, wdata := List.replicate 32 7#8 }
     (Instr.seedbedAccess x).wellFormed = true ∧ farm.bit (Reg.furSbStatus x.furrow) 0 = true ∧
     farm.reaches (.req x.req) (seedbedBase x.furrow + 128 * x.row + 32 * x.first) (32 * x.count) true = true ∧
     x.wdata.length = 32 * x.count) ∧
    (let s := farm.setFurrow 0 { farm.furrow 0 with scrubbed := List.range 15 }
     s.held = false ∧ (s.furrow 0).scrubbed.contains 14 = true ∧ (s.furrow 0).scrubbed.contains 15 = false ∧
     16 ≤ (s.furrow 0).scrubbed.length + 1) ∧
    ((farm.furrow 0).scrubbed.contains 0 = false ∧ (farm.furrow 0).scrubbed.length + 1 < 16) := by decide +kernel

/-- GenerationsAndFencesAreWritten: states that meet the premises of each clause. -/
theorem witness_GenerationsAndFencesAreWritten :
    (farm.held = false ∧ ((3 : BitVec 16).toNat % 2 = 1) ∧ ((65534 : BitVec 16).toNat % 2 ≠ 1) ∧
     (Requester.field 0 ≠ .reeve ∧ Requester.field 0 ≠ .mgmt) ∧
     farm.recoveryReach .mgmt (Reg.furSbSlotGen 63 255) = true ∧ farm.advancesIn 63 255 0 = [] ∧
     farm.advancesIn 63 255 1 = []) ∧
    (let x : SlotAdvance := { slot := 5, cycle := 0, left := 3, write := false, moves := true }
     let s := farm.setFurrow 0 { farm.furrow 0 with advanced := [x] }
     s.held = false ∧ (s.advancesIn 0 5 0).filter (·.moves) = [x] ∧ s.advancesIn 0 5 1 = []) ∧
    (let x : SlotAdvance := { slot := 5, cycle := 1, left := 3, write := true, moves := true }
     let s := farm.setFurrow 0 { farm.furrow 0 with advanced := [x] }
     s.held = false ∧ s.advancesIn 0 5 0 = [] ∧ s.advancesIn 0 5 1 = [x]) := by decide +kernel

/-- CounterClearsClearTheirCounters: states that meet the premises of each clause. -/
theorem witness_CounterClearsClearTheirCounters :
    (farm.held = false) := by decide +kernel

/-- DoorbellsSetTheTailOrAreRefused: states that meet the premises of each clause. -/
theorem witness_DoorbellsSetTheTailOrAreRefused :
    (farm.held = false ∧ farm.recoveryReach .reeve Reg.hopDoorbell = true ∧
     inRecovery.recoveryReach .mgmt Reg.hopDoorbell = false ∧ doorbellRefusal farm (.req .reeve) 0 4 = none ∧
     doorbellRefusal farm (.req .reeve) 0 5 = some 0 ∧ doorbellRefusal farm (.req .reeve) 1 0 = some 1 ∧
     doorbellRefusal farm (.req (.field 1)) 0 0 = some 2 ∧ doorbellRefusal farm (.req .reeve) sysHopper 0 = some 3 ∧
     doorbellRefusal sysCheck (.req .safety) sysHopper 1 = none) ∧
    (isSystem sysHopper = true ∧ isSystem 0 = false ∧ farm.hopperIn 1 0 = false ∧ farm.hopperIn 0 1 = true ∧
     (farm.hopper 1).enable = false ∧ farm.hopperIn 0 0 = true ∧ (farm.hopper 0).enable = true) := by decide +kernel

/-- HopperControlSkipsAndResets: states that meet the premises of each clause. -/
theorem witness_HopperControlSkipsAndResets :
    (let s := (withField farm 0 4 []).setHopper 0 { hop 0 1 0 with inflight := true }
     let x := s.hopper 0
     s.held = false ∧
     (!isSystem 0 && x.inflight && (s.fieldState x.field == fldQuiesced || s.fieldState x.field == fldStopped) && s.hopperIn x.field 0) = true ∧
     s.mayControl .reeve 0 = true) ∧
    ((farm.hopper 0).inflight = false ∧ farm.mayControl .reeve 0 = true ∧ farm.mayControl (.field 1) 0 = false) := by decide +kernel

/-- FieldRequestsFollowTheTable: states that meet the premises of each clause. -/
theorem witness_FieldRequestsFollowTheTable :
    (farm.held = false ∧ farm.reaches (.req (.field 1)) (Reg.fldCtrl 0) 4 true = false ∧
     farm.reaches (.req .reeve) (Reg.fldCtrl 0) 4 true = true ∧ farm.fieldState 0 = fldRunning ∧
     farm.fieldState 1 = fldReady ∧ farm.bit Reg.safeStatus 2 = false ∧ farm.fieldState 7 = fldUnconfigured) ∧
    ((withField farm 0 3 []).fieldState 0 = fldQuiescing ∧ (withField farm 0 4 []).fieldState 0 = fldQuiesced ∧
     (withField farm 0 5 []).fieldState 0 = fldStopping ∧ (withField farm 0 6 []).fieldState 0 = fldStopped) ∧
    (let s := (withField farm 0 6 []).setBit (Reg.fldStatus 0) 7 true
     (!s.bit Reg.safeStatus 2 && (s.fieldState 0 == fldStopped && s.bit (Reg.fldStatus 0) 7)) = true) := by decide +kernel

/-- FieldEventsAndGleaningFollowTheTable: states that meet the premises of each clause. -/
theorem witness_FieldEventsAndGleaningFollowTheTable :
    (let s := withField farm 0 3 []
     s.held = false ∧ s.fieldState 0 = fldQuiescing ∧ s.fieldIdle 0 = true ∧ farm.fieldState 0 ≠ fldQuiescing) ∧
    (let s := (withField farm 0 3 []).setField 0 { farm.field 0 with quiesceTicks := 100000 }
     s.held = false ∧ s.fieldState 0 = fldQuiescing ∧ s.quiesceLimit 0 ≤ (s.field 0).quiesceTicks) ∧
    (let s := withField farm 0 5 []
     s.held = false ∧ s.fieldState 0 = fldStopping ∧ s.unackedHoppers 0 = []) ∧
    (let s := (withField farm 0 6 []).setReg64 (Reg.fldGleanAddrLo 0) (Reg.fldGleanAddrHi 0) 0x1000
     s.held = false ∧ s.fieldState 0 = fldStopped ∧ s.bit (Reg.fldStatus 0) 7 = false ∧ 0x1000 % 32 = 0 ∧
     s.inFieldDram 0 0x1000 (32 * ((s.hoppersOf 0).filter fun h => (s.hopper h).inflight).length) = true ∧
     s.reg64 (Reg.fldGleanAddrLo 0) (Reg.fldGleanAddrHi 0) = 0x1000) ∧
    (let s := (withField farm 0 6 []).setReg64 (Reg.fldGleanAddrLo 0) (Reg.fldGleanAddrHi 0) 0x1004
     s.fieldState 0 = fldStopped ∧ s.reg64 (Reg.fldGleanAddrLo 0) (Reg.fldGleanAddrHi 0) % 32 ≠ 0) ∧
    (((withField farm 0 6 []).setBit (Reg.fldStatus 0) 7 true).bit (Reg.fldStatus 0) 7 = true) ∧
    (let s := (unk [{ una true [] with owed := true }])
     s.held = false ∧ s.fieldState 0 ≠ fldStopping ∧ s.owedHoppers 0 = [0] ∧ s.owedHoppers 1 = []) ∧
    (let s := withField (unk [una false []]) 0 5 []
     s.held = false ∧ s.fieldState 0 = fldStopping ∧ s.unackedHoppers 0 = [0]) ∧
    (let s := gleanable
     s.held = false ∧ s.fieldState 0 = fldStopped ∧ s.bit (Reg.fldStatus 0) 7 = false ∧
     (s.hoppersOf 0).filter (fun h => (s.hopper h).inflight) = [0] ∧ s.inFieldDram 0 0x1000 32 = true ∧
     s.reg64 (Reg.fldGleanAddrLo 0) (Reg.fldGleanAddrHi 0) = 0x1000) ∧
    (let s := gleanable.poke ring (bs [9])
     (s.descAt (s.hopper 0).headSlot).crcOk = false) ∧
    (let s := gleanable
     let d := s.descAt (s.hopper 0).headSlot
     s.poisoned (s.hopper 0).headSlot 64 = false ∧ d.crcOk = true ∧
     stubbleReadable (s.view d.stubbleAddr 16) d = false) ∧
    (let s := writeStubble gleanable dsc 1 0 1 [0, 0, 0, 0]
     let d := s.descAt (s.hopper 0).headSlot
     let w := s.view d.stubbleAddr 16
     s.poisoned (s.hopper 0).headSlot 64 = false ∧ d.crcOk = true ∧ s.poisoned d.stubbleAddr 32 = false ∧
     stubbleReadable w d = true ∧ (s.extentRegion d.stubbleAddr 32).isNone = false ∧ leAt w 4 2 = 1 ∧
     goodTiles s d ((tileExtents s (s.hopper 0).furrow d).getD []) (leAt w 4 2) = 0) := by decide +kernel

/-- StopTriggerEndsTheFieldsTasks: states that meet the premises of each clause. -/
theorem witness_StopTriggerEndsTheFieldsTasks :
    (let t := task .reading [] 0
     let s := running t
     s.fieldState 0 = fldRunning ∧ s.fieldOf 0 = some 0 ∧ (s.furrow 0).task = some t ∧ t.stage = .reading ∧
     isSystem t.hopper = false ∧ s.fieldOf 2 ≠ some 0) ∧
    ((withField farm 0 3 []).fieldState 0 = fldQuiescing) := by decide +kernel

/-- DroveChecksDiscardFrames: states that meet the premises of each clause. -/
theorem witness_DroveChecksDiscardFrames :
    (let s := open0 rx5
     s.held = false ∧ s.droveCheck { dataFr 1 5 with fcsOk := false } = .other ∧
     s.droveCheck { dataFr 1 5 with bytes := (dataFr 1 5).bytes.set 90 1#8 } = .crc ∧
     s.droveCheck (dataFr 1 5) = .good ∧ (readHeader (dataFr 1 5).bytes).kind = 1) := by decide +kernel

/-- DroveDataFramesInOrder: states that meet the premises of each clause. -/
theorem witness_DroveDataFramesInOrder :
    (([1, 2, 3, 4, 5].map fun k => dataFr k 5).all (fun f => (open0 rx5).droveCheck f == .good && (open0 rx5).stream 2 1 == rx5 && (readHeader f.bytes).seq == 5 && (readHeader f.bytes).src == 1 && !((open0 rx5).drovePeer 1).duplicate (readHeader f.bytes).msgId) = true) ∧
    ((open0 rx5).held = false ∧ ((open0 { rx5 with rxOpen := false }).stream 2 1).rxOpen = false ∧
     (open0 { rx5 with rxOpen := false }).droveCheck (dataFr 1 5) = .good) ∧
    (rx5.rxOpen = true ∧ (readHeader (dataFr 1 4).bytes).seq ≠ rx5.expected ∧
     seqFrom rx5.expected (readHeader (dataFr 1 4).bytes).seq = false) ∧
    ((open0 rx5).droveCheck (dataFr 1 6) = .good ∧ (readHeader (dataFr 1 6).bytes).seq ≠ rx5.expected ∧
     seqFrom rx5.expected (readHeader (dataFr 1 6).bytes).seq = true ∧ rx5.nackTick = none) ∧
    (let s := (open0 rx5).setPeer 1 { highest := some 9, seen := [9] }
     s.droveCheck (dataFr 1 5) = .good ∧ s.stream 2 1 = rx5 ∧
     (s.drovePeer 1).duplicate (readHeader (dataFr 1 5).bytes).msgId = true) ∧
    (let s := open0 rx5
     let h := readHeader (dataFr 3 5).bytes
     h.kind = 3 ∧ s.rejects h.msg = none ∧
     leAt (s.entry 0xD 2 h.msg.buffer) 16 8 + h.msg.round % 2 * leAt (s.entry 0xD 2 h.msg.buffer) 8 4 + h.msg.offset < 0x2000000000) ∧
    (let s := open0 rx5
     let h := readHeader (dataFr 1 5 9 8).bytes
     s.droveCheck (dataFr 1 5 9 8) = .good ∧ h.kind ≠ 4 ∧ (s.rejects h.msg).isSome = true) ∧
    (let s := open0 rx5
     let h := readHeader (dataFr 4 5).bytes
     h.kind = 4 ∧ s.getRejects h.src h.msg = none) ∧
    (let s := open0 { rx5 with nackTick := some 0 }
     s.droveCheck (dataFr 1 6) = .good ∧ (s.stream 2 1).nackTick = some 0 ∧ s.now < 0 + s.rto) ∧
    (let s := atTick (open0 { rx5 with nackTick := some 0 }) 10000000
     s.held = false ∧ s.droveCheck (dataFr 1 6) = .good ∧ (s.stream 2 1).nackTick = some 0 ∧ 0 + s.rto ≤ s.now) ∧
    (let s := open0 rx5
     let f : DroveFrame := ⟨2, true, dataFrame (chip 1) 2 5 { msg 3 with round := 2 }⟩
     let h := readHeader f.bytes
     s.droveCheck f = .good ∧ h.seq = 5 ∧ s.rejects h.msg = some 4 ∧
     h.msg.round = (s.roundOf h.msg.buffer + 2) % 65536) ∧
    (let s := open0 rx5
     let f : DroveFrame := ⟨2, true, dataFrame (chip 1) 2 5 { msg 3 with round := 3 }⟩
     let h := readHeader f.bytes
     s.droveCheck f = .good ∧ h.seq = 5 ∧ s.rejects h.msg = some 4 ∧
     h.msg.round ≠ (s.roundOf h.msg.buffer + 2) % 65536) ∧
    (let s := open0 rx5
     let h := readHeader (dataFr 4 5 9 8).bytes
     s.droveCheck (dataFr 4 5 9 8) = .good ∧ h.kind = 4 ∧ (s.getRejects h.src h.msg).isSome = true) ∧
    (let s := seeded
     let h := readHeader (dataFr 3 5).bytes
     s.droveCheck (dataFr 3 5) = .good ∧ s.rejects h.msg = none ∧
     seedbedOf (leAt (s.entry 0xD 2 h.msg.buffer) 16 8 + h.msg.round % 2 * leAt (s.entry 0xD 2 h.msg.buffer) 8 4 + h.msg.offset) = some 0) ∧
    (let m : Message := { msg 3 with round := 2 }
     let s := open0 rx5
     let s := { s with drove := { s.drove with late := some ⟨some 2, 1, m, 0⟩ } }
     s.drove.late = some ⟨some 2, 1, m, 0⟩ ∧ s.roundOpen m.buffer m.round = false) :=
  ⟨by decide +kernel, by decide +kernel, by decide +kernel, by decide +kernel, by decide +kernel, by decide +kernel, by decide +kernel, by decide +kernel, by decide +kernel, by decide +kernel, by decide +kernel, by decide +kernel, by decide +kernel, by decide +kernel, by decide +kernel⟩

/-- DroveAcknowledgementsMoveTheWindow: states that meet the premises of each clause. -/
theorem witness_DroveAcknowledgementsMoveTheWindow :
    (let s := open0 { rx5 with window := win, nextSeq := 7 }
     let f := ctlFr { peer := 0, nack := false, seq := 5 }
     s.held = false ∧ s.droveCheck f = .good ∧ (readHeader f.bytes).kind = 6 ∧
     bitOf (readHeader f.bytes).flags 5 = false) ∧
    (let s := open0 { rx5 with window := win, nextSeq := 7 }
     let f := ctlFr { peer := 0, nack := true, seq := 5, reason := 1 }
     s.droveCheck f = .good ∧ (readHeader f.bytes).kind = 7 ∧ (readHeader f.bytes).reason = 1) ∧
    (let s := open0 { rx5 with window := win, nextSeq := 7 }
     let f := ctlFr { peer := 0, nack := true, seq := 4, reason := 6, msgId := 12 }
     s.droveCheck f = .good ∧ (readHeader f.bytes).reason = 6 ∧
     win.any (fun w => w.msg.msgId == 12 && w.seq == 5) = true) ∧
    (let s := open0 { rx5 with rxOpen := false, window := win, nextSeq := 7 }
     let f := ctlFr { peer := 0, nack := false, seq := 0, openIt := true }
     s.droveCheck f = .good ∧ (readHeader f.bytes).kind = 6 ∧ bitOf (readHeader f.bytes).flags 5 = true) := by decide +kernel

/-- DroveTransmitsByPriority: states that meet the premises of each clause. -/
theorem witness_DroveTransmitsByPriority :
    (me0.held = false ∧ me0.bit (Reg.drovePortStatus 2) 0 = false) ∧
    (let c : ControlFrame := { peer := 1, nack := false, seq := 5 }
     let s := (open0 rx5).setPort 2 { (open0 rx5).drovePort 2 with control := [c] }
     s.held = false ∧ s.bit (Reg.drovePortStatus 2) 0 = true ∧ (s.drovePort 2).control = [c]) ∧
    (let s := open0 rx5
     s.bit (Reg.drovePortStatus 2) 0 = true ∧ (s.drovePort 2).control = [] ∧
     (List.range 16).findSome? (resendOn s 2) = none ∧ s.nextNew 2 = none) ∧
    ((sender.drovePort 2).control = [] ∧ (List.range 16).findSome? (resendOn sender 2) = none ∧
     (sender.nextNew 2).isSome = true ∧ sender.held = false ∧ sender.bit (Reg.drovePortStatus 2) 0 = true) ∧
    (let w : WindowFrame := { seq := 3, msg := { msg 3 10 with dst := 1, admitted := true }, again := true }
     let s := open0 { rx5 with window := [w] }
     s.bit (Reg.drovePortStatus 2) 0 = true ∧ (s.drovePort 2).control = [] ∧ resendOn s 2 0 = none ∧
     (s.stream 2 1).window.find? (·.again) = some w ∧ w.msg.admitted = true) ∧
    (let m := { msg 3 12 with dst := 1, admitted := true, poison := true }
     let s := (open0 rx5).setPort 2 { (open0 rx5).drovePort 2 with ready := [m] }
     s.nextNew 2 = some m) := by decide +kernel

/-- DroveTimersAndLinksAct: states that meet the premises of each clause. -/
theorem witness_DroveTimersAndLinksAct :
    ((open0 rx5).held = false ∧ ((open0 rx5).stream 2 1).sinceAck = 0 ∧ ((open0 rx5).stream 2 1).window = []) ∧
    (((open0 { rx5 with sinceAck := 15 }).stream 2 1).sinceAck ≠ 0) ∧
    (let x := (open0 { rx5 with window := win, timeouts := 6 }).stream 2 1
     x.window ≠ [] ∧ x.timeouts + 1 < 8) ∧
    (let x := (open0 { rx5 with window := win, timeouts := 7 }).stream 2 1
     x.window ≠ [] ∧ 8 ≤ x.timeouts + 1) ∧
    (me0.bit (Reg.drovePortStatus 2) 0 = false ∧ (open0 rx5).bit (Reg.drovePortStatus 2) 0 = true ∧ 1 ≠ me0.chipId ∧
     me0.bit (Reg.drovePeer 1) 0 = true ∧ me0.streamUp 2 1 = false) := by decide +kernel

/-- DramAccessesCheckBlocks: states that meet the premises of each clause. -/
theorem witness_DramAccessesCheckBlocks :
    (let s := dramUp farm
     s.held = false ∧ s.region 5 = some .dram ∧ s.reaches (.req .reeve) 5 1 false = true ∧
     s.reaches (.req .reeve) 5 2 true = true ∧ s.reaches (.req (.field 1)) 5 1 false = false ∧
     s.region 0x1FFFFFFFFF ≠ some .dram) ∧
    (let s := setBlockMark (dramUp farm) 0 .wrongAddress
     s.held = false ∧ metMark (s.blockMark 0) .clean = .wrongAddress ∧
     s.reaches (.req (.furrow 2)) 5 1 false = false ∧ s.reaches (.req (.field 1)) 5 2 true = false) := by decide +kernel

/-- DramUpkeepAndRetrainingKeepData: states that meet the premises of each clause. -/
theorem witness_DramUpkeepAndRetrainingKeepData :
    (farm.held = false ∧ farm.dramInstalled = 0 ∧ (dramUp farm).dramInstalled ≠ 0 ∧ (dramUp farm).dram.scrubBlock < 31) ∧
    (let s := { dramUp farm with dram := { (dramUp farm).dram with scrubBlock := 31 } }
     31 ≤ s.dram.scrubBlock ∧ s.bits Reg.dramScrub 20 0 + 1 < s.dramInstalled / 65536) ∧
    (let s := ({ dramUp farm with dram := { (dramUp farm).dram with scrubBlock := 31 } } : State).setBits Reg.dramScrub 20 0 (2 ^ 21 - 1)
     s.held = false ∧ s.dramInstalled ≠ 0 ∧ s.dramInstalled / 65536 ≤ s.bits Reg.dramScrub 20 0 + 1) ∧
    (out.held = false ∧ out.bit Reg.reeveBoot 31 = false ∧ up.bit Reg.reeveBoot 31 = true ∧
     up.bit Reg.dramStatus 8 = false) ∧
    (let s := up.setBit Reg.dramStatus 8 true
     s.bit Reg.reeveBoot 31 = true ∧ s.bit Reg.dramStatus 8 = true ∧ s.dram.slices + 1 < 256) ∧
    (let s := ({ up with dram := { up.dram with slices := 255 } } : State).setBit Reg.dramStatus 8 true
     s.held = false ∧ s.bit Reg.reeveBoot 31 = true ∧ s.bit Reg.dramStatus 8 = true ∧ 256 ≤ s.dram.slices + 1 ∧
     s.bits Reg.dramTrainCtrl 31 24 ≤ 255) ∧
    (let s := (up.setBit Reg.dramStatus 8 true).setBits Reg.dramTrainCtrl 31 24 40
     39 < s.bits Reg.dramTrainCtrl 31 24) ∧
    (up.nextTrain = none) ∧
    (let s := atTick { up with dram := { up.dram with front := [31] } } 6400000000
     s.held = false ∧ s.bit Reg.reeveBoot 31 = true ∧ s.bit Reg.dramStatus 8 = false ∧
     (s.nextTrain.map (·.1)) = some 31) := by decide +kernel

/-- HeadlandErrorsAreRecorded: states that meet the premises of each clause. -/
theorem witness_HeadlandErrorsAreRecorded :
    (up.held = false ∧ (Instr.headlandPacket (pk 17 3 .clean .clean false false)).wellFormed = true ∧
     onPath (pk 17 3 .clean .clean false false) 17 = true ∧ up.carries (pk 17 3 .clean .clean false false) = false ∧
     onPath (pk 0 8 .clean .clean false false) 0 = false) ∧
    (let s := withField up 3 1 [17]
     let s := s.setFurrow 17 { s.furrow 17 with task := some { task .reading [] 0 with hopper := 48 } }
     s.held = false ∧
     ([pk 17 3 .clean .single true false, pk 17 3 .single .clean true false, pk 17 3 .single .single true false, pk 17 3 .double .clean true false, pk 17 3 .clean .double true false, pk 17 3 .single .double false false] : List Packet).all (fun p => (Instr.headlandPacket p).wellFormed && onPath p p.inRouter && s.carries p) = true) ∧
    (let s := withField up 3 1 [17]
     let s := s.setFurrow 17 { s.furrow 17 with task := some { task .reading [] 0 with hopper := sysHopper + 17 } }
     s.held = false ∧
     ([pk 17 8 .clean .clean true true, pk 17 8 .double .clean true false, { pk 17 8 .clean .double false false with mask := 0x100000011#64, granule := 64 }, { pk 17 8 .clean .double false false with bytes := 0 }] : List Packet).all (fun p => (Instr.headlandPacket p).wellFormed && onPath p p.inRouter && s.carries p) = true) ∧
    (let p := { pk 17 8 .clean .double false false with mask := 0x100000011#64, granule := 64 }
     wordTargets p ≠ []) := by decide +kernel

/-- FrameStartOpensAFrame: states that meet the premises of each clause. -/
theorem witness_FrameStartOpensAFrame :
    (let s := (cam true).setBits (Reg.intkRxStatus 3) 2 1 0
     s.held = false ∧ s.cameraPipes 3 0 = [1] ∧ (s.pipe 1).check = none ∧ s.receiverOn 3 = false) ∧
    (let s := cam false
     s.held = false ∧ s.cameraPipes 3 0 = [1] ∧ s.receiverOn 3 = true ∧ (s.pipe 1).check = none ∧
     (s.pipe 1).frame = none ∧ commitAt (completeFrame s 1) 3 1 = s ∧
     numberFollows (s.pipe 1).lastFrame (s.pipeAt 1 20 2) 1 = true ∧ s.bit (Reg.intkPipeCtrl 1) 31 = false) ∧
    (let s := cam true
     s.held = false ∧ s.cameraPipes 3 0 = [1] ∧ s.receiverOn 3 = true ∧ (s.pipe 1).check = none ∧
     (s.pipe 1).frame = none ∧ commitAt (completeFrame s 1) 3 1 = s ∧
     numberFollows (s.pipe 1).lastFrame (s.pipeAt 1 20 2) 1 = true ∧ s.bit (Reg.intkPipeCtrl 1) 31 = true ∧
     s.fieldState (s.pipeField 1) = fldRunning ∧ (s.pipe 1).halted = false ∧
     s.hoppersReady 1 ((s.pipe 1).delivered % s.pipeBuffers 1) = true ∧ s.pipeAt 1 6 1 = 0xFF) := by decide +kernel

/-- CameraPacketsBuildTheFrame: states that meet the premises of each clause. -/
theorem witness_CameraPacketsBuildTheFrame :
    (up.held = false ∧ up.receiverOn 3 = false ∧ (lpk 10).receiver = 3 ∧ (lpk 10).vc = 0 ∧ (lpk 10).ecc = .good ∧
     (cam true).cameraPipes 3 0 = [1] ∧ (cam true).receiverOn 3 = true ∧ (cam true).pipeAt 1 4 1 = (lpk 10).dataType) ∧
    (let s := up.setBits (Reg.intkRxStatus 7) 2 1 1
     s.held = false ∧ s.receiverOn 7 = true ∧ s.cameraPipes 7 0 = []) ∧
    (let s := (cam true).setPipe 1 { (cam true).pipe 1 with check := some ({}, 0), waitBytes := 65532 }
     s.held = false ∧ s.cameraPipes 3 0 = [1] ∧ s.receiverOn 3 = true ∧ (s.pipe 1).check.isSome = true ∧
     s.waitingBytes 3 + 4 ≤ 65536) ∧
    (((cam true).pipe 1).check = none ∧ ((cam true).pipe 1).frame = none) ∧
    (let f := { goodFrame with stage := .dropped }
     ((inFrame f).pipe 1).check = none ∧ ((inFrame f).pipe 1).frame = some f) ∧
    (let s := inFrame goodFrame ((cam true).setBits (Reg.intkPipeCtrl 1) 20 19 1)
     s.held = false ∧ (s.pipe 1).check = none ∧ (s.pipe 1).frame = some goodFrame ∧ goodFrame.stage = .good ∧
     bitOf (s.pipeAt 1 10 1) 0 = false ∧ (lpk 8).crcOk = true ∧
     8 * (lpk 8).payload.length = s.pipeAt 1 12 2 * rawDepth (s.pipeAt 1 4 1) ∧ (lpk 8).upset = .clean ∧
     (lpk 8).checkBad = false ∧ goodFrame.lines.length < s.pipeAt 1 14 2 ∧ goodFrame.lines.length + 1 < s.pipeScale 1) ∧
    (let f := { goodFrame with count := 4 }
     let s := inFrame f
     (s.pipe 1).frame = some f ∧ f.count = s.pipeAt 1 14 2 ∧ f.number = 1) ∧
    (let s := (cam true).setPipe 1 { (cam true).pipe 1 with check := some ({}, 0), waitBytes := 65533 }
     s.held = false ∧ s.cameraPipes 3 0 = [1] ∧ s.receiverOn 3 = true ∧ (s.pipe 1).check.isSome = true ∧
     65536 < s.waitingBytes 3 + 4) := by decide +kernel

/-- FramesCompleteAndAreChecked: states that meet the premises of each clause. -/
theorem witness_FramesCompleteAndAreChecked :
    (farm.held = false ∧ (farm.pipe 15).done = none ∧ (farm.pipe 15).check = none) ∧
    (let s := (cam true).setPipe 1 { (cam true).pipe 1 with done := some goodFrame }
     s.held = false ∧ (s.pipe 1).done = some goodFrame) ∧
    (let g : IntakeSettings := { check := (cam true).checkCrc 1 {} }
     let s := (cam true).setPipe 1 { (cam true).pipe 1 with check := some (g, 0) }
     s.held = false ∧ (s.pipe 1).check = some (g, 0) ∧ s.checkCrc 1 g = g.check ∧ (s.pipe 1).waiting = [] ∧
     (s.pipe 1).overflow = false) ∧
    (let g : IntakeSettings := { check := (cam true).checkCrc 1 {} + 1 }
     let s := (cam true).setPipe 1 { (cam true).pipe 1 with check := some (g, 0) }
     (s.pipe 1).check = some (g, 0) ∧ s.checkCrc 1 g ≠ g.check ∧ (s.pipe 1).waiting = [] ∧
     (s.pipe 1).overflow = false ∧ s.fieldState (s.pipeField 1) = fldRunning) := by decide +kernel

/-- SensorEthernetAndReceiversAct: states that meet the premises of each clause. -/
theorem witness_SensorEthernetAndReceiversAct :
    (farm.held = false ∧ farm.bit (Reg.intkEthStatus 3) 0 = false ∧ (eth).held = false ∧
     (eth).bit (Reg.intkEthStatus 1) 0 = true) ∧
    ((List.range 16).filter (fun p => ((eth).streamPayload p 1 (bs [1, 2, 3])).isSome) = [] ∧
     ({ ethFr 4 with pause := true } : SensorFrame).pause = true) ∧
    ((List.range 16).filter (fun p => ((eth).streamPayload p 1 (ethFr 4).bytes).isSome) = [2] ∧
     (ethFr 4).pause = false ∧ (ethFr 4).bytes.length + 4 ≤ 9216 ∧ (ethFr 4).fcsOk = true) ∧
    (9216 < (ethFr 9200).bytes.length + 4) ∧
    (((eth).pipe 2).frame = none ∧ ((inFrame goodFrame).pipe 1).frame ≠ none ∧
     (inFrame goodFrame).pipeEthernet 1 = false) ∧
    (let s := (eth).setPipe 2 { (eth).pipe 2 with frame := some goodFrame }
     s.held = false ∧ (s.pipe 2).frame = some goodFrame ∧ s.pipeEthernet 2 = true ∧ goodFrame.stage = .good) ∧
    ((farm.setBit (Reg.intkRxStatus 7) 0 true).bit (Reg.intkRxStatus 7) 0 = true ∧
     farm.bit (Reg.intkRxStatus 7) 0 = false ∧
     (farm.setBits (Reg.intkRxStatus 7) 2 1 2).bits (Reg.intkRxStatus 7) 2 1 ≠ 0 ∧
     farm.bits (Reg.intkRxStatus 7) 2 1 = 0) := by decide +kernel

/-- PcieRequestsReachTheDevice: states that meet the premises of each clause. -/
theorem witness_PcieRequestsReachTheDevice :
    (up.held = false ∧ up.linkUp = false ∧ linked.held = false ∧ linked.linkUp = true) ∧
    (inBar 2 (2 ^ 39 - 4) 4 = true ∧ inBar 0 0 4 = true ∧ inBar 0 0 4097 = false ∧ inBar 1 0 4 = false ∧
     linked.bit (Reg.pcieFn 8) 1 = false ∧ linked.bit (Reg.pcieFn 1) 1 = true) ∧
    (inBar 2 0x1000 2 = true ∧ linked.region 0x1000 = some .dram ∧
     linked.accessible (functionRequester 1) 0x1000 2 true = true ∧
     linked.accessible (functionRequester 1) 0x1000 2 false = true) ∧
    (linked.linkUp = true ∧ ¬ (List.replicate 513 (0 : Byte)).length ≤ 512) := by decide +kernel

/-- PcieLinkEventsShow: states that meet the premises of each clause. -/
theorem witness_PcieLinkEventsShow :
    (up.held = false ∧ up.linkUp = false ∧ linked.linkUp = true ∧ linked.fieldState (1 - 1) = fldRunning ∧
     up.pins.perst = false) ∧
    (([1, 2, 4, 8] : List Nat).contains 8 = true ∧
     ({ up with pins := { up.pins with perst := true } } : State).pins.perst = true) ∧
    (let s := withField linked 0 3 []
     s.held = false ∧ s.linkUp = true ∧ s.fieldState (1 - 1) = fldQuiescing ∧
     (withField linked 0 1 []).fieldState (1 - 1) = fldReady ∧
     (withField linked 0 4 []).fieldState (1 - 1) = fldQuiesced ∧
     (withField linked 0 5 []).fieldState (1 - 1) = fldStopping) := by decide +kernel

/-- ReinTriggersMakeReinsPending: states that meet the premises of each clause. -/
theorem witness_ReinTriggersMakeReinsPending :
    (let s := farm.setEntry 9 1 5 (bs [0, 0, 0, 0])
     s.held = false ∧ s.mayMail .reeve 5 = true ∧ s.mayMail (.field 1) 5 = false ∧
     s.recoveryReach .reeve mailboxBase = true ∧ inRecovery.recoveryReach .mgmt mailboxBase = false) ∧
    (let t := task .reading [] 0
     ((running t).furrow 0).task = some t ∧ t.stage = .reading) ∧
    (farm.held = false ∧ farm.fastenedAt 255 = false ∧ (commitAhead farm 255).reinOn 255 = false) ∧
    (let s := rein1 2 2
     let v := commitAhead s 5
     s.held = false ∧ v.reinOn 5 = true ∧ v.bit (Reg.reinChCtrl 5) 26 = false ∧ v.bits (Reg.reinChPeriod 5) 27 0 ≠ 0 ∧
     v.nextDue 5 (v.reinRec 5).dueFrom ≤ (runUntil v (v.nextDue 5 (v.reinRec 5).dueFrom)).now ∧
     (v.reinRec 5).pending = false) ∧
    (let s := pend (rein1 2 2)
     let v := commitAhead s 5
     v.reinOn 5 = true ∧ v.bits (Reg.reinChPeriod 5) 27 0 ≠ 0 ∧ (v.reinRec 5).pending = true) ∧
    (let s := bkl 1 2 5 { openTick := 44, boundary := 1, target := 5 } (rein1 2 2)
     s.held = false ∧ s.fastenedAt 5 = true ∧ (commitAhead s 5).buckleState 1 = 0) := by decide +kernel

/-- ReinIssuesWritesAndReleases: states that meet the premises of each clause. -/
theorem witness_ReinIssuesWritesAndReleases :
    (let s := { rein1 2 2 with rein := { (rein1 2 2).rein with silent := true } }
     s.held = false ∧ s.rein.silent = true) ∧
    ((rein1 2 2).held = false ∧ (rein1 2 2).nextIssue = none ∧ (rein1 2 2).rein.silent = false ∧
     ((rein1 2 2).reinRec 5).eval = none ∧ ((rein1 2 2).reinRec 5).release = none) ∧
    (let s := pend (rein1 2 2)
     s.held = false ∧ s.nextIssue = some (0, 5) ∧ (List.range 11).all (fun r => s.buckleState r != 2) = true ∧
     (reinEntry s 5).state ≠ 0) ∧
    (let s := (pend (rein1 2 2)).setBit Reg.safeStatus 2 true
     s.held = false ∧ (s.nextIssue.map (·.2)) = some 5 ∧ (reinEntry s 5).state = 4) ∧
    (let s := pend (rein1 0 0)
     s.held = false ∧ (s.nextIssue.map (·.2)) = some 5 ∧ (reinEntry s 5).state = 0 ∧ (s.reinRec 5).wordBad = false ∧
     ((s.setRein 5 { s.reinRec 5 with bad := .double }).reinRec 5).wordBad = true) ∧
    ((((rein1 2 2).setRein 5 { eval := some ev }).reinRec 5).eval = some ev) ∧
    (let r : ReinRelease := { tick := 900, late := false, dest := 0x40000000 + 2 * 2 ^ 26, data := bs [1, 2, 3, 4, 5, 6, 7, 8] }
     let s := (rein1 2 2 tack).setRein 5 { release := some r }
     s.held = false ∧ (s.reinRec 5).release = some r ∧ s.rein.silent = false ∧ r.safe = false) ∧
    (let r : ReinRelease := { tick := 900, late := false, dest := 0x40000000 + 2 * 2 ^ 26, data := bs [1, 2, 3, 4, 5, 6, 7, 8] }
     let s := (rein1 2 2 tack).setRein 5 { release := some r }
     let u := runUntil s r.tick
     let v := (u.releasesBefore 5 r).foldl (fun s x => releaseOne s x.1 x.2) u
     (placeCommand (v.setRein 5 { v.reinRec 5 with release := none }) 5 r.dest r.data).1 = true) ∧
    (let r : ReinRelease := { tick := 900, late := false, dest := 0x40000000 + 2 * 2 ^ 26, data := bs [1, 2, 3, 4, 5, 6, 7, 8] }
     let s := (rein1 2 2 (tack.setChute 5 { words := cw (List.range 32) })).setRein 5 { release := some r }
     (s.reinRec 5).release = some r) ∧
    (let r : ReinRelease := { tick := 900, late := false, dest := 0x40000000 + 2 * 2 ^ 26, data := bs [1, 2, 3, 4, 5, 6, 7, 8] }
     let s := (rein1 2 2 (tack.setChute 5 { words := cw (List.range 32) })).setRein 5 { release := some r }
     let u := runUntil s r.tick
     let v := (u.releasesBefore 5 r).foldl (fun s x => releaseOne s x.1 x.2) u
     (placeCommand (v.setRein 5 { v.reinRec 5 with release := none }) 5 r.dest r.data).1 = false) ∧
    (let r : ReinRelease := { tick := 900, late := false, dest := 0x40000000 + 2 * 2 ^ 26, data := bs [1, 2, 3, 4, 5, 6, 7, 8], safe := true }
     let s := (rein1 2 2 (tack.setChute 5 { words := cw (List.range 32) })).setRein 5 { release := some r }
     (s.reinRec 5).release = some r ∧ r.safe = true) ∧
    (let s := bkl 1 2 5 { openTick := 44, boundary := 1, target := 5 } (pend (rein1 2 2))
     s.held = false ∧ s.fastenedAt 5 = true ∧ (s.nextIssue.map (·.2)) = some 5 ∧ s.rein.silent = false) ∧
    ((rein1 2 2).reinState 5 ≠ 0 ∧ farm.reinState 5 = 0 ∧ farm.rein.silent = false) :=
  ⟨by decide +kernel, by decide +kernel, by decide +kernel, by decide +kernel, by decide +kernel, by decide +kernel, by decide +kernel, by decide +kernel, by decide +kernel, by decide +kernel, by decide +kernel, by decide +kernel, by decide +kernel⟩

/-- TackPortsCarryPackets: states that meet the premises of each clause. -/
theorem witness_TackPortsCarryPackets :
    (up.held = false ∧ up.bit (Reg.tackStatus 11) 0 = false ∧ up.bit (Reg.tackCfg 11) 1 = false ∧
     up.mayTransmit 11 = false) ∧
    ((tack).held = false ∧ (tack).bit (Reg.tackCfg 2) 1 = true ∧ (tack).bit (Reg.tackStatus 2) 0 = true ∧
     ((tack).tackPort 2).staged = [] ∧ (tack).chuteBound 4 = false ∧
     ((tack).chute 4).words.length + (tw [1, 2, 3, 4, 5, 6, 7, 8]).length ≤ 32) ∧
    (let ws := tw [1, 2, 3, 4, 5, 6, 7, 8]
     ws.length ≤ 8 ∧ ws ≠ [] ∧
     (List.range 8).all (fun i => (ws[i]?).any fun w => w.isFirst == decide (i = 0) && w.isLast == decide (i + 1 = ws.length) && !w.reserved && w.crc == linkCrc w.isFirst w.isLast false w.data) = true) ∧
    (32 < (((tack).setChute 4 { words := cw (List.range 31) }).chute 4).words.length + (tw [1, 2, 3]).length) ∧
    (let s := (tack).setChute 5 { words := cw [1, 2, 3] }
     s.held = false ∧ s.mayTransmit 2 = true ∧ s.bits (Reg.chuteCfg 5) 3 0 = 2 ∧
     ((s.chute 5).words.take 2).all (fun w => w.mark == .clean) = true) := by decide +kernel

/-- ChutesMoveWords: states that meet the premises of each clause. -/
theorem witness_ChutesMoveWords :
    ((tack).held = false ∧ (tack).chuteBound 23 = false ∧ ((tack).chute 23).words.length < 32) ∧
    (let s := (tack).setChute 23 { words := cw (List.range 32) }
     32 ≤ (s.chute 23).words.length ∧ s.chuteBound 23 = false) ∧
    (((tack).setBit (Reg.chuteCfg 5) 31 true).chuteBound 5 = true) ∧
    ((tack).accessible .reeve (Reg.chuteDataLo 4) 4 false = true ∧
     ((tack).setBit (Reg.chuteCfg 4) 31 true).chuteBound 4 = true ∧ (tack).chuteBound 4 = false ∧
     ((tack).chute 4).words = []) ∧
    (let s := (tack).setChute 4 { words := cw [1, 2] }
     s.held = false ∧ s.chuteBound 4 = false ∧ (s.chute 4).words = cw [1, 2] ∧
     (cw [1, 2]).all (fun w => w.mark == .clean) = true) := by decide +kernel

/-- BridleReceivesAndConfinesErrors: states that meet the premises of each clause. -/
theorem witness_BridleReceivesAndConfinesErrors :
    (up.held = false ∧ up.bits (Reg.brdlChCtrl 7) 1 0 = 0 ∧ (brd 1).held = false ∧
     (brd 1).bits (Reg.brdlChCtrl 3) 1 0 ≠ 0 ∧ (brd 1).brdlOff 3 = false) ∧
    ((can 0 0x55 3 true).remote = true ∧ (brd 1).objectFor 3 (can 0 0x57 1) = none) ∧
    ((brd 1).objectFor 3 (can 0 0x55 8) = some 9 ∧ (can 0 0x55 8).data.length ≤ objectSize 9 ∧
     objectSize 9 < (can 0 0x55 65).data.length ∧ (can 0 0x55 65).remote = false ∧
     (brd 1).objectFor 3 (can 0 0x55 65) = some 9) ∧
    (let s := (brd 1).setBits (Reg.brdlChStatus 3) 31 30 2
     s.held = false ∧ s.bits (Reg.brdlChStatus 3) 31 30 = 2 ∧ s.brdlOff 3 = true) ∧
    (let s := (brd 1).setBits (Reg.brdlChStatus 3) 31 30 3
     s.held = false ∧ s.bits (Reg.brdlChStatus 3) 31 30 = 3) ∧
    ((brd 1).bits (Reg.brdlChStatus 3) 31 30 < 2 ∧
     ((brd 1).setBits (Reg.brdlChStatus 3) 22 14 255).bits (Reg.brdlChStatus 3) 22 14 = 255) := by decide +kernel

/-- BridleFifoSendsAndAborts: states that meet the premises of each clause. -/
theorem witness_BridleFifoSendsAndAborts :
    (let s := brd 1
     s.held = false ∧ s.fifo 3 = [] ∧ s.sending 3 = false) ∧
    (let s := (brd 1).poke (stageBase 3) (fe.desc.take 13)
     let d := s.bytes (stageBase 3) 16
     s.held = false ∧
     ¬ (64 ≤ (s.fifo 3).length ∨ s.kindEnabled 3 (leAt d 0 4 / 2 ^ 29) = false ∨ lengthOk (leAt d 0 4 / 2 ^ 29) (leAt d 8 2) = false ∨ leAt d 13 1 ≠ 0 ∨ leAt d 12 1 / 4 ≠ 0 ∨ s.brdlNormal 3 = false ∨ s.bit Reg.safeStatus 2 = true)) ∧
    (64 ≤ (((brd 1).setFifo 3 (List.replicate 64 fe)).fifo 3).length) ∧
    (let s := (brd 2).setFifo 3 [fe, fe]
     s.held = false ∧ s.fifo 3 = [fe, fe] ∧ s.sending 3 = false) ∧
    (let s := (brd 1).setFifo 3 [fe, fe]
     s.held = false ∧ s.fifo 3 = [fe, fe] ∧ s.sending 3 = true ∧ fe.drop = false ∧ fe.abort = false ∧ fe.mark = .clean) ∧
    (let e := { fe with abort := true }
     let s := (brd 1).setFifo 3 [e, fe]
     s.fifo 3 = [e, fe] ∧ s.sending 3 = true ∧ e.drop = false) ∧
    (let e := { fe with drop := true }
     let s := (brd 1).setFifo 3 [e, fe]
     s.fifo 3 = [e, fe] ∧ s.sending 3 = true) ∧
    (let s := (brd 1).setFifo 3 [fe .double, fe]
     s.fifo 3 = [fe .double, fe] ∧ s.sending 3 = true ∧ (fe .double).mark = .double) := by decide +kernel

/-- FaultReportsReachTheIsland: states that meet the premises of each clause. -/
theorem witness_FaultReportsReachTheIsland :
    (farm.held = false ∧ farm.island.net = []) ∧
    ((List.range 5).all (fun c => (farm.raise (ev1 c)).island.net == [ev1 c] && !(farm.raise (ev1 c)).held) = true) ∧
    (let s := farm.raise (ev1 3 (some 0))
     s.island.net = [ev1 3 (some 0)] ∧ s.fieldState 0 = fldRunning ∧ s.bit Reg.safeStatus 2 = false) ∧
    ((farm.setBits Reg.safeStatus 1 0 1).bits Reg.safeStatus 1 0 = 1 ∧ farm.bits Reg.safeStatus 1 0 ≠ 1 ∧
     isChecker 0x0401 31 = true ∧ isChecker 0x2022 0 = false) := by decide +kernel

/-- TallyLogTakesEvents: states that meet the premises of each clause. -/
theorem witness_TallyLogTakesEvents :
    (up.held = false ∧ nextEvent up.island.queue = none) ∧
    (let s := tallied (ev1 0) up
     s.held = false ∧ nextEvent s.island.queue = some { event := ev1 0, tick := 77, cycle := 0 } ∧
     (s.tallySource (sourceKey 0x555 0)).written < max 1 (s.bits Reg.safeTallyCtrl 7 0) ∧ 64 < s.tallyFree) ∧
    (let s := tallied (ev1 1) (up.setReg Reg.safeTallyWr 960#32)
     (nextEvent s.island.queue).map (·.event.cls) = some 1 ∧ s.tallyFree = 64) ∧
    (let s := tallied (ev1 3) (up.setReg Reg.safeTallyWr 1024#32)
     (nextEvent s.island.queue).map (·.event.cls) = some 3 ∧ s.tallyFree = 0) ∧
    (let s := tallied (ev1 2) (up.setReg Reg.safeTallyWr 1023#32)
     s.held = false ∧ (nextEvent s.island.queue).map (·.event.cls) = some 2 ∧
     (s.tallySource (sourceKey 0x555 2)).written < max 1 (s.bits Reg.safeTallyCtrl 7 0) ∧ s.tallyFree = 1) ∧
    (let s := (up.setReg Reg.safeTallyWr 500#32).setReg Reg.safeTallyRd 65530#32
     let rd := s.bits Reg.safeTallyRd 15 0
     s.held = false ∧ (s.tallyWr + 65536 - rd) % 65536 < (501 + 65536 - rd) % 65536 ∧
     ¬ (s.tallyWr + 65536 - rd) % 65536 < (500 + 65536 - rd) % 65536) ∧
    (let s := tallied (ev1 2) (up.setReg Reg.safeTallyWr 1022#32)
     s.held = false ∧ (nextEvent s.island.queue).map (·.event.cls) = some 2 ∧
     (s.tallySource (sourceKey 0x555 2)).written < max 1 (s.bits Reg.safeTallyCtrl 7 0) ∧ s.tallyFree = 2) ∧
    (let s := (tallied (ev1 2) (up.setReg Reg.safeTallyWr 1023#32)).setBit Reg.safeStatus 2 true
     s.held = false ∧ (nextEvent s.island.queue).map (·.event.cls) = some 2 ∧ s.tallyFree = 1 ∧
     s.bit Reg.safeStatus 2 = true) ∧
    (let s := tallied (ev1 2) (up.setReg Reg.safeTallyWr 1023#32)
     (List.range 64).all (fun n => (s.furrow n).task.isNone && (s.furrow n).slots.isEmpty) = true) := by decide +kernel

/-- SafetyPinsAndTimersAct: states that meet the premises of each clause. -/
theorem witness_SafetyPinsAndTimersAct :
    (up.held = false ∧ up.island.holdTicks = 0 ∧ up.bit Reg.safeStatus 2 = false ∧ up.bit Reg.safeStatus 7 = true ∧
     up.bits Reg.safeWdt 9 0 = 0 ∧ up.reg Reg.safeCpPeriod = 0 ∧ up.mgOn 255 = false ∧ up.island.powerTicks = 0) ∧
    (({ up with island := { up.island with holdTicks := 2 } } : State).island.holdTicks ≠ 0) ∧
    (let s := up.setReg Reg.safeWdt 0x000003E8#32
     s.held = false ∧ s.bits Reg.safeWdt 9 0 ≠ 0 ∧ s.time.ticks ≤ s.island.wdtTick ∧
     s.island.wdtTick < ({ s with time := { s.time with ticks := 1 } } : State).time.ticks) ∧
    (let s := { up with time := { up.time with ticks := 11 }, island := { up.island with wdtTick := 10 } }
     s.held = false ∧ s.island.wdtTick < s.time.ticks) ∧
    (let s := { up with island := { up.island with wdtTick := 2 ^ 64 } }
     let u := runUntil s ((s.tickNumber + 1) * mgmtTicks)
     s.held = false ∧ s.time.ticks ≤ s.island.wdtTick ∧ u.time.ticks ≤ s.island.wdtTick ∧
     up.island.wdtTick < (runUntil up ((up.tickNumber + 1) * mgmtTicks)).time.ticks) ∧
    (let s := { up with island := { up.island with wdtFrom := some 0, kicks := 0 } }
     s.watchdogEvents 2 = List.replicate 2 { code := 0x0A04, cls := 4 }) ∧
    (let s := (farm.setReg Reg.safeCpPeriod 64000000#32).setReg (Reg.safeFurPhase 0) 1000#32
     s.held = false ∧ s.reg Reg.safeCpPeriod ≠ 0 ∧ s.bits (Reg.furStatus 0) 2 0 < 3 ∧
     ((s.setFurrow 0 { run := { active := true } }).furrow 0).run.active = true ∧ 3 ≤ s.bits (Reg.furStatus 63) 2 0) ∧
    (let s := (up.setReg (Reg.safeMgCfg 3) 0x80000025#32).setReg (Reg.safeMgPeriod 3) 5000#32
     s.held = false ∧ s.mgOn 3 = true ∧ s.bits (Reg.safeMgStatus 3) 3 0 < s.bits (Reg.safeMgCfg 3) 7 4 ∧
     s.bits (Reg.safeMgCfg 3) 7 4 ≤ (s.setReg (Reg.safeMgStatus 3) 3#32).bits (Reg.safeMgStatus 3) 3 0) ∧
    (let s := { up with island := { up.island with powerSum := 5000000, powerTicks := 3 } }
     s.held = false ∧ s.island.powerTicks ≠ 0 ∧
     10 * s.bits Reg.fusePart 23 16 * s.island.powerTicks < s.island.powerSum ∧ 0 ≤ 10 * s.bits Reg.fusePart 23 16 * 3) := by decide +kernel

/-- HarnessLoadsAndApplies: part 1 of its witness. -/
theorem premise_HarnessLoadsAndApplies_1 :
    (checked (loading k0 up) = some none ∧ imageKind k0 = 0) := by decide +kernel

/-- HarnessLoadsAndApplies: part 2 of its witness. -/
theorem premise_HarnessLoadsAndApplies_2 :
    (checked (loading k2 (started up)) = some none ∧ imageKind k2 = 2) := by decide +kernel

/-- HarnessLoadsAndApplies: part 3 of its witness. -/
theorem premise_HarnessLoadsAndApplies_3 :
    ((checked (loading k3 (started (up.setBits (Reg.fldStatus 0) 2 0 2)))).any Option.isSome = true ∧ imageKind k3 ≠ 2) := by decide +kernel

/-- HarnessLoadsAndApplies: states that meet the premises of each clause. -/
theorem witness_HarnessLoadsAndApplies :
    (up.held = false ∧ (Requester.field 0 ≠ .reeve ∧ Requester.field 0 ≠ .mgmt) ∧
     (up.setBit Reg.hrnsStatus 31 true).loadRefused .reeve = true) ∧
    (let s := (up.setReg64 Reg.hrnsSrcLo Reg.hrnsSrcHi 0x5800000000).poke 0x5800000000 (k1.take 8)
     s.held = false ∧ s.loadRefused .reeve = false) ∧
    (up.bit Reg.hrnsStatus 31 = false) ∧
    (let s := loading [] up
     s.held = false ∧ s.bit Reg.hrnsStatus 31 = true ∧ s.loader.passed = false ∧
     (runChecks s s.loader.staging (fun _ => true)).toBool = false) ∧
    (checked (loading k0 up) = some none ∧ imageKind k0 = 0) ∧
    (checked (loading k2 (started up)) = some none ∧ imageKind k2 = 2) ∧
    ((checked (loading k3 (started (up.setBits (Reg.fldStatus 0) 2 0 2)))).any Option.isSome = true ∧ imageKind k3 ≠ 2) ∧
    (inRecovery.recoveryReach .mgmt Reg.hrnsCtrl = false ∧ up.recoveryReach .reeve Reg.hrnsCtrl = true) ∧
    (let s := (loading k2 (started up)).setBits (Reg.bklStatus 10) 31 30 1
     s.buckleState 10 ≠ 0 ∧ s.loader.staging = k2) ∧
    (let s := loading k2 (started up)
     s.buckleState 10 = 0 ∧ s.kind1Busy = false) :=
  ⟨by decide +kernel, by decide +kernel, by decide +kernel, by decide +kernel, premise_HarnessLoadsAndApplies_1, premise_HarnessLoadsAndApplies_2, premise_HarnessLoadsAndApplies_3, by decide +kernel, by decide +kernel, by decide +kernel⟩

/-- BuckleTransactionsRun: part 1 of its witness. -/
theorem premise_BuckleTransactionsRun_1 :
    (let s := (shadowed 1).setReg Reg.safeCpPeriod 64000000#32
     s.held = false ∧ s.buckleState 1 = 1 ∧ (fastenChecks s 1 0 0).1 = true ∧
     (fastenChecks (s.setReg (Reg.yokeDepth 2 1) 0#32) 1 0 0).1 = false) := by decide +kernel

/-- BuckleTransactionsRun: part 2 of its witness. -/
theorem premise_BuckleTransactionsRun_2 :
    (let s := (shadowed 2).setReg Reg.safeCpPeriod 64000000#32
     let b := s.buckle 1
     let u := runUntil s (s.boundaryTick b)
     s.held = false ∧ s.buckleState 1 = 2 ∧ (fastenChecks u 1 b.boundary b.target).1 = true ∧
     b.shadows = [(Reg.yokeRate 2 1, 3#32, 2#32)]) := by decide +kernel

/-- BuckleTransactionsRun: part 3 of its witness. -/
theorem premise_BuckleTransactionsRun_3 :
    (let s := bkl 1 2 5 { openTick := 44, shadows := [(Reg.yokeRate 2 1, 0xFFFFF#32, 0x123#32)] }
     let b := s.buckle 1
     let u := runUntil s (s.boundaryTick b)
     s.buckleState 1 = 2 ∧ (fastenChecks u 1 b.boundary b.target).1 = false) := by decide +kernel

/-- BuckleTransactionsRun: states that meet the premises of each clause. -/
theorem witness_BuckleTransactionsRun :
    (up.held = false ∧ up.buckleState 10 = 0 ∧ up.kind1Busy = false ∧
     ((up.setBit Reg.hrnsStatus 31 true).setBits Reg.hrnsStatus 28 27 1).kind1Busy = true) ∧
    (let s := bkl 1 1 5 { openTick := 44 }
     s.held = false ∧ s.buckleState 1 = 1 ∧ s.buckleState 1 ≠ 0 ∧ s.buckleState 1 ≠ 2) ∧
    (let s := (shadowed 1).setReg Reg.safeCpPeriod 64000000#32
     s.held = false ∧ s.buckleState 1 = 1 ∧ (fastenChecks s 1 0 0).1 = true ∧
     (fastenChecks (s.setReg (Reg.yokeDepth 2 1) 0#32) 1 0 0).1 = false) ∧
    (let s := (shadowed 2).setReg Reg.safeCpPeriod 64000000#32
     let b := s.buckle 1
     let u := runUntil s (s.boundaryTick b)
     s.held = false ∧ s.buckleState 1 = 2 ∧ (fastenChecks u 1 b.boundary b.target).1 = true ∧
     b.shadows = [(Reg.yokeRate 2 1, 3#32, 2#32)]) ∧
    (let s := bkl 1 2 5 { openTick := 44, shadows := [(Reg.yokeRate 2 1, 0xFFFFF#32, 0x123#32)] }
     let b := s.buckle 1
     let u := runUntil s (s.boundaryTick b)
     s.buckleState 1 = 2 ∧ (fastenChecks u 1 b.boundary b.target).1 = false) ∧
    (let s := bkl 1 2 5 { openTick := 44, boundary := 3, target := 9 }
     s.held = false ∧ s.buckleState 1 = 2 ∧ (s.buckle 1).boundary = 3) ∧
    (let s := bkl 1 2 5 { openTick := 44, boundary := 1, target := 5 } (pend (rein1 2 2))
     let b := s.buckle 1
     s.held = false ∧ s.buckleState 1 = 2 ∧ b.boundary = 1 ∧
     (s.sampleCycle b.target).any (fun c => c ≤ s.cycleOf s.now && c ≤ s.cycleOf (b.openTick + 640000000)) = true) ∧
    (let s := bkl 1 2 5 { openTick := 44, boundary := 1, target := 9 }
     let b := s.buckle 1
     s.buckleState 1 = 2 ∧ b.boundary = 1 ∧
     (s.sampleCycle b.target).any (fun c => c ≤ s.cycleOf (b.openTick + 640000000)) = false) ∧
    (let s := bkl 1 2 5 { openTick := 0, boundary := 2 } (atTick up 639000000)
     let b := s.buckle 1
     s.buckleState 1 = 2 ∧ b.boundary = 2 ∧ s.boundaryTick b ≤ max (b.openTick + 640000000) s.now ∧
     max s.now s.now < s.boundaryTick b) :=
  ⟨by decide +kernel, by decide +kernel, premise_BuckleTransactionsRun_1, premise_BuckleTransactionsRun_2, premise_BuckleTransactionsRun_3, by decide +kernel, by decide +kernel, by decide +kernel, by decide +kernel⟩

/-- ChainFramesArriveAndAct: states that meet the premises of each clause. -/
theorem witness_ChainFramesArriveAndAct :
    (chained.held = false ∧
     (List.range 10).all (fun t => let f := cf true t 2 0 false true false (bs [2, 0, 0, 0, 0]); chained.bit Reg.reeveChain 27 && chainCrcOk f && f.type == t && chained.chainMine f) = true) ∧
    (let f := cf false 2 1 3 false false false (bs [2])
     chained.chainMine f = false ∧ chainCrcOk f = true ∧ chained.bit Reg.reeveChain 26 = true) ∧
    (let f := { cf true 1 1 0 false false true (bs [3]) with crc := 7 }
     chainCrcOk f = false ∧ f.linkLocal = true ∧ up.bit Reg.reeveChain 27 = false) ∧
    (let f := cf true 1 1 0 false false true (bs [3])
     let s := both up
     s.held = false ∧ s.chainMine f = true ∧ f.fromUp = true ∧ s.pins.chainHead = false ∧ s.addressed = false ∧
     leAt f.payload 0 1 < 16) ∧
    (let f := cf true 2 5 0 true true false (bs [2, 0, 0, 0, 1])
     chainCrcOk f = true ∧ f.unaddressed = true) ∧
    (let s := both (me0.setBits Reg.reeveChain 3 0 3)
     let f := cf true 4 2 0 false false true (bs [3])
     s.chainMine f = true ∧ s.pins.chainHead = false ∧ s.addressed = true ∧ s.chipId ≠ 0 ∧
     ({ s with time := { s.time with delays := List.replicate 255 1000 } } : State).time.delays.length + 1 = 256) ∧
    (chained.addressed = true ∧ chained.chipId = 0 ∧ chained.chain.queue.length < 16 ∧
     ({ chained with pins := { chained.pins with chainHead := true } } : State).pins.chainHead = true) ∧
    (let s := { chained with chain := { chained.chain with queue := List.replicate 16 (1, []) } }
     16 ≤ s.chain.queue.length) ∧
    (let f := cf true 1 1 0 false false true (bs [16])
     let s := both up
     s.chainMine f = true ∧ s.pins.chainHead = false ∧ 16 ≤ leAt f.payload 0 1 ∧
     (cf false 4 2 0 false false true (bs [3])).fromUp = false ∧ s.addressed = false) ∧
    (let s := { chained with pins := { chained.pins with chainHead := true } }
     let f := cf true 1 1 0 false false true (bs [3])
     s.held = false ∧ s.chainMine f = true ∧ s.pins.chainHead = true ∧ f.fromUp = true ∧ true ∉ s.chain.detected ∧
     true ∈ ({ s with chain := { s.chain with detected := [true] } } : State).chain.detected) ∧
    (let f := cf true 1 1 0 false false true (bs [16])
     let s := both up
     s.chainMine f = true ∧ 16 ≤ leAt f.payload 0 1 ∧ false ∉ s.chain.detected ∧
     false ∈ ({ s with chain := { s.chain with detected := [false] } } : State).chain.detected) ∧
    (let f := cf true 1 1 0 false false true (bs [3])
     let s := both (me0.setBits Reg.reeveChain 3 0 2)
     s.chainMine f = true ∧ s.pins.chainHead = false ∧ s.addressed = true ∧ leAt f.payload 0 1 < 16 ∧
     leAt f.payload 0 1 ≠ s.chipId) ∧
    (let f := cf true 2 0 0 false true false (bs [2, 0, 0, 0, 0])
     let s := { chained with chain := { chained.chain with heard := [0] } }
     s.held = false ∧ chainCrcOk f = true ∧ f.src = 0 ∧ f.unaddressed = false ∧ s.chainMine f = true ∧
     0 ∈ s.chain.heard ∧ true ∉ s.chain.detected ∧ bitOf (leAt f.payload 4 1) 0 = false) :=
  ⟨by decide +kernel, by decide +kernel, by decide +kernel, by decide +kernel, by decide +kernel, by decide +kernel, by decide +kernel, by decide +kernel, by decide +kernel, by decide +kernel, by decide +kernel, by decide +kernel, by decide +kernel⟩

/-- ChainSendsAndFenceReports: states that meet the premises of each clause. -/
theorem witness_ChainSendsAndFenceReports :
    (chained.held = false ∧ chained.sendBusy = false ∧ chained.addressed = true ∧ chained.chipId = 0 ∧
     up.addressed = false ∧ ({ chained with chain := { chained.chain with busyUntil := 1 } } : State).sendBusy = true) ∧
    (chained.chain.step6 = none ∧
     ({ chained with chain := { chained.chain with step6 := some 9 } } : State).chain.step6 = some 9) ∧
    (let s := { chained with chain := { chained.chain with missed := [(1, 3)] } }
     3 ≤ mapGet 0 s.chain.missed 1 ∧ ¬ 3 ≤ mapGet 0 s.chain.missed 15 ∧ s.livePeer 1 = true ∧ s.livePeer 15 = false ∧
     s.addressed = true ∧ s.chipId = 0 ∧ 1 ∉ s.chain.reports ∧ 1 ∉ s.chain.noticed) ∧
    (let s := chained.setBits Reg.reeveChain 3 0 2
     s.held = false ∧ s.livePeer 1 = true ∧ s.addressed = true ∧ s.chipId ≠ 0 ∧ s.bit Reg.reeveChain 27 = true) ∧
    (let s := chained.setBit Reg.reeveChain 31 false
     s.livePeer 1 = true ∧ s.addressed = false) ∧
    (let s := { chained with chain := { chained.chain with noticed := [1] } }
     s.livePeer 1 = true ∧ s.bit Reg.reeveChain 26 = true ∧ 1 ∈ s.chain.noticed) ∧
    (let s := chained.setBit Reg.reeveChain 26 false
     s.livePeer 1 = true ∧ s.chipId = 0 ∧ s.bit Reg.reeveChain 26 = false) := by decide +kernel

/-- ReeveCommandsAct: states that meet the premises of each clause. -/
theorem witness_ReeveCommandsAct :
    (up.held = false ∧ up.recovering = false ∧ inRecovery.held = false ∧ inRecovery.recovering = true ∧
     inRecovery.firmwareOk true (inRecovery.firmwareAt 0x5800000000) = false) ∧
    (let s := (keyed inRecovery).poke 0x5800000000 fwImg
     s.held = false ∧ s.recovering = true ∧ s.firmwareOk true (s.firmwareAt 0x5800000000) = true) ∧
    (let s := up.setReg64 Reg.reeveWgAddrLo Reg.reeveWgAddrHi 64
     up.bit Reg.reeveWgCtrl 30 = false ∧ s.reg64 Reg.reeveWgAddrLo Reg.reeveWgAddrHi % 64 = 0 ∧
     (dramUp s).region 64 = some .dram ∧ (dramUp s).accessible .reeve 64 64 true = true) ∧
    (out.bit Reg.reeveBoot 31 = false ∧ up.bit Reg.reeveBoot 31 = true ∧ up.links.current = none ∧ up.nextLink = none) ∧
    (let s := { up with links := { up.links with current := some 16, slices := 255 } }
     s.held = false ∧ s.links.current = some 16 ∧ 256 ≤ s.links.slices + 1) ∧
    (up.bits Reg.safeStatus 1 0 ≠ 1 ∧ (up.reg Reg.fuseMinSerial).toNat ≤ (up.reg Reg.fuseProgSerial).toNat) ∧
    (let s := farm.setReg64 Reg.reeveWgAddrLo Reg.reeveWgAddrHi SB
     s.held = false ∧ s.bit Reg.reeveWgCtrl 30 = false ∧ SB % 64 = 0 ∧ s.region SB = some (.seedbed 0) ∧
     s.accessible .reeve SB 64 true = true ∧ s.bit (Reg.furSbStatus 0) 0 = true ∧ s.bit (Reg.furSbStatus 63) 0 = false) ∧
    (let s := farm.setReg64 Reg.reeveWgAddrLo Reg.reeveWgAddrHi (mailboxBase + 64 * 255)
     s.bit Reg.reeveWgCtrl 30 = false ∧ s.reg64 Reg.reeveWgAddrLo Reg.reeveWgAddrHi = mailboxBase + 64 * 255 ∧
     s.reg64 Reg.reeveWgAddrLo Reg.reeveWgAddrHi % 64 = 0) ∧
    (let s := farm.setReg64 Reg.reeveWgAddrLo Reg.reeveWgAddrHi 0x1000
     s.bit Reg.reeveWgCtrl 30 = false ∧ windowOf 0x1000 ≠ some .mailbox ∧ s.accessible .reeve 0x1000 64 true = false) ∧
    (let s := { up with links := { up.links with current := some 4, slices := 3 } }
     s.links.current = some 4 ∧ ({ temp := 30, lanesLp := false } : LinkSlice).lanesLp = false ∧ 4 ≤ 4 ∧
     s.links.slices + 1 < 256) ∧
    (let s := atTick { up with links := { up.links with front := [3] } } 6400000000
     s.held = false ∧ s.bit Reg.reeveBoot 31 = true ∧ s.links.current = none ∧ s.nextLink = some (3, true)) ∧
    (let d : LinkDone := { link := 4, reg := 0, tick := 0, front := [], entry := none, event := none }
     let s := { up with links := { up.links with done := some d } }
     s.links.current = none ∧ s.links.done = some d ∧ d.link = 4 + 0) := by decide +kernel

/-- LowReadsLatchTheHighHalf: states that meet the premises of each clause. -/
theorem witness_LowReadsLatchTheHighHalf :
    ((regAt Reg.timeNowLo).any (fun x => lowRows.contains x.1.base) = true ∧
     (regAt (Reg.timeNowLo + 4)).any (fun x => x.1.base != Reg.chuteDataLo 0) = true) ∧
    (let s := atTick farm (2 ^ 40 + 5)
     s.held = false ∧ s.accessible .reeve Reg.timeNowLo 4 false = true ∧ windowOf Reg.timeNowLo = none ∧
     (s.region Reg.timeNowLo).any Region.isRegs = true ∧ Reg.timeNowLo % 4 = 0 ∧ gatherReg Reg.timeNowLo = false ∧
     mapFind s.latch Reg.timeNowLo = none) ∧
    (let u := { farm with latch := [(Reg.timeNowHi, 256#32)] }
     u.held = false ∧ u.accessible .reeve (Reg.timeNowLo + 4) 4 false = true ∧ windowOf (Reg.timeNowLo + 4) = none ∧
     (u.region (Reg.timeNowLo + 4)).any Region.isRegs = true ∧ (Reg.timeNowLo + 4) % 4 = 0 ∧
     gatherReg (Reg.timeNowLo + 4) = false ∧ mapFind u.latch (Reg.timeNowLo + 4) = some 256#32) := by decide +kernel

/-- RegistersAndMemoryAnswer: states that meet the premises of each clause. -/
theorem witness_RegistersAndMemoryAnswer :
    (farm.held = false ∧ farm.accessible (.field 1) (Reg.fldCtrl 0) 4 false = false ∧
     windowOf (Reg.fldCtrl 0) = none ∧ (farm.region (Reg.fldCtrl 0)).isSome = true ∧
     farm.accessible (.field 1) (Reg.fldCtrl 0) 4 true = false) ∧
    (farm.accessible .reeve Reg.reeveGpioOut 4 true = true ∧ farm.accessible .reeve Reg.reeveGpioOut 8 true = true ∧
     (farm.region Reg.reeveGpioOut).any Region.isRegs = true) ∧
    (farm.accessible .reeve Reg.reeveGpioOut 4 false = true ∧ gatherReg Reg.reeveGpioOut = false ∧
     (regAt Reg.reeveGpioOut).any (fun x => x.1.base != Reg.chuteDataLo 0 && !lowRows.contains x.1.base) = true ∧
     mapFind farm.latch Reg.reeveGpioOut = none) ∧
    (farm.accessible .reeve Reg.timeNowLo 4 false = true ∧ mapFind farm.latch Reg.timeNowLo = none) ∧
    (mapFind ({ farm with latch := [(Reg.timeNowHi, 77#32)] } : State).latch Reg.timeNowHi = some 77#32 ∧
     farm.accessible .reeve Reg.timeNowHi 4 false = true) ∧
    (farm.region 0x5800000010 = some .sram ∧ farm.accessible .reeve 0x5800000010 8 true = true ∧
     farm.accessible .reeve 0x5800000010 8 false = true ∧ farm.poisoned 0x5800000010 8 = false) := by decide +kernel

/-- MemoryScrubReportsErrors: states that meet the premises of each clause. -/
theorem witness_MemoryScrubReportsErrors :
    (farm.held = false ∧
     ([.lineBuffer 63 8191, .scoreBuffer 63 0, .droveBuffer 3 5, .intakeLine 15 7, .bridleObject 2047, .reinState 255, .hopper 32703, .hopper 0, .bridleFifo 7 63, .chute 23 31, .instructionStore 63 4, .tally 1023] : List ScrubMemory).all ScrubMemory.wellFormed = true) ∧
    ((farm.reinRec 255).bad = .clean ∧ farm.fifo 7 = [] ∧ ((farm.chute 23).words.length ≤ 31) ∧
     (farm.furrow 63).task = none ∧ farm.mark ((tallyBase + 32 * 1023) / 32) = .clean ∧
     (farm.object 2047).mark = .clean ∧ (farm.hopper 0).mark = .clean ∧
     mapGet .clean (farm.furrow 63).stores 4 = .clean) ∧
    (((brd 1).setFifo 3 [fe]).fifo 3 = [fe] ∧ fe.mark = .clean ∧
     ((brd 1).setFifo 3 [fe .double]).fifo 3 = [fe .double] ∧ (fe .double).mark = .double) ∧
    (let s := (tack).setChute 4 { words := cw [1, 2, 3] }
     (s.chute 4).words[2]? = some ⟨0x300000003 + 0xAB00000000, .clean⟩) ∧
    (let t := task .reading [] 0
     ((running t).furrow 0).task = some t ∧ t.stage ≠ .checking ∧ t.desc.op = 0x0C ∧ (12 : Nat) ∉ [2, 3, 4]) ∧
    (let t := { task .reading [] 0 with desc := { dsc with op := 5 } }
     ((running t).furrow 0).task = some t ∧ t.desc.op ∈ [0x05]) ∧
    (let s := farm.setHopper 5 { hop 0 1 0 with mark := .double }
     (s.hopper 5).mark = .double ∧ s.hopperIn 0 5 = true ∧
     ((farm.setObject 9 { mark := .double }).object 9).mark = .double ∧
     ((farm.setRein 5 { bad := .double }).reinRec 5).bad = .double ∧
     (farm.setMark (tallyBase / 32) .double).mark (tallyBase / 32) = .double) ∧
    (farm.word .line 63 8191 = .clean ∧ (farm.setWord .score 5 9 .double).word .score 5 9 = .double ∧
     (farm.setWord .drove 3 5 .double).word .drove 3 5 = .double) ∧
    (let t := task .reading [] 0
     (running t).storeInUse 0 = true ∧ farm.storeInUse 0 = false) := by decide +kernel

/-- StepsTakeTheFrontCommandOrIdle: states that meet the premises of each clause. -/
theorem witness_StepsTakeTheFrontCommandOrIdle :
    (let s := { up with pending := [.jtagBypass, .tallyWrite] }
     s.pending = .jtagBypass :: [.tallyWrite]) ∧
    (up.pending = [] ∧ up.pins.porst = false ∧ State.reset.pins.porst = true) := by decide +kernel

/-- CommandsCompleteInOrder: states that meet the premises of each clause. -/
theorem witness_CommandsCompleteInOrder :
    (State.reset.held = true ∧ actsWhileHeld (.matmul 63) = false) ∧
    (let s := { up with pending := [.jtagBypass, .tallyWrite] }
     s.pending.all Instr.wellFormed = true) := by decide +kernel

/-- ReduceTaskComputesSaturatedRows: states that meet the premises of each clause. -/
theorem witness_ReduceTaskComputesSaturatedRows :
    (let t := task .reading [] 0
     let t := { t with desc := redDesc }
     let s := running t reducing
     s.held = false ∧ (s.furrow 0).task = some t ∧ t.stage = .reading ∧ t.desc.op = 0x08 ∧ t.resuming = false ∧
     (s.furrow 0).stores = [] ∧ s.taskRejected 0 t = false ∧ s.nextWait 0 t = .none ∧ t.charged = true ∧
     s.yokeWaits 0 = false) ∧
    (let d := redDesc
     let s := reducing
     d.zcA = false ∧ d.zcDst = false ∧ d.fmtA = 2 ∧ d.fmtOut = 1 ∧ s.param d 4 = 0 ∧ s.param d 0 = 3 ∧
     s.param d 1 = 2 ∧ s.param d 5 = 1) := by decide +kernel

/-- MemoryStaysCanonical: states that meet the premises of each clause. -/
theorem witness_MemoryStaysCanonical :
    (let s := mem (mem (mem up 0x100 (bs [1, 2, 3])) 0x6000000000 (bs [4, 5])) 0x5800000010 (bs [9])
     Memory.wf s.mem = true) := by decide +kernel

end Sys2Proof.Tests
end

