-- ==== Sys2Proof/Proofs/CanonicalBase.lean ====
section
/-! SUPPORT. What memory's canonical form is as a predicate of a state, and how it passes through the shapes that
meanings are built from: an update of the record, a choice, a fold, the gates of a command. -/

namespace Sys2Proof.Machine

/-- Memory is in canonical form. -/
def State.Canonical (s : State) : Prop := Memory.wf s.mem = true

/-! How the form passes through the shapes that meanings are built from. -/

variable {s t : State}

/-- An update of the state's record that takes memory over. -/
theorem State.Canonical.record {pending regs latch marks words tables time pins furrows hoppers fields yokes island
    rein tacks chutes fifos objects buckles loader drove chain dram intake pcie firmware boot links outbox
    freeCount} (h : s.Canonical) :
    State.Canonical ⟨pending, regs, latch, s.mem, marks, words, tables, time, pins, furrows, hoppers, fields, yokes,
      island, rein, tacks, chutes, fifos, objects, buckles, loader, drove, chain, dram, intake, pcie, firmware,
      boot, links, outbox, freeCount⟩ := h

theorem State.Canonical.ite {c : Prop} {_ : Decidable c} (hs : s.Canonical) (ht : t.Canonical) :
    (if c then s else t).Canonical := by
  split
  · exact hs
  · exact ht

theorem State.Canonical.foldl {α : Type} {f : State → α → State} {xs : List α} (h : s.Canonical)
    (hf : ∀ t x, t.Canonical → (f t x).Canonical) : (xs.foldl f s).Canonical :=
  foldl_induct (P := State.Canonical) xs h fun t x _ => hf t x

theorem State.Canonical.forUpTo {n : Nat} {f : Nat → State → State} (h : s.Canonical)
    (hf : ∀ i t, t.Canonical → (f i t).Canonical) : (forUpTo n f s).Canonical :=
  forUpTo_induct (P := State.Canonical) h fun i t _ => hf i t

theorem State.Canonical.onlyIf {c : Bool} {f : State → State} (h : s.Canonical)
    (hf : ∀ t, t.Canonical → (f t).Canonical) : (onlyIf c f s).Canonical := ite (hf _ h) h

theorem State.Canonical.ofFst {α : Type} {p : State × α} {b : α} (h : p.1.Canonical) (e : p = (t, b)) :
    t.Canonical := by
  rwa [e] at h

theorem State.Canonical.ofSnd {α : Type} {p : α × State} {b : α} (h : p.2.Canonical) (e : p = (b, t)) :
    t.Canonical := by
  rwa [e] at h

/-- A strobe runs the meaning of a command on a running device. -/
theorem State.Canonical.afterOr (hs : s.Canonical) (ht : t.Canonical) : (afterOr s (live s t)).Canonical :=
  ite hs ht

end Sys2Proof.Machine
end

