-- ==== Sys2Proof/Proofs/CanonicalTasks.lean ====
section
/-! SUPPORT. The operations over memory and registers, and the functions of time, reins, links, the Droveway and
tasks: each keeps the canonical form of memory. -/

namespace Sys2Proof.Machine

variable {s : State}

/-! Machine/Ops.lean. -/

theorem State.Canonical.setReg {a v} (h : s.Canonical) : (s.setReg a v).Canonical := h.record

theorem State.Canonical.setBits {a msb lsb v} (h : s.Canonical) : (s.setBits a msb lsb v).Canonical := h.setReg

theorem State.Canonical.setBit {a i b} (h : s.Canonical) : (s.setBit a i b).Canonical := h.setBits

theorem State.Canonical.addSat {a msb lsb k} (h : s.Canonical) : (s.addSat a msb lsb k).Canonical := h.setBits

theorem State.Canonical.addWrap {a msb lsb k} (h : s.Canonical) : (s.addWrap a msb lsb k).Canonical := h.setBits

theorem State.Canonical.setReg64 {lo hi v} (h : s.Canonical) : (s.setReg64 lo hi v).Canonical := h.setReg.setReg

theorem State.Canonical.setFurrow {n f} (h : s.Canonical) : (s.setFurrow n f).Canonical := h.record

theorem State.Canonical.setHopper {k x} (h : s.Canonical) : (s.setHopper k x).Canonical := h.record

theorem State.Canonical.setField {f x} (h : s.Canonical) : (s.setField f x).Canonical := h.record

theorem State.Canonical.mapToken {g : WarmToken → WarmToken} (h : s.Canonical) : (s.mapToken g).Canonical := h.record

theorem State.Canonical.retrained {k margin temp} (h : s.Canonical) : (s.retrained k margin temp).Canonical :=
  h.mapToken

theorem State.Canonical.poke {a bs} (h : s.Canonical) : (s.poke a bs).Canonical := wf_memWrite _ _ _ h

theorem State.Canonical.setMark {g m} (h : s.Canonical) : (s.setMark g m).Canonical := h.record

theorem State.Canonical.raise {e} (h : s.Canonical) : (s.raise e).Canonical := h.record

theorem State.Canonical.raiseOpen {block cls inst} (h : s.Canonical) : (s.raiseOpen block cls inst).Canonical :=
  h.raise

theorem State.Canonical.raiseIf {c e} (h : s.Canonical) : (s.raiseIf c e).Canonical := ite h.raise h

theorem State.Canonical.emit {o} (h : s.Canonical) : (s.emit o).Canonical := h.record

theorem State.Canonical.setWord {b i k m} (h : s.Canonical) : (s.setWord b i k m).Canonical := h.record

theorem State.Canonical.rewriteWords {b i} (h : s.Canonical) : (s.rewriteWords b i).Canonical := h.record

theorem State.Canonical.setFunction {n x} (h : s.Canonical) : (s.setFunction n x).Canonical := h.record

theorem State.Canonical.notify {n v} (h : s.Canonical) : (s.notify n v).Canonical := ite h (ite h.setFunction h.emit)

theorem State.Canonical.takeFree (h : s.Canonical) : (s.takeFree).2.Canonical := h.record

theorem State.Canonical.withUnit {n i} {f : State → Nat → State} (h : s.Canonical)
    (hf : ∀ t k, t.Canonical → (f t k).Canonical) : (withUnit s n i f).Canonical :=
  ite (hf _ _ h) (hf _ _ h.takeFree)

/-! Machine/Memory.lean. -/

theorem State.Canonical.seedError {n granule uncorr scrub} (h : s.Canonical) :
    (seedError s n granule uncorr scrub).Canonical :=
  ite (ite h.setBits.setBit h).setBit.addSat (ite h.setBits.setBit h).setBit.addSat

theorem State.Canonical.readSeedRow {n row upsets} (h : s.Canonical) : (readSeedRow s n row upsets).Canonical := by
  unfold Machine.readSeedRow
  refine h.forUpTo fun _ _ h => ?_
  dsimp only
  split
  · exact h.setMark
  · exact h.setMark.seedError.raise
  · exact h.setMark.seedError.raise

theorem State.Canonical.cancelWriteBacks {a n} (h : s.Canonical) : (cancelWriteBacks s a n).Canonical := by
  unfold Machine.cancelWriteBacks
  split
  · exact ite h h.setFurrow
  · exact h

theorem State.Canonical.setBlockMark {b m} (h : s.Canonical) : (setBlockMark s b m).Canonical := h.setMark.setMark

theorem State.Canonical.dramError {b uncorr scrub} (h : s.Canonical) : (dramError s b uncorr scrub).Canonical :=
  ite (ite h.setReg64.setBit.setBits h).setBit.addSat (ite h.setReg64.setBit.setBits h).setBit.addSat

theorem State.Canonical.checkBlock {b u scrub} (h : s.Canonical) : (checkBlock s b u scrub).Canonical := by
  unfold Machine.checkBlock
  dsimp only
  split
  · exact h.setBlockMark
  · exact h.setBlockMark.dramError.raise
  · exact h.setBlockMark.dramError.raise
  · exact h.setBlockMark.dramError.raise

theorem State.Canonical.writeDram {a bs poison u fuel} (h : s.Canonical) :
    (writeDram s a bs poison u fuel).Canonical := wf_writeDram _ _ _ _ _ _ h

theorem State.Canonical.store {a bs poison} (h : s.Canonical) : (s.store a bs poison).Canonical := wf_store _ _ _ _ h

theorem State.Canonical.noteRead {a n} (h : s.Canonical) : (noteRead s a n).Canonical := by
  unfold Machine.noteRead
  split
  · exact h
  · split
    · exact h.forUpTo fun _ _ h => h.checkBlock
    · split
      · exact h.forUpTo fun _ _ h => h.readSeedRow
      · exact h

theorem State.Canonical.noteReads {xs} (h : s.Canonical) : (noteReads s xs).Canonical :=
  h.foldl fun _ _ h => h.noteRead

theorem State.Canonical.reeveBusError {a} (h : s.Canonical) : (reeveBusError s a).Canonical := h.setBit.setReg64.raise

theorem State.Canonical.reeveRead {a n} (h : s.Canonical) : (reeveRead s a n).Canonical :=
  ite h.noteRead.reeveBusError h.noteRead

/-! Machine/Operands.lean. -/

theorem State.Canonical.setEntry {sect tab idx e} (h : s.Canonical) : (s.setEntry sect tab idx e).Canonical :=
  h.record

theorem State.Canonical.denied {r a} (h : s.Canonical) : (denied s r a).Canonical := h.raise

/-! Machine/Fields.lean. -/

theorem State.Canonical.mapMessages {on : Machine.Message → Machine.Message} (h : s.Canonical) :
    (mapMessages s on).Canonical :=
  h.record

theorem State.Canonical.mapMessage {uid} {g : Machine.Message → Machine.Message} (h : s.Canonical) :
    (mapMessage s uid g).Canonical :=
  h.mapMessages

theorem State.Canonical.undeliver {m} (h : s.Canonical) : (undeliver s m).Canonical := ite h h.record.mapMessages

theorem State.Canonical.setYoke {f r y} (h : s.Canonical) : (s.setYoke f r y).Canonical := h.record

theorem State.Canonical.storeGranule {a bs} (h : s.Canonical) : (storeGranule s a bs).Canonical := ite h.raise h.store

theorem State.Canonical.landPosted {n uid} (h : s.Canonical) : (landPosted s n uid).Canonical := by
  unfold Machine.landPosted
  split
  · exact h
  · dsimp only
    split
    · exact h.setFurrow.storeGranule
    · exact h

theorem State.Canonical.admitFrame {u} (h : s.Canonical) : (admitFrame s u).Canonical := by
  unfold Machine.admitFrame
  split
  · exact h.mapMessage
  · exact h.landPosted
  · exact h

theorem State.Canonical.setYokeLevel {f r v} (h : s.Canonical) : (s.setYokeLevel f r v).Canonical := h.setReg

theorem State.Canonical.admitAtOnce {u} (h : s.Canonical) : (admitAtOnce s u).Canonical := by
  unfold Machine.admitAtOnce
  split
  · exact h
  · exact h.admitFrame

theorem State.Canonical.yokeRequest {f r q} (h : s.Canonical) : (yokeRequest s f r q).Canonical :=
  ite h.admitAtOnce (ite h.setYokeLevel.admitAtOnce h.setYoke)

theorem State.Canonical.yokeAdmit {f r} (h : s.Canonical) : (yokeAdmit s f r).Canonical := by
  unfold Machine.yokeAdmit
  dsimp only
  split
  · exact ite (ite h.setYokeLevel h).setYoke.admitFrame h
  · exact h

theorem State.Canonical.yokeRefillOne {f r} (h : s.Canonical) : (yokeRefillOne s f r).Canonical :=
  (ite (ite h.setYokeLevel h).addSat (ite h.setYokeLevel h)).setYoke

theorem State.Canonical.chargeAccess {u m system a n} (h : s.Canonical) :
    (chargeAccess s u m system a n).Canonical := by
  unfold Machine.chargeAccess
  split
  · exact h
  · exact ite h (ite (ite h.yokeRequest h) (ite h.yokeRequest h).yokeRequest)

theorem State.Canonical.chargeAll {m system xs} (h : s.Canonical) : (chargeAll s m system xs).Canonical :=
  h.foldl fun _ _ h => h.chargeAccess

theorem State.Canonical.releaseYoke {n} (h : s.Canonical) : (releaseYoke s n).Canonical := ite h.record h

theorem State.Canonical.postWrite {n a bs} (h : s.Canonical) : (postWrite s n a bs).Canonical :=
  h.setFurrow.chargeAccess.landPosted

theorem State.Canonical.writeStubble {d committed cause state events} (h : s.Canonical) :
    (writeStubble s d committed cause state events).Canonical :=
  h.storeGranule

theorem State.Canonical.issueFinal {n t cause state u} (h : s.Canonical) :
    (issueFinal s n t cause state u).Canonical :=
  ite h.setFurrow.storeGranule h.setFurrow.chargeAccess

theorem State.Canonical.showEvents {n events} (h : s.Canonical) : (showEvents s n events).Canonical :=
  h.forUpTo fun _ _ h => h.setReg

theorem State.Canonical.endFaulted {n t cause field} (h : s.Canonical) : (endFaulted s n t cause field).Canonical :=
  (ite h.setBits.setBit.setHopper.showEvents.issueFinal h.setBits.setBit.setHopper.showEvents).raise

theorem State.Canonical.showFence {n} (h : s.Canonical) : (showFence s n).Canonical := h.setBits.setBit

theorem State.Canonical.stopTask {n} (h : s.Canonical) : (stopTask s n).Canonical := by
  unfold Machine.stopTask
  dsimp only
  split
  · split
    · exact h
    · exact ite h h.setFurrow.releaseYoke
  · exact h

theorem State.Canonical.stopParked {n fld} (h : s.Canonical) : (stopParked s n fld).Canonical :=
  h.setFurrow.foldl fun _ _ h => h.endFaulted.setHopper

theorem State.Canonical.recordStop {f code} (h : s.Canonical) : (recordStop s f code).Canonical :=
  h.addSat.setBits.setReg64

theorem State.Canonical.dropWaiting {qs} (h : s.Canonical) : (dropWaiting s qs).Canonical :=
  (h.foldl fun _ _ h => h.undeliver).record

theorem State.Canonical.dropPosted {qs n} (h : s.Canonical) : (dropPosted s qs n).Canonical := h.setFurrow

theorem State.Canonical.clearYokes {f} (h : s.Canonical) : (clearYokes s f).Canonical :=
  (h.dropWaiting.forUpTo fun _ _ h => h.setYoke).forUpTo fun _ _ h => ite h h.dropPosted

theorem State.Canonical.emptyBuffers {f} (h : s.Canonical) : (emptyBuffers s f).Canonical :=
  h.foldl fun _ _ h => h.setFurrow

theorem State.Canonical.freezeHoppers {f} (h : s.Canonical) : (freezeHoppers s f).Canonical :=
  h.foldl fun _ _ h => ite h.setHopper h

theorem State.Canonical.setFieldState {f st} (h : s.Canonical) : (setFieldState s f st).Canonical :=
  h.setBits.notify.notify

theorem State.Canonical.oweWrites {f n} (h : s.Canonical) : (oweWrites s f n).Canonical := ite h h.setFurrow

theorem State.Canonical.stopField {f code} (h : s.Canonical) : (stopField s f code).Canonical :=
  ite (((h.recordStop.setFieldState.foldl fun _ _ h => h.setHopper).emptyBuffers.clearYokes.foldl fun _ _ h =>
    h.stopTask).foldl fun _ _ h => h.stopParked).freezeHoppers.setField (ite
    (h.recordStop.setFieldState.freezeHoppers.clearYokes.forUpTo fun _ _ h => h.oweWrites).setBits.setBit h)

theorem State.Canonical.dropCheck {n} (h : s.Canonical) : (dropCheck s n).Canonical := by
  unfold Machine.dropCheck
  split
  · exact ite h.setFurrow.setBit.showFence h
  · exact h

theorem State.Canonical.fenceFurrow {n} (h : s.Canonical) : (fenceFurrow s n).Canonical := by
  unfold Machine.fenceFurrow
  refine Canonical.mapToken ?_
  refine Canonical.setFurrow ?_
  refine Canonical.setBits ?_
  refine Canonical.setBits ?_
  refine Canonical.setBit ?_
  split
  · exact ite h.dropCheck.setBit h.dropCheck.setBit
  · exact h.dropCheck

theorem State.Canonical.fenceFault {n info} (h : s.Canonical) : (fenceFault s n info).Canonical := by
  unfold Machine.fenceFault
  refine Canonical.fenceFurrow ?_
  split
  · exact h.raise.stopField
  · exact h.raise

theorem State.Canonical.refuseField {f} (h : s.Canonical) : (refuseField s f).Canonical := h.raise

theorem State.Canonical.runField {f} (h : s.Canonical) : (runField s f).Canonical :=
  (h.setFieldState.setBit.foldl fun _ _ h => h.setHopper).forUpTo fun _ _ h => h.setReg

theorem State.Canonical.quiesceField {f} (h : s.Canonical) : (quiesceField s f).Canonical :=
  ite h.setFieldState.setField.emptyBuffers h.refuseField

theorem State.Canonical.requestStop {f} (h : s.Canonical) : (requestStop s f).Canonical :=
  ite h.raise.stopField h.refuseField

theorem State.Canonical.completeQuiesce {f} (h : s.Canonical) : (completeQuiesce s f).Canonical :=
  ite h.setFieldState h

theorem State.Canonical.expireQuiesce {f} (h : s.Canonical) : (expireQuiesce s f).Canonical := ite h.raise.stopField h

theorem State.Canonical.completeStop {f} (h : s.Canonical) : (completeStop s f).Canonical := ite h.setFieldState h

theorem State.Canonical.dropUnacked {f n} (h : s.Canonical) : (dropUnacked s f n).Canonical := by
  unfold Machine.dropUnacked
  refine Canonical.showFence ?_
  refine Canonical.setFurrow ?_
  split
  · exact ite h.setBits h
  · exact h

theorem State.Canonical.noteNoAck {k} (h : s.Canonical) : (noteNoAck s k).Canonical := h.setHopper.raise

theorem State.Canonical.expireStop {f} (h : s.Canonical) : (expireStop s f).Canonical :=
  ((h.foldl fun _ _ h => h.noteNoAck).forUpTo fun _ _ h => h.dropUnacked).setFieldState

theorem State.Canonical.expireOwed {f} (h : s.Canonical) : (expireOwed s f).Canonical :=
  (h.foldl fun _ _ h => h.noteNoAck).forUpTo fun _ _ h => h.setFurrow

theorem State.Canonical.doorbell {r k tail} (h : s.Canonical) : (doorbell s r k tail).Canonical := by
  unfold Machine.doorbell
  split
  · exact h.setHopper
  · refine Canonical.raise ?_
    split
    · exact h.setReg.notify
    · exact h.setReg.notify
    · exact h.setReg

theorem State.Canonical.hopSkip {k} (h : s.Canonical) : (hopSkip s k).Canonical := ite h.setHopper h.raise

theorem State.Canonical.hopCntReset {k} (h : s.Canonical) : (hopCntReset s k).Canonical := h.setHopper

/-! Machine/Time.lean. -/

theorem State.Canonical.reachTime {t} (h : s.Canonical) : (reachTime s t).Canonical := h.record

theorem State.Canonical.correctTime {t} (h : s.Canonical) : (correctTime s t).Canonical := h.record

theorem State.Canonical.runCycles {n} (h : s.Canonical) : (runCycles s n).Canonical := ite h h.reachTime.record

theorem State.Canonical.runUntil {t} (h : s.Canonical) : (runUntil s t).Canonical := ite h.runCycles h

theorem State.Canonical.runToCycle {c} (h : s.Canonical) : (runToCycle s c).Canonical := h.runCycles

theorem State.Canonical.setFsync {n f} (h : s.Canonical) : (s.setFsync n f).Canonical := h.record

theorem State.Canonical.pulseEdge {n} (h : s.Canonical) : (pulseEdge s n).Canonical := h.setFsync.emit

theorem State.Canonical.fireEdge {n} (h : s.Canonical) : (fireEdge s n).Canonical := ite h.runUntil.pulseEdge h

theorem State.Canonical.fireReached {n} (h : s.Canonical) : (fireReached s n).Canonical :=
  ite (h.forUpTo fun _ _ h => h.pulseEdge) h

theorem State.Canonical.skipEdges {t n} (h : s.Canonical) : (skipEdges s t n).Canonical :=
  ite h.fireReached.setFsync.setBit.addSat.raiseOpen h.fireReached

theorem State.Canonical.endPulse {n} (h : s.Canonical) : (endPulse s n).Canonical := ite h.runUntil.setFsync h

theorem State.Canonical.setMartingale {m x} (h : s.Canonical) : (s.setMartingale m x).Canonical := h.record

theorem State.Canonical.holdMartingale {t m} (h : s.Canonical) : (holdMartingale s t m).Canonical :=
  ite h.setMartingale h

theorem State.Canonical.stepTime {d} (h : s.Canonical) : (stepTime s d).Canonical :=
  ite h (ite (h.forUpTo fun _ _ h => h.skipEdges).correctTime (ite h.setBit.raise (h.record.forUpTo fun _ _ h =>
    h.holdMartingale)))

theorem State.Canonical.setTime {t256} (h : s.Canonical) : (setTime s t256).Canonical :=
  (ite (h.forUpTo fun _ _ h => h.skipEdges).correctTime (ite h (h.record.forUpTo fun _ _ h =>
    h.holdMartingale))).record

theorem State.Canonical.writeRate {v} (h : s.Canonical) : (writeRate s v).Canonical := h.setReg

/-! Machine/Martingale.lean. -/

theorem State.Canonical.mgRaise {m code flag info} (h : s.Canonical) : (mgRaise s m code flag info).Canonical :=
  h.setBit.raise

theorem State.Canonical.closeWindow {m} (h : s.Canonical) : (closeWindow s m).Canonical :=
  (ite h.mgRaise h).setBits.setMartingale

theorem State.Canonical.closeUpTo {m k} (h : s.Canonical) : (closeUpTo s m k).Canonical :=
  h.forUpTo fun _ _ h => h.closeWindow

theorem State.Canonical.checkAge {m t c} (h : s.Canonical) : (checkAge s m t c).Canonical := by
  unfold Machine.checkAge
  split
  · exact h
  · exact ite h.setReg.mgRaise h.setReg

theorem State.Canonical.countIn {m k} (h : s.Canonical) : (countIn s m k).Canonical :=
  (ite h.closeUpTo.mgRaise h.closeUpTo).setBits

theorem State.Canonical.checkIn {m t c} (h : s.Canonical) : (checkIn s m t c).Canonical :=
  ite h (ite h.checkAge (ite h.checkAge.countIn h.checkAge.mgRaise))

theorem State.Canonical.checkInAll {kind index t c} (h : s.Canonical) : (checkInAll s kind index t c).Canonical :=
  h.foldl fun _ _ h => h.checkIn

theorem State.Canonical.checkInTask {m t c} (h : s.Canonical) : (checkInTask s m t c).Canonical := ite h.checkIn h

theorem State.Canonical.restartMartingale {m} (h : s.Canonical) : (restartMartingale s m).Canonical :=
  h.setBits.setMartingale

theorem State.Canonical.endWindow {m} (h : s.Canonical) : (endWindow s m).Canonical := ite h.runUntil.closeWindow h

/-! Machine/Rein.lean. -/

theorem State.Canonical.setRein {n r} (h : s.Canonical) : (s.setRein n r).Canonical := h.record

theorem State.Canonical.setBank {p b} (h : s.Canonical) : (s.setBank p b).Canonical := h.record

theorem State.Canonical.setObject {o x} (h : s.Canonical) : (s.setObject o x).Canonical := h.record

theorem State.Canonical.setReinState {n st} (h : s.Canonical) : (setReinState s n st).Canonical :=
  ite h.setBits.setBits (ite h.setBits.setBits h.setBits)

theorem State.Canonical.becomePending {n tick} (h : s.Canonical) : (becomePending s n tick).Canonical :=
  ite h.setRein.setBit.addSat.raise h.setRein

theorem State.Canonical.noteUpdate (h : s.Canonical) : (noteUpdate s).Canonical := h.record

theorem State.Canonical.arrive {kind index tick} (h : s.Canonical) : (arrive s kind index tick).Canonical :=
  h.noteUpdate.foldl fun _ _ h => h.becomePending

theorem State.Canonical.periodicDue {n} (h : s.Canonical) : (periodicDue s n).Canonical := by
  unfold Machine.periodicDue
  split
  · dsimp only
    split
    · exact ite h.runUntil.setRein.becomePending h.runUntil
    · exact h.runUntil
  · exact h

theorem State.Canonical.clearTriggerObject {n} (h : s.Canonical) : (clearTriggerObject s n).Canonical :=
  ite h.setObject h

theorem State.Canonical.noteWordError {n m} (h : s.Canonical) : (noteWordError s n m).Canonical := by
  unfold Machine.noteWordError
  split
  · exact h
  · exact h.setBit.setBits
  · exact h.setBit.setBits

theorem State.Canonical.evaluate {n t trig} (h : s.Canonical) : (evaluate s n t trig).Canonical :=
  ite ((ite h h.noteWordError).setRein.setReinState.setBits.foldl fun _ _ h => h.raise) (ite h
    h.noteWordError).setRein.clearTriggerObject.setRein

theorem State.Canonical.issueRein {n} (h : s.Canonical) : (issueRein s n).Canonical := h.record.evaluate

theorem State.Canonical.scheduleRelease {n trig offset u} (h : s.Canonical) :
    (scheduleRelease s n trig offset u).Canonical :=
  ite h (ite (ite h.setBit.addSat.raise h).setBit.addSat.raise (ite h.setBit.addSat.raise h)).setRein

theorem State.Canonical.writeCommand {n} (h : s.Canonical) : (writeCommand s n).Canonical := by
  unfold Machine.writeCommand
  split
  · exact h
  · exact ((ite (ite h.runToCycle.setRein.setReinState.setBits.setBits.setBits.setBits.setBit
    h.runToCycle.setRein.setReinState.setBits.setBits.setBits.setBits).setBit.addSat (ite
    h.runToCycle.setRein.setReinState.setBits.setBits.setBits.setBits.setBit
    h.runToCycle.setRein.setReinState.setBits.setBits.setBits.setBits)).foldl fun _ _ h =>
    h.raise).setReg.setReg64.scheduleRelease.arrive.checkInAll

theorem State.Canonical.mailStore {m data} (h : s.Canonical) : (mailStore s m data).Canonical := h.store.record.arrive

theorem State.Canonical.mailboxWrite {r m off data} (h : s.Canonical) : (mailboxWrite s r m off data).Canonical :=
  ite h.mailStore h.raise

/-! Machine/Tack.lean. -/

theorem State.Canonical.setChute {c x} (h : s.Canonical) : (s.setChute c x).Canonical :=
  ite h.record.setBit.setBit h.record.setBit

theorem State.Canonical.setTack {n x} (h : s.Canonical) : (s.setTack n x).Canonical := h.record

theorem State.Canonical.checkWord {c m} (h : s.Canonical) : (checkWord s c m).1.Canonical := by
  unfold Machine.checkWord
  split
  · exact h
  · exact h.setBit.addSat.raise
  · exact h.setBit.addSat.raise

theorem State.Canonical.loseBank {n} (h : s.Canonical) : (loseBank s n).Canonical := h.setBank.noteUpdate

theorem State.Canonical.checkWords {c ws} (h : s.Canonical) : (checkWords s c ws).1.Canonical :=
  foldl_induct (P := fun x : State × Bool => x.1.Canonical) ws h fun _ _ _ h => h.checkWord

theorem State.Canonical.drainPacket {n tick} (h : s.Canonical) : (drainPacket s n tick).Canonical :=
  ite h.setChute.checkWords.loseBank.setBit.raise (ite h.setChute.checkWords.loseBank
    h.setChute.checkWords.setBank.arrive)

theorem State.Canonical.acceptPacket {n ws} (h : s.Canonical) : (acceptPacket s n ws).Canonical :=
  ite h.setReg64.setBit.addSat.raise (ite h.setReg64.setChute.drainPacket h.setReg64.setChute)

theorem State.Canonical.framingError {n} (h : s.Canonical) : (framingError s n).Canonical :=
  h.setBit.addSat.setTack.raise

theorem State.Canonical.crcError {n} (h : s.Canonical) : (crcError s n).Canonical :=
  (ite h.setBit.addSat.setTack.loseBank h.setBit.addSat.setTack).raise

theorem State.Canonical.receiveWord {n w} (h : s.Canonical) : (receiveWord s n w).Canonical :=
  ite h (ite h.crcError (ite (ite h.framingError h).framingError (ite (ite h.framingError h).setTack.acceptPacket (ite
    h.framingError h).setTack)))

theorem State.Canonical.receivePacket {n ws} (h : s.Canonical) : (receivePacket s n ws).Canonical :=
  ite (h.foldl fun _ _ h => h.receiveWord) h

theorem State.Canonical.sendWords {c ws i n out} (h : s.Canonical) : (sendWords s c ws i n out).1.Canonical := by
  induction ws generalizing s i out with
  | nil => exact h
  | cons w ws ih => exact ih h.checkWord

theorem State.Canonical.sendPacket {n readbackOk} (h : s.Canonical) : (sendPacket s n readbackOk).Canonical :=
  ite h.sendWords.setChute.emit.raiseIf h

theorem State.Canonical.tackDown {n} (h : s.Canonical) : (tackDown s n).Canonical :=
  ite h.setBit.setBit.setTack.raise h

theorem State.Canonical.underrun {c} (h : s.Canonical) : (underrun s c).Canonical := h.setBit.raise

theorem State.Canonical.popChute {c} (h : s.Canonical) : (popChute s c).2.2.Canonical := by
  unfold Machine.popChute
  dsimp only
  split
  · exact h.raise
  · split
    · exact h.record.underrun
    · exact h.setChute.checkWord.record

theorem State.Canonical.discardWords {c n} (h : s.Canonical) : (discardWords s c n).Canonical :=
  ite h.setChute.checkWords.underrun h.setChute.checkWords

theorem State.Canonical.pushChute {c lo} (h : s.Canonical) : (pushChute s c lo).Canonical :=
  ite h.setBit.raise h.setChute

theorem State.Canonical.holdChute {c v} (h : s.Canonical) : (holdChute s c v).Canonical := h.setChute

theorem State.Canonical.onReceiveChute {c} {f : State → Nat → State} (h : s.Canonical)
    (hf : ∀ t k, t.Canonical → (f t k).Canonical) : (onReceiveChute s c f).Canonical :=
  h.withUnit fun _ _ h => hf _ _ h

theorem State.Canonical.onTransmitChute {c} {f : State → Nat → State} (h : s.Canonical)
    (hf : ∀ t k, t.Canonical → (f t k).Canonical) : (onTransmitChute s c f).Canonical :=
  h.withUnit fun _ _ h => hf _ _ h

/-! Machine/Bridle.lean. -/

theorem State.Canonical.setFifo {c l} (h : s.Canonical) : (s.setFifo c l).Canonical := h.record

theorem State.Canonical.brdlFlag {c i} (h : s.Canonical) : (brdlFlag s c i).Canonical := h.setBit

theorem State.Canonical.setCounters {c tec rcv} (h : s.Canonical) : (setCounters s c tec rcv).Canonical :=
  ite h.setBits.setBits (ite h.setBits.setBits.setBits.brdlFlag.raise (ite (ite h.setBits.setBits
    h.setBits.setBits.setBits.brdlFlag.raise) h.setBits.setBits.setBits))

theorem State.Canonical.goodReception {c} (h : s.Canonical) : (goodReception s c).Canonical :=
  ite h (ite h.takeFree.setCounters h.setCounters)

theorem State.Canonical.storeObject {c o f} (h : s.Canonical) : (storeObject s c o f).Canonical := h.setObject.arrive

theorem State.Canonical.receiveFrame {c f} (h : s.Canonical) : (receiveFrame s c f).Canonical := by
  unfold Machine.receiveFrame
  split
  · exact h
  · dsimp only
    split
    · exact h.goodReception.addSat
    · exact ite h.goodReception.brdlFlag.raise h.goodReception.storeObject

theorem State.Canonical.countAborted {c} (h : s.Canonical) : (countAborted s c).Canonical := h.brdlFlag.addSat.raise

theorem State.Canonical.checkEntry {c e} (h : s.Canonical) : (checkEntry s c e).1.Canonical := by
  unfold Machine.checkEntry
  split
  · exact h
  · exact h.brdlFlag.raise
  · exact h.brdlFlag.raise

theorem State.Canonical.removeHead {c e rest counted} (h : s.Canonical) : (removeHead s c e rest counted).Canonical :=
  ite h.setFifo.checkEntry.countAborted h.setFifo.checkEntry

theorem State.Canonical.endAttempt {c} (h : s.Canonical) : (endAttempt s c).Canonical := by
  unfold Machine.endAttempt
  split
  · exact ite h.removeHead h
  · exact h

theorem State.Canonical.frameSent {c readbackOk} (h : s.Canonical) : (frameSent s c readbackOk).Canonical := by
  unfold Machine.frameSent
  split
  · exact h
  · split
    · exact h
    · split
      · next e =>
        have h := h.setFifo.checkEntry.ofFst e
        exact h
      · next e =>
        have h := h.setFifo.checkEntry.ofFst e
        exact h.emit.setBits.addWrap.setCounters.raiseIf

theorem State.Canonical.busError {c transmitting tecUp recUp} (h : s.Canonical) :
    (busError s c transmitting tecUp recUp).Canonical :=
  ite h (ite h.brdlFlag.raise.setCounters.endAttempt h.brdlFlag.raise.setCounters)

theorem State.Canonical.post {c} (h : s.Canonical) : (post s c).Canonical := ite h.brdlFlag.raise h.setFifo

theorem State.Canonical.abortHead {c} (h : s.Canonical) : (abortHead s c).Canonical := by
  unfold Machine.abortHead
  split
  · exact h
  · exact ite h.setFifo h.removeHead

theorem State.Canonical.abortAll {c} (h : s.Canonical) : (abortAll s c).Canonical := by
  unfold Machine.abortAll
  split
  · exact h
  · exact (h.foldl fun _ _ h => h.checkEntry.countAborted).setFifo.abortHead

theorem State.Canonical.bridleSafe {c} (h : s.Canonical) : (bridleSafe s c).Canonical :=
  (h.foldl fun _ _ h => h.checkEntry).setFifo

theorem State.Canonical.placeCommand {n dest data} (h : s.Canonical) : (placeCommand s n dest data).2.Canonical := by
  unfold Machine.placeCommand
  dsimp only
  split
  · split
    · exact h
    · exact h.setChute
  · split
    · exact h
    · exact h.setFifo

theorem State.Canonical.releaseOne {n r} (h : s.Canonical) : (releaseOne s n r).Canonical := by
  unfold Machine.releaseOne
  dsimp only
  split
  · exact h.setRein
  · split
    · next e => exact (h.setRein.placeCommand.ofSnd e).setReg64
    · next e => exact ite h (h.setRein.placeCommand.ofSnd e).raise

theorem State.Canonical.releaseCommand {n} (h : s.Canonical) : (releaseCommand s n).Canonical := by
  unfold Machine.releaseCommand
  split
  · exact h
  · exact (h.runUntil.foldl fun _ _ h => h.releaseOne).releaseOne

theorem State.Canonical.releaseSafe {n} (h : s.Canonical) : (releaseSafe s n).Canonical :=
  ite h.setRein (ite h.setRein.setReinState.setRein h.setRein.setReinState.setRein.setReg.setRein.releaseOne)

theorem State.Canonical.reinMismatch (h : s.Canonical) : (reinMismatch s).Canonical :=
  ite h (h.setBit.forUpTo fun _ _ h => h.releaseSafe).record.raise

theorem State.Canonical.recoverChannel {c} (h : s.Canonical) : (recoverChannel s c).Canonical := ite h.setBits h

theorem State.Canonical.finishRecovery {c} (h : s.Canonical) : (finishRecovery s c).Canonical :=
  ite h.setBits.setBits.setBits h

theorem State.Canonical.ackObject {o} (h : s.Canonical) : (ackObject s o).Canonical := h.setObject

/-! Machine/ChainLink.lean. -/

theorem State.Canonical.chainOn {up bytes} (h : s.Canonical) : (chainOn s up bytes).Canonical := ite h.emit h

theorem State.Canonical.chainBroadcast {kind payload} (h : s.Canonical) : (chainBroadcast s kind payload).Canonical :=
  h.chainOn.chainOn

theorem State.Canonical.chainUnicast {kind dst payload} (h : s.Canonical) :
    (chainUnicast s kind dst payload).Canonical :=
  ite h.chainOn.chainOn (ite h h.chainOn)

theorem State.Canonical.chainLocal {up kind payload} (h : s.Canonical) : (chainLocal s up kind payload).Canonical :=
  h.chainOn

theorem State.Canonical.fenceDue {p} (h : s.Canonical) : (fenceDue s p).Canonical := h.record

theorem State.Canonical.headReport {p} (h : s.Canonical) : (headReport s p).Canonical := ite h h.record

theorem State.Canonical.reportFence {p} (h : s.Canonical) : (reportFence s p).Canonical :=
  ite h (ite h.headReport (ite h.chainUnicast h.fenceDue))

theorem State.Canonical.fencedSelf (h : s.Canonical) : (fencedSelf s).Canonical :=
  h.takeFree.raise.foldl fun _ _ h => h.stopField

theorem State.Canonical.takeNotice {p} (h : s.Canonical) : (takeNotice s p).Canonical := ite h.fencedSelf h.fenceDue

theorem State.Canonical.sendNotices (h : s.Canonical) : (sendNotices s).Canonical :=
  h.record.foldl fun _ _ h => h.chainBroadcast.takeNotice

/-! Machine/Droveway.lean. -/

theorem State.Canonical.setStream {q p t} (h : s.Canonical) : (s.setStream q p t).Canonical := h.record

theorem State.Canonical.setPort {q x} (h : s.Canonical) : (s.setPort q x).Canonical := h.record

theorem State.Canonical.setPeer {p x} (h : s.Canonical) : (s.setPeer p x).Canonical := h.record

theorem State.Canonical.setRxBuffer {x b} (h : s.Canonical) : (s.setRxBuffer x b).Canonical := h.record

theorem State.Canonical.setGroup {g x} (h : s.Canonical) : (s.setGroup g x).Canonical := h.record

theorem State.Canonical.newGroup (h : s.Canonical) : (newGroup s).2.Canonical := h.record

theorem State.Canonical.setStreamUp {q p b} (h : s.Canonical) : (setStreamUp s q p b).Canonical := h.setBit.setBit

theorem State.Canonical.sendControl {q c} (h : s.Canonical) : (sendControl s q c).Canonical := h.setPort

theorem State.Canonical.groupOver {m lost rejected} (h : s.Canonical) : (groupOver s m lost rejected).Canonical := by
  unfold Machine.groupOver
  split
  · exact h
  · exact h.setGroup

theorem State.Canonical.groupFenced {m} (h : s.Canonical) : (groupFenced s m).Canonical :=
  ite h.undeliver.groupOver h.undeliver.groupOver

theorem State.Canonical.startRound {x c} (h : s.Canonical) : (startRound s x c).Canonical :=
  h.setReg.setReg.setRxBuffer

theorem State.Canonical.releaseRound {x} (h : s.Canonical) : (releaseRound s x).Canonical :=
  h.setReg.setReg.setRxBuffer

theorem State.Canonical.releaseRounds {x fuel} (h : s.Canonical) : (releaseRounds s x fuel).Canonical := by
  induction fuel generalizing s with
  | zero => exact h
  | succ n ih => exact ite (ih h.releaseRound) h

theorem State.Canonical.consumeRound {x r} (h : s.Canonical) : (consumeRound s x r).Canonical :=
  ite h.setRxBuffer.releaseRounds h

theorem State.Canonical.acceptMessage {src m} (h : s.Canonical) : (acceptMessage s src m).Canonical :=
  ite h.store.setBit.setRxBuffer h.store.setRxBuffer

theorem State.Canonical.rejectEntry {port} (h : s.Canonical) : (rejectEntry s port).Canonical := by
  unfold Machine.rejectEntry
  split
  · exact h.raise
  · exact h.takeFree.raise

theorem State.Canonical.countForAck {q p} (h : s.Canonical) : (countForAck s q p).Canonical :=
  ite h.setStream h.setStream.sendControl

theorem State.Canonical.refuseMessage {port src m why} (h : s.Canonical) :
    (refuseMessage s port src m why).Canonical := by
  unfold Machine.refuseMessage
  dsimp only
  split
  · exact h.rejectEntry.sendControl
  · exact h.rejectEntry.undeliver.groupOver

theorem State.Canonical.takeMessage {port src m} (h : s.Canonical) : (takeMessage s port src m).Canonical := by
  unfold Machine.takeMessage
  dsimp only
  split
  · exact (ite h h.startRound).acceptMessage.setPeer.countForAck
  · exact (ite h h.startRound).acceptMessage.groupOver

theorem State.Canonical.settleLate (h : s.Canonical) : (settleLate s).Canonical := by
  unfold Machine.settleLate
  split
  · exact h
  · exact ite h.record.takeMessage h.record.refuseMessage

theorem State.Canonical.arriveMessage {port src m} (h : s.Canonical) : (arriveMessage s port src m).Canonical := by
  unfold Machine.arriveMessage
  split
  · exact h.takeMessage
  · exact ite h.record h.refuseMessage

theorem State.Canonical.endConsumer {x r} (h : s.Canonical) : (endConsumer s x r).Canonical := by
  unfold Machine.endConsumer
  split
  · exact h.consumeRound
  · exact ite (ite h.consumeRound.settleLate h.consumeRound) h.settleLate.consumeRound

theorem State.Canonical.freeTag (h : s.Canonical) : (freeTag s).2.Canonical := h.takeFree.takeFree.takeFree.takeFree

theorem State.Canonical.responses {src m} (h : s.Canonical) : (responses s src m).2.Canonical := h.freeTag

theorem State.Canonical.askFrame {m} (h : s.Canonical) : (askFrame s m).Canonical := h.yokeRequest

theorem State.Canonical.assignHeld {p fuel} (h : s.Canonical) : (assignHeld s p fuel).Canonical := by
  induction fuel generalizing s with
  | zero => exact h
  | succ n ih =>
    rw [Machine.assignHeld]
    dsimp only
    split
    · exact ih (ite h.setPeer.setPort.rewriteWords h.setPeer.setPort.rewriteWords.askFrame)
    · exact h

theorem State.Canonical.assignAll {p} (h : s.Canonical) : (assignAll s p).Canonical := h.assignHeld

theorem State.Canonical.numberMessage {m} (h : s.Canonical) : (numberMessage s m).2.Canonical := by
  unfold Machine.numberMessage
  dsimp only
  split
  · exact h.record.setPeer
  · exact h.record.setPeer.setGroup

theorem State.Canonical.issueRemote {m} (h : s.Canonical) : (issueRemote s m).Canonical :=
  ite h.numberMessage.groupFenced h.numberMessage.setPeer.assignAll

theorem State.Canonical.queueSelf {m} (h : s.Canonical) : (queueSelf s m).Canonical :=
  h.numberMessage.record.yokeRequest

theorem State.Canonical.totalMessage {m} (h : s.Canonical) : (totalMessage s m).2.Canonical := by
  unfold Machine.totalMessage
  split
  · exact h
  · exact h.record

theorem State.Canonical.queueMessage {m} (h : s.Canonical) : (queueMessage s m).Canonical :=
  ite h.totalMessage.queueSelf h.totalMessage.issueRemote

theorem State.Canonical.deliverSelf {m} (h : s.Canonical) : (deliverSelf s m).Canonical := by
  unfold Machine.deliverSelf
  dsimp only
  split
  · split
    · exact h.rejectEntry.groupOver
    · exact h.responses.groupOver.foldl fun _ _ h => h.queueMessage
  · exact h.settleLate.arriveMessage

theorem State.Canonical.deliverOwn {fuel} (h : s.Canonical) : (deliverOwn fuel s).Canonical := by
  induction fuel generalizing s with
  | zero => exact h
  | succ n ih =>
    rw [Machine.deliverOwn]
    split
    · exact ite (ih h.record.deliverSelf) h
    · exact h

theorem State.Canonical.drainOwn (h : s.Canonical) : (drainOwn s).Canonical := h.deliverOwn.deliverOwn

theorem State.Canonical.issueMessage {m} (h : s.Canonical) : (issueMessage s m).Canonical := h.queueMessage.drainOwn

theorem State.Canonical.retransmitFrom {q p n} (h : s.Canonical) : (retransmitFrom s q p n).Canonical :=
  h.setStream.foldl fun _ _ h => h.askFrame

theorem State.Canonical.sendNew {q m} (h : s.Canonical) : (sendNew s q m).Canonical :=
  (ite h.setPort.setStream.addSat h.setPort.setStream).emit

theorem State.Canonical.ofResendOn {q p} {t : State} (h : s.Canonical) (e : resendOn s q p = some t) :
    t.Canonical := by
  unfold Machine.resendOn at e
  dsimp only at e
  split at e
  · split at e
    · cases e
      exact h.setStream.addSat.emit
    · cases e
  · cases e

theorem State.Canonical.transmit {q} (h : s.Canonical) : (transmit s q).Canonical := by
  unfold Machine.transmit
  dsimp only
  split
  · exact h
  · split
    · exact h.setPort.emit
    · split
      · next e =>
        obtain ⟨p, _, hp⟩ := List.exists_of_findSome?_eq_some e
        exact h.ofResendOn hp
      · split
        · exact h.sendNew
        · exact h

theorem State.Canonical.streamDown {q p} (h : s.Canonical) : (streamDown s q p).Canonical :=
  ite h.setPort.setStream.setStreamUp.setPeer.assignAll h.setPort.setStream.setStreamUp.setPeer.assignAll.reportFence

theorem State.Canonical.sendOpen {q p} (h : s.Canonical) : (sendOpen s q p).Canonical := h.setStream.sendControl

theorem State.Canonical.openStreams {q} (h : s.Canonical) : (openStreams s q).Canonical :=
  h.forUpTo fun _ _ h => ite h.sendOpen h

theorem State.Canonical.receiveOpen {q p} (h : s.Canonical) : (receiveOpen s q p).Canonical :=
  (ite h.setStream h.setStream.sendOpen).setStream.setStreamUp.retransmitFrom.assignAll

theorem State.Canonical.portDown {q} (h : s.Canonical) : (portDown s q).Canonical :=
  ite h (h.raise.setBits.setBit.setBit.setPort.forUpTo fun _ _ h => (ite h.streamDown h).setStream)

theorem State.Canonical.portUp {q} (h : s.Canonical) : (portUp s q).Canonical := h.setBit.setBit.openStreams

theorem State.Canonical.receiveNext {q k} (h : s.Canonical) : (receiveNext s q k).Canonical := by
  unfold Machine.receiveNext
  dsimp only
  split
  · exact h.setStream.raise.countForAck
  · split
    · split
      · exact h.setStream.refuseMessage
      · exact h.setStream.setPeer.responses.countForAck.foldl fun _ _ h => h.issueMessage
    · exact h.setStream.arriveMessage

theorem State.Canonical.receiveData {q k} (h : s.Canonical) : (receiveData s q k).Canonical :=
  ite h (ite h.receiveNext (ite (ite h.setStream.sendControl h) h))

theorem State.Canonical.acknowledge {q p n rejected} (h : s.Canonical) : (acknowledge s q p n rejected).Canonical :=
  ((ite h h.setStream).foldl fun _ _ h => (ite h.undeliver h).groupOver).assignAll

theorem State.Canonical.receiveNack {q k} (h : s.Canonical) : (receiveNack s q k).Canonical :=
  ite h.acknowledge.retransmitFrom h.acknowledge

theorem State.Canonical.receiveDrove {f} {mine : DroveHeader → Bool} {act : State → Nat → DroveHeader → State}
    (h : s.Canonical) (hf : ∀ t q k, t.Canonical → (act t q k).Canonical) : (receiveDrove s f mine act).Canonical := by
  unfold Machine.receiveDrove
  split
  · exact h.addSat
  · exact h.addSat.raise
  · exact ite (hf _ _ _ h) h

theorem State.Canonical.ackTimer {q p} (h : s.Canonical) : (ackTimer s q p).Canonical :=
  ite h h.runUntil.setStream.sendControl

theorem State.Canonical.rtoExpiry {q p} (h : s.Canonical) : (rtoExpiry s q p).Canonical := by
  unfold Machine.rtoExpiry
  dsimp only
  split
  · exact h
  · exact ite h.runUntil.raise.streamDown h.runUntil.setStream.raise.retransmitFrom

theorem State.Canonical.discardMessages {p} (h : s.Canonical) : (discardMessages s p).Canonical :=
  (h.foldl fun _ _ h => h.groupFenced).setPeer.forUpTo fun _ _ h => h.setPort.setStream

theorem State.Canonical.fenceBuffers {p} (h : s.Canonical) : (fenceBuffers s p).Canonical :=
  h.forUpTo fun _ _ h => ite h.setBit.setRxBuffer h

theorem State.Canonical.markFenced {p} (h : s.Canonical) : (markFenced s p).Canonical :=
  ite h.record h.record.setBit.raise.fenceBuffers.discardMessages

theorem State.Canonical.applyFences (h : s.Canonical) : (applyFences s).Canonical := h.foldl fun _ _ h => h.markFenced

theorem State.Canonical.rejoin {p} (h : s.Canonical) : (rejoin s p).Canonical :=
  ite (h.setBit.forUpTo fun _ _ h => ite h.setRxBuffer h) h

theorem State.Canonical.onPort {frame} {f : State → DroveFrame → State} (h : s.Canonical)
    (hf : ∀ t k, t.Canonical → (f t k).Canonical) : (onPort s frame f).Canonical :=
  h.withUnit fun _ _ h => hf _ _ h.settleLate

theorem State.Canonical.heartbeatLost {p} (h : s.Canonical) : (heartbeatLost s p).Canonical := ite h.reportFence h

theorem State.Canonical.clearDroveCounters (h : s.Canonical) : (clearDroveCounters s).Canonical :=
  ((h.forUpTo fun _ _ h => h.setReg).forUpTo fun _ _ h => h.setReg).forUpTo fun _ _ h => h.setReg

/-! Machine/Matmul.lean. -/

theorem State.Canonical.matmulWork {r d} (h : s.Canonical) : (matmulWork s r d).2.Canonical := by
  unfold Machine.matmulWork
  split
  · exact h
  · exact h

/-! Machine/Rake.lean. -/

theorem State.Canonical.convWork {r d} (h : s.Canonical) : (convWork s r d).2.Canonical := by
  unfold Machine.convWork
  split
  · exact h
  · exact h

theorem State.Canonical.poolWork {r d} (h : s.Canonical) : (poolWork s r d).2.Canonical := h

theorem State.Canonical.resampleWork {r d} (h : s.Canonical) : (resampleWork s r d).2.Canonical := h

theorem State.Canonical.packWork {compress r d} (h : s.Canonical) : (packWork compress s r d).2.Canonical := h

/-! Machine/Harrow.lean. -/

theorem State.Canonical.attnWork {r d} (h : s.Canonical) : (attnWork s r d).2.Canonical := by
  unfold Machine.attnWork
  dsimp only
  split
  · exact h
  · split
    · exact h
    · exact h

theorem State.Canonical.kvWork {r d} (h : s.Canonical) : (kvWork s r d).2.Canonical := by
  unfold Machine.kvWork
  dsimp only
  split
  · exact h
  · exact h

theorem State.Canonical.requestFence {n gen} (h : s.Canonical) : (requestFence s n gen).Canonical :=
  h.setReg.showFence

theorem State.Canonical.clearHarrowCounters {n} (h : s.Canonical) : (clearHarrowCounters s n).Canonical :=
  h.setReg.setReg.setBits

theorem State.Canonical.clearRakeCounters {n} (h : s.Canonical) : (clearRakeCounters s n).Canonical :=
  h.setReg.setReg.setBits

/-! Machine/Coulter.lean. -/

theorem State.Canonical.eltWork {r d} (h : s.Canonical) : (eltWork s r d).2.Canonical := by
  unfold Machine.eltWork
  dsimp only
  split
  · exact h
  · split
    · exact h
    · split
      · exact h
      · exact h

theorem State.Canonical.reduceWork {r d} (h : s.Canonical) : (reduceWork s r d).2.Canonical := h

theorem State.Canonical.routeWork {r d} (h : s.Canonical) : (routeWork s r d).2.Canonical := h

theorem State.Canonical.moveWork {r d} (h : s.Canonical) : (moveWork s r d).2.Canonical := h

theorem State.Canonical.syncWork {r d} (h : s.Canonical) : (syncWork s r d).2.Canonical := h

/-! Machine/Exchange.lean. -/

theorem State.Canonical.messageTag {d} (h : s.Canonical) : (s.messageTag d).2.Canonical := by
  unfold State.messageTag
  split
  · exact h
  · exact h.freeTag

theorem State.Canonical.placePair {experts places t r e} (h : s.Canonical) :
    (placePair s experts places t r e).2.2.Canonical := by
  unfold Machine.placePair
  extract_lets _ _ dest
  cases dest with
  | none => exact h.takeFree
  | some x =>
    dsimp only
    split
    · exact h
    · exact h.takeFree

theorem State.Canonical.placeAll {d x} (h : s.Canonical) : (placeAll s d x).2.2.Canonical :=
  foldl_induct (P := fun y : SMap Placement × List Nat × State => y.2.2.Canonical) _ h fun _ _ _ h => h.placePair

theorem State.Canonical.expertSend {d x tag fld e p} (h : s.Canonical) :
    (expertSend s d x tag fld e p).2.2.Canonical := by
  unfold Machine.expertSend
  split
  · exact h.takeFree.takeFree
  · exact h.newGroup

theorem State.Canonical.forwardWork {fld d x} (h : s.Canonical) : (forwardWork s fld d x).2.Canonical := by
  unfold Machine.forwardWork
  dsimp only
  exact foldl_induct (P := fun y : List Tile × List Message × State => y.2.2.Canonical) _ h.messageTag.placeAll
    fun _ _ _ h => h.expertSend

theorem State.Canonical.sourceSend {d x tag fld c} (h : s.Canonical) :
    (sourceSend s d x tag fld c).2.2.2.Canonical := by
  unfold Machine.sourceSend
  dsimp only
  split
  · exact h.takeFree.takeFree
  · exact h.takeFree.newGroup

theorem State.Canonical.returnWork {fld d x} (h : s.Canonical) : (returnWork s fld d x).2.Canonical := by
  unfold Machine.returnWork
  split
  next tag s1 e =>
  have h1 : s1.Canonical := h.messageTag.ofSnd e
  split
  next tiles ms reads s2 e =>
  change (tiles, ms, reads, s2).2.2.2.Canonical
  rw [← e]
  refine foldl_induct (P := fun y : List Tile × List Message × List (Nat × Nat) × State => y.2.2.2.Canonical) _ h1
    fun y c _ h => ?_
  dsimp only
  exact h.sourceSend

theorem State.Canonical.putWork {fld d x} (h : s.Canonical) : (putWork s fld d x).2.Canonical := by
  unfold Machine.putWork
  dsimp only
  exact h.messageTag.takeFree.newGroup

theorem State.Canonical.dispatchWork {r d} (h : s.Canonical) : (dispatchWork s r d).2.Canonical := by
  unfold Machine.dispatchWork
  dsimp only
  split
  · exact h.forwardWork
  · exact h.returnWork
  · exact h.putWork

theorem State.Canonical.combineWork {r d} (h : s.Canonical) : (combineWork s r d).2.Canonical := by
  unfold Machine.combineWork
  dsimp only
  split
  · exact h
  · exact h

/-! Machine/Sequencer.lean. -/

theorem State.Canonical.setTask {n t} (h : s.Canonical) : (setTask s n t).Canonical := h.setFurrow

theorem State.Canonical.toEnding {n t cause} (h : s.Canonical) : (toEnding s n t cause).Canonical :=
  h.setTask.releaseYoke

theorem State.Canonical.taskCharge {n t xs} (h : s.Canonical) : (taskCharge s n t xs).Canonical := h.chargeAll

theorem State.Canonical.noteWait {n t w} (h : s.Canonical) : (noteWait s n t w).Canonical := ite h.setTask h.setTask

theorem State.Canonical.addCount {lo hi k} (h : s.Canonical) : (addCount s lo hi k).Canonical := h.setReg64

theorem State.Canonical.countWork {n w} (h : s.Canonical) : (countWork s n w).Canonical := by
  refine h.addCount.addCount.addSat.addSat.foldl fun _ _ h => ?_
  dsimp only
  split
  · exact h
  · split <;> exact h.addSat

theorem State.Canonical.useBuffers {n op} (h : s.Canonical) : (useBuffers s n op).Canonical :=
  ite h.rewriteWords (ite h.rewriteWords h)

/-- An op's work leaves memory in canonical form. -/
def OpDef.KeepsCanonical (o : OpDef) : Prop := ∀ s r d, s.Canonical → (o.work s r d).2.Canonical

theorem opDefOf_keepsCanonical {code : Nat} {o : OpDef} (e : opDefOf code = some o) : o.KeepsCanonical := by
  unfold opDefOf at e
  split at e <;> cases e <;> intro s r d h
  · dsimp only [matmulOp]; exact h.matmulWork
  · dsimp only [convOp]; exact h.convWork
  · dsimp only [poolOp]; exact h.poolWork
  · dsimp only [resampleOp]; exact h.resampleWork
  · dsimp only [attnOp]; exact h.attnWork
  · dsimp only [kvOp]; exact h.kvWork
  · dsimp only [eltOp]; exact h.eltWork
  · dsimp only [reduceOp]; exact h.reduceWork
  · dsimp only [routeOp]; exact h.routeWork
  · dsimp only [dispatchOp]; exact h.dispatchWork
  · dsimp only [combineOp]; exact h.combineWork
  · dsimp only [moveOp]; exact h.moveWork
  · dsimp only [compressOp]; exact h.packWork
  · dsimp only [decompressOp]; exact h.packWork
  · dsimp only [syncOp]; exact h.syncWork

theorem State.Canonical.runWork {n t o} (h : s.Canonical) (ho : o.KeepsCanonical) : (runWork s n t o).Canonical := by
  unfold Machine.runWork
  extract_lets r plan
  have hw : (o.work s r t.desc).2.Canonical := ho s r t.desc h
  split
  next w u e =>
  have hu : u.Canonical := hw.ofSnd e
  extract_lets s1 s2 _ s3 late s4 t1
  have h2 : s2.Canonical := hu.noteReads.noteReads
  have h3 : s3.Canonical := h2.useBuffers.countWork.foldl fun _ _ h => h.store
  have h4 : s4.Canonical := ite h3 (h3.foldl fun _ _ h => h.issueMessage)
  exact ite h2.toEnding (ite h2.toEnding h4.setTask.showFence)

theorem State.Canonical.tryRead {n t} (h : s.Canonical) : (tryRead s n t).Canonical := by
  unfold Machine.tryRead
  split
  · exact h.toEnding
  · extract_lets w
    split
    · exact h.noteWait
    · split
      · exact h
      · next e =>
        extract_lets s1 t1
        have h1 : s1.Canonical := ite h h.taskCharge
        exact ite h1.setTask (h1.runWork (opDefOf_keepsCanonical e))

theorem State.Canonical.sendGet {n t p} (h : s.Canonical) : (sendGet s n t p).Canonical := by
  unfold Machine.sendGet
  dsimp only
  split
  · exact h.setTask
  · exact h.messageTag.newGroup.issueMessage.setTask

theorem State.Canonical.tryStart {n t} (h : s.Canonical) : (tryStart s n t).Canonical := by
  unfold Machine.tryStart
  split
  · exact h.setTask
  · extract_lets s1
    have h1 : s1.Canonical := ite h h.taskCharge
    split
    · exact h1.setTask
    · split
      · exact h1
      · dsimp only
        split
        · exact h1.writeStubble.toEnding
        · split
          · exact h1.writeStubble.sendGet.tryRead
          · exact h1.writeStubble.sendGet

theorem State.Canonical.beginTask {n t c} (h : s.Canonical) : (beginTask s n t c).Canonical :=
  ite h.setTask h.tryStart

theorem State.Canonical.tryCheck {n t} (h : s.Canonical) : (tryCheck s n t).Canonical :=
  ite (ite h h.taskCharge).setTask (ite h h.taskCharge).noteReads.beginTask

theorem State.Canonical.tryResume {n t} (h : s.Canonical) : (tryResume s n t).Canonical :=
  ite (ite h h.taskCharge).setTask (ite h h.taskCharge).writeStubble.setTask

theorem State.Canonical.storeFault {n} (h : s.Canonical) : (storeFault s n).Canonical := by
  unfold Machine.storeFault
  split
  · split
    · exact h
    · exact h
    · exact ite h h.toEnding
  · exact h

theorem State.Canonical.advanceTask {n} (h : s.Canonical) : (advanceTask s n).Canonical := by
  unfold Machine.advanceTask
  extract_lets s1 s2
  have h1 : s1.Canonical := h.storeFault
  have h2 : s2.Canonical := by
    unfold s2
    split
    · exact ite h1.tryResume h1
    · exact h1
  split
  · exact h2
  · split
    · exact h2
    · split
      · exact h2.tryCheck
      · exact h2.tryStart
      · exact h2.tryRead
      · exact h2

theorem State.Canonical.noteParam {r system inner poisoned d} (h : s.Canonical) :
    (noteParam s r system inner poisoned d).Canonical :=
  ite h.noteReads h

theorem State.Canonical.beginCheck {n t c} (h : s.Canonical) : (beginCheck s n t c).Canonical :=
  ite h.setTask h.writeStubble.noteRead.noteParam.beginTask

theorem State.Canonical.noteRunStart {n k} (h : s.Canonical) : (noteRunStart s n k).Canonical := h.setFurrow

theorem State.Canonical.noteRobin {n k} (h : s.Canonical) : (noteRobin s n k).Canonical := h.setFurrow

theorem State.Canonical.showAccepted {n k d} (h : s.Canonical) : (showAccepted s n k d).Canonical :=
  h.setHopper.setBits.setReg.setReg.setReg.setReg

theorem State.Canonical.acceptDesc {n k d poisoned} (h : s.Canonical) : (acceptDesc s n k d poisoned).Canonical :=
  (ite (ite h.noteParam.beginCheck h.noteParam.beginTask) (ite h.setTask h.tryCheck)).showAccepted

theorem State.Canonical.acceptTask {n k} (h : s.Canonical) : (acceptTask s n k).Canonical := by
  unfold Machine.acceptTask
  split
  · exact h.noteRunStart.noteRead.acceptDesc
  · split
    · split
      · exact h.setFurrow.noteRobin.acceptDesc
      · exact h
    · exact h

theorem State.Canonical.fillBuffer {n} (h : s.Canonical) : (fillBuffer s n).Canonical := by
  unfold Machine.fillBuffer
  split
  · exact ite h h.noteRead.setFurrow
  · exact h

theorem State.Canonical.refreshBuffer {n} (h : s.Canonical) : (refreshBuffer s n).Canonical := by
  unfold Machine.refreshBuffer
  split
  · exact ite h.fillBuffer h.setFurrow.chargeAccess.fillBuffer
  · exact h

theorem State.Canonical.acceptIf {n} {mine : Machine.State → Bool → Desc → Bool} (h : s.Canonical) :
    (acceptIf s n mine).Canonical := by
  unfold Machine.acceptIf
  split
  · extract_lets s1
    have h1 : s1.Canonical := ite h h.refreshBuffer
    split
    · exact ite h1.acceptTask.refreshBuffer h1
    · exact h1
  · exact h

theorem State.Canonical.acceptOp {code n} (h : s.Canonical) : (acceptOp code n s).Canonical :=
  h.withUnit fun _ _ h => h.acceptIf

theorem State.Canonical.acceptMode {code mode modes n} (h : s.Canonical) :
    (acceptMode code mode modes n s).Canonical :=
  h.withUnit fun _ _ h => h.acceptIf

end Sys2Proof.Machine
end

