-- ==== Sys2Proof/Proofs/CanonicalUnits.lean ====
section
/-! SUPPORT. Tasks, seedbeds, DRAM, the island, buckles and the Intake: each function keeps the canonical form of
memory. -/

namespace Sys2Proof.Machine

variable {s : State}

/-! Machine/Tasks.lean. -/

theorem State.Canonical.writePiece {n a bs} (h : s.Canonical) : (writePiece s n a bs).1.Canonical := by
  unfold Machine.writePiece
  split
  · dsimp only
    exact h.mailboxWrite
  · exact h.store

theorem State.Canonical.writePieces {n ps} (h : s.Canonical) : (writePieces s n ps).1.Canonical :=
  foldl_induct (P := fun x : State × Bool => x.1.Canonical) ps h fun x _ _ h => by
    dsimp only
    split
    · exact h.writePiece
    · exact h

theorem State.Canonical.commitTile {n t k rest} (h : s.Canonical) : (commitTile s n t k rest).Canonical :=
  ite h.writePieces.toEnding (ite h.writePieces.storeGranule.toEnding (h.writePieces.storeGranule.writeStubble.foldl
    fun _ _ h => h.issueMessage).setBits.addSat.addSat.setTask)

theorem State.Canonical.commitNext {n t} (h : s.Canonical) : (commitNext s n t).Canonical := by
  unfold Machine.commitNext
  split
  · exact h
  · exact ite h.toEnding (ite h.toEnding (ite h.noteWait (ite (ite h h.taskCharge).setTask (ite h
    h.taskCharge).commitTile)))

theorem State.Canonical.tileCommit {n mismatch} (h : s.Canonical) : (tileCommit s n mismatch).Canonical := by
  unfold Machine.tileCommit
  split
  · exact h
  · split
    · exact h
    · dsimp only
      split
      · exact ite (ite h.advanceTask.toEnding h.advanceTask.commitNext) h.advanceTask
      · exact h.advanceTask

theorem State.Canonical.rewriteInner {n slot} (h : s.Canonical) : (rewriteInner s n slot).Canonical :=
  ite h.writeStubble h

theorem State.Canonical.rewriteRun {n} (h : s.Canonical) : (rewriteRun s n).Canonical :=
  h.forUpTo fun _ _ h => h.rewriteInner

theorem State.Canonical.postRun {n} (h : s.Canonical) : (postRun s n).Canonical := by
  unfold Machine.postRun
  dsimp only
  split
  · exact h.rewriteRun
  · split
    · exact (h.foldl fun _ _ h => h.store).doorbell.rewriteRun
    · split
      · exact h.doorbell.rewriteRun
      · exact h

theorem State.Canonical.rewindRun {n rerun} (h : s.Canonical) : (rewindRun s n rerun).Canonical :=
  h.setHopper.setFurrow.setBits.rewriteRun

theorem State.Canonical.endRun {n status} (h : s.Canonical) : (endRun s n status).Canonical :=
  h.setFurrow.setBits.postRun

theorem State.Canonical.notePass {n} (h : s.Canonical) : (notePass s n).Canonical := h.setReg64.addWrap

theorem State.Canonical.noteTransient {n} (h : s.Canonical) : (noteTransient s n).Canonical :=
  ite h.raise.setFurrow.setBits.fenceFault h.raise.setFurrow.setBits.endRun

theorem State.Canonical.runMismatch {n} (h : s.Canonical) : (runMismatch s n).Canonical :=
  ite h.raise.rewindRun h.fenceFault

theorem State.Canonical.runPassed {n} (h : s.Canonical) : (runPassed s n).Canonical := by
  unfold Machine.runPassed
  dsimp only
  split
  · exact h.notePass.endRun
  · exact h.notePass.rewindRun
  · exact h.notePass.noteTransient

theorem State.Canonical.freeFurrow {n cycles events} (h : s.Canonical) : (freeFurrow s n cycles events).Canonical :=
  (ite h.setTask h.setTask.setBits).setBit.setBits.showEvents.showFence

theorem State.Canonical.writeTag {t} (h : s.Canonical) : (writeTag s t).1.Canonical := by
  unfold Machine.writeTag
  split
  · exact h
  · dsimp only
    exact h.storeGranule

theorem State.Canonical.writeDone {n t capture} (h : s.Canonical) : (writeDone s n t capture).Canonical :=
  h.issueFinal

theorem State.Canonical.hopperDone {k} (h : s.Canonical) : (hopperDone s k).Canonical := h.setHopper

theorem State.Canonical.hopperFaulted {k cause} (h : s.Canonical) : (hopperFaulted s k cause).Canonical :=
  ite (ite h.setHopper h.setHopper.raise) h.setHopper

theorem State.Canonical.endTaskFaulted {n t cause} (h : s.Canonical) : (endTaskFaulted s n t cause).Canonical :=
  ite h.endFaulted.freeFurrow.runMismatch h.endFaulted.freeFurrow.hopperFaulted

theorem State.Canonical.endTaskDone {n t capture} (h : s.Canonical) : (endTaskDone s n t capture).Canonical :=
  h.writeDone.freeFurrow.hopperDone

theorem State.Canonical.endOuter {n t d pass count} (h : s.Canonical) : (endOuter s n t d pass count).Canonical :=
  ite h.runUntil.endFaulted.freeFurrow.runMismatch (ite h.runUntil.writeDone.freeFurrow.hopperDone.runMismatch (ite
    h.runUntil.writeDone.freeFurrow.hopperDone.runPassed h.runUntil.writeDone.freeFurrow.hopperDone))

theorem State.Canonical.finishFaulted {n t cause} (h : s.Canonical) : (finishFaulted s n t cause).Canonical := by
  unfold Machine.finishFaulted
  split
  · exact h.endTaskFaulted
  · exact h.endFaulted.endOuter

theorem State.Canonical.finishTagged {n t} (h : s.Canonical) : (finishTagged s n t).Canonical := by
  unfold Machine.finishTagged
  split
  · exact h.runUntil.finishFaulted
  · have ht := (h.runUntil (t := s.cycleTick t t.length)).noteReads (xs := tagReads s t.desc) |>.writeTag (t := t)
    dsimp only
    split
    · exact ht.finishFaulted
    · split
      · exact ht.endTaskDone
      · exact ht.writeDone.endOuter

theorem State.Canonical.finishDone {n t} (h : s.Canonical) : (finishDone s n t).Canonical :=
  ite h.finishFaulted (ite h.noteReads.finishFaulted (ite (ite h h.taskCharge).setTask (ite h
    h.taskCharge).finishTagged))

theorem State.Canonical.taskDone {n} (h : s.Canonical) : (taskDone s n).Canonical := by
  unfold Machine.taskDone
  extract_lets s1
  have h1 : s1.Canonical := h.advanceTask
  split
  · exact h1
  · split
    · exact h1.finishFaulted.refreshBuffer
    · exact ite h1.finishDone.refreshBuffer h1
    · exact h1

theorem State.Canonical.advanceSlot {u} (h : s.Canonical) : (advanceSlot s u).Canonical :=
  ite h.addWrap.setBits (ite h.addWrap.setBits h.setBits)

theorem State.Canonical.noteAdvance {u} (h : s.Canonical) : (noteAdvance s u).Canonical := h.setFurrow

theorem State.Canonical.stubbleAck {n} (h : s.Canonical) : (stubbleAck s n).Canonical := by
  unfold Machine.stubbleAck
  extract_lets f
  split
  · exact h
  · extract_lets s1 s2
    have h1 : s1.Canonical := h.setFurrow
    have h2 : s2.Canonical := by
      unfold s2
      split
      · exact h1.storeGranule
      · exact h1
    exact ite h2 ((h2.checkInTask.foldl fun _ _ h => h.endConsumer).foldl fun _ _ h => h.noteAdvance.advanceSlot)

theorem State.Canonical.budgetExpiry {n} (h : s.Canonical) : (budgetExpiry s n).Canonical := by
  unfold Machine.budgetExpiry
  split
  · exact h
  · split
    · exact h
    · exact h.runUntil.toEnding

theorem State.Canonical.gateTimeout {n} (h : s.Canonical) : (Machine.gateTimeout s n).Canonical := by
  unfold Machine.gateTimeout
  split
  · exact h
  · dsimp only
    split
    · exact h.budgetExpiry
    · refine Canonical.setBits (Canonical.setBit ?_)
      split
      · exact h.runUntil.raise.stopField
      · exact h.runUntil.raise

theorem State.Canonical.parkIn {n k t} (h : s.Canonical) : (parkIn s n k t).Canonical :=
  h.postWrite.setHopper.setFurrow.setBits.setBit.setBits.showFence

theorem State.Canonical.taskPark {n} (h : s.Canonical) : (taskPark s n).Canonical := by
  unfold Machine.taskPark
  split
  · dsimp only
    split
    · split
      · exact h.budgetExpiry
      · split
        · exact h.parkIn.refreshBuffer
        · exact h
    · exact h
  · exact h

theorem State.Canonical.resumeFrom {n k p} (h : s.Canonical) : (resumeFrom s n k p).Canonical :=
  h.setHopper.setFurrow.setBits.setReg.setReg.setReg.runUntil.showFence.tryResume.refreshBuffer

theorem State.Canonical.taskResume {n} (h : s.Canonical) : (taskResume s n).Canonical := by
  unfold Machine.taskResume
  split
  · exact h
  · split
    · split
      · exact h.resumeFrom
      · exact h
    · exact h

theorem State.Canonical.parkLimit {n k} (h : s.Canonical) : (parkLimit s n k).Canonical := by
  unfold Machine.parkLimit
  split
  · exact ite h (ite h.runUntil h.runUntil.setFurrow.endFaulted.setHopper)
  · exact h

theorem State.Canonical.clearMacCounters {n} (h : s.Canonical) : (clearMacCounters s n).Canonical :=
  h.setReg64.setReg64

/-! Machine/Seedbeds.lean. -/

theorem State.Canonical.deniedAccess {r a} (h : s.Canonical) : (deniedAccess s r a).Canonical := by
  unfold Machine.deniedAccess
  split
  · split
    · split
      · exact h
      · exact h.toEnding
    · exact h
  · exact h.denied

theorem State.Canonical.denyRead {r a n} (h : s.Canonical) : (denyRead s r a n).Canonical := by
  unfold Machine.denyRead
  split
  · exact h.deniedAccess
  · exact h.deniedAccess.emit

theorem State.Canonical.receivePoison {r a} (h : s.Canonical) : (receivePoison s r a).Canonical := by
  unfold Machine.receivePoison
  split
  · split
    · split
      · exact h
      · exact h.toEnding
    · exact h
  · exact h.reeveBusError
  · exact h

theorem State.Canonical.answerRead {r a n} (h : s.Canonical) : (answerRead s r a n).Canonical :=
  ite h.emit.receivePoison h.emit

theorem State.Canonical.holdAccess {x} (h : s.Canonical) : (holdAccess s x).Canonical := h.record

theorem State.Canonical.writeGranules {r m a bs poison} (h : s.Canonical) :
    (writeGranules s r m a bs poison).Canonical := by
  unfold Machine.writeGranules
  dsimp only
  split
  · exact h.store
  · exact ite h.store h.raise

theorem State.Canonical.rowAccess {x} (h : s.Canonical) : (rowAccess s x).Canonical := by
  unfold Machine.rowAccess
  dsimp only
  split
  · exact h.readSeedRow.answerRead
  · split
    · exact h.store
    · exact ite h.store h.raise

theorem State.Canonical.seedbedAccess {x} (h : s.Canonical) : (seedbedAccess s x).Canonical :=
  ite (ite h.denyRead h.deniedAccess) (ite h.holdAccess h.rowAccess)

theorem State.Canonical.portRead {r a n} (h : s.Canonical) : (portRead s r a n).Canonical :=
  ite (ite h.noteRead.reeveBusError h.noteRead).emit (ite h.noteRead.reeveBusError h.noteRead).emit

theorem State.Canonical.issueAccess {l} (h : s.Canonical) : (issueAccess s l).Canonical := by
  unfold Machine.issueAccess
  split
  · exact h.rowAccess
  · split
    · exact h.writeGranules
    · exact h
  · exact h.portRead

theorem State.Canonical.issueHeld (h : s.Canonical) : (issueHeld s).Canonical :=
  h.record.foldl fun _ _ h => h.issueAccess

theorem State.Canonical.placedAccess {x} (h : s.Canonical) : (placedAccess s x).Canonical :=
  h.withUnit fun _ _ h => h.withUnit fun _ _ h => h.withUnit fun _ _ h => h.withUnit fun _ _ h => h.seedbedAccess

theorem State.Canonical.scrubRow {n bank row upsets} (h : s.Canonical) :
    (scrubRow s n bank row upsets).Canonical := by
  unfold Machine.scrubRow
  refine h.forUpTo fun _ _ h => ?_
  dsimp only
  split
  · exact h.setMark
  · exact h.setMark.seedError.raise.setFurrow
  · exact h.setMark.seedError.raise

theorem State.Canonical.scrubRead {n bank upsets} (h : s.Canonical) : (scrubRead s n bank upsets).Canonical :=
  ite h (ite h.scrubRow.setFurrow (ite h.scrubRow.setFurrow.setBits h.scrubRow.setFurrow.setBits.addWrap.setBit))

theorem State.Canonical.scrubWriteBack {n bank} (h : s.Canonical) : (scrubWriteBack s n bank).Canonical :=
  h.setFurrow.foldl fun _ _ h => h.setMark

theorem State.Canonical.writeGeneration {n k gen} (h : s.Canonical) : (writeGeneration s n k gen).Canonical :=
  ite h.setBits.setBits h.setBits

theorem State.Canonical.slotGenerationWrite {r n k gen} (h : s.Canonical) :
    (slotGenerationWrite s r n k gen).Canonical := by
  unfold Machine.slotGenerationWrite
  split
  · extract_lets _ _ s1 s2 _ s3
    have h1 : s1.Canonical := by
      unfold s1
      split
      · exact h.setBits
      · exact h
    have h2 : s2.Canonical := h1.writeGeneration
    have h3 : s3.Canonical := ite h2 h2.setFurrow.raise
    exact h3.foldl fun _ _ h => h.advanceSlot
  · exact h.deniedAccess

theorem State.Canonical.mailboxRequest {r m off data} (h : s.Canonical) :
    (mailboxRequest s r m off data).Canonical := by
  unfold Machine.mailboxRequest
  extract_lets s1
  have h1 : s1.Canonical := ite h.mailboxWrite h.denied
  split
  · exact ite h1 h1.deniedAccess
  · exact h1

/-! Machine/Gleaning.lean. -/

theorem State.Canonical.glean {f} (h : s.Canonical) : (glean s f).Canonical :=
  ite h (ite h.raiseIf.setField (h.foldl fun _ _ h => (h.foldl fun _ _ h =>
    h.reeveRead).store.raiseIf).setBits.setBit.setField.notify.notify)

theorem State.Canonical.retryGlean {f} (h : s.Canonical) : (retryGlean s f).Canonical := ite h.glean h

theorem State.Canonical.ring {r k tail} (h : s.Canonical) : (ring s r k tail).Canonical :=
  ite h.doorbell h.doorbell.refreshBuffer

theorem State.Canonical.ringFrom {r k tail} (h : s.Canonical) : (ringFrom s r k tail).Canonical :=
  ite h.ring h.deniedAccess

theorem State.Canonical.controlHopper {r k a} {f : State → Nat → State} (h : s.Canonical)
    (hf : ∀ t k, t.Canonical → (f t k).Canonical) : (controlHopper s r k a f).Canonical :=
  ite (hf _ _ h) h.deniedAccess

theorem State.Canonical.controlField {r f} {g : State → Nat → State} (h : s.Canonical)
    (hg : ∀ t k, t.Canonical → (g t k).Canonical) : (controlField s r f g).Canonical :=
  ite (hg _ _ h) h.deniedAccess

theorem State.Canonical.startField {f} (h : s.Canonical) : (startField s f).Canonical :=
  ite (h.runField.foldl fun _ _ h => h.refreshBuffer) h.refuseField

theorem State.Canonical.stopTimeout {f} (h : s.Canonical) : (stopTimeout s f).Canonical :=
  ite h.runUntil.expireStop (ite h h.runUntil.expireOwed)

theorem State.Canonical.refillAll (h : s.Canonical) : (refillAll s).Canonical :=
  ite ((ite h h.runUntil).record.forUpTo fun _ _ h => h.yokeRefillOne) (ite h h.runUntil)

/-! Machine/Dram.lean. -/

theorem State.Canonical.dramRead {r a u} (h : s.Canonical) : (dramRead s r a u).Canonical :=
  ite h.denyRead (ite h.denyRead h.checkBlock.answerRead)

theorem State.Canonical.dramWrite {r a bs poison u} (h : s.Canonical) : (dramWrite s r a bs poison u).Canonical :=
  ite h (ite h.deniedAccess (ite h.deniedAccess h.writeDram))

theorem State.Canonical.scrubBlock {b u} (h : s.Canonical) : (scrubBlock s b u).Canonical :=
  ite h.checkBlock.setBlockMark h.checkBlock

theorem State.Canonical.patrolScrub {upsets} (h : s.Canonical) : (patrolScrub s upsets).Canonical :=
  ite h (ite (ite h (h.forUpTo fun _ _ h => ite h.scrubBlock h)).record (ite (ite h (h.forUpTo fun _ _ h => ite
    h.scrubBlock h)).record.setBits (ite h (h.forUpTo fun _ _ h => ite h.scrubBlock h)).record.setBits.addWrap))

theorem State.Canonical.startRetrain {c rotation} (h : s.Canonical) : (startRetrain s c rotation).Canonical :=
  h.setBits.setBit.record

theorem State.Canonical.endRetrain {c margin temp} (h : s.Canonical) : (endRetrain s c margin temp).Canonical :=
  ite h.setBits.setBits.addSat.setBit.retrained.record.setBit.raise.record
    h.setBits.setBits.addSat.setBit.retrained.record

theorem State.Canonical.retrainSlice {margin temp} (h : s.Canonical) : (retrainSlice s margin temp).Canonical := by
  unfold Machine.retrainSlice
  split
  · exact h
  · split
    · exact ite h.record h.endRetrain
    · split
      · exact h.startRetrain
      · exact h

theorem State.Canonical.refreshBank {c} (h : s.Canonical) : (refreshBank s c).Canonical := h.record

theorem State.Canonical.retrainNow {c} (h : s.Canonical) : (retrainNow s c).Canonical := h.record

theorem State.Canonical.clearDramCounters (h : s.Canonical) : (clearDramCounters s).Canonical :=
  h.forUpTo fun _ _ h => h.setReg

theorem State.Canonical.headError {p uncorr} (h : s.Canonical) : (headError s p uncorr).Canonical :=
  ite h.setBits.setBits.setBits.setBit.addSat h.setBits.setBits.setBits.setBit.addSat

theorem State.Canonical.headCorrected {p} (h : s.Canonical) : (headCorrected s p).Canonical := h.headError.raise

theorem State.Canonical.headDiscard {p} (h : s.Canonical) : (headDiscard s p).Canonical := h.headError.raise

theorem State.Canonical.poisonRunning {n a t} (h : s.Canonical) : (poisonRunning s n a t).Canonical := by
  unfold Machine.poisonRunning
  dsimp only
  split
  · exact h
  · exact ite h.toEnding h
  · exact ite h.toEnding h
  · split
    · exact ite h.toEnding h
    · exact h
  · exact ite (ite h.toEnding h) h.setTask

theorem State.Canonical.poisonBuffer {n a} (h : s.Canonical) : (poisonBuffer s n a).Canonical := by
  unfold Machine.poisonBuffer
  dsimp only
  split
  · exact ite h.setFurrow h
  · exact h

theorem State.Canonical.poisonTask {n a} (h : s.Canonical) : (poisonTask s n a).Canonical := by
  unfold Machine.poisonTask
  dsimp only
  split
  · exact h.poisonBuffer
  · exact h.poisonBuffer.poisonRunning

theorem State.Canonical.poisonHost {a} (h : s.Canonical) : (poisonHost s a).Canonical := h.takeFree.emit

theorem State.Canonical.poisonRequester {p a} (h : s.Canonical) : (poisonRequester s p a).Canonical := by
  unfold Machine.poisonRequester
  split
  · exact h.poisonTask
  · exact h.poisonHost
  · exact h.reeveBusError
  · exact h

theorem State.Canonical.storePoison {a} (h : s.Canonical) : (storePoison s a).Canonical :=
  ite h.setBlockMark h.cancelWriteBacks.setMark

theorem State.Canonical.headPoison {p} (h : s.Canonical) : (headPoison s p).Canonical :=
  ite h.headError.raise.poisonRequester (h.headError.raise.foldl fun _ _ h => h.storePoison)

theorem State.Canonical.headlandPacket {p} (h : s.Canonical) : (headlandPacket s p).Canonical := by
  unfold Machine.headlandPacket
  split
  · exact h
  · split
    · exact h.raise
    · extract_lets s1
      have h1 : s1.Canonical := ite h.headCorrected h
      split
      · exact h1.headDiscard
      · split
        · exact h1
        · split
          · exact h1
          · exact h1.headCorrected
          · exact h1.headPoison

theorem State.Canonical.routedPacket {p} (h : s.Canonical) : (routedPacket s p).Canonical :=
  h.withUnit fun _ _ h => h.withUnit fun _ _ h => h.withUnit fun _ _ h => h.withUnit fun _ _ h => h.withUnit fun _ _ h
    => h.withUnit fun _ _ h => h.withUnit fun _ _ h => h.headlandPacket

/-! Machine/Island.lean. -/

theorem State.Canonical.assertFaultN (h : s.Canonical) : (assertFaultN s).Canonical := h.setBit.setBit

theorem State.Canonical.enterSafe {code} (h : s.Canonical) : (enterSafe s code).Canonical :=
  ite (ite h.record.setBit h.record) (((ite h.record.setBit h.record).setBit.setBits.assertFaultN.forUpTo fun _ _ h =>
    h.stopField).forUpTo fun _ _ h => h.bridleSafe).chainBroadcast.notify

theorem State.Canonical.react {e} (h : s.Canonical) : (react s e).Canonical := by
  unfold Machine.react
  split
  · exact h.enterSafe
  · split
    · exact ite h.stopField h
    · exact h

theorem State.Canonical.drivePins {e} (h : s.Canonical) : (drivePins s e).Canonical := ite h.assertFaultN.record h

theorem State.Canonical.faultReport (h : s.Canonical) : (faultReport s).Canonical := by
  unfold Machine.faultReport
  split
  · exact h
  · exact h.record.drivePins.react

theorem State.Canonical.writeEntry {tick code clsByte inst info countHi} (h : s.Canonical) :
    (writeEntry s tick code clsByte inst info countHi).Canonical :=
  ite h.store.setBits.setBits.notify h.store.setBits.setBits

theorem State.Canonical.setSource {k r} (h : s.Canonical) : (setSource s k r).Canonical := h.record.setBit

theorem State.Canonical.coalesce {e} (h : s.Canonical) : (coalesce s e).Canonical := h.setSource

theorem State.Canonical.writeEvent {e} (h : s.Canonical) : (writeEvent s e).Canonical := by
  unfold Machine.writeEvent
  dsimp only
  split
  · exact h.setSource.writeEntry
  · exact h.setSource.takeFree.writeEntry

theorem State.Canonical.exhaust {e} (h : s.Canonical) : (exhaust s e).Canonical :=
  h.writeEntry.setBit.record.assertFaultN.enterSafe.coalesce

theorem State.Canonical.writeOrCoalesce {e} (h : s.Canonical) : (writeOrCoalesce s e).Canonical :=
  ite h.coalesce (ite (ite h.coalesce h.writeEvent) (ite h.coalesce (ite h.exhaust h.writeEvent)))

theorem State.Canonical.tallyWrite (h : s.Canonical) : (tallyWrite s).Canonical := by
  unfold Machine.tallyWrite
  split
  · exact h
  · exact h.record.writeOrCoalesce

theorem State.Canonical.writeSummary {k r} (h : s.Canonical) : (writeSummary s k r).Canonical :=
  ite h h.setSource.writeEntry

theorem State.Canonical.writeSummaries (h : s.Canonical) : (writeSummaries s).Canonical :=
  (h.foldl fun _ _ h => h.setSource).foldl fun _ _ h => h.writeSummary

theorem State.Canonical.refuseSafety (h : s.Canonical) : (refuseSafety s).Canonical := h.raise

theorem State.Canonical.writeReadIndex {v} (h : s.Canonical) : (writeReadIndex s v).Canonical :=
  ite h.refuseSafety h.setBits.setBits

theorem State.Canonical.releaseFaultN (h : s.Canonical) : (releaseFaultN s).Canonical := ite h.setBit h

theorem State.Canonical.toggleDyn {heartbeat} (h : s.Canonical) : (toggleDyn s heartbeat).Canonical :=
  ite h.setBit.record h.setBit

theorem State.Canonical.lockstep {p} (h : s.Canonical) : (lockstep s p).Canonical := by
  unfold Machine.lockstep
  split
  · exact h.raise
  · exact h.raise.raise
  · exact h.raise

theorem State.Canonical.leaveSafe (h : s.Canonical) : (leaveSafe s).Canonical :=
  ite (h.onlyIf fun _ h => h.refuseSafety) (ite h.refuseSafety h.setBit.record)

theorem State.Canonical.tripMonitor {code} (h : s.Canonical) : (tripMonitor s code).Canonical := ite h h.record.raise

theorem State.Canonical.readVin {mv} (h : s.Canonical) : (readVin s mv).Canonical := ite h.record.tripMonitor h.record

theorem State.Canonical.readSensors {ts} (h : s.Canonical) : (readSensors s ts).Canonical :=
  ite h.record.tripMonitor h.record

theorem State.Canonical.readMonitors {env} (h : s.Canonical) : (readMonitors s env).Canonical :=
  (h.foldl fun _ _ h => h.readVin).foldl fun _ _ h => h.readSensors

theorem State.Canonical.judgeWatchdog (h : s.Canonical) : (judgeWatchdog s).Canonical := h.raiseIf.record

theorem State.Canonical.judgeIfEnded (h : s.Canonical) : (judgeIfEnded s).Canonical :=
  h.forUpTo fun _ _ h => h.judgeWatchdog

theorem State.Canonical.kick (h : s.Canonical) : (kick s).Canonical := ite h h.judgeIfEnded.record

theorem State.Canonical.checkPlotDue {n} (h : s.Canonical) : (checkPlotDue s n).Canonical :=
  ite h (ite h.runUntil.setFurrow h.runUntil.setFurrow.postRun)

/-! Machine/Buckle.lean. -/

theorem State.Canonical.setBuckle {r b} (h : s.Canonical) : (s.setBuckle r b).Canonical := h.record

theorem State.Canonical.buckleCause {r cause id} (h : s.Canonical) : (buckleCause s r cause id).Canonical :=
  h.setBits.raise

theorem State.Canonical.openBuckle {r id} (h : s.Canonical) : (openBuckle s r id).Canonical :=
  ite h.buckleCause h.setBuckle.setBits.setBits.setBit.setReg64.setReg

theorem State.Canonical.failAddress {r a} (h : s.Canonical) : (failAddress s r a).Canonical :=
  (ite h.setReg64 h).setBuckle

theorem State.Canonical.dropShadow {r a} (h : s.Canonical) : (dropShadow s r a).Canonical :=
  h.buckleCause.setBit.failAddress

theorem State.Canonical.shadowWrite {r a mask value} (h : s.Canonical) : (shadowWrite s r a mask value).Canonical :=
  ite h.dropShadow h.setBuckle.setBits

theorem State.Canonical.writeShBits {req a mask value} (h : s.Canonical) :
    (writeShBits s req a mask value).Canonical := by
  unfold Machine.writeShBits
  split
  · exact h
  · dsimp only
    split
    · split
      · exact h.shadowWrite
      · split
        · exact h
        · split
          · exact h.buckleCause
          · exact h.raise
    · split
      · exact h
      · split
        · exact h.buckleCause
        · exact h.raise

theorem State.Canonical.fireOld {n} {s0 : State} (hs : s.Canonical) : (fireOld s0 s n).Canonical :=
  ite hs.setFsync.record hs

theorem State.Canonical.commitFsync {n} {s0 : State} (hs : s.Canonical) : (commitFsync s0 s n).Canonical :=
  ite hs.fireOld.setFsync hs

theorem State.Canonical.commitSchedule {n} {s0 : State} (hs : s.Canonical) : (commitSchedule s0 s n).Canonical :=
  ite hs.setRein hs

theorem State.Canonical.commitRearm {n} (h : s.Canonical) : (commitRearm s n).Canonical :=
  ite h (ite h.setBit.raise h.setBit.setRein)

theorem State.Canonical.commitMartingale {m} {s0 : State} (hs : s.Canonical) : (commitMartingale s0 s m).Canonical :=
  ite hs.setBits (ite hs.restartMartingale hs)

theorem State.Canonical.commitWatchdog {s0 : State} (hs : s.Canonical) : (commitWatchdog s0 s).Canonical :=
  ite hs.judgeIfEnded.record (ite hs.judgeIfEnded.record hs.judgeIfEnded)

theorem State.Canonical.commitPipe {p} (h : s.Canonical) : (commitPipe s p).Canonical := ite h.record h

theorem State.Canonical.commitPeer {p} {s0 : State} (hs : s.Canonical) : (commitPeer s0 s p).Canonical :=
  ite hs.setBit.rejoin hs.setBit

theorem State.Canonical.commitEffect {mask a} {s0 : State} (hs : s.Canonical) :
    (commitEffect s0 mask s a).Canonical := by
  unfold Machine.commitEffect
  extract_lets _ s1 s2 s3 s4 s5 s6 s7 s8
  have h1 : s1.Canonical := by
    unfold s1
    split
    · exact hs.commitFsync
    · exact hs
  have h2 : s2.Canonical := by
    unfold s2
    split
    · exact ite h1.commitSchedule.commitRearm h1.commitSchedule
    · exact h1
  have h3 : s3.Canonical := by
    unfold s3
    split
    · exact h2.commitSchedule
    · exact h2
  have h4 : s4.Canonical := by
    unfold s4
    split
    · exact h3.commitMartingale
    · exact h3
  have h5 : s5.Canonical := by
    unfold s5
    split
    · exact ite h4.commitPipe h4
    · exact h4
  have h6 : s6.Canonical := by
    unfold s6
    split
    · exact h5.setChute
    · exact h5
  have h7 : s7.Canonical := by
    unfold s7
    split
    · exact ite h6.commitPeer h6
    · exact h6
  have h8 : s8.Canonical := ite h7.commitWatchdog h7
  exact ite h8.setBit.leaveSafe h8

theorem State.Canonical.applySettings {xs} (h : s.Canonical) : (applySettings s xs).Canonical :=
  (h.foldl fun _ _ h => h.setReg).foldl fun _ _ h => h.commitEffect

theorem State.Canonical.endLoad {result} (h : s.Canonical) : (endLoad s result).Canonical :=
  h.setBit.setBit.setBits.notify

theorem State.Canonical.recordImage (h : s.Canonical) : (recordImage s).Canonical :=
  h.setReg.forUpTo fun _ _ h => h.setReg

theorem State.Canonical.endBuckle {r outcome cause} (h : s.Canonical) : (endBuckle s r outcome cause).Canonical := by
  unfold Machine.endBuckle
  extract_lets _ s1 s2 s3
  have h1 : s1.Canonical := h.setBits.setBits
  have h2 : s2.Canonical := h1.setBit.setBit.setReg
  have h3 : s3.Canonical := h2.setBuckle.buckleCause
  exact ite h3.notify (ite h3.notify (ite (ite h3.setBits.recordImage.endLoad h3.setBits.endLoad) h3))

theorem State.Canonical.fastenChecks {r boundary target} (h : s.Canonical) :
    (fastenChecks s r boundary target).2.Canonical := by
  unfold Machine.fastenChecks
  dsimp only
  split
  · exact h
  · split
    · exact h.failAddress
    · exact h

theorem State.Canonical.fasten {r boundary target} (h : s.Canonical) : (fasten s r boundary target).Canonical := by
  unfold Machine.fasten
  split
  · exact h.buckleCause
  · split
    · next e =>
      have h := h.fastenChecks.ofSnd e
      exact h.endBuckle
    · next e =>
      have h := h.fastenChecks.ofSnd e
      exact (ite h.setBuckle.record h.setBuckle).setBits

theorem State.Canonical.slip {r outcome cause} (h : s.Canonical) : (slip s r outcome cause).Canonical :=
  ite h h.endBuckle

theorem State.Canonical.commit {r} (h : s.Canonical) : (commit s r).Canonical := by
  unfold Machine.commit
  split
  · exact h
  · dsimp only
    split
    · next e =>
      have h := h.fastenChecks.ofSnd e
      exact h.endBuckle
    · next e =>
      have h := h.fastenChecks.ofSnd e
      exact h.applySettings.endBuckle

theorem State.Canonical.commitAt {boundary target} (h : s.Canonical) : (commitAt s boundary target).Canonical :=
  h.forUpTo fun _ _ h => ite h.commit h

theorem State.Canonical.toBoundary {b} (h : s.Canonical) : (s.toBoundary b).Canonical := ite h.runToCycle h.runUntil

theorem State.Canonical.slipOrCommit {r outcome cause due} (h : s.Canonical) :
    (slipOrCommit s r outcome cause due).Canonical := by
  unfold Machine.slipOrCommit
  extract_lets _ s1
  have h1 : s1.Canonical := h.runUntil.slip
  split
  · exact h1
  · split
    · exact h.commit
    · split
      · exact ite h.runToCycle.commit h1
      · exact h1
    · exact ite h.runUntil.commit h1
    · exact h1

theorem State.Canonical.requestSlip {r} (h : s.Canonical) : (requestSlip s r).Canonical := ite h h.slipOrCommit

theorem State.Canonical.buckleTimeout {r} (h : s.Canonical) : (buckleTimeout s r).Canonical := ite h h.slipOrCommit

theorem State.Canonical.commitBefore {c n} (h : s.Canonical) : (commitBefore s c n).Canonical :=
  ite h.runToCycle.commitAt.runToCycle h.runToCycle

theorem State.Canonical.commitAhead {n} (h : s.Canonical) : (commitAhead s n).Canonical := by
  unfold Machine.commitAhead
  split
  · exact ite h.runToCycle.commitAt h
  · exact h

/-! Machine/Intake.lean. -/

theorem State.Canonical.setPipe {p x} (h : s.Canonical) : (s.setPipe p x).Canonical := h.record

theorem State.Canonical.pipeEvent {p cause cls flag} (h : s.Canonical) : (pipeEvent s p cause cls flag).Canonical :=
  (ite h.setBit h).raise

theorem State.Canonical.errorFrame {p} (h : s.Canonical) : (errorFrame s p).Canonical := by
  unfold Machine.errorFrame
  dsimp only
  split
  · exact ite h.setPipe.addSat h
  · exact h

theorem State.Canonical.frameError {p cause flag} (h : s.Canonical) : (frameError s p cause flag).Canonical :=
  h.pipeEvent.errorFrame

theorem State.Canonical.structureError {p} (h : s.Canonical) : (structureError s p).Canonical := h.frameError

theorem State.Canonical.headerEcc {p e} (h : s.Canonical) : (headerEcc s p e).2.Canonical := by
  unfold Machine.headerEcc
  split
  · exact h
  · exact h.setPipe.pipeEvent
  · exact h.frameError

theorem State.Canonical.dropFrame {p cause flag f} (h : s.Canonical) : (dropFrame s p cause flag f).Canonical :=
  h.pipeEvent.addSat.setPipe

theorem State.Canonical.startFrame {p number corrected t camera running} (h : s.Canonical) :
    (startFrame s p number corrected t camera running).Canonical :=
  ite h.setPipe (ite h.addWrap.dropFrame (ite h.addWrap.dropFrame (ite h.addWrap.pipeEvent
    h.addWrap).setReg64.rewriteWords.setPipe))

theorem State.Canonical.writeOutputRow {p y bs} (h : s.Canonical) : (writeOutputRow s p y bs).Canonical := by
  unfold Machine.writeOutputRow
  dsimp only
  split
  · exact h
  · exact (h.forUpTo fun _ _ h => ite h.store h).setPipe

theorem State.Canonical.writeReadyRows {p fuel} (h : s.Canonical) : (writeReadyRows s p fuel).Canonical := by
  induction fuel generalizing s with
  | zero => exact h
  | succ n ih =>
    rw [Machine.writeReadyRows]
    split
    · exact h
    · exact ite (ih h.writeOutputRow) h

theorem State.Canonical.postTrigger {p x i k n} (h : s.Canonical) : (postTrigger s p x i k n).Canonical :=
  h.ring.setPipe

theorem State.Canonical.completeFrame {p} (h : s.Canonical) : (completeFrame s p).Canonical := by
  unfold Machine.completeFrame
  split
  · exact h
  · exact (h.store.checkInAll.foldl fun _ _ h => h.postTrigger).setPipe.setBits

theorem State.Canonical.endFrame {p camera} (h : s.Canonical) : (endFrame s p camera).Canonical := by
  unfold Machine.endFrame
  dsimp only
  split
  · exact ite h.setPipe h.setPipe
  · exact h

theorem State.Canonical.onFrame {p} {g : IntakeFrame → IntakeFrame} (h : s.Canonical) : (onFrame s p g).Canonical :=
  h.setPipe

theorem State.Canonical.frameStart {p number ecc t running} (h : s.Canonical) :
    (frameStart s p number ecc t running).Canonical := by
  unfold Machine.frameStart
  split
  · next e => exact h.headerEcc.ofSnd e
  · next e =>
    have h := h.headerEcc.ofSnd e
    extract_lets wasOpen s1 s2 s3 follows _ s4 s5
    have h3 : s3.Canonical := (ite h.structureError h).completeFrame.commitAt
    have h4 : s4.Canonical := ite h3 h3.setPipe
    have h5 : s5.Canonical := h4.startFrame
    split
    · exact ite h5.structureError h5
    · exact h5

theorem State.Canonical.frameEnd {p number ecc} (h : s.Canonical) : (frameEnd s p number ecc).Canonical := by
  unfold Machine.frameEnd
  split
  · next e =>
    have h := h.headerEcc.ofSnd e
    exact h
  · next e =>
    have h := h.headerEcc.ofSnd e
    refine Canonical.endFrame ?_
    split
    · exact ite h.structureError h
    · exact h

theorem State.Canonical.lineStart {p number ecc} (h : s.Canonical) : (lineStart s p number ecc).Canonical := by
  unfold Machine.lineStart
  split
  · next e =>
    have h := h.headerEcc.ofSnd e
    exact h
  · next e =>
    have h := h.headerEcc.ofSnd e
    split
    · exact ite h.onFrame.structureError h.onFrame
    · exact h

theorem State.Canonical.lineEnd {p ecc} (h : s.Canonical) : (lineEnd s p ecc).Canonical := h.headerEcc

theorem State.Canonical.longPacket {p k} (h : s.Canonical) : (longPacket s p k).Canonical := by
  unfold Machine.longPacket
  split
  · next e =>
    have h := h.headerEcc.ofSnd e
    exact h
  · next e =>
    have h := h.headerEcc.ofSnd e
    extract_lets s1 s2 _ s3 s4 s5
    have h1 : s1.Canonical := h.onFrame
    have h2 : s2.Canonical := ite h1 h1.frameError
    have h3 : s3.Canonical := ite h2 h2.structureError
    have h4 : s4.Canonical := by
      unfold s4
      split
      · exact h3
      · exact h3.pipeEvent
      · exact h3.frameError
    have h5 : s5.Canonical := ite h4.frameError h4
    split
    · exact ite h5.onFrame.writeReadyRows h5
    · exact h5

theorem State.Canonical.takePacket {p running k} (h : s.Canonical) : (takePacket s p running k).Canonical := by
  unfold Machine.takePacket
  split
  · exact h.frameStart
  · exact ite h.setPipe h.frameEnd
  · exact ite h h.lineStart
  · exact ite h h.lineEnd
  · exact ite h h.longPacket

theorem State.Canonical.queuePacket {p k} (h : s.Canonical) : (queuePacket s p k).Canonical :=
  ite (ite h.setPipe h.setPipe) h.takePacket

theorem State.Canonical.csiPacket {receiver ps k} (h : s.Canonical) : (csiPacket s receiver ps k).Canonical :=
  ite h (ite h.addSat (h.foldl fun _ _ h => h.queuePacket))

theorem State.Canonical.drainWaiting {p l} (h : s.Canonical) : (drainWaiting s p l).Canonical := by
  induction l generalizing s with
  | nil => exact ite h.setPipe.structureError h.setPipe
  | cons x l ih => exact ite h.takePacket.setPipe (ih h.takePacket)

theorem State.Canonical.checkRow {p} (h : s.Canonical) : (checkRow s p).Canonical := by
  unfold Machine.checkRow
  split
  · exact h
  · exact (ite h.runUntil.setReg.setPipe h.runUntil.setReg.setPipe.setPipe.pipeEvent.stopField).drainWaiting

theorem State.Canonical.streamRow {p f payload} (h : s.Canonical) : (streamRow s p f payload).Canonical := by
  unfold Machine.streamRow
  extract_lets t s1 _ _ _ _ _ s2 s3 _ s4 s5 s6
  have h1 : s1.Canonical := ite h h.completeFrame.commitAt.startFrame
  have h3 : s3.Canonical := h1.setPipe.onFrame
  have h4 : s4.Canonical := ite h3.frameError h3
  have h5 : s5.Canonical := ite h4.frameError h4
  have h6 : s6.Canonical := by
    unfold s6
    split
    · exact ite h5.writeOutputRow h5
    · exact h5
  refine ite h.frameError ?_
  split
  · exact ite h6.endFrame h6
  · exact h6

theorem State.Canonical.sensorFrame {f} (h : s.Canonical) : (sensorFrame s f).Canonical :=
  ite h.addSat (h.foldl fun _ _ h => h.streamRow)

theorem State.Canonical.groupGap {p} (h : s.Canonical) : (groupGap s p).Canonical := by
  unfold Machine.groupGap
  split
  · exact ite h (ite h.runUntil.frameError h.runUntil).endFrame
  · exact h

theorem State.Canonical.clearIntakeCounters (h : s.Canonical) : (clearIntakeCounters s).Canonical :=
  ((h.forUpTo fun _ _ h => h.setBits).forUpTo fun _ _ h => h.setBits).forUpTo fun _ _ h => h.setReg

theorem State.Canonical.restartPipe {p} (h : s.Canonical) : (restartPipe s p).Canonical := h.setPipe.setReg.setBits

end Sys2Proof.Machine
end

