-- ==== Sys2Proof/Proofs/CanonicalDevice.lean ====
section
/-! SUPPORT. Harness, start-up, the chain, links, injection, access, PCIe and the management tick: each function
keeps the canonical form of memory. -/

namespace Sys2Proof.Machine

variable {s : State}

/-! Machine/Harness.lean. -/

theorem State.Canonical.loadHopperWord {k w mask value} (h : s.Canonical) :
    (loadHopperWord s k w mask value).Canonical :=
  h.setHopper

theorem State.Canonical.loadEntry {sect tab idx e} (h : s.Canonical) : (loadEntry s sect tab idx e).Canonical := by
  unfold Machine.loadEntry
  dsimp only
  split
  · exact h.setEntry.setReg.setBits
  · exact h.setEntry.setBits.setBits
  · exact h.setEntry.setBits
  · exact h.setEntry.forUpTo fun _ _ h => h.setBit
  · exact h.setEntry.setBit
  · exact h.setEntry

theorem State.Canonical.loadRecord {sect l} (h : s.Canonical) : (loadRecord s sect l).Canonical := by
  unfold Machine.loadRecord
  split
  · split
    · exact h.loadHopperWord
    · exact h
  · exact ite h h.loadEntry

theorem State.Canonical.clearFenced (h : s.Canonical) : (clearFenced s).Canonical :=
  h.forUpTo fun _ _ h => ite (h.forUpTo fun _ _ h => ite h.setBit h.setBit) h

theorem State.Canonical.placeFurrow {n} (h : s.Canonical) : (placeFurrow s n).Canonical := by
  unfold Machine.placeFurrow
  split
  · exact h.setBit.setBits
  · exact h.setBit.setBits

theorem State.Canonical.configureField {f} (h : s.Canonical) : (configureField s f).Canonical :=
  (ite h.setFieldState (ite h.setFieldState h)).setBit

theorem State.Canonical.startSlot {n k} (h : s.Canonical) : (startSlot s n k).Canonical := h.setBits

theorem State.Canonical.startRuns {n} (h : s.Canonical) : (startRuns s n).Canonical := h.setFurrow

theorem State.Canonical.decideProfile (h : s.Canonical) : (decideProfile s).Canonical := h.setBits

theorem State.Canonical.freshSources {all xs} (h : s.Canonical) : (freshSources s all xs).Canonical := h.record.record

theorem State.Canonical.freshTotals {all xs} (h : s.Canonical) : (freshTotals s all xs).Canonical := h.record

theorem State.Canonical.applyImage {kind xs} (h : s.Canonical) : (applyImage s kind xs).Canonical := by
  unfold Machine.applyImage
  extract_lets _ s1 s2 s3 s4 s5 s6 s7 s8 s9 s10 s11
  have h1 : s1.Canonical := h.settleLate
  have h2 : s2.Canonical := h1.applySettings
  have h3 : s3.Canonical := h2.foldl fun _ _ h => h.loadRecord
  have h4 : s4.Canonical := (h3.clearFenced.forUpTo fun _ _ h => h.placeFurrow).forUpTo fun _ _ h => ite
    h.configureField h
  have h5 : s5.Canonical := h4.forUpTo fun _ _ h => h.forUpTo fun _ _ h => ite h.startSlot h
  have h6 : s6.Canonical := h5.forUpTo fun _ _ h => ite h.startRound h
  have h7 : s7.Canonical := h6.forUpTo fun _ _ h => ite h.restartPipe h
  have h8 : s8.Canonical := h7.forUpTo fun _ _ h => ite h.startRuns h
  have h9 : s9.Canonical := ite h8.decideProfile h8
  have h10 : s10.Canonical := h9.freshSources
  have h11 : s11.Canonical := ite h10.setBit h10
  exact ite (h11.freshTotals.forUpTo fun _ _ h => h.openStreams) h11

theorem State.Canonical.loadCause {cause cls loc} (h : s.Canonical) : (loadCause s cause cls loc).Canonical := by
  unfold Machine.loadCause
  dsimp only
  split
  · exact h.setBits.raise
  · exact h.setBits.raise

theorem State.Canonical.rejectLoad {check loc} (h : s.Canonical) : (rejectLoad s check loc).Canonical :=
  h.takeFree.setReg.record.loadCause.endLoad

theorem State.Canonical.fastenImage {xs} (h : s.Canonical) : (fastenImage s xs).Canonical :=
  ite h.record.openBuckle.setBits.endLoad (h.record.openBuckle.foldl fun _ _ h => h.shadowWrite).fasten

theorem State.Canonical.applyLoad (h : s.Canonical) : (applyLoad s).Canonical := by
  unfold Machine.applyLoad
  split
  · exact h
  · dsimp only
    split
    · exact h.rejectLoad
    · split
      · exact h.fastenImage
      · split
        · exact h.rejectLoad
        · exact h.applyImage.recordImage.loadCause.endLoad

theorem State.Canonical.beginLoad {img} (h : s.Canonical) : (beginLoad s img).Canonical := h.record.setBit.setBits

theorem State.Canonical.requestLoad {r} (h : s.Canonical) : (requestLoad s r).Canonical :=
  ite h.deniedAccess (ite h.loadCause h.noteRead.beginLoad)

/-! Machine/Boot.lean. -/

theorem State.Canonical.powerReset (h : s.Canonical) : (powerReset s).Canonical := wf_filter _ inFlash h

theorem State.Canonical.warmReset {midSlice} (h : s.Canonical) : (warmReset s midSlice).Canonical :=
  wf_filter _ (fun a => a < 0x2000000000 || inSram a || inFlash a) (ite h.mapToken h)

theorem State.Canonical.tryFirmware {reeve l} (h : s.Canonical) : (tryFirmware reeve s l).1.Canonical := by
  induction l generalizing s with
  | nil => exact h.raise
  | cons x l ih =>
    rw [Machine.tryFirmware]
    split
    · exact h
    · exact ih h.raise

theorem State.Canonical.setPhysical {n p} (h : s.Canonical) : (setPhysical s n p).Canonical := h.record

theorem State.Canonical.drainFaults (h : s.Canonical) : (drainFaults s).Canonical :=
  h.forUpTo fun _ _ h => h.faultReport

theorem State.Canonical.drainTally (h : s.Canonical) : (drainTally s).Canonical := h.forUpTo fun _ _ h => h.tallyWrite

theorem State.Canonical.startReeve {img} (h : s.Canonical) : (startReeve s img).Canonical := h.store

theorem State.Canonical.preCheck (h : s.Canonical) : (preCheck s).Canonical := by
  unfold Machine.preCheck
  dsimp only
  split
  · exact h.setBits.loadEntry
  · exact h.setBits

theorem State.Canonical.testIsland {env} (h : s.Canonical) : (testIsland s env).Canonical := h.raiseIf

theorem State.Canonical.compareFuses {env} (h : s.Canonical) : (compareFuses s env).Canonical := h.raiseIf

theorem State.Canonical.zeroSeedbeds (h : s.Canonical) : (zeroSeedbeds s).Canonical := by
  have hm : State.Canonical { s with
      mem := s.mem.filter fun (a, _) => (seedbedOf a).isNone
      marks := s.marks.filter fun (g, _) => (seedbedOf (32 * g)).isNone } :=
    wf_filter _ (fun a => (seedbedOf a).isNone) h
  exact (hm.forUpTo fun _ _ h => h.setBit).issueHeld

theorem State.Canonical.testSeedbeds {env} (h : s.Canonical) : (testSeedbeds s env).Canonical := h.record.zeroSeedbeds

theorem State.Canonical.trainChannel {env c} (h : s.Canonical) : (trainChannel s env c).Canonical :=
  h.raiseIf.setBits.setBits.record.raiseIf

theorem State.Canonical.fillDram (h : s.Canonical) : (fillDram s).Canonical :=
  wf_filter _ (fun a => 0x2000000000 ≤ a) h

theorem State.Canonical.chainFault {twoHeads} (h : s.Canonical) : (chainFault s twoHeads).Canonical :=
  h.setBit.emit.raise

theorem State.Canonical.detectChainError {twoHeads} (h : s.Canonical) : (detectChainError s twoHeads).Canonical :=
  ite h h.record.chainFault

theorem State.Canonical.takeAddress {a} (h : s.Canonical) : (takeAddress s a).Canonical := h.setBits.setBit.record

theorem State.Canonical.takeAddr {a} (h : s.Canonical) : (takeAddr s a).Canonical := by
  unfold Machine.takeAddr
  extract_lets s1
  have h1 : s1.Canonical := ite h.setBit.raise h
  exact ite h1.detectChainError (ite h1.chainLocal.detectChainError (ite h1 h1.takeAddress))

theorem State.Canonical.addressChain {env} (h : s.Canonical) : (addressChain s env).Canonical := by
  unfold Machine.addressChain
  dsimp only
  split
  · exact (ite h.setBit.setBit.takeAddress h.setBit.setBit.record).takeAddr
  · exact ite h.setBit.setBit.takeAddress h.setBit.setBit.record

theorem State.Canonical.alignChain {env} (h : s.Canonical) : (alignChain s env).Canonical := by
  unfold Machine.alignChain
  split
  · exact ite h.setReg.setTime.setBit.record h
  · exact h

theorem State.Canonical.lowMargin {k} (h : s.Canonical) : (lowMargin s k).Canonical :=
  ite h.record.raise (ite h.record.takeFree.raise h.record.raise)

theorem State.Canonical.trainLink {k margin temp} (h : s.Canonical) : (trainLink s k margin temp).Canonical :=
  ite h.setBits.setBits.record.lowMargin h.setBits.setBits.record

theorem State.Canonical.pcieUp {w} (h : s.Canonical) : (pcieUp s w).Canonical := ite h h.setBits.setBits.setBit

theorem State.Canonical.startPcie {env} (h : s.Canonical) : (startPcie s env).Canonical := by
  unfold Machine.startPcie
  split
  · exact h.pcieUp
  · exact h

theorem State.Canonical.startLinks {env} (h : s.Canonical) : (startLinks s env).Canonical :=
  (h.addressChain.alignChain.forUpTo fun _ _ h => h.trainLink).startPcie

theorem State.Canonical.broadcast {env img} (h : s.Canonical) : (broadcast s env img).Canonical :=
  h.record.setBits.setBits.setBits.forUpTo fun _ _ h => h.raise

theorem State.Canonical.showStores {env loaded n p} (h : s.Canonical) : (showStores s env loaded n p).Canonical :=
  h.setBits

theorem State.Canonical.fenceAtStart {n} (h : s.Canonical) : (fenceAtStart s n).Canonical :=
  h.setBits.setBits.addSat.raise

theorem State.Canonical.passBaseline {n} (h : s.Canonical) : (passBaseline s n).Canonical :=
  h.setBits.addWrap.setReg64

theorem State.Canonical.placePhysical {env loaded tested n spares p} (h : s.Canonical) :
    (placePhysical env loaded tested n spares s p).Canonical := by
  induction spares generalizing s p with
  | nil =>
    exact ite (ite h.setPhysical.showStores.passBaseline h.setPhysical.showStores).setBits.record
      h.setPhysical.showStores.record.fenceAtStart
  | cons q rest ih =>
    exact ite (ite h.setPhysical.showStores.passBaseline h.setPhysical.showStores).setBits.record
      (ih h.setPhysical.showStores.raise.addSat)

theorem State.Canonical.systemHoppers (h : s.Canonical) : (systemHoppers s).Canonical :=
  h.forUpTo fun _ _ h => h.setHopper

theorem State.Canonical.loadRuns {img} (h : s.Canonical) : (loadRuns s img).Canonical := by
  unfold Machine.loadRuns
  split
  · exact h
  · exact h.forUpTo fun _ _ h => ite h h.store

theorem State.Canonical.clearMap (h : s.Canonical) : (clearMap s).Canonical :=
  h.setBits.setBits.forUpTo fun _ _ h => h.setBits

theorem State.Canonical.startFurrows {env} (h : s.Canonical) : (startFurrows s env).Canonical := by
  unfold Machine.startFurrows
  extract_lets s1
  split
  next s2 img e =>
  have h2 : s2.Canonical := h.clearMap.tryFirmware.ofFst e
  extract_lets s3 good _ s4 s5
  have h3 : s3.Canonical := by
    unfold s3
    split
    · exact h2.broadcast
    · exact h2
  have h5 : s5.Canonical := h3.record.forUpTo fun n t h => by
    split
    · exact h.placePhysical
    · exact h.fenceAtStart
  exact h5.setBits.loadRuns.systemHoppers

theorem State.Canonical.reportNow {e} (h : s.Canonical) : (reportNow s e).Canonical :=
  ite h.drivePins.writeOrCoalesce h.drivePins.writeEvent

theorem State.Canonical.injectAll {env} (h : s.Canonical) : (injectAll s env).Canonical :=
  ((h.setBits.setBits.foldl fun _ _ h => h.setReg).drainFaults.drainTally.reportNow.foldl fun _ _ h =>
    h.reportNow).setBit.setBit.releaseFaultN

theorem State.Canonical.loadSlots {l} (h : s.Canonical) : (loadSlots s l).Canonical := by
  induction l generalizing s with
  | nil => exact h.setBit.raise
  | cons x l ih => exact ite h.setBit.beginLoad.applyLoad.setBits (ih h.setBit.beginLoad.applyLoad)

theorem State.Canonical.writeToken {env code} (h : s.Canonical) : (writeToken s env code).Canonical := h.record

theorem State.Canonical.endStart {env path step} (h : s.Canonical) : (endStart s env path step).Canonical :=
  h.loadSlots.drainFaults.drainTally.setBits.setBits.setBits.setBit

theorem State.Canonical.startFromStep3 {env path code} (h : s.Canonical) :
    (startFromStep3 s env path code).Canonical :=
  (h.testSeedbeds.forUpTo fun _ _ h => h.trainChannel).fillDram.startLinks.startFurrows.injectAll.writeToken.endStart

theorem State.Canonical.startFromStep2 {env path img} (h : s.Canonical) : (startFromStep2 s env path img).Canonical :=
  h.startReeve.preCheck.testIsland.startFromStep3

theorem State.Canonical.enterRecovery {env} (h : s.Canonical) : (enterRecovery s env).Canonical :=
  h.startPcie.drainFaults.drainTally.setBits.setBits

theorem State.Canonical.runStart {env} (h : s.Canonical) : (runStart s env).Canonical := h.runCycles

theorem State.Canonical.sampleSafeReq (h : s.Canonical) : (sampleSafeReq s).Canonical := ite h.setBit.raise h

theorem State.Canonical.startFull {env path} (h : s.Canonical) : (startFull s env path).Canonical := by
  unfold Machine.startFull
  dsimp only
  split
  · next e =>
    have h := h.runStart.sampleSafeReq.compareFuses.setBit.tryFirmware.ofFst e
    exact h.startFromStep2
  · next e =>
    have h := h.runStart.sampleSafeReq.compareFuses.setBit.tryFirmware.ofFst e
    exact h.enterRecovery

theorem State.Canonical.lockPll (h : s.Canonical) : (lockPll s).Canonical := h.setBit.setBit.record

theorem State.Canonical.startCold {env} (h : s.Canonical) : (startCold s env).Canonical :=
  ite h.record.lockPll.startFull h.record.setBits.record

theorem State.Canonical.releasePorst {env} (h : s.Canonical) : (releasePorst s env).Canonical :=
  ite h (ite h.record.setBit.record h.record.setBit.startCold)

theorem State.Canonical.restoreMap {t} (h : s.Canonical) : (restoreMap s t).Canonical :=
  (((h.foldl fun _ _ h => h.setPhysical).forUpTo fun _ _ h => h.setBits).foldl fun _ _ h =>
    h.setBits).setBits.setBits.setBits

theorem State.Canonical.restoreTraining {t} (h : s.Canonical) : (restoreTraining s t).Canonical :=
  h.setReg.setBits.foldl fun _ _ h => ite h.record h.record

theorem State.Canonical.fenceInMap {n} (h : s.Canonical) : (fenceInMap s n).Canonical := h.fenceAtStart.mapToken

theorem State.Canonical.reloadFurrows {env t} (h : s.Canonical) : (reloadFurrows s env t).Canonical := by
  unfold Machine.reloadFurrows
  split
  next s1 img e =>
  have h1 : s1.Canonical := h.tryFirmware.ofFst e
  extract_lets s2 s3
  have h2 : s2.Canonical := by
    unfold s2
    split
    · exact h1.broadcast
    · exact h1
  have h3 : s3.Canonical := h2.foldl fun _ _ h => ite h.showStores h.showStores.fenceInMap
  exact h3.loadRuns.systemHoppers

theorem State.Canonical.startFast {env t} (h : s.Canonical) : (startFast s env t).Canonical :=
  ite h.runStart.sampleSafeReq.compareFuses.setBit.restoreMap.zeroSeedbeds.restoreTraining.startFromStep3
    (h.runStart.sampleSafeReq.compareFuses.setBit.restoreMap.zeroSeedbeds.restoreTraining.addressChain.alignChain
      |>.startPcie.reloadFurrows.injectAll.endStart)

theorem State.Canonical.startWarmRejected {env reasons} (h : s.Canonical) :
    (startWarm.rejected env s reasons).Canonical := by
  unfold Machine.startWarm.rejected
  exact h.raise.raiseIf.startFull

theorem State.Canonical.startWarm {env} (h : s.Canonical) : (startWarm s env).Canonical := by
  unfold Machine.startWarm
  extract_lets s1 _ _ s2
  have h2 : s2.Canonical := h.setBit.setBit.setReg
  split
  · exact ite h2.startFast h2.startWarmRejected
  · exact h2.startWarmRejected

theorem State.Canonical.beginWarm {env} (h : s.Canonical) : (beginWarm s env).Canonical :=
  ite h.startWarm (ite h.lockPll.startWarm h.setBits.record)

theorem State.Canonical.releaseWarm {env} (h : s.Canonical) : (releaseWarm s env).Canonical :=
  ite h (ite h.record (ite h.record.startCold h.record.beginWarm))

theorem State.Canonical.pllLock (h : s.Canonical) : (pllLock s).Canonical := by
  unfold Machine.pllLock
  split
  · exact h
  · split
    · exact ite h.lockPll.record.startWarm h.lockPll.record.startFull
    · exact ite h.setBit h.lockPll

theorem State.Canonical.bootCommand {env} (h : s.Canonical) : (bootCommand s env).Canonical :=
  ite h (ite h.runStart.startFromStep2 h.raise)

theorem State.Canonical.clockFault {code flag} (h : s.Canonical) : (clockFault s code flag).Canonical :=
  h.setBit.setBit.setBit.raise

/-! Machine/Chain.lean. -/

theorem State.Canonical.forward {f} (h : s.Canonical) : (forward s f).Canonical :=
  ite h (ite h.chainOn (ite h h.chainOn))

theorem State.Canonical.chainReceive {f kind} {act : State → State} (h : s.Canonical)
    (hf : ∀ t, t.Canonical → (act t).Canonical) : (chainReceive s f kind act).Canonical :=
  ite h (ite h.addSat.raise (ite h (ite (hf _ h.forward) h.forward)))

theorem State.Canonical.hear {f} (h : s.Canonical) : (hear s f).Canonical :=
  ite h (ite (ite (ite h.detectChainError h) (ite h.detectChainError h).record).record.reportFence (ite (ite
    h.detectChainError h) (ite h.detectChainError h).record).record)

theorem State.Canonical.answerProbe {tick} (h : s.Canonical) : (answerProbe s tick).Canonical := h.emit

theorem State.Canonical.takeReply {sent received upstream} (h : s.Canonical) :
    (takeReply s sent received upstream).Canonical :=
  ite h.record h.record.setReg.setTime.setBit.record

theorem State.Canonical.queueMgmt {f} (h : s.Canonical) : (queueMgmt s f).Canonical :=
  ite h.addSat.raise h.record.setBits

theorem State.Canonical.sendMgmt {broadcast dst} (h : s.Canonical) : (sendMgmt s broadcast dst).Canonical :=
  ite h (ite h.record.chainBroadcast h.record.chainUnicast)

theorem State.Canonical.popMgmt (h : s.Canonical) : (popMgmt s).Canonical := h.record.setBits

theorem State.Canonical.traceLink {upstream up} (h : s.Canonical) : (traceLink s upstream up).Canonical := h.setBit

/-! Machine/Links.lean. -/

theorem State.Canonical.startLinkRetrain {k rotation} (h : s.Canonical) : (startLinkRetrain s k rotation).Canonical :=
  h.record

theorem State.Canonical.endLinkRetrain {k margin temp} (h : s.Canonical) :
    (endLinkRetrain s k margin temp).Canonical :=
  h.addSat.record.trainLink.retrained.record

theorem State.Canonical.linkSlice {margin x} (h : s.Canonical) : (linkSlice s margin x).Canonical := by
  unfold Machine.linkSlice
  split
  · exact h
  · split
    · exact ite h (ite h.record h.endLinkRetrain)
    · split
      · exact ite h h.startLinkRetrain.record
      · exact h

theorem State.Canonical.undoLinkRetrain {d} (h : s.Canonical) : (undoLinkRetrain s d).Canonical := by
  unfold Machine.undoLinkRetrain
  dsimp only
  split
  · split
    · exact h.setReg.record.mapToken.record
    · exact h.setReg.record.record
  · split
    · exact h.setReg.record.mapToken
    · exact h.setReg.record

theorem State.Canonical.abortSlice {receiver} (h : s.Canonical) : (abortSlice s receiver).Canonical := by
  unfold Machine.abortSlice
  split
  · exact h.record
  · split
    · exact ite h.undoLinkRetrain h
    · exact h

theorem State.Canonical.scrubEvent {x corr uncorr inst} (h : s.Canonical) :
    (scrubEvent s x corr uncorr inst).Canonical := by
  unfold Machine.scrubEvent
  split
  · exact h
  · exact h.raise
  · exact h.raise

theorem State.Canonical.noteWord {a x} (h : s.Canonical) : (noteWord s a x).Canonical := by
  unfold Machine.noteWord
  split
  · exact h
  · exact h.setBit.addSat
  · exact h.setBit.addSat

theorem State.Canonical.hopperBad {k} (h : s.Canonical) : (hopperBad s k).Canonical := ite h.raise.fenceFault h.raise

theorem State.Canonical.scrubHopper {k u} (h : s.Canonical) : (scrubHopper s k u).Canonical :=
  ite h.setHopper.hopperBad h.setHopper.scrubEvent

theorem State.Canonical.reinWord {n x} (h : s.Canonical) : (reinWord s n x).Canonical :=
  h.setRein.noteWordError.scrubEvent

theorem State.Canonical.scrubRein {n u} (h : s.Canonical) : (scrubRein s n u).Canonical := h.reinWord

theorem State.Canonical.noteRam {c x} (h : s.Canonical) : (noteRam s c x).Canonical := by
  unfold Machine.noteRam
  split
  · exact h
  · exact h.brdlFlag
  · exact h.brdlFlag

theorem State.Canonical.scrubFifo {c k u} (h : s.Canonical) : (scrubFifo s c k u).Canonical := by
  unfold Machine.scrubFifo
  dsimp only
  split
  · exact h
  · exact h.record.noteRam.scrubEvent

theorem State.Canonical.scrubWord {b i k u} (h : s.Canonical) : (scrubWord s b i k u).2.Canonical := h.setWord

theorem State.Canonical.scrubObject {o u} (h : s.Canonical) : (scrubObject s o u).Canonical :=
  h.setObject.noteRam.scrubEvent

theorem State.Canonical.scrubLine {p x} (h : s.Canonical) : (scrubLine s p x).Canonical := by
  unfold Machine.scrubLine
  split
  · exact h
  · exact h.pipeEvent
  · exact h.frameError

theorem State.Canonical.scrubChute {c k u} (h : s.Canonical) : (scrubChute s c k u).Canonical := by
  unfold Machine.scrubChute
  dsimp only
  split
  · exact h
  · exact h.setChute.checkWord

theorem State.Canonical.scrubStore {n k u} (h : s.Canonical) : (scrubStore s n k u).Canonical := by
  unfold Machine.scrubStore
  dsimp only
  split
  · exact h.setFurrow
  · exact h.setFurrow.setBit.raiseOpen
  · exact ite h.setFurrow.storeFault h.setFurrow.raise

theorem State.Canonical.scrubTally {k u} (h : s.Canonical) : (scrubTally s k u).Canonical := by
  unfold Machine.scrubTally
  refine Canonical.scrubEvent ?_
  split
  · exact h.setMark.takeFree.poke
  · exact h.setMark

theorem State.Canonical.poisonUnit {n ops x} (h : s.Canonical) : (poisonUnit s n ops x).Canonical := by
  unfold Machine.poisonUnit
  split
  · exact ite h.toEnding h
  · exact h

theorem State.Canonical.scrubRake {n x} (h : s.Canonical) : (scrubRake s n x).Canonical :=
  h.noteWord.scrubEvent.poisonUnit

theorem State.Canonical.scrubHarrow {n x} (h : s.Canonical) : (scrubHarrow s n x).Canonical :=
  h.noteWord.scrubEvent.poisonUnit

theorem State.Canonical.poisonFrame {q} (h : s.Canonical) : (poisonFrame s q).Canonical := by
  unfold Machine.poisonFrame
  split
  · exact h.setStream
  · exact h.setPort

theorem State.Canonical.droveWord {q x} (h : s.Canonical) : (droveWord s q x).Canonical :=
  (ite h.poisonFrame h).scrubEvent

theorem State.Canonical.scrubBuffer {b n i k u} {f : State → Nat → ScrubFound → State} (h : s.Canonical)
    (hf : ∀ t k x, t.Canonical → (f t k x).Canonical) : (scrubBuffer s b n i k u f).Canonical :=
  h.withUnit fun _ _ h => hf _ _ _ h.scrubWord

theorem State.Canonical.scrubMemory {m u} (h : s.Canonical) : (scrubMemory s m u).Canonical := by
  unfold Machine.scrubMemory
  split
  · exact h.withUnit fun _ _ h => h.scrubBuffer fun _ _ _ h => h.scrubRake
  · exact h.withUnit fun _ _ h => h.scrubBuffer fun _ _ _ h => h.scrubHarrow
  · exact h.scrubBuffer fun _ _ _ h => h.scrubLine
  · exact h.withUnit fun _ _ h => h.scrubRein
  · exact h.withUnit fun _ _ h => h.scrubHopper
  · exact h.withUnit fun _ _ h => h.scrubObject
  · exact h.withUnit fun _ _ h => h.withUnit fun _ _ h => h.scrubFifo
  · exact h.withUnit fun _ _ h => h.withUnit fun _ _ h => h.scrubChute
  · exact h.withUnit fun _ _ h => h.withUnit fun _ _ h => h.scrubStore
  · exact h.scrubBuffer fun _ _ _ h => h.droveWord
  · exact h.withUnit fun _ _ h => h.scrubTally

theorem State.Canonical.programFuses {r} (h : s.Canonical) : (programFuses s r).Canonical :=
  ite h.setBits.setReg.raise h.raise

theorem State.Canonical.setTap {k} (h : s.Canonical) : (setTap s k).Canonical := h.record

/-! Machine/Inject.lean. -/

theorem State.Canonical.asInjected {f : State → State} (h : s.Canonical)
    (hf : ∀ t, t.Canonical → (f t).Canonical) : (asInjected f s).Canonical := (hf _ h).record

theorem State.Canonical.noteChecker {code i} (h : s.Canonical) : (noteChecker s code i).Canonical := by
  unfold Machine.noteChecker
  split
  · exact h.setBit.addSat
  · exact h.setBit.addSat
  · exact h.setBit.addSat
  · exact h.setBit.addSat
  · exact h.setBit.addSat
  · exact h.setBit.addSat
  · exact h.setBit.addSat
  · exact h.brdlFlag
  · exact h.setBit.addSat
  · exact h.setBit.addSat
  · exact h.setBit.addSat
  · exact h.setBit.addSat
  · exact h.setBit.addSat
  · exact h.addSat
  · exact h

theorem State.Canonical.detectTask {n cause} (h : s.Canonical) : (detectTask s n cause).Canonical := by
  unfold Machine.detectTask
  dsimp only
  split
  · split
    · exact h.raise
    · exact h.finishFaulted
  · exact h.raise

theorem State.Canonical.detectCheckRow {p} (h : s.Canonical) : (detectCheckRow s p).Canonical :=
  ite h.setPipe.pipeEvent.stopField h.setPipe.pipeEvent

theorem State.Canonical.detectMartingale {m code} (h : s.Canonical) : (detectMartingale s m code).Canonical :=
  ite h.takeFree.mgRaise h.mgRaise

theorem State.Canonical.detectHeader {router} (h : s.Canonical) : (detectHeader s router).Canonical :=
  h.takeFree.raise

theorem State.Canonical.loseObject {o} (h : s.Canonical) : (loseObject s o).Canonical :=
  h.setObject.noteRam.scrubEvent

theorem State.Canonical.loseEntry {c} (h : s.Canonical) : (loseEntry s c).Canonical := h.record.noteRam.scrubEvent

theorem State.Canonical.loseWord {c} (h : s.Canonical) : (loseWord s c).Canonical := (ite h.loseBank h).checkWord

theorem State.Canonical.loseEntryOfLog (h : s.Canonical) : (loseEntryOfLog s).Canonical := h.takeFree.scrubTally

theorem State.Canonical.detect {code i} (h : s.Canonical) : (detect s code i).Canonical := by
  unfold Machine.detect
  split
  · exact h.lockstep
  · exact h.lockstep
  · exact h.lockstep
  · exact ite h.raise h.reinMismatch
  · exact h.clockFault
  · exact h.clockFault
  · exact h.tripMonitor
  · exact h.tripMonitor
  · exact h.detectHeader.noteChecker
  · exact h.detectCheckRow
  · exact h.headerEcc
  · exact h.frameError
  · exact h.frameError
  · exact h.frameError
  · exact h.pipeEvent
  · exact h.frameError
  · exact h.frameError
  · exact h.raise
  · exact h.raise
  · exact h.loseEntryOfLog
  · exact h.addSat.raise
  · exact h.brdlFlag.raise
  · exact h.detectMartingale
  · exact h.detectMartingale
  · exact h.detectMartingale
  · exact h.detectMartingale
  · exact h.droveWord
  · exact h.scrubRake
  · exact h.scrubRake
  · exact h.scrubHarrow
  · exact h.scrubHarrow
  · exact h.detectTask
  · exact h.noteWordError.scrubEvent
  · exact h.reinWord
  · exact h.noteRam.scrubEvent
  · exact h.loseObject
  · exact h.loseEntry
  · exact h.loseWord
  · exact h.crcError
  · exact h.detectTask
  · exact h.detectTask
  · exact h.hopperBad
  · exact h.noteChecker.raise

theorem State.Canonical.inject {code i} (h : s.Canonical) : (inject s code i).Canonical :=
  ite h.refuseSafety (h.asInjected fun _ h => h.detect)

/-! Machine/Access.lean. -/

theorem State.Canonical.readRegister {d a i} (h : s.Canonical) : (readRegister s d a i).2.2.Canonical := by
  unfold Machine.readRegister
  split
  · split
    · exact h.popChute
    · exact h
  · split
    · exact h.record
    · split
      · split
        · exact h.record
        · exact h
      · exact h

theorem State.Canonical.readAccess {r a n} (h : s.Canonical) : (readAccess s r a n).2.2.Canonical := by
  unfold Machine.readAccess
  split
  · exact h.deniedAccess
  · split
    · split
      · exact h.deniedAccess
      · exact h
    · split
      · split
        · exact h
        · split
          · exact h.deniedAccess
          · split
            · exact h.readRegister
            · exact h.denied
      · exact h.noteRead
    · exact h.denied

theorem State.Canonical.registerRead {r a size} (h : s.Canonical) : (registerRead s r a size).Canonical :=
  ite h.holdAccess (ite (ite h.readAccess.reeveBusError h.readAccess).emit (ite h.readAccess.reeveBusError
    h.readAccess).emit)

theorem State.Canonical.blockWrite {r a bs poison} (h : s.Canonical) : (blockWrite s r a bs poison).Canonical := by
  unfold Machine.blockWrite
  dsimp only
  split
  · exact h
  · split
    · exact h.mailboxRequest
    · split
      · exact h.deniedAccess
      · split
        · exact ite h.store h.deniedAccess
        · exact ite h.store h
        · exact ite h.store h
        · exact h.denied
        · exact h.writeDram
        · exact ite h.writeGranules h.holdAccess
        · exact h.store
        · exact h.denied
        · exact h.denied
        · exact h.denied
        · exact h

theorem State.Canonical.gatherGo {len} (h : s.Canonical) : (gatherGo s len).Canonical :=
  ite h.setBits.raise h.setBits.setBit.blockWrite

theorem State.Canonical.strobeFurrow {r n off v} (h : s.Canonical) : (strobeFurrow s r n off v).Canonical :=
  ite (h.afterOr (h.withUnit fun _ _ h => h.clearMacCounters)) (ite (h.afterOr (h.withUnit fun _ _ h => h.setReg))
    (ite (h.afterOr (h.withUnit fun _ _ h => h.clearRakeCounters)) (ite (h.afterOr (h.withUnit fun _ _ h =>
    h.clearHarrowCounters)) (ite (h.afterOr (h.withUnit fun _ _ h => h.requestFence)) (ite h.slotGenerationWrite
    h)))))

theorem State.Canonical.strobeHopper {r a v} (h : s.Canonical) : (strobeHopper s r a v).Canonical := by
  unfold Machine.strobeHopper
  dsimp only
  split
  · exact h.ring
  · split
    · exact ite (h.afterOr (h.withUnit fun _ _ h => h.controlHopper fun _ _ h => h.hopSkip)) h
    · split
      · exact h.afterOr (h.withUnit fun _ _ h => h.controlHopper fun _ _ h => h.hopCntReset)
      · split
        · exact ite (h.afterOr (h.withUnit fun _ _ h => h.controlField fun _ _ h => h.requestStop)) (ite ((ite
          (h.afterOr (h.withUnit fun _ _ h => h.controlField fun _ _ h => h.startField)) h).afterOr ((ite (h.afterOr
          (h.withUnit fun _ _ h => h.controlField fun _ _ h => h.startField)) h).withUnit fun _ _ h => h.controlField
          fun _ _ h => h.quiesceField)) (ite (h.afterOr (h.withUnit fun _ _ h => h.controlField fun _ _ h =>
          h.startField)) h))
        · exact h

theorem State.Canonical.strobeData {a v} (h : s.Canonical) : (strobeData s a v).Canonical := by
  unfold Machine.strobeData
  dsimp only
  split
  · exact h.writeRate
  · split
    · exact h.afterOr h.stepTime
    · split
      · exact ite (ite h.clearDramCounters h).retrainNow (ite h.clearDramCounters h)
      · split
        · exact h.afterOr h.setReg
        · split
          · exact h.afterOr h.clearIntakeCounters
          · split
            · exact h.afterOr (h.forUpTo fun _ _ h => h.setReg)
            · split
              · exact h.clearDroveCounters
              · split
                · exact ite h.reportFence h
                · exact h

theorem State.Canonical.strobeBridle {a v} (h : s.Canonical) : (strobeBridle s a v).Canonical := by
  unfold Machine.strobeBridle
  split
  · exact h.afterOr (h.forUpTo fun _ _ h => h.setReg)
  · split
    · exact h.afterOr (h.withUnit fun _ _ h => h.ackObject)
    · split
      · exact h.afterOr ((h.forUpTo fun _ _ h => h.setReg).forUpTo fun _ _ h => h.setReg)
      · split
        · extract_lets s1 s2 s3
          have h1 : s1.Canonical := ite h.post h
          have h2 : s2.Canonical := ite h1.abortHead h1
          have h3 : s3.Canonical := ite h2.abortAll h2
          exact ite h3.recoverChannel h3
        · exact h.afterOr (h.onTransmitChute fun _ _ h => h.pushChute)
        · exact h.afterOr (h.onTransmitChute fun _ _ h => h.holdChute)
        · exact ite (h.afterOr (h.onReceiveChute fun _ _ h => h.discardWords)) (h.afterOr (h.onReceiveChute fun _ _ h
          => h.withUnit fun _ _ h => h.discardWords))
        · exact h

theorem State.Canonical.strobeSafety {r a v} (h : s.Canonical) : (strobeSafety s r a v).Canonical := by
  unfold Machine.strobeSafety
  dsimp only
  split
  · exact ite (h.afterOr h.raise) h
  · split
    · exact ite h.kick h
    · split
      · exact h.writeReadIndex
      · split
        · exact ite h.inject h
        · split
          · exact ite h.requestLoad h
          · split
            · split
              · exact h.openBuckle
              · exact h.fasten
              · exact h.requestSlip
              · exact h
            · exact h

theorem State.Canonical.strobeReeve {r a v} (h : s.Canonical) : (strobeReeve s r a v).Canonical :=
  ite (ite h.gatherGo h) (ite (ite (ite h.sendMgmt h).popMgmt (ite h.sendMgmt h)) (ite (ite h.programFuses h) (ite
    (ite h.raise h) h)))

theorem State.Canonical.strobe {r a v} (h : s.Canonical) : (strobe s r a v).Canonical := by
  unfold Machine.strobe
  split
  · exact h.strobeFurrow
  · split
    · exact h.strobeHopper
    · split
      · exact h.strobeReeve
      · exact h.strobeBridle
      · exact h.strobeBridle
      · exact h.strobeSafety
      · exact h.strobeSafety
      · exact h.strobeReeve
      · exact h.strobeData

theorem State.Canonical.storeFields {d a v} (h : s.Canonical) : (storeFields s d a v).Canonical := h.setReg

theorem State.Canonical.writeRegister {r d a v} (h : s.Canonical) : (writeRegister s r d a v).Canonical :=
  h.storeFields.writeShBits.strobe

theorem State.Canonical.registerWrite {r a size v} (h : s.Canonical) : (registerWrite s r a size v).Canonical := by
  unfold Machine.registerWrite
  split
  · split
    · exact h.blockWrite
    · split
      · exact h.deniedAccess
      · split
        · exact h
        · split
          · exact h.denied
          · exact ite h.writeRegister h.denied
  · exact h.blockWrite

/-! Machine/Pcie.lean. -/

theorem State.Canonical.pcieError {flag cause cls} (h : s.Canonical) : (pcieError s flag cause cls).Canonical :=
  h.setBit.raise

theorem State.Canonical.unsupported {fn} (h : s.Canonical) : (unsupported s fn).Canonical := h.pcieError.emit

theorem State.Canonical.firePending {fn} (h : s.Canonical) : (firePending s fn).Canonical :=
  h.forUpTo fun _ _ h => ite h.setFunction.emit h

theorem State.Canonical.writePageByte {fn off b} (h : s.Canonical) : (writePageByte s fn off b).Canonical :=
  ite h.setFunction h

theorem State.Canonical.pageWrite {fn off bs} (h : s.Canonical) : (pageWrite s fn off bs).Canonical := by
  unfold Machine.pageWrite
  split
  · exact h.ring
  · split
    · split
      · exact h.writeRegister
      · exact h
    · exact (h.foldl fun _ _ h => h.writePageByte).firePending

theorem State.Canonical.pageRead {fn off n} (h : s.Canonical) : (pageRead s fn off n).2.Canonical := by
  unfold Machine.pageRead
  split
  · exact h.readRegister
  · exact h

theorem State.Canonical.barWrite {fn a bs poisoned} (h : s.Canonical) : (barWrite s fn a bs poisoned).Canonical :=
  ite (ite h h.registerWrite) h.blockWrite

theorem State.Canonical.pcieWrite {fn bar off bs poisoned} (h : s.Canonical) :
    (pcieWrite s fn bar off bs poisoned).Canonical :=
  ite h (ite h.unsupported (ite (ite h.pcieError h).barWrite (ite (ite h.pcieError h) (ite h.pcieError h).pageWrite)))

theorem State.Canonical.pcieRead {fn bar off n} (h : s.Canonical) : (pcieRead s fn bar off n).Canonical :=
  ite h (ite h.unsupported (ite h.readAccess.emit h.pageRead.emit))

theorem State.Canonical.resetFunction {fn} (h : s.Canonical) : (resetFunction s fn).Canonical :=
  (ite h.slip (ite h.slip.raise.stopField h.slip)).setBit.setBit.setFunction

theorem State.Canonical.assertPerst (h : s.Canonical) : (assertPerst s).Canonical :=
  ite h.record (h.record.forUpTo fun _ _ h => h.resetFunction).setReg

theorem State.Canonical.trainPcie {width speed} (h : s.Canonical) : (trainPcie s width speed).Canonical :=
  h.withUnit fun _ _ h => h.withUnit fun _ _ h => h.pcieUp

theorem State.Canonical.linkError {down} (h : s.Canonical) : (linkError s down).Canonical :=
  ite h (ite h.pcieError.setReg h.pcieError.addSat)

theorem State.Canonical.configure {fn q} (h : s.Canonical) : (configure s fn q).Canonical := by
  unfold Machine.configure
  dsimp only
  split
  · exact h.setBit
  · exact h.setFunction
  · exact h.setFunction
  · exact h.setFunction
  · exact h
  · exact h.setFunction.firePending
  · exact h.takeFree.emit

/-! Machine/Tick.lean. -/

theorem State.Canonical.judgeRange {env} (h : s.Canonical) : (judgeRange s env).Canonical := h.record

theorem State.Canonical.takeReadings {env} (h : s.Canonical) : (takeReadings s env).Canonical :=
  (h.record.forUpTo fun _ _ h => h.setBits).setBits.setBits.setBits.setBits

theorem State.Canonical.closePower (h : s.Canonical) : (closePower s).Canonical :=
  ite h (ite h.record.setBits.setBit.addSat.raise h.record.setBits)

theorem State.Canonical.countPower {p} (h : s.Canonical) : (countPower s p).Canonical := (ite h h.closePower).record

theorem State.Canonical.endPower (h : s.Canonical) : (endPower s).Canonical := ite h h.runUntil.closePower

theorem State.Canonical.countHold (h : s.Canonical) : (countHold s).Canonical := ite h h.record

theorem State.Canonical.pruneTransients {n} (h : s.Canonical) : (pruneTransients s n).Canonical := h.setFurrow.setBits

theorem State.Canonical.countQuiesce {f} (h : s.Canonical) : (countQuiesce s f).Canonical := ite h.setField h

theorem State.Canonical.runServo {servo} (h : s.Canonical) : (runServo s servo).Canonical :=
  ite (ite h.writeRate h.writeRate.setReg64.stepTime).setBit (ite h.writeRate h.writeRate.setReg64.stepTime)

theorem State.Canonical.countHeartbeats (h : s.Canonical) : (countHeartbeats s).Canonical :=
  (h.setBits.forUpTo fun _ _ h => ite h.record h).record

theorem State.Canonical.startProbes (h : s.Canonical) : (startProbes s).Canonical := ite h.record.emit h.record

theorem State.Canonical.chainTick (h : s.Canonical) : (chainTick s).Canonical :=
  (ite h.countHeartbeats.chainLocal h.countHeartbeats).startProbes.sendNotices.applyFences.chainBroadcast

theorem State.Canonical.managementWork {env} (h : s.Canonical) : (managementWork s env).Canonical := by
  unfold Machine.managementWork
  extract_lets s1 s2 s3 s4 s5 s6
  have h1 : s1.Canonical := h.settleLate.judgeIfEnded.readMonitors.judgeRange
  have h2 : s2.Canonical := h1.countPower
  have h3 : s3.Canonical := h2.countHold.commitAt.writeSummaries
  have h4 : s4.Canonical := h3.forUpTo fun _ _ h => h.pruneTransients
  have h5 : s5.Canonical := (h4.forUpTo fun _ _ h => h.countQuiesce.retryGlean).chainTick
  have h6 : s6.Canonical := by
    unfold s6
    split
    · exact ite h5.runServo h5
    · exact h5
  exact h6.takeReadings

theorem State.Canonical.managementTick {env} (h : s.Canonical) : (managementTick s env).Canonical :=
  ite (ite h h.runUntil).record (ite h h.runUntil).record.managementWork

end Sys2Proof.Machine
end

