-- ==== Sys2Proof/Proofs/CanonicalCommands.lean ====
section
/-! SUPPORT. Every command and every step keeps the canonical form of memory. -/

namespace Sys2Proof.Machine

variable {s : State}

/-! Commands. -/

/-- Whatever state an outcome answers, its memory is in canonical form. -/
def AnswersCanonical (o : Result) : Prop := ∀ t, o = .next t → t.Canonical

theorem State.Canonical.always {t u : State} (h : t.Canonical) : AnswersCanonical (always u t) := by
  rintro _ ⟨⟩
  exact h

theorem State.Canonical.live {t : State} (hs : s.Canonical) (ht : t.Canonical) : AnswersCanonical (live s t) :=
  (ite hs ht).always

theorem State.Canonical.execReinIssue (h : s.Canonical) : AnswersCanonical (execReinIssue s) := by
  refine h.live ?_
  split
  · exact h.commitBefore.issueRein
  · exact h

theorem State.Canonical.execChainAddressTimeout (h : s.Canonical) : AnswersCanonical (execChainAddressTimeout s) := by
  refine h.live ?_
  split
  · exact h.runUntil.record
  · exact h

/-- Every command leaves memory in canonical form: one arm per command, each by the lemma about its effect. -/
theorem State.Canonical.exec (h : s.Canonical) (c : Instr) : AnswersCanonical (exec c s) := by
  cases c with
  | porstAssert => exact h.powerReset.always
  | porstRelease => exact h.releasePorst.always
  | warmAssert => exact (ite h.record (ite h h.warmReset)).always
  | warmRelease => exact h.releaseWarm.always
  | vinRise => exact h.record.always
  | vinBrownout => exact h.powerReset.record.always
  | perstAssert => exact h.assertPerst.always
  | safeReqAssert => exact (ite h.record h.record.sampleSafeReq).always
  | refclkOutOfRange => exact (ite h h.setBit.clockFault).always
  | pllLockLoss => exact (ite h.setBit.clockFault h).always
  | pllLock => exact h.pllLock.always
  | vinMonitorTrip => exact h.tripMonitor.always
  | temperatureMonitorTrip => exact h.tripMonitor.always
  | timeStep => exact h.live h.stepTime
  | timeRateAdjWrite => exact h.live h.writeRate
  | managementTick => exact h.managementTick.always
  | chainAlignTimeout => exact h.live (ite h.runUntil.setBit.raise h)
  | gptpEventMessageRx => exact h.live (h.withUnit fun _ _ h => h.emit)
  | fsyncEdge => exact h.live (h.withUnit fun _ _ h => h.fireEdge)
  | fsyncPulseEnd => exact h.live (h.withUnit fun _ _ h => h.endPulse)
  | yokeRefill => exact h.live h.refillAll
  | yokeAdmit => exact h.live (h.withUnit fun _ _ h => h.withUnit fun _ _ h => h.yokeAdmit.drainOwn)
  | matmul => exact h.live h.acceptOp
  | conv => exact h.live h.acceptOp
  | pool => exact h.live h.acceptOp
  | resample => exact h.live h.acceptOp
  | attnBlock => exact h.live h.acceptOp
  | kvAppend => exact h.live h.acceptOp
  | eltwise => exact h.live h.acceptOp
  | reduce => exact h.live h.acceptOp
  | route => exact h.live h.acceptOp
  | dispatchForward => exact h.live h.acceptMode
  | dispatchReturn => exact h.live h.acceptMode
  | dispatchPut => exact h.live h.acceptMode
  | dispatchBalePush => exact h.live h.acceptMode
  | combine => exact h.live h.acceptMode
  | combineFetch => exact h.live h.acceptMode
  | move => exact h.live h.acceptOp
  | compress => exact h.live h.acceptOp
  | decompress => exact h.live h.acceptOp
  | syncLocalGeneration => exact h.live h.acceptMode
  | syncReceiveBuffer => exact h.live h.acceptMode
  | syncHopperCompletions => exact h.live h.acceptMode
  | checkPlot => exact h.live (h.withUnit fun _ _ h => h.acceptIf)
  | undefinedOpCode => exact h.live (h.withUnit fun _ _ h => h.acceptIf)
  | tileCommit => exact h.live (h.withUnit fun _ _ h => h.tileCommit)
  | taskDone => exact h.live (h.withUnit fun _ _ h => h.taskDone)
  | stubbleWriteAck => exact h.live (h.withUnit fun _ _ h => h.stubbleAck)
  | budgetExpiry => exact h.live (h.withUnit fun _ _ h => h.budgetExpiry)
  | taskPark => exact h.live (h.withUnit fun _ _ h => h.taskPark)
  | taskResume => exact h.live (h.withUnit fun _ _ h => h.taskResume)
  | parkLimitExpiry => exact h.live (h.withUnit fun _ _ h => h.withUnit fun _ _ h => h.parkLimit)
  | seedbedAccess => exact h.live h.placedAccess
  | gateTimeout => exact h.live (h.withUnit fun _ _ h => h.gateTimeout)
  | seedbedScrubRead => exact h.live (h.withUnit fun _ _ h => h.withUnit fun _ _ h => h.scrubRead)
  | seedbedScrubWriteBack => exact h.live (h.withUnit fun _ _ h => h.withUnit fun _ _ h => h.scrubWriteBack)
  | slotGenerationWrite => exact h.live (h.withUnit fun _ _ h => h.withUnit fun _ _ h => h.slotGenerationWrite)
  | fenceRequest => exact h.live (h.withUnit fun _ _ h => h.requestFence)
  | furCntClear => exact h.live (h.withUnit fun _ _ h => h.clearMacCounters)
  | furSbCntClear => exact h.live (h.withUnit fun _ _ h => h.setReg)
  | furZcCntClear => exact h.live (h.withUnit fun _ _ h => h.clearRakeCounters)
  | furHwCntClear => exact h.live (h.withUnit fun _ _ h => h.clearHarrowCounters)
  | doorbell => exact h.live (h.withUnit fun _ _ h => h.ringFrom)
  | hopSkip => exact h.live (h.withUnit fun _ _ h => h.controlHopper fun _ _ h => h.hopSkip)
  | hopCntReset => exact h.live (h.withUnit fun _ _ h => h.controlHopper fun _ _ h => h.hopCntReset)
  | fieldStart => exact h.live (h.withUnit fun _ _ h => h.controlField fun _ _ h => h.startField)
  | fieldQuiesce => exact h.live (h.withUnit fun _ _ h => h.controlField fun _ _ h => h.quiesceField)
  | fieldStop => exact h.live (h.withUnit fun _ _ h => h.controlField fun _ _ h => h.requestStop)
  | quiesceComplete => exact h.live (h.withUnit fun _ _ h => h.completeQuiesce)
  | quiesceLimitExpiry => exact h.live (h.withUnit fun _ _ h => h.expireQuiesce)
  | fieldStopped => exact h.live (h.withUnit fun _ _ h => h.completeStop)
  | stopAckTimeout => exact h.live (h.withUnit fun _ _ h => h.stopTimeout)
  | gleaning => exact h.live (h.withUnit fun _ _ h => h.glean)
  | droveFrameTx => exact h.live (h.withUnit fun _ _ h => h.settleLate.transmit)
  | droveDispatchRx => exact h.live (h.onPort fun _ _ h => h.receiveDrove fun _ _ _ h => h.receiveData)
  | droveCombineRx => exact h.live (h.onPort fun _ _ h => h.receiveDrove fun _ _ _ h => h.receiveData)
  | drovePutRx => exact h.live (h.onPort fun _ _ h => h.receiveDrove fun _ _ _ h => h.receiveData)
  | droveBalePushRx => exact h.live (h.onPort fun _ _ h => h.receiveDrove fun _ _ _ h => h.receiveData)
  | droveGetRx => exact h.live (h.onPort fun _ _ h => h.receiveDrove fun _ _ _ h => h.receiveData)
  | droveAckRx => exact h.live (h.onPort fun _ _ h => h.receiveDrove fun _ _ _ h => h.acknowledge)
  | droveOpenRx => exact h.live (h.onPort fun _ _ h => h.receiveDrove fun _ _ _ h => h.receiveOpen)
  | droveNackRx => exact h.live (h.onPort fun _ _ h => h.receiveDrove fun _ _ _ h => h.receiveNack)
  | droveAckTimer => exact h.live (h.withUnit fun _ _ h => h.withUnit fun _ _ h => h.settleLate.ackTimer)
  | droveRtoExpiry => exact h.live (h.withUnit fun _ _ h => h.withUnit fun _ _ h => h.settleLate.rtoExpiry)
  | drovePortLinkDown => exact h.live (h.withUnit fun _ _ h => h.settleLate.portDown)
  | drovePortLinkUp => exact h.live (h.withUnit fun _ _ h => h.settleLate.portUp)
  | droveFenceReq => exact h.live (h.withUnit fun _ _ h => h.reportFence)
  | peerHeartbeatTimeout => exact h.live (h.withUnit fun _ _ h => h.heartbeatLost)
  | droveCntClear => exact h.live h.clearDroveCounters
  | dramRead => exact h.live h.dramRead
  | dramWrite => exact h.live h.dramWrite
  | dramPartialWrite => exact h.live h.dramWrite
  | dramPatrolScrubRead => exact h.live h.patrolScrub
  | dramRetrainSlice => exact h.live h.retrainSlice
  | dramRefresh => exact h.live (h.withUnit fun _ _ h => h.refreshBank)
  | dramRetrainNow => exact h.live (h.withUnit fun _ _ h => h.retrainNow)
  | dramCntClear => exact h.live h.clearDramCounters
  | headlandPacket => exact h.live h.routedPacket
  | headCntClear => exact h.live h.setReg
  | csi2FrameStart => exact h.live (h.withUnit fun _ _ h => h.csiPacket)
  | csi2FrameEnd => exact h.live (h.withUnit fun _ _ h => h.csiPacket)
  | csi2LineStart => exact h.live (h.withUnit fun _ _ h => h.csiPacket)
  | csi2LineEnd => exact h.live (h.withUnit fun _ _ h => h.csiPacket)
  | csi2LongPacket => exact h.live (h.withUnit fun _ _ h => h.csiPacket)
  | frameCompletion => exact h.live (h.withUnit fun _ _ h => h.completeFrame)
  | checkRow => exact h.live (h.withUnit fun _ _ h => h.checkRow)
  | sensorEthFrameRx => exact h.live (h.withUnit fun _ _ h => ite h.sensorFrame h)
  | sensorEthGroupGap => exact h.live (h.withUnit fun _ _ h => h.groupGap)
  | sensorEthLinkDown => exact h.live (h.withUnit fun _ _ h => h.setBit.setBit.raiseOpen)
  | sensorEthTx => exact h.live (h.withUnit fun _ _ h => ite h.emit h)
  | dphySyncLoss => exact h.live (h.withUnit fun _ _ h => ite h.setBit.setBit.raiseOpen h)
  | intkCntClear => exact h.live h.clearIntakeCounters
  | reinPeriodicDue => exact h.live (h.withUnit fun _ _ h => h.commitAhead.periodicDue)
  | reinIssue => exact h.execReinIssue
  | reinCommandWrite => exact h.live (h.withUnit fun _ _ h => h.writeCommand)
  | reinCommandRelease => exact h.live (h.withUnit fun _ _ h => h.releaseCommand)
  | mailboxWrite => exact h.live (h.withUnit fun _ _ h => h.mailboxRequest)
  | reinLockstepMismatch => exact h.live h.reinMismatch
  | reinCntClear => exact h.live (h.forUpTo fun _ _ h => h.setReg)
  | tackPacketRx => exact h.live (h.withUnit fun _ _ h => h.receivePacket)
  | tackLinkDown => exact h.live (h.withUnit fun _ _ h => h.tackDown)
  | tackLinkUp => exact h.live (h.withUnit fun _ _ h => h.setBit)
  | tackPacketTx => exact h.live (h.withUnit fun _ _ h => h.sendPacket)
  | chutePop => exact h.live (h.onReceiveChute fun _ _ h => h.registerRead)
  | chuteHoldWrite => exact h.live (h.onTransmitChute fun _ _ h => h.holdChute)
  | chutePush => exact h.live (h.onTransmitChute fun _ _ h => h.pushChute)
  | chuteDiscardN => exact h.live (h.onReceiveChute fun _ _ h => h.withUnit fun _ _ h => h.discardWords)
  | chuteDiscardAll => exact h.live (h.onReceiveChute fun _ _ h => h.discardWords)
  | chuteCntClear => exact h.live ((h.forUpTo fun _ _ h => h.setReg).forUpTo fun _ _ h => h.setReg)
  | canFrameRx => exact h.live (h.withUnit fun _ _ h => h.receiveFrame)
  | canFrameTxDone => exact h.live (h.withUnit fun _ _ h => h.frameSent)
  | canArbitrationLoss => exact h.live (h.withUnit fun _ _ h => ite h.endAttempt h)
  | canBusError => exact h.live (h.withUnit fun _ _ h => h.busError)
  | brdlPost => exact h.live (h.withUnit fun _ _ h => h.post)
  | brdlAbortHead => exact h.live (h.withUnit fun _ _ h => h.abortHead)
  | brdlAbortAll => exact h.live (h.withUnit fun _ _ h => h.abortAll)
  | brdlRecover => exact h.live (h.withUnit fun _ _ h => h.recoverChannel)
  | busOffRecoveryDone => exact h.live (h.withUnit fun _ _ h => h.finishRecovery)
  | brdlObjAck => exact h.live (h.withUnit fun _ _ h => h.ackObject)
  | brdlCntClear => exact h.live (h.forUpTo fun _ _ h => h.setReg)
  | faultReport => exact h.live h.faultReport
  | tallyWrite => exact h.live h.tallyWrite
  | faultNRelease => exact h.live h.releaseFaultN
  | faultDynToggle => exact h.live h.toggleDyn
  | lockstepMismatch => exact h.live h.lockstep
  | watchdogKick => exact h.live h.kick
  | watchdogExpiry => exact h.live (ite h h.runUntil).judgeIfEnded
  | safeEnter => exact h.live h.raise
  | tallyReadIndexWrite => exact h.live h.writeReadIndex
  | checkPlotDue => exact h.live (h.withUnit fun _ _ h => h.checkPlotDue)
  | martingaleWindowEnd => exact h.live (h.withUnit fun _ _ h => h.endWindow)
  | safeInject => exact h.live h.inject
  | powerWindowEnd => exact h.live h.endPower
  | harnessLoad => exact h.live h.requestLoad
  | harnessApply => exact h.live h.applyLoad
  | buckleOpen => exact h.live (h.withUnit fun _ _ h => h.withUnit fun _ _ h => h.openBuckle)
  | buckleFasten => exact h.live (h.withUnit fun _ _ h => h.withUnit fun _ _ h => h.withUnit fun _ _ h => h.fasten)
  | buckleSlip => exact h.live (h.withUnit fun _ _ h => h.requestSlip)
  | buckleCommit => exact h.live (h.withUnit fun _ _ h => ite h.toBoundary.commit h)
  | buckleTimeout => exact h.live (h.withUnit fun _ _ h => h.buckleTimeout)
  | pcieMemoryWrite => exact h.live (h.withUnit fun _ _ h => h.pcieWrite)
  | pcieMemoryRead => exact h.live (h.withUnit fun _ _ h => h.pcieRead)
  | pcieFlr => exact h.live (h.withUnit fun _ _ h => ite h.resetFunction h)
  | pcieUnsupportedRequest => exact h.live (h.withUnit fun _ _ h => ite h.unsupported h)
  | pcieLinkDown => exact h.live h.linkError
  | pcieCorrectableError => exact h.live (ite h.pcieError.addSat h)
  | reeveBootCommand => exact h.live h.bootCommand
  | chainAddrRx => exact h.live (h.chainReceive fun _ h => ite h.takeAddr h)
  | chainHeartbeatRx => exact h.live (h.chainReceive fun _ h => h.hear)
  | chainDelayProbeRx => exact h.live (h.chainReceive fun _ h => ite h h.answerProbe)
  | chainDelayReplyRx => exact h.live (h.chainReceive fun _ h => ite h.takeReply h)
  | chainFenceReportRx => exact h.live (h.chainReceive fun _ h => ite h.headReport h)
  | chainFenceNoticeRx => exact h.live (h.chainReceive fun _ h => h.takeNotice)
  | chainSafeReportRx => exact h.live (h.chainReceive fun _ h => ite h h.reportFence)
  | chainErrRx => exact h.live (h.chainReceive fun _ h => h.setBit)
  | chainMgmtRx => exact h.live (h.chainReceive fun _ h => h.queueMgmt)
  | chainSend => exact h.live (h.withUnit fun _ _ h => h.sendMgmt)
  | chainPop => exact h.live h.popMgmt
  | chainAddressTimeout => exact h.execChainAddressTimeout
  | writeGatherGo => exact h.live h.gatherGo
  | writeGatherAck => exact h.live h.setBit
  | linkRetrainSlice => exact h.live h.linkSlice
  | dphySliceAbort => exact h.live (h.withUnit fun _ _ h => h.abortSlice)
  | fuseProgram => exact h.live h.programFuses
  | jtagExtest => exact (ite h.setTap.emit h.setTap).always
  | jtagIdcode => exact h.setTap.emit.always
  | jtagBypass => exact h.setTap.always
  | jtagSamplePreload => exact h.setTap.record.emit.always
  | registerWrite => exact h.live h.registerWrite
  | perstRelease => exact h.record.always
  | pcieLinkUp => exact h.live h.trainPcie
  | sensorEthLinkUp => exact h.live (h.withUnit fun _ _ h => h.setBit)
  | dphyHsSynchronisation => exact h.live (h.withUnit fun _ _ h => ite h.setBit h)
  | traceLinkDown => exact h.live h.traceLink
  | traceLinkUp => exact h.live h.traceLink
  | safeReqRelease => exact h.record.setBit.always
  | referenceInRange => exact (ite h h.setBit).always
  | secDedMemoryScrub => exact h.live h.scrubMemory
  | pcieConfigurationRequest => exact h.live (h.withUnit fun _ _ h => ite h.configure h)
  | registerRead => exact h.live h.registerRead

/-- A step runs the command at the front of the queue, or the clock. -/
theorem State.Canonical.step (h : s.Canonical) : AnswersCanonical (step s) := by
  unfold Machine.step
  split
  · rintro _ ⟨⟩
    exact h.runCycles
  · exact h.record.exec _

end Sys2Proof.Machine
end

