-- ==== Sys2Proof/Proofs/Access.lean ====
section
/-! SUPPORT. What an access of a requester answers and leaves: numbers and their bytes, register reads and writes,
Reeve SRAM. -/

namespace Sys2Proof.Machine

/-! Numbers and their bytes (R14). -/

theorem leBytes_succ (n v : Nat) : leBytes (n + 1) v = BitVec.ofNat 8 v :: leBytes n (v / 256) := by
  simp [leBytes, List.range_succ_eq_map, Nat.pow_succ, Nat.div_div_eq_div_mul, Nat.mul_comm]

theorem leNat_leBytes (n v : Nat) : leNat (leBytes n v) = v % 256 ^ n := by
  induction n generalizing v with
  | zero => rw [Nat.pow_zero, Nat.mod_one]; rfl
  | succ n ih =>
    have hb : (BitVec.ofNat 8 v).toNat = v % 256 := BitVec.toNat_ofNat v 8
    rw [leBytes_succ, leNat, ih, hb, Nat.pow_succ', Nat.mod_mul]

theorem ofNat_leNat_leBytes_word (v : Word) : BitVec.ofNat 64 (leNat (leBytes 4 v.toNat)) = v.setWidth 64 := by
  rw [leNat_leBytes, Nat.mod_eq_of_lt (by omega), BitVec.ofNat_toNat]

theorem length_leBytes (n v : Nat) : (leBytes n v).length = n := by
  rw [leBytes, List.length_map, List.length_range]

/-! Where an address lies (R30). -/

theorem sram_bounds {s : State} {a : Nat} (h : s.region a = some .sram) : 0x5800000000 ≤ a ∧ a < 0x5800200000 := by
  unfold State.region at h
  grind

/-- Every window lies below Reeve SRAM. -/
theorem windowOf_of_ge {a : Nat} (h : 0x5800000000 ≤ a) : windowOf a = none := by
  have out (base n : Nat) (hb : base + n ≤ 0x5800000000) : (decide (base ≤ a) && decide (a < base + n)) = false := by
    rw [decide_eq_false (by omega : ¬ a < base + n), Bool.and_false]
  have stages : ((List.range 8).find? fun c => decide (stageBase c ≤ a) && decide (a < stageBase c + 80)) = none :=
    List.find?_eq_none.mpr fun c hc => by
      have := List.mem_range.mp hc
      simp [out (stageBase c) 80 (by unfold stageBase; omega)]
  simp only [windowOf, out gatherBase 64 (by decide), out chainTxBase 64 (by decide), out 0x5000000180 68 (by decide),
    out 0x5000080420 96 (by decide), out 0x5000080520 96 (by decide), out mailboxBase 0x4000 (by decide),
    out tallyBase 0x8000 (by decide), stages, Bool.false_eq_true, if_false, Option.map_none]

theorem seedbedOf_of_ge {a : Nat} (h : 0x4100000000 ≤ a) : seedbedOf a = none := if_neg (by omega)

/-- No register lies in a seedbed. -/
theorem seedbedOf_of_isRegs {s : State} {a : Nat} (h : (s.region a).any Region.isRegs = true) : seedbedOf a = none := by
  unfold State.region at h
  unfold seedbedOf
  grind [Region.isRegs]

/-! Reads (R14, R15, R21, R34). -/

/-- Only a Furrow engine's task ends by a denied access. -/
theorem deniedAccess_eq {r : Requester} (hr : ∀ m, r ≠ .furrow m) (s : State) (a : Nat) :
    deniedAccess s r a = denied s r a := by
  cases r with
  | furrow m => exact absurd rfl (hr m)
  | _ => rfl

theorem registerRead_of_denied {s : State} {r : Requester} {a n : Nat} (hr : ∀ m, r ≠ .furrow m)
    (h : s.accessible r a n false = false) : registerRead s r a n = (denied s r a).emit (.readData 0) := by
  have e : leNat (leBytes n 0) = 0 := by rw [leNat_leBytes, Nat.zero_mod]
  simp [registerRead, readAccess, h, deniedAccess_eq hr, e]

/-- An unpoisoned read outside the seedbeds answers at once. -/
theorem registerRead_of_readAccess {s t : State} {r : Requester} {a n : Nat} {bs : List Byte} (hs : seedbedOf a = none)
    (h : readAccess s r a n = (bs, false, t)) :
    registerRead s r a n = t.emit (.readData (BitVec.ofNat 64 (leNat bs))) := by
  simp [registerRead, hs, h]

/-- An aligned read of a register that the requester reaches. -/
theorem registerRead_of_register {s t : State} {r : Requester} {a i j : Nat} {d : RegDesc} {v : Word}
    (hacc : s.accessible r a 4 false = true) (hw : windowOf a = none) (hg : (s.region a).any Region.isRegs = true)
    (ha : a % 4 = 0) (hgath : gatherReg a = false) (hd : regAt a = some (d, i, j))
    (h : readRegister s d a i = (v, false, t)) : registerRead s r a 4 = t.emit (.readData (v.setWidth 64)) := by
  obtain ⟨g, e, hregs⟩ := (Option.any_eq_true _ _).mp hg
  rw [registerRead_of_readAccess (seedbedOf_of_isRegs hg) (bs := leBytes 4 v.toNat) (t := t), ofNat_leNat_leBytes_word]
  simp [readAccess, hacc, hw, e, hregs, ha, hgath, hd, h]

theorem readRegister_of_latched {s : State} {d : RegDesc} {a i : Nat} {x : Word} (hd : d.base ≠ Reg.chuteDataLo 0)
    (h : mapFind s.latch a = some x) :
    readRegister s d a i = (x, false, { s with latch := mapErase s.latch a }) := by
  simp [readRegister, hd, h]

theorem readRegister_of_single {s : State} {d : RegDesc} {a i : Nat} (hd : d.base ≠ Reg.chuteDataLo 0)
    (h : mapFind s.latch a = none) (hl : d.base ∉ lowRows) : readRegister s d a i = (s.readValue d a i, false, s) := by
  simp [readRegister, hd, h, hl]

theorem readRegister_of_low {s : State} {d e : RegDesc} {a i j k : Nat} (hd : d.base ≠ Reg.chuteDataLo 0)
    (h : mapFind s.latch a = none) (hl : d.base ∈ lowRows) (he : regAt (a + 4) = some (e, j, k)) :
    readRegister s d a i = (s.readValue d a i, false,
      { s with latch := mapInsert s.latch (a + 4) (s.readValue e (a + 4) j) }) := by
  simp [readRegister, hd, h, hl, he]

/-! TIME_NOW (R21, R43). -/

/-- The row of a half of TIME_NOW. -/
def timeNowRow (base : Nat) : RegDesc := ⟨base, 1, 4, 1, 4, 0, [fldK 31 0 .ro .warm 0 0]⟩

theorem regAt_timeNowLo : regAt Reg.timeNowLo = some (timeNowRow Reg.timeNowLo, 0, 0) := rfl

theorem regAt_timeNowHi : regAt Reg.timeNowHi = some (timeNowRow Reg.timeNowHi, 0, 0) := rfl

/-- A half of TIME_NOW is one field that a read shows whole. -/
theorem readValue_timeNowRow (s : State) (base a i : Nat) :
    s.readValue (timeNowRow base) a i = BitVec.ofNat 32 (s.shown base a i) := by
  have hm : maskWhere (timeNowRow base).fields (fun f => f.access != .wo) = BitVec.allOnes 32 := rfl
  rw [State.readValue, hm, BitVec.and_allOnes]
  rfl

theorem setWidth_ofNat_word (x : Nat) : (BitVec.ofNat 32 x).setWidth 64 = BitVec.ofNat 64 (x % 2 ^ 32) := by
  rw [← BitVec.ofNat_toNat, BitVec.toNat_ofNat]

theorem registerRead_timeNowLo {s : State} {r : Requester} (hacc : s.accessible r Reg.timeNowLo 4 false = true)
    (hl : mapFind s.latch Reg.timeNowLo = none) : registerRead s r Reg.timeNowLo 4 =
      { s with
        latch := mapInsert s.latch Reg.timeNowHi (BitVec.ofNat 32 (s.now / 2 ^ 32))
        outbox := s.outbox ++ [.readData (BitVec.ofNat 64 (s.now % 2 ^ 32))] } := by
  have hread := readRegister_of_low (i := 0) (d := timeNowRow Reg.timeNowLo) (by decide) hl (by decide) regAt_timeNowHi
  have hlo : s.shown Reg.timeNowLo Reg.timeNowLo 0 = s.now := rfl
  have hhi : s.shown Reg.timeNowHi (Reg.timeNowLo + 4) 0 = s.now / 2 ^ 32 := rfl
  rw [registerRead_of_register hacc (by decide) rfl (by decide) (by decide) regAt_timeNowLo hread,
    readValue_timeNowRow, readValue_timeNowRow, hlo, hhi, setWidth_ofNat_word]
  rfl

/-! Writes (R14, R16, R34). -/

/-- A write out of reach is dropped, whatever it names. -/
theorem registerWrite_of_denied {s : State} {r : Requester} {a n : Nat} {v : Nat} (hr : ∀ m, r ≠ .furrow m)
    (hn : 1 ≤ n) (hw : windowOf a = none) (hg : (s.region a).isSome = true) (h : s.accessible r a n true = false) :
    registerWrite s r a n v = denied s r a := by
  obtain ⟨g, e⟩ := Option.isSome_iff_exists.mp hg
  have hn : n ≠ 0 := by omega
  cases hregs : g.isRegs with
  | true => simp [registerWrite, hw, e, hregs, h, deniedAccess_eq hr]
  | false => simp [registerWrite, blockWrite, hw, e, hregs, length_leBytes, hn, h, deniedAccess_eq hr]

/-- A write of another size or alignment changes no register (R14). -/
theorem registerWrite_of_misaligned {s : State} {r : Requester} {a n : Nat} {v : Nat} (hw : windowOf a = none)
    (hg : (s.region a).any Region.isRegs = true) (hacc : s.accessible r a n true = true) (h : n ≠ 4 ∨ a % 4 ≠ 0) :
    registerWrite s r a n v = s := by
  obtain ⟨g, e, hregs⟩ := (Option.any_eq_true _ _).mp hg
  simp [registerWrite, hw, e, hregs, hacc, h]

theorem registerWrite_of_register {s : State} {r : Requester} {a i j : Nat} {d : RegDesc} {v : Nat}
    (hacc : s.accessible r a 4 true = true) (hw : windowOf a = none) (hg : (s.region a).any Region.isRegs = true)
    (ha : a % 4 = 0) (hd : regAt a = some (d, i, j)) (hm : mayWrite r a = true) :
    registerWrite s r a 4 v = writeRegister s r d a (BitVec.ofNat 32 v) := by
  obtain ⟨g, e, hregs⟩ := (Option.any_eq_true _ _).mp hg
  simp [registerWrite, hw, e, hregs, hacc, ha, hd, hm]

/-- The row of REEVE_GPIO_OUT. -/
def gpioOutRow : RegDesc := ⟨Reg.reeveGpioOut, 1, 4, 1, 4, 0, [fld 31 0 .rw]⟩

theorem regAt_reeveGpioOut : regAt Reg.reeveGpioOut = some (gpioOutRow, 0, 0) := rfl

/-- REEVE_GPIO_OUT is one RW field. -/
theorem storeFields_gpioOutRow (s : State) (a : Nat) (v : Word) : storeFields s gpioOutRow a v = s.setReg a v := by
  have hact : actionRow gpioOutRow.base = false := by decide
  have hrw : maskWhere gpioOutRow.fields (fun f => f.access == .rw) = BitVec.allOnes 32 := by decide
  have hc : maskWhere gpioOutRow.fields (fun f => f.access == .w1c) = 0#32 := by decide
  have hs : maskWhere gpioOutRow.fields (fun f => f.access == .w1s) = 0#32 := by decide
  simp only [storeFields, hact, Bool.false_eq_true, if_false, hrw, hc, hs, BitVec.not_allOnes, BitVec.and_allOnes,
    BitVec.and_zero, BitVec.zero_or, BitVec.not_zero, BitVec.or_zero]

theorem mayWrite_reeveGpioOut (r : Requester) : mayWrite r Reg.reeveGpioOut = true := by
  simp [mayWrite, gatherReg, buckleSet, Reg.bklCmd, Reg.reeveGpioOut, Reg.reeveWgAddrLo, Reg.reeveWgAddrHi, Reg.reeveWgCtrl]

/-- A write of REEVE_GPIO_OUT has no action beside the stored field. -/
theorem registerWrite_reeveGpioOut {s : State} {r : Requester} {v : Nat}
    (hacc : s.accessible r Reg.reeveGpioOut 4 true = true) :
    registerWrite s r Reg.reeveGpioOut 4 v = s.setReg Reg.reeveGpioOut (BitVec.ofNat 32 v) := by
  have hsh : maskWhere gpioOutRow.fields (fun f => f.access == .sh) = 0 := by decide
  rw [registerWrite_of_register hacc (by decide) rfl (by decide) regAt_reeveGpioOut (mayWrite_reeveGpioOut r),
    writeRegister, storeFields_gpioOutRow, hsh, writeShBits, if_pos rfl]
  rfl

/-! Reeve SRAM (R14, R34). -/

theorem registerRead_sram {s : State} {r : Requester} {a n : Nat} (hg : s.region a = some .sram) (h1 : 1 ≤ n) (h8 : n ≤ 8)
    (hacc : s.accessible r a n false = true) (hp : s.poisoned a n = false) :
    registerRead s r a n = s.emit (.readData (BitVec.ofNat 64 (s.le a n))) := by
  obtain ⟨lo, hi⟩ := sram_bounds hg
  have hs : seedbedOf a = none := seedbedOf_of_ge (by omega)
  have hview : ((List.range n).map fun i => s.viewByte (a + i)) = s.bytes a n :=
    List.map_congr_left fun i hi => by
      have := List.mem_range.mp hi
      rw [State.viewByte, if_neg (by omega), if_neg (by omega)]
  have hnote : noteRead s a n = s := by
    rw [noteRead, if_neg (by omega), if_neg (by omega), hs]
  refine registerRead_of_readAccess hs ?_
  simp [readAccess, hacc, windowOf_of_ge lo, hg, Region.isRegs, hnote, hp, hview]

theorem registerWrite_sram {s : State} {r : Requester} {a n v : Nat} (hg : s.region a = some .sram) (hn : 1 ≤ n)
    (hacc : s.accessible r a n true = true) : registerWrite s r a n v = s.store a (leBytes n v) := by
  obtain ⟨lo, -⟩ := sram_bounds hg
  have hn : n ≠ 0 := by omega
  simp [registerWrite, blockWrite, windowOf_of_ge lo, hg, Region.isRegs, length_leBytes, hn, hacc]

theorem byte_store_sram {s : State} {a : Nat} (lo : 0x5800000000 ≤ a) (bs : List Byte) (x : Nat) :
    (s.store a bs).byte x = if a ≤ x ∧ x < a + bs.length then (bs[x - a]?).getD 0 else s.byte x :=
  byte_store s a x bs false fun _ h => by rw [seedbedOf_of_ge (by omega)] at h; cases h

theorem bytes_store_sram {s : State} {a : Nat} (lo : 0x5800000000 ≤ a) (bs : List Byte) :
    (s.store a bs).bytes a bs.length = bs := by
  refine List.ext_getElem (by simp [State.bytes]) fun i h1 h2 => ?_
  simp [State.bytes, byte_store_sram lo, h2]

theorem markRange_reg (s : State) (a n : Nat) (m : Mark) (x : Nat) : (s.markRange a n m).reg x = s.reg x :=
  foldl_induct (P := fun t : State => t.reg x = s.reg x) _ rfl fun u g _ h => by rw [State.setMark_reg, h]

theorem store_sram_reg {s : State} {a : Nat} (lo : 0x5800000000 ≤ a) (bs : List Byte) (x : Nat) :
    (s.store a bs).reg x = s.reg x := by
  rw [State.store, if_neg (by omega), seedbedOf_of_ge (by omega), Option.isSome_none, if_neg Bool.false_ne_true,
    markRange_reg, State.poke_reg]

end Sys2Proof.Machine
end

