-- ==== Sys2Proof/Proofs/Scope.lean ====
section
/-! SUPPORT. What a command and a step answer, what a reset leaves, and the statements of 00_scope.md. -/

namespace Sys2Proof.Machine

/-! Completion: every command answers a next state with the queue as it was. -/

/-- The outcome of every command is the state that its effect leaves, with the queue after it. -/
theorem exec_eq_always (c : Instr) (s : State) : ∃ t, exec c s = always s t := by
  cases c <;> exact ⟨_, rfl⟩

/-- A command of the running device goes through the gate of a held one. -/
theorem exec_eq_live {c : Instr} (hc : actsWhileHeld c = false) (s : State) : ∃ t, exec c s = live s t := by
  cases c with
  | porstAssert | porstRelease | warmAssert | warmRelease | vinRise | vinBrownout | perstAssert | perstRelease
  | safeReqAssert | safeReqRelease | refclkOutOfRange | referenceInRange | pllLockLoss | pllLock | vinMonitorTrip
  | temperatureMonitorTrip | managementTick | jtagExtest | jtagIdcode | jtagBypass | jtagSamplePreload => cases hc
  | _ => exact ⟨_, rfl⟩

theorem exec_completes (c : Instr) (s : State) : ∃ t, exec c s = .next t ∧ t.pending = s.pending := by
  obtain ⟨t, e⟩ := exec_eq_always c s
  exact ⟨_, e, rfl⟩

theorem exec_of_held {c : Instr} {s : State} (hs : s.held = true) (hc : actsWhileHeld c = false) :
    exec c s = .next s := by
  obtain ⟨t, e⟩ := exec_eq_live hc s
  rw [e, live_held hs]

/-! Steps: each takes the front command out of the queue. -/

/-- A step completes and leaves the commands after the front one; an idle cycle leaves the empty queue. -/
theorem step_completes (s : State) : ∃ t, step s = .next t ∧ t.pending = s.pending.tail := by
  unfold step
  split
  · next e => exact ⟨_, rfl, by rw [runCycles_eq, e]; rfl⟩
  · next c rest e =>
    obtain ⟨t, ht, hp⟩ := exec_completes c { s with pending := rest }
    exact ⟨t, ht, by rw [hp, e]; rfl⟩

theorem step_pending {s t : State} (e : step s = .next t) : t.pending = s.pending.tail := by
  obtain ⟨u, hu, hp⟩ := step_completes s
  cases e.symm.trans hu
  exact hp

/-- k steps complete and take the first k commands. -/
theorem steps_complete (s : State) (k : Nat) : ∃ t, steps k s = .next t ∧ t.pending = s.pending.drop k := by
  induction k generalizing s with
  | zero => exact ⟨s, rfl, rfl⟩
  | succ k ih =>
    obtain ⟨u, hu, hp⟩ := step_completes s
    obtain ⟨t, ht, hq⟩ := ih u
    refine ⟨t, ?_, ?_⟩
    · rw [steps, hu]
      exact ht
    · rw [hq, hp, List.drop_tail]

theorem queueWellFormed_step {s t : State} (h : QueueWellFormed s) (e : step s = .next t) : QueueWellFormed t := by
  intro c hc
  rw [step_pending e] at hc
  exact h c (List.mem_of_mem_tail hc)

/-! What a reset leaves. -/

/-- A byte after a reset that keeps some windows of memory. -/
theorem byte_of_mem_filter {s t : State} {p : Nat → Bool} (h : t.mem = s.mem.filter fun (a, _) => p a) (a : Nat) :
    t.byte a = if p a then s.byte a else 0 := by
  rw [State.byte, h, mapGet_filter]
  rfl

/-- What PORST_N low leaves of a state (R20). -/
theorem powerReset_reg (s : State) (a : Nat) :
    (powerReset s).reg a = keepReg (fun f => f.keep == .fuse) (fun _ => 0) a (s.reg a) := get_keepRegs _ _ _ a

theorem powerReset_reg_of_no_fuse (s : State) {a : Nat} {d : RegDesc} {i j : Nat} (hd : regAt a = some (d, i, j))
    (hf : ∀ f ∈ d.fields, f.keep ≠ .fuse) : (powerReset s).reg a = regReset a := by
  rw [powerReset_reg]
  exact keepReg_of_none _ hd (fun f hm => beq_eq_false_iff_ne.mpr (hf f hm)) rfl

theorem powerReset_byte (s : State) (a : Nat) : (powerReset s).byte a = if inFlash a then s.byte a else 0 :=
  byte_of_mem_filter rfl a

/-- What WARM_N low leaves of a running state: the complete flag of its token goes where the fall broke a slice or a
start (R447, R448). -/
theorem warmReset_eq (s : State) (midSlice : Bool) : warmReset s midSlice =
    { State.reset with
      pending := s.pending
      regs := keepRegs (fun f => f.keep != .none) warmExtra s.regs
      mem := s.mem.filter fun (a, _) => a < 0x2000000000 || inSram a || inFlash a
      marks := s.marks.filter fun (g, _) => 32 * g < 0x2000000000 || inSram (32 * g)
      time := { now := s.now, phase := s.time.phase, ticksDue := s.time.ticksDue }
      pins := { s.pins with warm := true, zUntil := s.now + 6400 }
      rein := { silent := s.rein.silent }
      boot := { spares := s.boot.spares, fusedRows := s.boot.fusedRows
                token := if (midSlice && s.retraining) || s.starting then
                  s.boot.token.map fun k => { k with complete := false } else s.boot.token }
      outbox := s.outbox
      freeCount := s.freeCount } := by
  unfold warmReset
  generalize ((midSlice && s.retraining) || s.starting) = broken
  cases broken <;> rfl

theorem warmReset_reg (s : State) (midSlice : Bool) (a : Nat) :
    (warmReset s midSlice).reg a = keepReg (fun f => f.keep != .none) warmExtra a (s.reg a) := by
  rw [warmReset_eq]
  exact get_keepRegs _ _ _ a

theorem warmReset_byte (s : State) (midSlice : Bool) (a : Nat) :
    (warmReset s midSlice).byte a = if a < 0x2000000000 || inSram a || inFlash a then s.byte a else 0 := by
  rw [warmReset_eq]
  exact byte_of_mem_filter (p := fun a => a < 0x2000000000 || inSram a || inFlash a) rfl a

end Sys2Proof.Machine

open Sys2Proof Sys2Proof.Machine

/-- Settles O57: every clause is read off State.reset. -/
theorem resetStateHoldsResetValues : Obligations.ResetStateHoldsResetValues := by
  unfold Obligations.ResetStateHoldsResetValues
  refine ⟨rfl, rfl, fun a => rfl, fun a => rfl, rfl, rfl, rfl, ?_, ?_, rfl, rfl, ?_, wf_reset⟩
  · decide
  · decide
  · intro c hc
    cases hc

/-- Settles O58: every command is an effect with the queue put back, so a step takes exactly the front command. -/
theorem commandsCompleteInOrder : Obligations.CommandsCompleteInOrder :=
  ⟨exec_completes, fun _ _ hs hc => exec_of_held hs hc, steps_complete, fun _ _ => queueWellFormed_step⟩

/-- Settles O60: reset has the form, and every command and step keeps it, by a lemma for each function of the model. -/
theorem memoryStaysCanonical : Obligations.MemoryStaysCanonical :=
  ⟨wf_reset, fun _ t c h => State.Canonical.exec h c t, fun _ t h => State.Canonical.step h t⟩

/-- Settles O1: the state after PORST_N or a brown-out is powerReset, register by register and byte by byte. -/
theorem powerResetLeavesResetValues : Obligations.PowerResetLeavesResetValues := by
  unfold Obligations.PowerResetLeavesResetValues
  intro s
  have hr := powerReset_reg s
  have hf (a d i j) (hd : regAt a = some (d, i, j)) := powerReset_reg_of_no_fuse s hd
  have hb := powerReset_byte s
  exact ⟨⟨_, rfl, ⟨hr, hf, hb, rfl⟩, rfl⟩, ⟨_, rfl, ⟨hr, hf, hb, rfl⟩, rfl⟩⟩

/-- Settles O2: by the three cases of PORST_N and WARM_N that the command itself tells apart. -/
theorem warmResetKeepsWarmFields : Obligations.WarmResetKeepsWarmFields := by
  unfold Obligations.WarmResetKeepsWarmFields
  intro s midSlice
  refine ⟨fun h => ?_, fun hp hc hw => ?_, fun hp hc hw => ?_⟩
  · simp only [Answers, exec, execWarmAssert, if_pos h, always_eq]
  · simp [Answers, exec, execWarmAssert, hp, hc, hw]
  · refine yields_of_always (u := warmReset s midSlice) ?_ ?_
    · simp [exec, execWarmAssert, hp, hc, hw]
    · refine ⟨warmReset_reg s midSlice, warmReset_byte s midSlice, fun x => ?_, ?_⟩
      · rw [warmReset_eq]
        rfl
      · rw [warmReset_eq]
        rfl

/-- Settles O54: each clause by the lemma of its case of a register read, a register write or an access to Reeve SRAM. -/
theorem registersAndMemoryAnswer : Obligations.RegistersAndMemoryAnswer := by
  intro s r a n v hh h1 h8 hr read register
  refine ⟨fun hacc => ?_, fun hw hg hacc => ?_, fun hw hg hacc h => ?_, fun hacc => ?_, fun d i j hreg hl hlow => ?_,
    fun d i j x hreg hl => ?_, fun hacc hl => ?_, fun hg => ⟨fun hacc => ?_, fun hacc hp => ?_⟩⟩
  · exact answers_of_live (congrArg (live s) (registerRead_of_denied hr hacc)) hh
  · exact answers_of_live (congrArg (live s) (registerWrite_of_denied hr h1 hw hg hacc)) hh
  · exact answers_of_live (congrArg (live s) (registerWrite_of_misaligned hw hg hacc h)) hh
  · refine yields_of_live (congrArg (live s) (registerWrite_reeveGpioOut hacc)) hh ⟨?_, ?_, rfl⟩
    · rw [State.withQueue_reg, State.reg_setReg_self, BitVec.ofNat_toNat]
    · exact fun b hb => State.reg_setReg_ne _ _ (List.ne_of_not_mem_cons hb)
  · obtain ⟨hacc, hw, hg, ha, hgath, hd, hbase⟩ := hreg
    exact answers_of_live (congrArg (live s)
      (registerRead_of_register hacc hw hg ha hgath hd (readRegister_of_single hbase hl hlow))) hh
  · obtain ⟨hacc, hw, hg, ha, hgath, hd, hbase⟩ := hreg
    exact answers_of_live (congrArg (live s)
      (registerRead_of_register hacc hw hg ha hgath hd (readRegister_of_latched hbase hl))) hh
  · refine yields_of_live (congrArg (live s) (registerRead_timeNowLo hacc hl)) hh ⟨?_, rfl⟩
    rw [State.withQueue, mapFind_insert, if_pos rfl]
  · obtain ⟨lo, -⟩ := sram_bounds hg
    refine yields_of_live (congrArg (live s) (registerWrite_sram hg h1 hacc)) hh ⟨?_, ?_, ?_⟩
    · have e := bytes_store_sram (s := s) lo (leBytes n v.toNat)
      rwa [length_leBytes] at e
    · intro x hx
      rw [State.withQueue_byte, byte_store_sram lo, length_leBytes, if_neg hx]
    · exact fun x _ => store_sram_reg lo _ x
  · exact answers_of_live (congrArg (live s) (registerRead_sram hg h1 h8 hacc hp)) hh
end

section
/-! The management tick: what it does moves no clock, and its readings are shown (R25, R258, R481, R483). -/

namespace Sys2Proof.Machine

/-- TIME_NOW and the count of management ticks that are due. -/
def State.ClockAt (s : State) (τ : Nat × Nat) : Prop := (s.now, s.time.ticksDue) = τ

variable {s t : State} {τ : Nat × Nat}

/-! How a clock that stands passes through the shapes that meanings are built from. -/

theorem State.ClockAt.record {pending regs latch mem marks words tables pins furrows hoppers fields yokes island
    rein tacks chutes fifos objects buckles loader drove chain dram intake pcie firmware boot links outbox
    freeCount} (h : s.ClockAt τ) :
    State.ClockAt ⟨pending, regs, latch, mem, marks, words, tables, s.time, pins, furrows, hoppers, fields, yokes,
      island, rein, tacks, chutes, fifos, objects, buckles, loader, drove, chain, dram, intake, pcie, firmware,
      boot, links, outbox, freeCount⟩ τ := h

theorem State.ClockAt.ite {b : Prop} {_ : Decidable b} (hs : s.ClockAt τ) (ht : t.ClockAt τ) :
    (if b then s else t).ClockAt τ := by
  split <;> assumption

theorem State.ClockAt.foldl {α : Type} {f : State → α → State} {xs : List α} (h : s.ClockAt τ)
    (hf : ∀ t x, t.ClockAt τ → (f t x).ClockAt τ) : (xs.foldl f s).ClockAt τ :=
  foldl_induct (P := fun t => t.ClockAt τ) xs h fun t x _ => hf t x

theorem State.ClockAt.forUpTo {n : Nat} {f : Nat → State → State} (h : s.ClockAt τ)
    (hf : ∀ i t, t.ClockAt τ → (f i t).ClockAt τ) : (forUpTo n f s).ClockAt τ :=
  forUpTo_induct (P := fun t => t.ClockAt τ) h fun i t _ => hf i t

theorem State.ClockAt.onlyIf {b : Bool} {f : State → State} (h : s.ClockAt τ)
    (hf : ∀ t, t.ClockAt τ → (f t).ClockAt τ) : (onlyIf b f s).ClockAt τ := ite (hf _ h) h

theorem State.ClockAt.ofSnd {α : Type} {p : α × State} {b : α} (h : p.2.ClockAt τ) (e : p = (b, t)) :
    t.ClockAt τ := by
  rwa [e] at h

/-! Machine/Ops.lean. -/

theorem State.ClockAt.setReg {a v} (h : s.ClockAt τ) : (s.setReg a v).ClockAt τ := h.record

theorem State.ClockAt.setBits {a msb lsb v} (h : s.ClockAt τ) : (s.setBits a msb lsb v).ClockAt τ := h.setReg

theorem State.ClockAt.setBit {a i b} (h : s.ClockAt τ) : (s.setBit a i b).ClockAt τ := h.setBits

theorem State.ClockAt.addSat {a msb lsb k} (h : s.ClockAt τ) : (s.addSat a msb lsb k).ClockAt τ := h.setBits

theorem State.ClockAt.setReg64 {lo hi v} (h : s.ClockAt τ) : (s.setReg64 lo hi v).ClockAt τ := h.setReg.setReg

theorem State.ClockAt.setFurrow {n f} (h : s.ClockAt τ) : (s.setFurrow n f).ClockAt τ := h.record

theorem State.ClockAt.setHopper {k x} (h : s.ClockAt τ) : (s.setHopper k x).ClockAt τ := h.record

theorem State.ClockAt.setField {f x} (h : s.ClockAt τ) : (s.setField f x).ClockAt τ := h.record

theorem State.ClockAt.setMark {g m} (h : s.ClockAt τ) : (s.setMark g m).ClockAt τ := h.record

theorem State.ClockAt.raise {e} (h : s.ClockAt τ) : (s.raise e).ClockAt τ := h.record

theorem State.ClockAt.raiseIf {c e} (h : s.ClockAt τ) : (s.raiseIf c e).ClockAt τ := ite h.raise h

theorem State.ClockAt.emit {o} (h : s.ClockAt τ) : (s.emit o).ClockAt τ := h.record

theorem State.ClockAt.setFunction {n x} (h : s.ClockAt τ) : (s.setFunction n x).ClockAt τ := h.record

theorem State.ClockAt.notify {n v} (h : s.ClockAt τ) : (s.notify n v).ClockAt τ := ite h (ite h.setFunction h.emit)

theorem State.ClockAt.takeFree (h : s.ClockAt τ) : (s.takeFree).2.ClockAt τ := h.record

/-! Machine/Memory.lean. -/

theorem State.ClockAt.seedError {n granule uncorr scrub} (h : s.ClockAt τ) :
    (seedError s n granule uncorr scrub).ClockAt τ :=
  ite (ite h.setBits.setBit h).setBit.addSat (ite h.setBits.setBit h).setBit.addSat

theorem State.ClockAt.readSeedRow {n row upsets} (h : s.ClockAt τ) : (readSeedRow s n row upsets).ClockAt τ := by
  unfold Machine.readSeedRow
  refine h.forUpTo fun _ _ h => ?_
  dsimp only
  split
  · exact h.setMark
  · exact h.setMark.seedError.raise
  · exact h.setMark.seedError.raise

theorem State.ClockAt.cancelWriteBacks {a n} (h : s.ClockAt τ) : (cancelWriteBacks s a n).ClockAt τ := by
  unfold Machine.cancelWriteBacks
  split
  · exact ite h h.setFurrow
  · exact h

theorem State.ClockAt.setBlockMark {b m} (h : s.ClockAt τ) : (setBlockMark s b m).ClockAt τ := h.setMark.setMark

theorem State.ClockAt.dramError {b uncorr scrub} (h : s.ClockAt τ) : (dramError s b uncorr scrub).ClockAt τ :=
  ite (ite h.setReg64.setBit.setBits h).setBit.addSat (ite h.setReg64.setBit.setBits h).setBit.addSat

theorem State.ClockAt.checkBlock {b u scrub} (h : s.ClockAt τ) : (checkBlock s b u scrub).ClockAt τ := by
  unfold Machine.checkBlock
  dsimp only
  split
  · exact h.setBlockMark
  · exact h.setBlockMark.dramError.raise
  · exact h.setBlockMark.dramError.raise
  · exact h.setBlockMark.dramError.raise

theorem State.ClockAt.markRange {a n m} (h : s.ClockAt τ) : (s.markRange a n m).ClockAt τ :=
  h.foldl fun _ _ h => h.setMark

theorem State.ClockAt.writeBlock {b off bs poison u} (h : s.ClockAt τ) : (writeBlock s b off bs poison u).ClockAt τ :=
  ite h.record.setBlockMark h.checkBlock.record.setBlockMark

theorem State.ClockAt.writeDram {a bs poison u fuel} (h : s.ClockAt τ) :
    (writeDram s a bs poison u fuel).ClockAt τ := by
  induction fuel generalizing s a bs with
  | zero => exact h
  | succ fuel ih =>
    rw [Machine.writeDram]
    exact ite h (ih h.writeBlock)

theorem State.ClockAt.writeSeed {a bs poison} (h : s.ClockAt τ) : (writeSeed s a bs poison).ClockAt τ :=
  h.cancelWriteBacks.record.markRange

theorem State.ClockAt.store {a bs poison} (h : s.ClockAt τ) : (s.store a bs poison).ClockAt τ :=
  ite h.writeDram (ite h.writeSeed h.record.markRange)

theorem State.ClockAt.noteRead {a n} (h : s.ClockAt τ) : (noteRead s a n).ClockAt τ := by
  unfold Machine.noteRead
  split
  · exact h
  · split
    · exact h.forUpTo fun _ _ h => h.checkBlock
    · split
      · exact h.forUpTo fun _ _ h => h.readSeedRow
      · exact h

theorem State.ClockAt.reeveBusError {a} (h : s.ClockAt τ) : (reeveBusError s a).ClockAt τ := h.setBit.setReg64.raise

theorem State.ClockAt.reeveRead {a n} (h : s.ClockAt τ) : (reeveRead s a n).ClockAt τ :=
  ite h.noteRead.reeveBusError h.noteRead

/-! Machine/Fields.lean. -/

theorem State.ClockAt.mapMessages {on : Machine.Message → Machine.Message} (h : s.ClockAt τ) :
    (mapMessages s on).ClockAt τ :=
  h.record

theorem State.ClockAt.mapMessage {uid} {g : Machine.Message → Machine.Message} (h : s.ClockAt τ) :
    (mapMessage s uid g).ClockAt τ :=
  h.mapMessages

theorem State.ClockAt.undeliver {m} (h : s.ClockAt τ) : (undeliver s m).ClockAt τ := ite h h.record.mapMessages

theorem State.ClockAt.setYoke {f r y} (h : s.ClockAt τ) : (s.setYoke f r y).ClockAt τ := h.record

theorem State.ClockAt.storeGranule {a bs} (h : s.ClockAt τ) : (storeGranule s a bs).ClockAt τ := ite h.raise h.store

theorem State.ClockAt.landPosted {n uid} (h : s.ClockAt τ) : (landPosted s n uid).ClockAt τ := by
  unfold Machine.landPosted
  split
  · exact h
  · dsimp only
    split
    · exact h.setFurrow.storeGranule
    · exact h

theorem State.ClockAt.admitFrame {u} (h : s.ClockAt τ) : (admitFrame s u).ClockAt τ := by
  unfold Machine.admitFrame
  split
  · exact h.mapMessage
  · exact h.landPosted
  · exact h

theorem State.ClockAt.setYokeLevel {f r v} (h : s.ClockAt τ) : (s.setYokeLevel f r v).ClockAt τ := h.setReg

theorem State.ClockAt.admitAtOnce {u} (h : s.ClockAt τ) : (admitAtOnce s u).ClockAt τ := by
  unfold Machine.admitAtOnce
  split
  · exact h
  · exact h.admitFrame

theorem State.ClockAt.yokeRequest {f r q} (h : s.ClockAt τ) : (yokeRequest s f r q).ClockAt τ :=
  ite h.admitAtOnce (ite h.setYokeLevel.admitAtOnce h.setYoke)

theorem State.ClockAt.chargeAccess {u m system a n} (h : s.ClockAt τ) :
    (chargeAccess s u m system a n).ClockAt τ := by
  unfold Machine.chargeAccess
  split
  · exact h
  · exact ite h (ite (ite h.yokeRequest h) (ite h.yokeRequest h).yokeRequest)

theorem State.ClockAt.releaseYoke {n} (h : s.ClockAt τ) : (releaseYoke s n).ClockAt τ := ite h.record h

theorem State.ClockAt.issueFinal {n t cause state u} (h : s.ClockAt τ) :
    (issueFinal s n t cause state u).ClockAt τ :=
  ite h.setFurrow.storeGranule h.setFurrow.chargeAccess

theorem State.ClockAt.showEvents {n events} (h : s.ClockAt τ) : (showEvents s n events).ClockAt τ :=
  h.forUpTo fun _ _ h => h.setReg

theorem State.ClockAt.endFaulted {n t cause field} (h : s.ClockAt τ) : (endFaulted s n t cause field).ClockAt τ :=
  (ite h.setBits.setBit.setHopper.showEvents.issueFinal h.setBits.setBit.setHopper.showEvents).raise

theorem State.ClockAt.stopTask {n} (h : s.ClockAt τ) : (stopTask s n).ClockAt τ := by
  unfold Machine.stopTask
  dsimp only
  split
  · split
    · exact h
    · exact ite h h.setFurrow.releaseYoke
  · exact h

theorem State.ClockAt.stopParked {n fld} (h : s.ClockAt τ) : (stopParked s n fld).ClockAt τ :=
  h.setFurrow.foldl fun _ _ h => h.endFaulted.setHopper

theorem State.ClockAt.recordStop {f code} (h : s.ClockAt τ) : (recordStop s f code).ClockAt τ :=
  h.addSat.setBits.setReg64

theorem State.ClockAt.dropWaiting {qs} (h : s.ClockAt τ) : (dropWaiting s qs).ClockAt τ :=
  (h.foldl fun _ _ h => h.undeliver).record

theorem State.ClockAt.dropPosted {qs n} (h : s.ClockAt τ) : (dropPosted s qs n).ClockAt τ := h.setFurrow

theorem State.ClockAt.clearYokes {f} (h : s.ClockAt τ) : (clearYokes s f).ClockAt τ :=
  (h.dropWaiting.forUpTo fun _ _ h => h.setYoke).forUpTo fun _ _ h => ite h h.dropPosted

theorem State.ClockAt.emptyBuffers {f} (h : s.ClockAt τ) : (emptyBuffers s f).ClockAt τ :=
  h.foldl fun _ _ h => h.setFurrow

theorem State.ClockAt.freezeHoppers {f} (h : s.ClockAt τ) : (freezeHoppers s f).ClockAt τ :=
  h.foldl fun _ _ h => ite h.setHopper h

theorem State.ClockAt.setFieldState {f st} (h : s.ClockAt τ) : (setFieldState s f st).ClockAt τ :=
  h.setBits.notify.notify

theorem State.ClockAt.oweWrites {f n} (h : s.ClockAt τ) : (oweWrites s f n).ClockAt τ := ite h h.setFurrow

theorem State.ClockAt.stopField {f code} (h : s.ClockAt τ) : (stopField s f code).ClockAt τ :=
  ite (((h.recordStop.setFieldState.foldl fun _ _ h => h.setHopper).emptyBuffers.clearYokes.foldl fun _ _ h =>
    h.stopTask).foldl fun _ _ h => h.stopParked).freezeHoppers.setField (ite
    (h.recordStop.setFieldState.freezeHoppers.clearYokes.forUpTo fun _ _ h => h.oweWrites).setBits.setBit h)

/-! Machine/Time.lean. -/

theorem State.ClockAt.setFsync {n f} (h : s.ClockAt τ) : (s.setFsync n f).ClockAt τ := h

theorem State.ClockAt.setMartingale {m x} (h : s.ClockAt τ) : (s.setMartingale m x).ClockAt τ := h.record

/-! Machine/Martingale.lean. -/

theorem State.ClockAt.restartMartingale {m} (h : s.ClockAt τ) : (restartMartingale s m).ClockAt τ :=
  h.setBits.setMartingale

/-! Machine/Rein.lean. -/

theorem State.ClockAt.setRein {n r} (h : s.ClockAt τ) : (s.setRein n r).ClockAt τ := h.record

/-! Machine/Tack.lean. -/

theorem State.ClockAt.setChute {c x} (h : s.ClockAt τ) : (s.setChute c x).ClockAt τ :=
  ite h.record.setBit.setBit h.record.setBit

/-! Machine/ChainLink.lean. -/

theorem State.ClockAt.chainOn {up bytes} (h : s.ClockAt τ) : (chainOn s up bytes).ClockAt τ := ite h.emit h

theorem State.ClockAt.chainBroadcast {kind payload} (h : s.ClockAt τ) : (chainBroadcast s kind payload).ClockAt τ :=
  h.chainOn.chainOn

theorem State.ClockAt.chainLocal {up kind payload} (h : s.ClockAt τ) : (chainLocal s up kind payload).ClockAt τ :=
  h.chainOn

theorem State.ClockAt.fenceDue {p} (h : s.ClockAt τ) : (fenceDue s p).ClockAt τ := h.record

theorem State.ClockAt.fencedSelf (h : s.ClockAt τ) : (fencedSelf s).ClockAt τ :=
  h.takeFree.raise.foldl fun _ _ h => h.stopField

theorem State.ClockAt.takeNotice {p} (h : s.ClockAt τ) : (takeNotice s p).ClockAt τ := ite h.fencedSelf h.fenceDue

theorem State.ClockAt.sendNotices (h : s.ClockAt τ) : (sendNotices s).ClockAt τ :=
  h.record.foldl fun _ _ h => h.chainBroadcast.takeNotice

/-! Machine/Droveway.lean. -/

theorem State.ClockAt.setStream {q p t} (h : s.ClockAt τ) : (s.setStream q p t).ClockAt τ := h.record

theorem State.ClockAt.setPort {q x} (h : s.ClockAt τ) : (s.setPort q x).ClockAt τ := h.record

theorem State.ClockAt.setPeer {p x} (h : s.ClockAt τ) : (s.setPeer p x).ClockAt τ := h.record

theorem State.ClockAt.setRxBuffer {x b} (h : s.ClockAt τ) : (s.setRxBuffer x b).ClockAt τ := h.record

theorem State.ClockAt.setGroup {g x} (h : s.ClockAt τ) : (s.setGroup g x).ClockAt τ := h.record

theorem State.ClockAt.sendControl {q c} (h : s.ClockAt τ) : (sendControl s q c).ClockAt τ := h.setPort

theorem State.ClockAt.groupOver {m lost rejected} (h : s.ClockAt τ) : (groupOver s m lost rejected).ClockAt τ := by
  unfold Machine.groupOver
  split
  · exact h
  · exact h.setGroup

theorem State.ClockAt.groupFenced {m} (h : s.ClockAt τ) : (groupFenced s m).ClockAt τ :=
  ite h.undeliver.groupOver h.undeliver.groupOver

theorem State.ClockAt.startRound {x c} (h : s.ClockAt τ) : (startRound s x c).ClockAt τ :=
  h.setReg.setReg.setRxBuffer

theorem State.ClockAt.acceptMessage {src m} (h : s.ClockAt τ) : (acceptMessage s src m).ClockAt τ :=
  ite h.store.setBit.setRxBuffer h.store.setRxBuffer

theorem State.ClockAt.rejectEntry {port} (h : s.ClockAt τ) : (rejectEntry s port).ClockAt τ := by
  unfold Machine.rejectEntry
  split
  · exact h.raise
  · exact h.takeFree.raise

theorem State.ClockAt.countForAck {q p} (h : s.ClockAt τ) : (countForAck s q p).ClockAt τ :=
  ite h.setStream h.setStream.sendControl

theorem State.ClockAt.refuseMessage {port src m why} (h : s.ClockAt τ) :
    (refuseMessage s port src m why).ClockAt τ := by
  unfold Machine.refuseMessage
  dsimp only
  split
  · exact h.rejectEntry.sendControl
  · exact h.rejectEntry.undeliver.groupOver

theorem State.ClockAt.takeMessage {port src m} (h : s.ClockAt τ) : (takeMessage s port src m).ClockAt τ := by
  unfold Machine.takeMessage
  dsimp only
  split
  · exact (ite h h.startRound).acceptMessage.setPeer.countForAck
  · exact (ite h h.startRound).acceptMessage.groupOver

theorem State.ClockAt.settleLate (h : s.ClockAt τ) : (settleLate s).ClockAt τ := by
  unfold Machine.settleLate
  split
  · exact h
  · exact ite h.record.takeMessage h.record.refuseMessage

theorem State.ClockAt.discardMessages {p} (h : s.ClockAt τ) : (discardMessages s p).ClockAt τ :=
  (h.foldl fun _ _ h => h.groupFenced).setPeer.forUpTo fun _ _ h => h.setPort.setStream

theorem State.ClockAt.fenceBuffers {p} (h : s.ClockAt τ) : (fenceBuffers s p).ClockAt τ :=
  h.forUpTo fun _ _ h => ite h.setBit.setRxBuffer h

theorem State.ClockAt.markFenced {p} (h : s.ClockAt τ) : (markFenced s p).ClockAt τ :=
  ite h.record h.record.setBit.raise.fenceBuffers.discardMessages

theorem State.ClockAt.applyFences (h : s.ClockAt τ) : (applyFences s).ClockAt τ := h.foldl fun _ _ h => h.markFenced

theorem State.ClockAt.rejoin {p} (h : s.ClockAt τ) : (rejoin s p).ClockAt τ :=
  ite (h.setBit.forUpTo fun _ _ h => ite h.setRxBuffer h) h

/-! Machine/Gleaning.lean. -/

theorem State.ClockAt.glean {f} (h : s.ClockAt τ) : (glean s f).ClockAt τ :=
  ite h (ite h.raiseIf.setField (h.foldl fun _ _ h => (h.foldl fun _ _ h =>
    h.reeveRead).store.raiseIf).setBits.setBit.setField.notify.notify)

theorem State.ClockAt.retryGlean {f} (h : s.ClockAt τ) : (retryGlean s f).ClockAt τ := ite h.glean h

/-! Machine/Island.lean. -/

theorem State.ClockAt.writeEntry {tick code clsByte inst info countHi} (h : s.ClockAt τ) :
    (writeEntry s tick code clsByte inst info countHi).ClockAt τ :=
  ite h.store.setBits.setBits.notify h.store.setBits.setBits

theorem State.ClockAt.setSource {k r} (h : s.ClockAt τ) : (setSource s k r).ClockAt τ := h.record.setBit

theorem State.ClockAt.writeSummary {k r} (h : s.ClockAt τ) : (writeSummary s k r).ClockAt τ :=
  ite h h.setSource.writeEntry

theorem State.ClockAt.writeSummaries (h : s.ClockAt τ) : (writeSummaries s).ClockAt τ :=
  (h.foldl fun _ _ h => h.setSource).foldl fun _ _ h => h.writeSummary

theorem State.ClockAt.refuseSafety (h : s.ClockAt τ) : (refuseSafety s).ClockAt τ := h.raise

theorem State.ClockAt.leaveSafe (h : s.ClockAt τ) : (leaveSafe s).ClockAt τ :=
  ite (h.onlyIf fun _ h => h.refuseSafety) (ite h.refuseSafety h.setBit.record)

theorem State.ClockAt.tripMonitor {code} (h : s.ClockAt τ) : (tripMonitor s code).ClockAt τ := ite h h.record.raise

theorem State.ClockAt.readVin {mv} (h : s.ClockAt τ) : (readVin s mv).ClockAt τ := ite h.record.tripMonitor h.record

theorem State.ClockAt.readSensors {ts} (h : s.ClockAt τ) : (readSensors s ts).ClockAt τ :=
  ite h.record.tripMonitor h.record

theorem State.ClockAt.readMonitors {env} (h : s.ClockAt τ) : (readMonitors s env).ClockAt τ :=
  (h.foldl fun _ _ h => h.readVin).foldl fun _ _ h => h.readSensors

theorem State.ClockAt.judgeWatchdog (h : s.ClockAt τ) : (judgeWatchdog s).ClockAt τ := h.raiseIf.record

theorem State.ClockAt.judgeIfEnded (h : s.ClockAt τ) : (judgeIfEnded s).ClockAt τ :=
  h.forUpTo fun _ _ h => h.judgeWatchdog

/-! Machine/Buckle.lean. -/

theorem State.ClockAt.setBuckle {r b} (h : s.ClockAt τ) : (s.setBuckle r b).ClockAt τ := h.record

theorem State.ClockAt.buckleCause {r cause id} (h : s.ClockAt τ) : (buckleCause s r cause id).ClockAt τ :=
  h.setBits.raise

theorem State.ClockAt.failAddress {r a} (h : s.ClockAt τ) : (failAddress s r a).ClockAt τ :=
  (ite h.setReg64 h).setBuckle

theorem State.ClockAt.fireOld {n} {s0 : State} (hs : s.ClockAt τ) : (fireOld s0 s n).ClockAt τ :=
  ite hs.setFsync.record hs

theorem State.ClockAt.commitFsync {n} {s0 : State} (hs : s.ClockAt τ) : (commitFsync s0 s n).ClockAt τ :=
  ite hs.fireOld.setFsync hs

theorem State.ClockAt.commitSchedule {n} {s0 : State} (hs : s.ClockAt τ) : (commitSchedule s0 s n).ClockAt τ :=
  ite hs.setRein hs

theorem State.ClockAt.commitRearm {n} (h : s.ClockAt τ) : (commitRearm s n).ClockAt τ :=
  ite h (ite h.setBit.raise h.setBit.setRein)

theorem State.ClockAt.commitMartingale {m} {s0 : State} (hs : s.ClockAt τ) : (commitMartingale s0 s m).ClockAt τ :=
  ite hs.setBits (ite hs.restartMartingale hs)

theorem State.ClockAt.commitWatchdog {s0 : State} (hs : s.ClockAt τ) : (commitWatchdog s0 s).ClockAt τ :=
  ite hs.judgeIfEnded.record (ite hs.judgeIfEnded.record hs.judgeIfEnded)

theorem State.ClockAt.commitPipe {p} (h : s.ClockAt τ) : (commitPipe s p).ClockAt τ := ite h.record h

theorem State.ClockAt.commitPeer {p} {s0 : State} (hs : s.ClockAt τ) : (commitPeer s0 s p).ClockAt τ :=
  ite hs.setBit.rejoin hs.setBit

theorem State.ClockAt.commitEffect {mask a} {s0 : State} (hs : s.ClockAt τ) :
    (commitEffect s0 mask s a).ClockAt τ := by
  unfold Machine.commitEffect
  extract_lets _ s1 s2 s3 s4 s5 s6 s7 s8
  have h1 : s1.ClockAt τ := by
    unfold s1
    split
    · exact hs.commitFsync
    · exact hs
  have h2 : s2.ClockAt τ := by
    unfold s2
    split
    · exact ite h1.commitSchedule.commitRearm h1.commitSchedule
    · exact h1
  have h3 : s3.ClockAt τ := by
    unfold s3
    split
    · exact h2.commitSchedule
    · exact h2
  have h4 : s4.ClockAt τ := by
    unfold s4
    split
    · exact h3.commitMartingale
    · exact h3
  have h5 : s5.ClockAt τ := by
    unfold s5
    split
    · exact ite h4.commitPipe h4
    · exact h4
  have h6 : s6.ClockAt τ := by
    unfold s6
    split
    · exact h5.setChute
    · exact h5
  have h7 : s7.ClockAt τ := by
    unfold s7
    split
    · exact ite h6.commitPeer h6
    · exact h6
  have h8 : s8.ClockAt τ := ite h7.commitWatchdog h7
  exact ite h8.setBit.leaveSafe h8

theorem State.ClockAt.applySettings {xs} (h : s.ClockAt τ) : (applySettings s xs).ClockAt τ :=
  (h.foldl fun _ _ h => h.setReg).foldl fun _ _ h => h.commitEffect

theorem State.ClockAt.endLoad {result} (h : s.ClockAt τ) : (endLoad s result).ClockAt τ :=
  h.setBit.setBit.setBits.notify

theorem State.ClockAt.recordImage (h : s.ClockAt τ) : (recordImage s).ClockAt τ :=
  h.setReg.forUpTo fun _ _ h => h.setReg

theorem State.ClockAt.endBuckle {r outcome cause} (h : s.ClockAt τ) : (endBuckle s r outcome cause).ClockAt τ := by
  unfold Machine.endBuckle
  extract_lets _ s1 s2 s3
  have h1 : s1.ClockAt τ := h.setBits.setBits
  have h2 : s2.ClockAt τ := h1.setBit.setBit.setReg
  have h3 : s3.ClockAt τ := h2.setBuckle.buckleCause
  exact ite h3.notify (ite h3.notify (ite (ite h3.setBits.recordImage.endLoad h3.setBits.endLoad) h3))

theorem State.ClockAt.fastenChecks {r boundary target} (h : s.ClockAt τ) :
    (fastenChecks s r boundary target).2.ClockAt τ := by
  unfold Machine.fastenChecks
  dsimp only
  split
  · exact h
  · split
    · exact h.failAddress
    · exact h

theorem State.ClockAt.commit {r} (h : s.ClockAt τ) : (commit s r).ClockAt τ := by
  unfold Machine.commit
  split
  · exact h
  · dsimp only
    split
    · next e =>
      have h := h.fastenChecks.ofSnd e
      exact h.endBuckle
    · next e =>
      have h := h.fastenChecks.ofSnd e
      exact h.applySettings.endBuckle

theorem State.ClockAt.commitAt {boundary target} (h : s.ClockAt τ) : (commitAt s boundary target).ClockAt τ :=
  h.forUpTo fun _ _ h => ite h.commit h

/-! Machine/Tick.lean. -/

theorem State.ClockAt.judgeRange {env} (h : s.ClockAt τ) : (judgeRange s env).ClockAt τ := h.record

theorem State.ClockAt.takeReadings {env} (h : s.ClockAt τ) : (takeReadings s env).ClockAt τ :=
  (h.record.forUpTo fun _ _ h => h.setBits).setBits.setBits.setBits.setBits

theorem State.ClockAt.closePower (h : s.ClockAt τ) : (closePower s).ClockAt τ :=
  ite h (ite h.record.setBits.setBit.addSat.raise h.record.setBits)

theorem State.ClockAt.countPower {p} (h : s.ClockAt τ) : (countPower s p).ClockAt τ := (ite h h.closePower).record

theorem State.ClockAt.countHold (h : s.ClockAt τ) : (countHold s).ClockAt τ := ite h h.record

theorem State.ClockAt.pruneTransients {n} (h : s.ClockAt τ) : (pruneTransients s n).ClockAt τ := h.setFurrow.setBits

theorem State.ClockAt.countQuiesce {f} (h : s.ClockAt τ) : (countQuiesce s f).ClockAt τ := ite h.setField h

theorem State.ClockAt.countHeartbeats (h : s.ClockAt τ) : (countHeartbeats s).ClockAt τ :=
  (h.setBits.forUpTo fun _ _ h => ite h.record h).record

theorem State.ClockAt.startProbes (h : s.ClockAt τ) : (startProbes s).ClockAt τ :=
  have hs : State.ClockAt { s with time := { s.time with delays := [] } } τ := h
  ite hs.emit hs

theorem State.ClockAt.chainTick (h : s.ClockAt τ) : (chainTick s).ClockAt τ :=
  (ite h.countHeartbeats.chainLocal h.countHeartbeats).startProbes.sendNotices.applyFences.chainBroadcast

/-- What a tick does without a servo's decision moves no clock. -/
theorem State.ClockAt.managementWork {env} (hs : env.servo = none) (h : s.ClockAt τ) :
    (managementWork s env).ClockAt τ := by
  unfold Machine.managementWork
  extract_lets s1 s2 s3 s4 s5 s6
  have h1 : s1.ClockAt τ := h.settleLate.judgeIfEnded.readMonitors.judgeRange
  have h3 : s3.ClockAt τ := h1.countPower.countHold.commitAt.writeSummaries
  have h4 : s4.ClockAt τ := h3.forUpTo fun _ _ h => h.pruneTransients
  have h5 : s5.ClockAt τ := (h4.forUpTo fun _ _ h => h.countQuiesce.retryGlean).chainTick
  have h6 : s6 = s5 := by unfold s6; rw [hs]
  rw [h6]
  exact h5.takeReadings

/-! The readings of a tick (R258, R481, R483). -/

theorem unsignedOf_mod (x : Int) (w : Nat) : unsignedOf x w % 2 ^ w = unsignedOf x w :=
  Nat.mod_eq_of_lt (by
    have hpos : (0 : Int) < (2 ^ w : Nat) := Int.natCast_pos.mpr (Nat.two_pow_pos w)
    have hlt := Int.emod_lt_of_pos x hpos
    have hnn := Int.emod_nonneg x (Int.ne_of_gt hpos)
    unfold unsignedOf
    omega)

/-- The sensors' readings of the first k nodes are shown. -/
def showNodeTemps (env : TickEnv) (k : Nat) (s : State) : State :=
  forUpTo k (fun m s => s.setBits (Reg.dramNodeTemp m) 7 0 (unsignedOf ((env.nodeTemps[m]?).getD 0) 8)) s

theorem showNodeTemps_temp (env : TickEnv) (s : State) {k m : Nat} (h : m < k) :
    (showNodeTemps env k s).bits (Reg.dramNodeTemp m) 7 0 = unsignedOf ((env.nodeTemps[m]?).getD 0) 8 := by
  unfold showNodeTemps
  induction k with
  | zero => omega
  | succ k ih =>
    rw [forUpTo_succ]
    by_cases hk : m = k
    · rw [hk, State.bits_setBits_self _ _ _ _ (by decide)]
      exact unsignedOf_mod _ _
    · have hne : Reg.dramNodeTemp m ≠ Reg.dramNodeTemp k := by unfold Reg.dramNodeTemp; omega
      rw [State.bits_setBits_of_disjoint _ _ _ _ (by decide) (.inl hne), ih (by omega)]

theorem showNodeTemps_pins (env : TickEnv) (k : Nat) (s : State) : (showNodeTemps env k s).pins = s.pins :=
  forUpTo_induct (P := fun t : State => t.pins = s.pins) rfl fun _ u _ h => (State.setBits_pins u _ _ _ _).trans h

/-- SAFE_MON and SAFE_PWR show the tick's readings. -/
def showSupply (env : TickEnv) (s : State) : State :=
  let s := (s.setBits Reg.safeMon 31 16 (min env.vinMilliVolt 65535)).setBits Reg.safeMon 15 8 (unsignedOf env.maxTj 8)
  (s.setBits Reg.safePwr 31 16 (min env.currentDeci 65535)).setBits Reg.safePwr 15 0 (min env.powerDeci 65535)

theorem takeReadings_eq (s : State) (env : TickEnv) : takeReadings s env = showSupply env (showNodeTemps env 8
    { s with pins := { s.pins with gpioLevels := env.gpioLevels }, dram := { s.dram with mr4Tick := s.tickNumber } }) :=
  rfl

/-- A reading that saturates at 16 bits fits its field. -/
theorem min_mod_65536 (x : Nat) : min x 65535 % 2 ^ 16 = min x 65535 := Nat.mod_eq_of_lt (by omega)

theorem showSupply_shows (env : TickEnv) (s : State) :
    (showSupply env s).bits Reg.safeMon 31 16 = min env.vinMilliVolt 65535 ∧
      (showSupply env s).bits Reg.safeMon 15 8 = unsignedOf env.maxTj 8 ∧
      (showSupply env s).bits Reg.safePwr 31 16 = min env.currentDeci 65535 ∧
      (showSupply env s).bits Reg.safePwr 15 0 = min env.powerDeci 65535 := by
  refine ⟨?_, ?_, ?_, ?_⟩ <;> unfold showSupply
  · rw [State.bits_setBits_of_disjoint _ _ _ _ (by decide) (by decide),
      State.bits_setBits_of_disjoint _ _ _ _ (by decide) (by decide),
      State.bits_setBits_of_disjoint _ _ _ _ (by decide) (by decide), State.bits_setBits_self _ _ _ _ (by decide)]
    exact min_mod_65536 _
  · rw [State.bits_setBits_of_disjoint _ _ _ _ (by decide) (by decide),
      State.bits_setBits_of_disjoint _ _ _ _ (by decide) (by decide), State.bits_setBits_self _ _ _ _ (by decide)]
    exact unsignedOf_mod _ _
  · rw [State.bits_setBits_of_disjoint _ _ _ _ (by decide) (by decide), State.bits_setBits_self _ _ _ _ (by decide)]
    exact min_mod_65536 _
  · rw [State.bits_setBits_self _ _ _ _ (by decide)]
    exact min_mod_65536 _

theorem showSupply_bits_of_ne (env : TickEnv) (s : State) {a : Nat} (msb lsb : Nat) (hmon : a ≠ Reg.safeMon)
    (hpwr : a ≠ Reg.safePwr) : (showSupply env s).bits a msb lsb = s.bits a msb lsb := by
  unfold showSupply
  rw [State.bits_setBits_of_disjoint _ _ _ _ (by decide) (.inl hpwr),
    State.bits_setBits_of_disjoint _ _ _ _ (by decide) (.inl hpwr),
    State.bits_setBits_of_disjoint _ _ _ _ (by decide) (.inl hmon),
    State.bits_setBits_of_disjoint _ _ _ _ (by decide) (.inl hmon)]

theorem takeReadings_supply (s : State) (env : TickEnv) :
    (takeReadings s env).bits Reg.safeMon 31 16 = min env.vinMilliVolt 65535 ∧
      (takeReadings s env).bits Reg.safeMon 15 8 = unsignedOf env.maxTj 8 ∧
      (takeReadings s env).bits Reg.safePwr 31 16 = min env.currentDeci 65535 ∧
      (takeReadings s env).bits Reg.safePwr 15 0 = min env.powerDeci 65535 := by
  rw [takeReadings_eq]
  exact showSupply_shows env _

theorem takeReadings_nodeTemp (s : State) (env : TickEnv) {m : Nat} (hm : m < 8) :
    (takeReadings s env).bits (Reg.dramNodeTemp m) 7 0 = unsignedOf ((env.nodeTemps[m]?).getD 0) 8 := by
  have hmon : Reg.dramNodeTemp m ≠ Reg.safeMon := by unfold Reg.dramNodeTemp Reg.safeMon; omega
  have hpwr : Reg.dramNodeTemp m ≠ Reg.safePwr := by unfold Reg.dramNodeTemp Reg.safePwr; omega
  rw [takeReadings_eq, showSupply_bits_of_ne _ _ _ _ hmon hpwr, showNodeTemps_temp _ _ hm]

theorem takeReadings_gpioLevels (s : State) (env : TickEnv) :
    (takeReadings s env).pins.gpioLevels = env.gpioLevels := by
  rw [takeReadings_eq, showSupply]
  simp only [State.setBits_pins, showNodeTemps_pins]

/-- The last work of a tick is to show its readings. -/
theorem managementWork_ends_in_readings (s : State) (env : TickEnv) :
    ∃ u, managementWork s env = takeReadings u env := ⟨_, rfl⟩

/-! The tick itself (R25). -/

/-- The device at the management tick that is due: the clock runs to it where none waits. -/
def State.atDueTick (s : State) : State :=
  if 0 < s.time.ticksDue then s else runUntil s ((s.tickNumber + 1) * mgmtTicks)

/-- The device with that tick taken. -/
def State.tickTaken (s : State) : State :=
  { s with time := { s.atDueTick.time with ticksDue := s.atDueTick.time.ticksDue - 1 } }

theorem atDueTick_eq (s : State) : s.atDueTick = { s with time := s.atDueTick.time } := by
  unfold State.atDueTick
  split
  · rfl
  · exact runUntil_eq _ _

theorem managementTick_eq (s : State) (env : TickEnv) :
    managementTick s env = if s.held then s.tickTaken else managementWork s.tickTaken env := by
  have htaken : { s.atDueTick with time := { s.atDueTick.time with ticksDue := s.atDueTick.time.ticksDue - 1 } } =
      s.tickTaken := by
    rw [atDueTick_eq]
    rfl
  have hheld : s.tickTaken.held = s.held := rfl
  rw [← hheld, ← htaken]
  rfl

theorem tickTaken_clockAt (s : State) :
    s.tickTaken.ClockAt (s.atDueTick.now, s.atDueTick.time.ticksDue - 1) := rfl

end Sys2Proof.Machine
end

section
/-! Seedbed rows and their scrub (R115 to R117, R124 to R127, R138, R139). -/

namespace Sys2Proof.Machine

/-! Marks over ranges of granules. -/

theorem mark_foldl_setMark {α : Type} (key : α → Nat) (m : Mark) (xs : List α) (s : State) (g : Nat) :
    (xs.foldl (fun t x => t.setMark (key x) m) s).mark g = if ∃ x ∈ xs, key x = g then m else s.mark g := by
  induction xs generalizing s with
  | nil => simp
  | cons x xs ih =>
    rw [List.foldl_cons, ih, State.mark_setMark]
    by_cases hx : key x = g
    · simp [hx]
    · simp [hx, Ne.symm hx]

theorem foldl_setMark_eq {α : Type} (key : α → Nat) (m : Mark) (xs : List α) (s : State) :
    xs.foldl (fun t x => t.setMark (key x) m) s =
      { s with marks := (xs.foldl (fun t x => t.setMark (key x) m) s).marks } :=
  foldl_induct (P := fun t : State => t = { s with marks := t.marks }) xs rfl fun u x _ h => by rw [h]; rfl

theorem markRange_mark (s : State) (a n : Nat) (m : Mark) (g : Nat) :
    (s.markRange a n m).mark g = if g ∈ granulesOf a n then m else s.mark g := by
  rw [State.markRange, mark_foldl_setMark (fun g => g)]
  simp only [exists_eq_right]

theorem markRange_eq (s : State) (a n : Nat) (m : Mark) :
    s.markRange a n m = { s with marks := (s.markRange a n m).marks } := foldl_setMark_eq (fun g => g) m _ s

theorem granulesOf_ne_nil {n : Nat} (a : Nat) (h : 0 < n) : granulesOf a n ≠ [] := by
  rw [granulesOf, if_neg (by omega)]
  simp only [ne_eq, List.map_eq_nil_iff, List.range_eq_nil]
  omega

/-- A written range reads as poisoned as it was written. -/
theorem markRange_poisoned {n : Nat} (s : State) (a : Nat) (p : Bool) (h : 0 < n) :
    (s.markRange a n (if p then .double else .clean)).poisoned a n = p := by
  have hm : ∀ g ∈ granulesOf a n, ((s.markRange a n (if p then .double else .clean)).mark g == .double ||
      (s.markRange a n (if p then .double else .clean)).mark g == .wrongAddress) = p := fun g hg => by
    rw [markRange_mark, if_pos hg]
    cases p <;> rfl
  obtain ⟨g, hg⟩ := List.exists_mem_of_ne_nil _ (granulesOf_ne_nil a h)
  rw [State.poisoned, Bool.eq_iff_iff, List.any_eq_true]
  exact ⟨fun ⟨g, hg, e⟩ => hm g hg ▸ e, fun e => ⟨g, hg, (hm g hg).trans e⟩⟩

theorem poisoned_congr {s t : State} (h : t.marks = s.marks) (a n : Nat) : t.poisoned a n = s.poisoned a n := by
  simp only [State.poisoned, State.mark, h]

theorem bytes_congr {s t : State} (h : t.mem = s.mem) (a n : Nat) : t.bytes a n = s.bytes a n := by
  simp only [State.bytes, State.byte, h]

/-! Writes of whole granules (R117, R127). -/

theorem cancelWriteBacks_eq (s : State) (a n : Nat) :
    cancelWriteBacks s a n = { s with furrows := (cancelWriteBacks s a n).furrows } := by
  unfold cancelWriteBacks
  split
  · dsimp only
    split <;> rfl
  · rfl

/-- A write of whole granules needs no padding. -/
theorem writeSeed_of_whole {a : Nat} {bs : List Byte} (s : State) (p : Bool) (ha : a % 32 = 0)
    (hl : bs.length % 32 = 0) : writeSeed s a bs p =
      ((cancelWriteBacks s a bs.length).poke a bs).markRange a bs.length (if p then .double else .clean) := by
  have h1 : a / 32 * 32 = a := by omega
  have h2 : roundUp bs.length 32 - bs.length = 0 := by unfold roundUp ceilDiv; omega
  simp only [writeSeed, ha, List.replicate_zero, List.nil_append, h2, List.append_nil, h1]

/-- A seedbed row's place among the addresses. -/
theorem seedbedOf_row {n row first : Nat} (hn : n < 64) (hr : row < 32768) (hf : first < 4) :
    seedbedOf (seedbedBase n + 128 * row + 32 * first) = some n := by
  unfold seedbedOf seedbedBase
  rw [if_pos (by omega)]
  congr 1
  omega

theorem store_of_seedbed {s : State} {a n : Nat} (h : seedbedOf a = some n) (bs : List Byte) (p : Bool) :
    s.store a bs p = writeSeed s a bs p := by
  have hlo : ¬ a < 0x2000000000 := fun hlt => by
    rw [seedbedOf, if_neg (by omega)] at h
    cases h
  rw [State.store, if_neg hlo, h, Option.isSome_some, if_pos rfl]

theorem bytes_of_written {t : State} {a : Nat} {bs : List Byte}
    (h : ∀ i < bs.length, t.byte (a + i) = (bs[i]?).getD 0) : t.bytes a bs.length = bs := by
  refine List.ext_getElem (by simp [State.bytes]) fun i h1 h2 => ?_
  simp [State.bytes, h i h2, h2]

/-- What a write of whole granules of a seedbed leaves. -/
theorem store_granules {s : State} {a n : Nat} {bs : List Byte} (p : Bool) (hs : seedbedOf a = some n) (ha : a % 32 = 0)
    (hl : bs.length % 32 = 0) (hpos : 0 < bs.length) :
    (s.store a bs p).bytes a bs.length = bs ∧ SameBytesOutside a bs.length s (s.store a bs p) ∧
      (s.store a bs p).poisoned a bs.length = p ∧ SameRegsBut [] s (s.store a bs p) ∧
      (s.store a bs p).outbox = s.outbox := by
  have hbyte := byte_store s a (bs := bs) (p := p) (h := fun _ _ => ⟨ha, hl⟩)
  refine ⟨bytes_of_written fun i hi => ?_, fun x hx => ?_, ?_, fun x _ => ?_, ?_⟩
  · rw [hbyte, if_pos (by omega), Nat.add_sub_cancel_left]
  · rw [hbyte, if_neg hx]
  · rw [store_of_seedbed hs, writeSeed_of_whole s p ha hl]
    exact markRange_poisoned _ a p hpos
  · rw [store_of_seedbed hs, writeSeed_of_whole s p ha hl, markRange_reg, State.poke_reg, cancelWriteBacks_eq]
    rfl
  · rw [store_of_seedbed hs, writeSeed_of_whole s p ha hl, markRange_eq, cancelWriteBacks_eq]
    rfl

theorem length_slice (bs : List Byte) (off n : Nat) : (slice bs off n).length = n := by
  simp only [slice, List.length_append, List.length_replicate, List.length_take]
  omega

theorem slice_zero (bs : List Byte) (n : Nat) : slice bs 0 n = (bs ++ List.replicate n 0).take n := by
  rw [slice, List.drop_zero, List.take_append, List.take_replicate, List.length_take]
  congr 2
  omega

/-! Reads of a row (R124, R125). -/

/-- Only registers of the state differ. -/
def RegsAlone (s t : State) : Prop := t = { s with regs := t.regs }

theorem RegsAlone.setBits {s t : State} (h : RegsAlone s t) (a msb lsb v : Nat) :
    RegsAlone s (t.setBits a msb lsb v) := by
  have hregs := congrArg (fun u : State => { u with regs := (t.setBits a msb lsb v).regs }) h
  exact hregs

theorem regsAlone_seedError (s : State) (n g : Nat) (u c : Bool) : RegsAlone s (seedError s n g u c) := by
  have hs : RegsAlone s s := rfl
  unfold seedError
  extract_lets s1 s2
  have h1 : RegsAlone s s1 := by
    unfold s1
    split
    · exact (hs.setBits _ _ _ _).setBits _ _ _ _
    · exact hs
  have h2 : RegsAlone s s2 := h1.setBits _ _ _ _
  split <;> exact h2.setBits _ _ _ _

theorem seedError_marks (s : State) (n g : Nat) (u c : Bool) : (seedError s n g u c).marks = s.marks := by
  rw [regsAlone_seedError]

theorem seedError_outbox (s : State) (n g : Nat) (u c : Bool) : (seedError s n g u c).outbox = s.outbox := by
  rw [regsAlone_seedError]

theorem seedError_furrow (s : State) (n g : Nat) (u c : Bool) (k : Nat) :
    (seedError s n g u c).furrow k = s.furrow k := by
  rw [State.furrow, State.furrow, regsAlone_seedError]

theorem seedError_regs (s : State) (n g : Nat) (u c : Bool) :
    SameRegsBut [Reg.furSbErr n, Reg.furSbEccCnt n] s (seedError s n g u c) := fun a ha => by
  have herr := List.ne_of_not_mem_cons ha
  have hcnt := List.ne_of_not_mem_cons (List.not_mem_of_not_mem_cons ha)
  unfold seedError
  dsimp only
  split <;> split <;>
    simp only [State.reg_addSat_ne _ _ _ _ hcnt, State.reg_setBit_ne _ _ _ herr, State.reg_setBits_ne _ _ _ _ herr]

/-- The check of granule i of a row that is read (R124, R125). -/
def checkGranule (n row : Nat) (upsets : List Upset) (i : Nat) (s : State) : State :=
  let g := seedbedBase n / 32 + 4 * row + i
  let m := metMark (s.mark g) ((upsets[i]?).getD .clean)
  let s := s.setMark g m
  match m with
  | .clean => s
  | .single => (seedError s n (4 * row + i) false false).raise { code := 0x2101, cls := 1, inst := n }
  | _ => (seedError s n (4 * row + i) true false).raise { code := 0x2103, cls := 2, inst := n }

theorem readSeedRow_eq_checks (s : State) (n row : Nat) (upsets : List Upset) :
    readSeedRow s n row upsets = forUpTo 4 (checkGranule n row upsets) s := rfl

theorem checkGranule_marks (n row : Nat) (upsets : List Upset) (i : Nat) (s : State) :
    (checkGranule n row upsets i s).marks = (s.setMark (seedbedBase n / 32 + 4 * row + i)
      (metMark (s.mark (seedbedBase n / 32 + 4 * row + i)) ((upsets[i]?).getD .clean))).marks := by
  unfold checkGranule
  dsimp only
  split
  · rfl
  · rw [State.raise_marks, seedError_marks]
  · rw [State.raise_marks, seedError_marks]

theorem checkGranule_outbox (n row : Nat) (upsets : List Upset) (i : Nat) (s : State) :
    (checkGranule n row upsets i s).outbox = s.outbox := by
  unfold checkGranule
  dsimp only
  split
  · rfl
  · rw [State.raise_outbox, seedError_outbox]; rfl
  · rw [State.raise_outbox, seedError_outbox]; rfl

/-- The granules checked so far hold the marks that their checks met, the others what they held. -/
theorem checkGranules_mark (n row : Nat) (upsets : List Upset) (k : Nat) (s : State) (i : Nat) :
    (forUpTo k (checkGranule n row upsets) s).mark (seedbedBase n / 32 + 4 * row + i) =
      if i < k then metMark (s.mark (seedbedBase n / 32 + 4 * row + i)) ((upsets[i]?).getD .clean)
      else s.mark (seedbedBase n / 32 + 4 * row + i) := by
  induction k with
  | zero => rfl
  | succ k ih =>
    rw [forUpTo_succ, State.mark, checkGranule_marks]
    refine (State.mark_setMark _ _ _ _).trans ?_
    by_cases hik : i = k
    · subst hik
      rw [if_pos rfl, ih, if_neg (Nat.lt_irrefl i), if_pos (Nat.lt_succ_self i)]
    · rw [if_neg (by omega), ih]
      simp only [show i < k + 1 ↔ i < k by omega]

theorem readSeedRow_outbox (s : State) (n row : Nat) (upsets : List Upset) :
    (readSeedRow s n row upsets).outbox = s.outbox :=
  forUpTo_induct (P := fun t : State => t.outbox = s.outbox) rfl fun i u _ h => by
    rw [← h]; exact checkGranule_outbox n row upsets i u

/-- Memory, its marks and what has left the device stay. -/
def MemoryStays (s t : State) : Prop := t.mem = s.mem ∧ t.marks = s.marks ∧ t.outbox = s.outbox

theorem memoryStays_toEnding (s : State) (n : Nat) (t : Task) (cause : Nat) : MemoryStays s (toEnding s n t cause) := by
  unfold toEnding releaseYoke
  dsimp only
  split <;> exact ⟨rfl, rfl, rfl⟩

theorem memoryStays_receivePoison (s : State) (r : Requester) (a : Nat) : MemoryStays s (receivePoison s r a) := by
  have hs : MemoryStays s s := ⟨rfl, rfl, rfl⟩
  unfold receivePoison
  split
  · split
    · split
      · exact hs
      · exact memoryStays_toEnding _ _ _ _
    · exact hs
  · simp [MemoryStays, reeveBusError]
  · exact hs

/-- What a requester reads leaves to it; memory and its marks stay. -/
theorem memoryStays_answerRead (s : State) (r : Requester) (a n : Nat) :
    MemoryStays (s.emit (.row (s.bytes a n) (s.poisoned a n))) (answerRead s r a n) := by
  unfold answerRead
  dsimp only
  split
  · exact memoryStays_receivePoison _ _ _
  · exact ⟨rfl, rfl, rfl⟩

/-! Accesses of a row (R34, R116, R139). -/

/-- The granules that an access names lie in the device. -/
theorem exec_seedbedAccess_of_wellFormed {x : SeedAccess} (h : x.wellFormed = true) (s : State) :
    exec (.seedbedAccess x) s = live s (seedbedAccess s x) := by
  simp only [SeedAccess.wellFormed, Bool.and_eq_true, decide_eq_true_eq] at h
  obtain ⟨⟨⟨⟨hn, hr⟩, hf⟩, hc⟩, hk⟩ := h
  rw [exec, execSeedbedAccess, placedAccess, withUnit_of hn, withUnit_of hr, withUnit_of hf, if_neg (by omega),
    withUnit_of (by omega), Nat.sub_add_cancel hc]

theorem leBytes_zero (n : Nat) : leBytes n 0 = List.replicate n 0 := by
  induction n with
  | zero => rfl
  | succ n ih => rw [leBytes_succ, Nat.zero_div, ih]; rfl

theorem denyRead_of_not_furrow {r : Requester} (hr : ∀ m, r ≠ .furrow m) (s : State) (a n : Nat) :
    denyRead s r a n = (deniedAccess s r a).emit (.row (List.replicate n 0) false) := by
  rw [← leBytes_zero]
  cases r with
  | furrow m => exact absurd rfl (hr m)
  | _ => rfl

/-- The first address that an access names. -/
def rowAddr (x : SeedAccess) : Nat := seedbedBase x.furrow + 128 * x.row + 32 * x.first

theorem seedbedAccess_of_denied {s : State} {x : SeedAccess}
    (h : s.reaches (.req x.req) (rowAddr x) (32 * x.count) (x.wdata != []) = false) :
    seedbedAccess s x =
      if x.wdata = [] then denyRead s x.req (rowAddr x) (32 * x.count) else deniedAccess s x.req (rowAddr x) :=
  if_pos (congrArg (!·) h)

theorem seedbedAccess_of_unready {s : State} {x : SeedAccess}
    (h : s.reaches (.req x.req) (rowAddr x) (32 * x.count) (x.wdata != []) = true)
    (hready : s.bit (Reg.furSbStatus x.furrow) 0 = false) : seedbedAccess s x = holdAccess s (.row x) := by
  have hreach : ¬ (!s.reaches (.req x.req) (rowAddr x) (32 * x.count) (x.wdata != [])) = true := by rw [h]; decide
  exact (if_neg hreach).trans (if_pos (congrArg (!·) hready))

theorem seedbedAccess_of_ready {s : State} {x : SeedAccess}
    (h : s.reaches (.req x.req) (rowAddr x) (32 * x.count) (x.wdata != []) = true)
    (hready : s.bit (Reg.furSbStatus x.furrow) 0 = true) : seedbedAccess s x = rowAccess s x := by
  have hreach : ¬ (!s.reaches (.req x.req) (rowAddr x) (32 * x.count) (x.wdata != [])) = true := by rw [h]; decide
  exact (if_neg hreach).trans (if_neg (by rw [hready]; decide))

/-- A read answers its granules as their checks left them. -/
theorem rowAccess_of_read {s : State} {x : SeedAccess} (hd : x.wdata = []) (hfirst : x.first < 4) :
    (rowAccess s x).outbox =
        s.outbox ++ [.row (s.bytes (rowAddr x) (32 * x.count)) ((rowAccess s x).poisoned (rowAddr x) (32 * x.count))] ∧
      SameBytes s (rowAccess s x) ∧
      ∀ i < 4, (rowAccess s x).mark (rowAddr x / 128 * 4 + i) =
        metMark (s.mark (rowAddr x / 128 * 4 + i)) ((x.upsets[i]?).getD .clean) := by
  have hrow : rowAddr x / 128 * 4 = seedbedBase x.furrow / 32 + 4 * x.row := by unfold rowAddr seedbedBase; omega
  have hread : rowAccess s x =
      answerRead (readSeedRow s x.furrow x.row x.upsets) x.req (rowAddr x) (32 * x.count) := if_pos hd
  obtain ⟨hmem, hmarks, hout⟩ :=
    memoryStays_answerRead (readSeedRow s x.furrow x.row x.upsets) x.req (rowAddr x) (32 * x.count)
  rw [hread]
  refine ⟨?_, fun b => ?_, fun i hi => ?_⟩
  · rw [hout, State.emit_outbox, readSeedRow_outbox, bytes_congr (readSeedRow_mem s x.furrow x.row x.upsets),
      poisoned_congr (hmarks.trans (State.emit_marks _ _)).symm]
  · rw [State.byte, hmem, State.emit_mem, readSeedRow_mem, State.byte]
  · rw [State.mark, hmarks, State.emit_marks, hrow]
    exact (checkGranules_mark x.furrow x.row x.upsets 4 s i).trans (if_pos hi)

theorem rowAccess_of_partial {s : State} {x : SeedAccess} (hr : ∀ m, x.req ≠ .furrow m) (hw : x.wdata ≠ [])
    (hl : x.wdata.length ≠ 32 * x.count) :
    rowAccess s x = s.raise { code := 0x2107, cls := 0, inst := x.furrow } := by
  rw [rowAccess, if_neg hw]
  split
  · next e => exact absurd e (hr _)
  · rw [if_neg hl]

/-- A write that is taken is a store of whole granules, filled up with zeros. -/
theorem rowAccess_of_write {s : State} {x : SeedAccess} (hw : x.wdata ≠ [])
    (h : x.wdata.length = 32 * x.count ∨ ∃ m, x.req = .furrow m) :
    rowAccess s x = s.store (rowAddr x) ((x.wdata ++ List.replicate (32 * x.count) 0).take (32 * x.count)) x.wpoison := by
  rw [rowAccess, if_neg hw]
  split
  · rw [slice_zero]
    rfl
  · next hr =>
    have hl := h.resolve_right fun ⟨m, e⟩ => hr m e
    rw [if_pos hl, ← hl, List.take_left]
    rfl

/-! The scrub (R138). -/

/-- The scrub of granule i of a row. -/
def scrubGranule (n bank row : Nat) (upsets : List Upset) (i : Nat) (s : State) : State :=
  let a := seedbedBase n + 128 * row + 32 * i
  let m := metMark (s.mark (a / 32)) ((upsets[i]?).getD .clean)
  let s := s.setMark (a / 32) m
  match m with
  | .clean => s
  | .single =>
    let s := (seedError s n (4 * row + i) false true).raise { code := 0x2102, cls := 1, inst := n }
    s.setFurrow n { s.furrow n with writeBack := (s.furrow n).writeBack ++ [(bank, a)] }
  | _ => (seedError s n (4 * row + i) true true).raise { code := 0x2104, cls := 2, inst := n }

/-- What the scrub of a row keeps: every byte, the round's banks and the scrub's pointer. -/
def ScrubKeeps (n : Nat) (s t : State) : Prop :=
  t.mem = s.mem ∧ (t.furrow n).scrubbed = (s.furrow n).scrubbed ∧ t.reg (Reg.furSbScrub n) = s.reg (Reg.furSbScrub n)

theorem seedError_scrubReg (s : State) (n g : Nat) (u c : Bool) :
    (seedError s n g u c).reg (Reg.furSbScrub n) = s.reg (Reg.furSbScrub n) :=
  seedError_regs s n g u c _ (by simp [Reg.furSbScrub, Reg.furSbErr, Reg.furSbEccCnt])

theorem ScrubKeeps.refl (n : Nat) (s : State) : ScrubKeeps n s s := ⟨rfl, rfl, rfl⟩

theorem ScrubKeeps.trans {n : Nat} {s t u : State} (h : ScrubKeeps n s t) (h' : ScrubKeeps n t u) : ScrubKeeps n s u :=
  have ⟨hmem, hround, hreg⟩ := h
  have ⟨hmem', hround', hreg'⟩ := h'
  ⟨hmem'.trans hmem, hround'.trans hround, hreg'.trans hreg⟩

theorem scrubKeeps_seedError (s : State) (n g : Nat) (u : Bool) (e : Event) :
    ScrubKeeps n s ((seedError s n g u true).raise e) := by
  refine ⟨?_, ?_, ?_⟩
  · rw [State.raise_mem, seedError_mem]
  · rw [State.raise_furrow, seedError_furrow]
  · rw [State.raise_reg, seedError_scrubReg]

theorem scrubKeeps_writeBack (s : State) (n : Nat) (ws : List (Nat × Nat)) :
    ScrubKeeps n s (s.setFurrow n { s.furrow n with writeBack := ws }) := by
  refine ⟨State.setFurrow_mem _ _ _, ?_, State.setFurrow_reg _ _ _ _⟩
  rw [State.furrow_setFurrow_self]

theorem scrubKeeps_setMark (s : State) (n g : Nat) (m : Mark) : ScrubKeeps n s (s.setMark g m) :=
  ⟨State.setMark_mem _ _ _, congrArg Furrow.scrubbed (State.setMark_furrow _ _ _ _), State.setMark_reg _ _ _ _⟩

theorem scrubGranule_keeps (n bank row : Nat) (upsets : List Upset) (i : Nat) (s : State) :
    ScrubKeeps n s (scrubGranule n bank row upsets i s) := by
  unfold scrubGranule
  extract_lets a m s1 s2 f
  have h1 : ScrubKeeps n s s1 := scrubKeeps_setMark s n (a / 32) m
  clear_value s1 m
  cases m with
  | clean => exact h1
  | single => exact h1.trans ((scrubKeeps_seedError _ _ _ _ _).trans (scrubKeeps_writeBack _ _ _))
  | double => exact h1.trans (scrubKeeps_seedError _ _ _ _ _)
  | wrongAddress => exact h1.trans (scrubKeeps_seedError _ _ _ _ _)

theorem scrubRow_keeps (s : State) (n bank row : Nat) (upsets : List Upset) :
    ScrubKeeps n s (scrubRow s n bank row upsets) :=
  forUpTo_induct (P := ScrubKeeps n s) (ScrubKeeps.refl n s) fun i u _ h =>
    h.trans (scrubGranule_keeps n bank row upsets i u)

/-- A bank that the round has not read yet joins its banks, or, as the sixteenth, ends the round. -/
theorem scrubRead_of_unread {s : State} {n bank : Nat} (upsets : List Upset)
    (h : (s.furrow n).scrubbed.contains bank = false) :
    SameBytes s (scrubRead s n bank upsets) ∧
      ((s.furrow n).scrubbed.length + 1 < 16 →
        ((scrubRead s n bank upsets).furrow n).scrubbed = (s.furrow n).scrubbed ++ [bank] ∧
        (scrubRead s n bank upsets).bits (Reg.furSbScrub n) 26 16 = s.bits (Reg.furSbScrub n) 26 16) ∧
      (16 ≤ (s.furrow n).scrubbed.length + 1 →
        ((scrubRead s n bank upsets).furrow n).scrubbed = [] ∧
        (scrubRead s n bank upsets).bits (Reg.furSbScrub n) 26 16 = (s.bits (Reg.furSbScrub n) 26 16 + 1) % 2048) := by
  have hne : Reg.furSbScrub n ≠ Reg.furSbStatus n := by unfold Reg.furSbScrub Reg.furSbStatus; omega
  rw [scrubRead, if_neg (by rw [h]; exact Bool.false_ne_true)]
  dsimp only
  generalize hr : s.bits (Reg.furSbScrub n) 26 16 = r
  obtain ⟨hmem, hround, hreg⟩ := scrubRow_keeps s n bank (rowOfBank bank r) upsets
  have hbits : (scrubRow s n bank (rowOfBank bank r) upsets).bits (Reg.furSbScrub n) 26 16 = r := by
    rw [State.bits, hreg]
    exact hr
  generalize scrubRow s n bank (rowOfBank bank r) upsets = u at *
  rw [hround]
  by_cases hlt : (s.furrow n).scrubbed.length + 1 < 16
  · rw [if_pos hlt]
    refine ⟨fun a => ?_, fun _ => ⟨?_, ?_⟩, fun hge => absurd hlt (Nat.not_lt.mpr hge)⟩
    · rw [State.setFurrow_byte, State.byte, hmem]; rfl
    · rw [State.furrow_setFurrow_self]
    · rw [State.setFurrow_bits, hbits]
  · rw [if_neg hlt]
    have hnext : ((u.setFurrow n { u.furrow n with scrubbed := [] }).setBits (Reg.furSbScrub n) 26 16
        ((r + 1) % 2048)).bits (Reg.furSbScrub n) 26 16 = (r + 1) % 2048 :=
      (State.bits_setBits_self _ _ _ _ (by decide)).trans (Nat.mod_mod _ _)
    refine ⟨fun a => ?_, fun h => absurd h hlt, fun _ => ⟨?_, ?_⟩⟩
    · split
      · rw [State.setBits_byte, State.setFurrow_byte, State.byte, hmem]; rfl
      · rw [State.setBit_byte, State.addWrap_byte, State.setBits_byte, State.setFurrow_byte, State.byte, hmem]; rfl
    · split
      · rw [State.setBits_furrow, State.furrow_setFurrow_self]
      · rw [State.setBit_furrow, State.addWrap_furrow, State.setBits_furrow, State.furrow_setFurrow_self]
    · split
      · exact hnext
      · rw [State.bits_setBit_of_disjoint _ _ _ _ (by decide) (.inl hne), State.addWrap,
          State.bits_setBits_of_disjoint _ _ _ _ (by decide) (by omega), hnext]

theorem scrubWriteBack_eq (s : State) (n bank : Nat) : scrubWriteBack s n bank =
    ((s.furrow n).writeBack.filter fun (b, _) => b == bank).foldl (fun s x => s.setMark (x.2 / 32) .clean)
      (s.setFurrow n { s.furrow n with writeBack := (s.furrow n).writeBack.filter fun (b, _) => b != bank }) := by
  rw [scrubWriteBack, List.partition_eq_filter_filter]
  rfl

theorem scrubWriteBack_writeBack (s : State) (n bank : Nat) :
    ((scrubWriteBack s n bank).furrow n).writeBack = (s.furrow n).writeBack.filter fun (b, _) => b != bank := by
  rw [scrubWriteBack_eq, foldl_setMark_eq (fun x : Nat × Nat => x.2 / 32)]
  exact congrArg Furrow.writeBack (State.furrow_setFurrow_self _ _ _)

theorem scrubWriteBack_frame (s : State) (n bank : Nat) : scrubWriteBack s n bank =
    { s with furrows := (scrubWriteBack s n bank).furrows, marks := (scrubWriteBack s n bank).marks } := by
  rw [scrubWriteBack_eq, foldl_setMark_eq (fun x : Nat × Nat => x.2 / 32)]
  rfl

theorem scrubWriteBack_mark_waiting {s : State} {n bank a : Nat} (h : (bank, a) ∈ (s.furrow n).writeBack) :
    (scrubWriteBack s n bank).mark (a / 32) = .clean := by
  rw [scrubWriteBack_eq, mark_foldl_setMark (fun x : Nat × Nat => x.2 / 32)]
  exact if_pos ⟨(bank, a), List.mem_filter.mpr ⟨h, beq_self_eq_true bank⟩, rfl⟩

theorem scrubWriteBack_mark_other {s : State} {n bank g : Nat}
    (h : ∀ a, (bank, a) ∈ (s.furrow n).writeBack → a / 32 ≠ g) : (scrubWriteBack s n bank).mark g = s.mark g := by
  rw [scrubWriteBack_eq, mark_foldl_setMark (fun x : Nat × Nat => x.2 / 32), if_neg, State.setFurrow_mark]
  rintro ⟨⟨b, a⟩, hm, hg⟩
  obtain ⟨hm, hb⟩ := List.mem_filter.mp hm
  exact h a (beq_iff_eq.mp hb ▸ hm) hg

end Sys2Proof.Machine
end

section
/-! Slot generations and reclaim fences (R135, R172, R186). -/

namespace Sys2Proof.Machine

/-- The readers that a generation write starts from: those from before the first change of the slot that is not yet
past (R130, R135). -/
def restoreReaders (s : State) (n k : Nat) (first : Option SlotAdvance) : State :=
  match first with
  | some x => s.setBits (Reg.furSbSlotGen n k) 19 16 x.left
  | none => s

/-- The count of readers from before that change, or the present one. -/
def State.readersBefore (s : State) (n k : Nat) (first : Option SlotAdvance) : Nat :=
  match first with
  | some x => x.left % 16
  | none => s.bits (Reg.furSbSlotGen n k) 19 16

/-- The advances that a generation write stands over are discarded, with an F0 entry (R135). -/
def discardAdvances (s : State) (n : Nat) (due : List SlotAdvance) : State :=
  if due.isEmpty then s
  else (s.setFurrow n { s.furrow n with advanced := (s.furrow n).advanced.filter fun y => !due.contains y }).raise
    { code := 0x2106, cls := 0, inst := n }

theorem slotGenerationWrite_of_may {s : State} {r : Requester} {n k : Nat} (gen : Nat)
    (h : (r = .reeve ∨ r = .mgmt) ∧ s.recoveryReach r (Reg.furSbSlotGen n k) = true) :
    slotGenerationWrite s r n k gen = (s.advancesIn n k 1).foldl
      (fun v x => advanceSlot v { furrow := n, slot := k, gen := 0, write := x.write })
      (discardAdvances (writeGeneration
        (restoreReaders s n k ((s.advancesIn n k 0).filter (·.moves) ++ s.advancesIn n k 1).head?) n k gen) n
        ((s.advancesIn n k 0).filter (·.moves))) := by
  rw [slotGenerationWrite, if_pos h]
  rfl

theorem restoreReaders_eq (s : State) (n k : Nat) (first : Option SlotAdvance) :
    restoreReaders s n k first = { s with regs := (restoreReaders s n k first).regs } := by
  cases first <;> rfl

theorem restoreReaders_readers (s : State) (n k : Nat) (first : Option SlotAdvance) :
    (restoreReaders s n k first).bits (Reg.furSbSlotGen n k) 19 16 = s.readersBefore n k first := by
  cases first with
  | some x => exact State.bits_setBits_self _ _ _ _ (by decide)
  | none => rfl

theorem restoreReaders_above (s : State) (n k : Nat) (first : Option SlotAdvance) {msb lsb : Nat} (h : 19 < lsb) :
    (restoreReaders s n k first).bits (Reg.furSbSlotGen n k) msb lsb = s.bits (Reg.furSbSlotGen n k) msb lsb := by
  cases first with
  | some x => exact State.bits_setBits_of_disjoint _ _ _ _ (by decide) (.inr (.inr h))
  | none => rfl

theorem restoreReaders_regs (s : State) (n k : Nat) (first : Option SlotAdvance) :
    SameRegsBut [Reg.furSbSlotGen n k] s (restoreReaders s n k first) := fun a ha => by
  cases first with
  | some x => exact State.reg_setBits_ne _ _ _ _ (List.ne_of_not_mem_cons ha)
  | none => rfl

theorem writeGeneration_eq (s : State) (n k gen : Nat) :
    writeGeneration s n k gen = { s with regs := (writeGeneration s n k gen).regs } := by
  unfold writeGeneration
  dsimp only
  split <;> rfl

theorem writeGeneration_gen (s : State) (n k gen : Nat) :
    (writeGeneration s n k gen).bits (Reg.furSbSlotGen n k) 15 0 = gen % 2 ^ 16 := by
  unfold writeGeneration
  dsimp only
  split
  · rw [State.bits_setBits_of_disjoint _ _ _ _ (by decide) (by omega), State.bits_setBits_self _ _ _ _ (by decide)]
  · exact State.bits_setBits_self _ _ _ _ (by decide)

/-- An odd generation loads its count of readers. -/
theorem writeGeneration_readers (s : State) (n k gen : Nat) :
    (writeGeneration s n k gen).bits (Reg.furSbSlotGen n k) 19 16 =
      if gen % 2 = 1 then s.bits (Reg.furSbSlotGen n k) 23 20 else s.bits (Reg.furSbSlotGen n k) 19 16 := by
  unfold writeGeneration
  dsimp only
  split
  · rw [State.bits_setBits_self _ _ _ _ (by decide), State.bits_setBits_of_disjoint _ _ _ _ (by decide) (by omega)]
    exact Nat.mod_eq_of_lt (Nat.mod_lt _ (Nat.two_pow_pos _))
  · exact State.bits_setBits_of_disjoint _ _ _ _ (by decide) (by omega)

theorem writeGeneration_above (s : State) (n k gen : Nat) {msb lsb : Nat} (h : 19 < lsb) :
    (writeGeneration s n k gen).bits (Reg.furSbSlotGen n k) msb lsb = s.bits (Reg.furSbSlotGen n k) msb lsb := by
  have hlow : (s.setBits (Reg.furSbSlotGen n k) 15 0 gen).bits (Reg.furSbSlotGen n k) msb lsb =
      s.bits (Reg.furSbSlotGen n k) msb lsb := State.bits_setBits_of_disjoint _ _ _ _ (by decide) (by omega)
  unfold writeGeneration
  dsimp only
  split
  · rw [State.bits_setBits_of_disjoint _ _ _ _ (by decide) (.inr (.inr h)), hlow]
  · exact hlow

theorem writeGeneration_regs (s : State) (n k gen : Nat) :
    SameRegsBut [Reg.furSbSlotGen n k] s (writeGeneration s n k gen) := fun a ha => by
  have hne := List.ne_of_not_mem_cons ha
  unfold writeGeneration
  dsimp only
  split
  · rw [State.reg_setBits_ne _ _ _ _ hne, State.reg_setBits_ne _ _ _ _ hne]
  · exact State.reg_setBits_ne _ _ _ _ hne

theorem discardAdvances_reg (s : State) (n : Nat) (due : List SlotAdvance) (a : Nat) :
    (discardAdvances s n due).reg a = s.reg a := by
  unfold discardAdvances
  split <;> rfl

theorem discardAdvances_bits (s : State) (n : Nat) (due : List SlotAdvance) (a msb lsb : Nat) :
    (discardAdvances s n due).bits a msb lsb = s.bits a msb lsb := by
  rw [State.bits, discardAdvances_reg, State.bits]

theorem discardAdvances_nil (s : State) (n : Nat) : discardAdvances s n [] = s := rfl

theorem discardAdvances_of_ne {due : List SlotAdvance} (s : State) (n : Nat) (h : due ≠ []) :
    discardAdvances s n due =
      (s.setFurrow n { s.furrow n with advanced := (s.furrow n).advanced.filter fun y => !due.contains y }).raise
        { code := 0x2106, cls := 0, inst := n } := by
  rw [discardAdvances, if_neg (by simpa using h)]

theorem showFence_status (s : State) (n : Nat) :
    (showFence s n).bit (Reg.furHwFenceStatus n) 0 = !s.fenceHeld n := State.bit_setBit_self _ _ _ (by decide)

theorem requestFence_gen (s : State) (n : Nat) (gen : Word) :
    (requestFence s n gen).reg (Reg.furHwFenceGen n) = gen := by
  have hne : Reg.furHwFenceGen n ≠ Reg.furHwFenceStatus n := by unfold Reg.furHwFenceGen Reg.furHwFenceStatus; omega
  rw [requestFence, showFence, State.reg_setBit_ne _ _ _ hne, State.reg_setBits_ne _ _ _ _ hne, State.reg_setReg_self]

theorem requestFence_regs (s : State) (n : Nat) (gen : Word) :
    SameRegsBut [Reg.furHwFenceGen n, Reg.furHwFenceStatus n] s (requestFence s n gen) := fun a ha => by
  have hgen := List.ne_of_not_mem_cons ha
  have hstatus := List.ne_of_not_mem_cons (List.not_mem_of_not_mem_cons ha)
  rw [requestFence, showFence, State.reg_setBit_ne _ _ _ hstatus, State.reg_setBits_ne _ _ _ _ hstatus,
    State.reg_setReg_ne _ _ hgen]

end Sys2Proof.Machine
end

section
/-! The statements of 01_jalia_at_work.md. -/

open Sys2Proof Sys2Proof.Machine

/-- Settles O8: a held device takes the tick alone; in a running one no function of the tick's work but the servo moves
the clock, and the work ends by showing the readings. -/
theorem managementTickShowsReadings : Obligations.ManagementTickShowsReadings := by
  intro s env due
  have hx : exec (.managementTick env) s = always s (managementTick s env) := rfl
  rw [managementTick_eq] at hx
  refine ⟨fun hh => ?_, fun hh => ?_⟩
  · rw [if_pos hh] at hx
    exact yields_of_always hx ⟨rfl, rfl, rfl⟩
  · rw [if_neg (by rw [hh]; exact Bool.false_ne_true)] at hx
    obtain ⟨u, hu⟩ := managementWork_ends_in_readings s.tickTaken env
    have hclock (hs : env.servo = none) := (tickTaken_clockAt s).managementWork hs
    have hsupply := takeReadings_supply u env
    have htemp (m : Nat) (hm : m < 8) := takeReadings_nodeTemp u env hm
    have hgpio := takeReadings_gpioLevels u env
    rw [hu] at hx hclock
    generalize takeReadings u env = v at *
    obtain ⟨hvin, htj, hcurrent, hpower⟩ := hsupply
    refine yields_of_always hx ⟨fun hs => ?_, hvin, htj, hcurrent, hpower, htemp, hgpio⟩
    obtain ⟨hnow, hdue⟩ := Prod.mk.inj (hclock hs)
    exact ⟨hdue, hnow⟩

/-- Settles O17: an access by its reach and the seedbed's readiness, a read as four granule checks, a write as a store
of whole granules; the scrub by what its row keeps. -/
theorem seedbedAccessAndScrubKeepGranules : Obligations.SeedbedAccessAndScrubKeepGranules := by
  refine ⟨fun s x hh hw => ?_, fun s n bank upsets hh hn hb => ?_⟩
  · intro a n
    have hx := exec_seedbedAccess_of_wellFormed hw s
    simp only [Instr.wellFormed, SeedAccess.wellFormed, Bool.and_eq_true, decide_eq_true_eq] at hw
    obtain ⟨⟨⟨⟨hn, hrow⟩, hfirst⟩, hcount⟩, -⟩ := hw
    refine ⟨fun hreach => ?_, fun hreach hready => ?_, fun hreach hready => ?_⟩
    · rw [seedbedAccess_of_denied hreach] at hx
      refine ⟨fun hd => ?_, fun hd hr => ?_, fun hd m hm => ?_⟩
      · rw [if_neg hd] at hx
        exact answers_of_live hx hh
      · rw [if_pos hd, denyRead_of_not_furrow hr] at hx
        exact answers_of_live hx hh
      · rw [if_pos hd, hm] at hx
        rw [hm]
        exact answers_of_live hx hh
    · rw [seedbedAccess_of_unready hreach hready] at hx
      exact answers_of_live hx hh
    · rw [seedbedAccess_of_ready hreach hready] at hx
      refine ⟨fun hd => yields_of_live hx hh (rowAccess_of_read hd hfirst), fun hd hl hr => ?_, fun hd hl => ?_⟩
      · rw [rowAccess_of_partial hr hd hl] at hx
        exact answers_of_live hx hh
      · rw [rowAccess_of_write hd hl] at hx
        have ha : a % 32 = 0 := by unfold a seedbedBase; omega
        have hlen : ((x.wdata ++ List.replicate n 0).take n).length = n := by simp
        have hstore := store_granules (s := s) (bs := (x.wdata ++ List.replicate n 0).take n) x.wpoison
          (seedbedOf_row hn hrow hfirst) ha (by rw [hlen]; omega) (by rw [hlen]; omega)
        rw [hlen] at hstore
        exact yields_of_live hx hh hstore
  · intro f r
    have hread : exec (.seedbedScrubRead n bank upsets) s = live s (scrubRead s n bank upsets) := by
      rw [exec, execSeedbedScrubRead, withUnit_of hn, withUnit_of hb]
    have hwrite : exec (.seedbedScrubWriteBack n bank) s = live s (scrubWriteBack s n bank) := by
      rw [exec, execSeedbedScrubWriteBack, withUnit_of hn, withUnit_of hb]
    refine ⟨fun hc => ?_, fun hc => yields_of_live hread hh (scrubRead_of_unread upsets hc), ?_⟩
    · rw [scrubRead, if_pos hc] at hread
      exact answers_of_live hread hh
    · refine yields_of_live hwrite hh ⟨scrubWriteBack_writeBack s n bank, fun a ha => scrubWriteBack_mark_waiting ha,
        fun g hg => scrubWriteBack_mark_other hg, ?_⟩
      rw [scrubWriteBack_frame]
      rfl

/-- Settles O18: a permitted write is restoreReaders, writeGeneration and discardAdvances before the later changes. -/
theorem generationsAndFencesAreWritten : Obligations.GenerationsAndFencesAreWritten := by
  refine ⟨fun s req n k gen hh hn hk => ?_, fun s n gen hh hn => ?_⟩
  · have hx : exec (.slotGenerationWrite req n k gen) s = live s (slotGenerationWrite s req n k gen.toNat) := by
      rw [exec, execSlotGenerationWrite, withUnit_of hn, withUnit_of hk]
    intro r may due later readers
    refine ⟨fun hmay => ?_, fun hmay => ?_⟩
    · have hreq : (req = .reeve ∨ req = .mgmt) ∧ s.recoveryReach req r = true := by simpa [may] using hmay
      rw [slotGenerationWrite_of_may _ hreq] at hx
      refine ⟨discardAdvances (writeGeneration (restoreReaders s n k (due ++ later).head?) n k gen.toNat) n due,
        ?_, ?_, ?_, ?_, ?_, ?_, answers_of_live hx hh⟩
      · rw [discardAdvances_bits, writeGeneration_gen]
        exact Nat.mod_eq_of_lt gen.isLt
      · rw [discardAdvances_bits, writeGeneration_readers, restoreReaders_above _ _ _ _ (by decide),
          restoreReaders_readers]
        rfl
      · rw [discardAdvances_bits, writeGeneration_above _ _ _ _ (by decide), restoreReaders_above _ _ _ _ (by decide)]
      · intro a ha
        rw [discardAdvances_reg, writeGeneration_regs _ _ _ _ a ha, restoreReaders_regs _ _ _ _ a ha]
      · intro hdue
        rw [hdue, discardAdvances_nil, writeGeneration_eq, restoreReaders_eq]
      · intro hdue
        rw [discardAdvances_of_ne _ _ hdue, writeGeneration_eq, restoreReaders_eq]
        exact ⟨rfl, fun m hm => State.furrow_setFurrow_ne _ _ hm, State.furrow_setFurrow_self _ _ _⟩
    · have hreq : ¬ ((req = .reeve ∨ req = .mgmt) ∧ s.recoveryReach req r = true) := by simpa [may] using hmay
      rw [slotGenerationWrite, if_neg hreq] at hx
      exact answers_of_live hx hh
  · have hx : exec (.fenceRequest n gen) s = live s (requestFence s n gen) := by
      rw [exec, execFenceRequest, withUnit_of hn]
    exact yields_of_live hx hh ⟨requestFence_gen s n gen, showFence_status _ n, requestFence_regs s n gen, rfl⟩
end

section
/-! The clock, the rate and the FSYNC outputs (R43 to R51). -/

namespace Sys2Proof.Machine

/-! Frames of register writes. -/

section
variable {as : List Nat} {s t u : State}

theorem SameRegsBut.refl : SameRegsBut as s s := fun _ _ => Eq.refl _

theorem SameRegsBut.trans (h : SameRegsBut as s t) (h' : SameRegsBut as t u) : SameRegsBut as s u := fun a ha =>
  (h' a ha).trans (h a ha)

theorem SameRegsBut.setReg {a : Nat} {v : Word} (h : SameRegsBut as s t) (ha : a ∈ as) :
    SameRegsBut as s (t.setReg a v) := fun b hb =>
  (State.reg_setReg_ne _ _ fun e : b = a => hb (e ▸ ha)).trans (h b hb)

theorem SameRegsBut.setBits {a msb lsb v : Nat} (h : SameRegsBut as s t) (ha : a ∈ as) :
    SameRegsBut as s (t.setBits a msb lsb v) := h.setReg ha

theorem SameRegsBut.setBit {a i : Nat} {b : Bool} (h : SameRegsBut as s t) (ha : a ∈ as) :
    SameRegsBut as s (t.setBit a i b) := h.setReg ha

theorem SameRegsBut.addSat {a msb lsb k : Nat} (h : SameRegsBut as s t) (ha : a ∈ as) :
    SameRegsBut as s (t.addSat a msb lsb k) := h.setReg ha

/-- t is s but for its registers. -/
def OnlyRegs (s t : State) : Prop := t = { s with regs := t.regs }

theorem OnlyRegs.refl : OnlyRegs s s := Eq.refl s

theorem OnlyRegs.setReg {a : Nat} {v : Word} (h : OnlyRegs s t) : OnlyRegs s (t.setReg a v) := by
  have e := congrArg (fun u : State => ({ u with regs := (t.setReg a v).regs } : State)) h
  exact e

theorem OnlyRegs.setBits {a msb lsb v : Nat} (h : OnlyRegs s t) : OnlyRegs s (t.setBits a msb lsb v) := h.setReg

theorem OnlyRegs.setBit {a i : Nat} {b : Bool} (h : OnlyRegs s t) : OnlyRegs s (t.setBit a i b) := h.setReg

theorem OnlyRegs.addSat {a msb lsb k : Nat} (h : OnlyRegs s t) : OnlyRegs s (t.addSat a msb lsb k) := h.setReg

end

/-! Updates that leave the registers. -/

theorem reg_withPins (s : State) (p : Pins) (a : Nat) : ({ s with pins := p } : State).reg a = s.reg a := rfl

theorem reg_withBoot (s : State) (b : Boot) (a : Nat) : ({ s with boot := b } : State).reg a = s.reg a := rfl

theorem bits_withBoot (s : State) (b : Boot) (a msb lsb : Nat) :
    ({ s with boot := b } : State).bits a msb lsb = s.bits a msb lsb := rfl

theorem bit_withPins (s : State) (p : Pins) (a i : Nat) : ({ s with pins := p } : State).bit a i = s.bit a i := rfl

theorem reg_withChain (s : State) (c : Chain) (a : Nat) : ({ s with chain := c } : State).reg a = s.reg a := rfl

theorem reg_withTime (s : State) (b : TimeBase) (a : Nat) : ({ s with time := b } : State).reg a = s.reg a := rfl

/-! How a command's outcome is shown. -/

theorem answers_of_always {c : Instr} {s u : State} (hx : exec c s = always s u) : Answers c s u := hx

/-! Runs of the clock (R43, R46). -/

theorem porst_of_not_held {s : State} (h : s.held = false) : s.pins.porst = false := by
  simp only [State.held, State.inReset, Bool.or_eq_false_iff] at h
  obtain ⟨⟨⟨hporst, -⟩, -⟩, -⟩ := h
  exact hporst

/-- A device held by PORST_N does not count. -/
theorem runCycles_of_porst {s : State} (h : s.pins.porst = true) (n : Nat) : runCycles s n = s := if_pos h

theorem runCycles_now {s : State} (h : s.pins.porst = false) (n : Nat) : (runCycles s n).now =
    (s.now + (4 * n + (s.time.phase + n * s.rate) / 2 ^ 40 : Int).toNat) % 2 ^ 64 := by
  rw [runCycles, if_neg (ne_true_of_eq_false h)]
  rfl

theorem runCycles_phase {s : State} (h : s.pins.porst = false) (n : Nat) :
    ((runCycles s n).time.phase : Int) = (s.time.phase + n * s.rate) % 2 ^ 40 := by
  rw [runCycles, if_neg (ne_true_of_eq_false h)]
  exact Int.toNat_of_nonneg (Int.emod_nonneg _ (by decide))

/-! The rate (R46). -/

/-- The clamp of a write of TIME_RATE_ADJ keeps the rate within the limits. -/
theorem writeRate_eq (s : State) (v : Word) : writeRate s v = s.setReg Reg.timeRateAdj
    (BitVec.ofNat 32 (unsignedOf (max (-219902326) (min 219902326 (signedOf v.toNat 32))) 32)) := by
  have hlimit : rateLimit = 219902326 := rfl
  rw [writeRate]
  congr 3
  split
  · omega
  · split <;> omega

theorem writeRate_rate (s : State) (v : Word) : (writeRate s v).rate =
    max (-219902326) (min 219902326 (signedOf v.toNat 32)) := by
  rw [State.rate, writeRate_eq, State.reg_setReg_self, BitVec.toNat_ofNat, unsignedOf_mod]
  exact signedOf_unsignedOf (by decide) (by omega) (by omega)

/-! Schedules: the multiples of a period above a start (R51). -/

theorem ceilDiv_add_mul {p : Nat} (x j : Nat) (hp : 0 < p) : ceilDiv (x + j * p) p = ceilDiv x p + j := by
  rw [ceilDiv, ceilDiv, ← Nat.add_mul_div_right _ _ hp]
  congr 1
  omega

theorem ceilDiv_pos {x p : Nat} (hx : 0 < x) (hp : 0 < p) : 0 < ceilDiv x p :=
  Nat.div_pos (by omega) hp

theorem nextMultiple_eq_add_mul (base p x : Nat) : ∃ j, nextMultiple base p x = base + j * p := by
  unfold nextMultiple
  split
  · exact ⟨0, by omega⟩
  · exact ⟨_, rfl⟩

/-- A tick past one of the schedule's has its next one whole periods later. -/
theorem nextMultiple_of_lt {base p x y : Nat} (hp : 0 < p) (h : nextMultiple base p x < y) :
    nextMultiple base p y = nextMultiple base p x + ceilDiv (y - nextMultiple base p x) p * p := by
  obtain ⟨j, hj⟩ := nextMultiple_eq_add_mul base p x
  rw [hj] at h ⊢
  have hy : y - base = y - (base + j * p) + j * p := by omega
  rw [nextMultiple, if_neg (by omega), hy, ceilDiv_add_mul _ _ hp, Nat.add_mul]
  omega

/-- The tick after one of the schedule's has its next one a period later. -/
theorem nextMultiple_succ {p : Nat} (base x : Nat) (hp : 0 < p) :
    nextMultiple base p (nextMultiple base p x + 1) = nextMultiple base p x + p := by
  rw [nextMultiple_of_lt hp (Nat.lt_add_one _), Nat.add_sub_cancel_left]
  have h1 : ceilDiv 1 p = 1 := by rw [ceilDiv, Nat.add_sub_cancel_left, Nat.div_self hp]
  rw [h1, Nat.one_mul]

/-! One edge of an output, and its pulse (R51). -/

theorem fsyncPeriod_pos {s : State} {n : Nat} (h : s.fsyncOn n = true) : 0 < s.fsyncPeriod n := by
  simp only [State.fsyncOn, Bool.and_eq_true, bne_iff_ne] at h
  omega

theorem runUntil_fsyncNext (s : State) (t n : Nat) : (runUntil s t).fsyncNext n = s.fsyncNext n := by
  rw [State.fsyncNext, runUntil_fsync, runUntil_eq]
  rfl

theorem pulseEdge_fsync (s : State) (n : Nat) : (pulseEdge s n).fsync n =
    { start := s.fsyncNext n + 1, last := some (s.fsyncNext n), level := true,
      endTick := s.fsyncNext n + 64 * max 1 (s.bits (Reg.timeFsyncCtrl n) 15 0) } :=
  (fsync_setFsync s n n _).trans (if_pos rfl)

theorem pulseEdge_fsync_ne (s : State) {n k : Nat} (h : k ≠ n) : (pulseEdge s n).fsync k = s.fsync k :=
  (fsync_setFsync s n k _).trans (if_neg h)

/-- An edge changes its output and leaves the device, nothing else. -/
theorem pulseEdge_eq (s : State) (n : Nat) : pulseEdge s n =
    { s with time := { s.time with fsync := (pulseEdge s n).time.fsync },
             outbox := s.outbox ++ [.fsyncEdge n (s.fsyncNext n)] } := rfl

/-- The next edge of an output is a period after the one that fires. -/
theorem pulseEdge_fsyncNext (s : State) {n : Nat} (hp : 0 < s.fsyncPeriod n) :
    (pulseEdge s n).fsyncNext n = s.fsyncNext n + s.fsyncPeriod n := by
  rw [State.fsyncNext, pulseEdge_fsync]
  exact nextMultiple_succ _ _ hp

theorem fireEdge_of_on {s : State} {n : Nat} (h : s.fsyncOn n = true) :
    fireEdge s n = pulseEdge (runUntil s (s.fsyncNext n)) n := if_pos h

theorem fireEdge_of_off {s : State} {n : Nat} (h : s.fsyncOn n = false) : fireEdge s n = s :=
  if_neg (ne_true_of_eq_false h)

theorem endPulse_of_high {s : State} {n : Nat} (h : (s.fsync n).level = true) : endPulse s n =
    (runUntil s (s.fsync n).endTick).setFsync n { s.fsync n with level := false } := if_pos h

theorem endPulse_of_low {s : State} {n : Nat} (h : (s.fsync n).level = false) : endPulse s n = s :=
  if_neg (ne_true_of_eq_false h)

end Sys2Proof.Machine
end

section
/-! Steps of TIME_NOW: the edges they reach and skip, and the martingales they hold (R45, R47, R397). -/

namespace Sys2Proof.Machine

/-! What a step to tick t meets at output n. -/

/-- The edges that TIME_NOW has reached and that fire first (log 59). -/
def State.reachedEdges (s : State) (n : Nat) : List Output :=
  if s.fsyncOn n ∧ s.fsyncNext n < s.now then
    (List.range (ceilDiv (s.now - s.fsyncNext n) (s.fsyncPeriod n))).map fun k =>
      .fsyncEdge n (s.fsyncNext n + k * s.fsyncPeriod n)
  else []

/-- The output's next edge once those have fired. -/
def State.dueEdge (s : State) (n : Nat) : Nat :=
  if s.fsyncNext n < s.now then nextMultiple (s.fsyncStart n) (s.fsyncPeriod n) s.now else s.fsyncNext n

/-- The number of edges that the step passes. -/
def State.skippedEdges (s : State) (t n : Nat) : Nat :=
  if s.fsyncOn n ∧ s.dueEdge n < t then ceilDiv (t - s.dueEdge n) (s.fsyncPeriod n) else 0

/-- The event of the output's late flag. -/
def State.lateEvents (s : State) (t n : Nat) : List Event :=
  if s.skippedEdges t n = 0 then [] else [{ code := 0x0200 + (Config.openCause 0x02).toNat, cls := 0, inst := n }]

/-- Two states in which output n has one schedule and stands at one place of it. -/
structure SameSchedule (s u : State) (n : Nat) : Prop where
  now : u.now = s.now
  on : u.fsyncOn n = s.fsyncOn n
  start : u.fsyncStart n = s.fsyncStart n
  period : u.fsyncPeriod n = s.fsyncPeriod n
  fsync : u.fsync n = s.fsync n

section
variable {s u : State} {n : Nat} (h : SameSchedule s u n)
include h

theorem SameSchedule.next : u.fsyncNext n = s.fsyncNext n := by
  rw [State.fsyncNext, h.start, h.period, h.fsync, State.fsyncNext]

theorem SameSchedule.due : u.dueEdge n = s.dueEdge n := by
  simp only [State.dueEdge, h.next, h.now, h.period, h.start]

theorem SameSchedule.reached : u.reachedEdges n = s.reachedEdges n := by
  simp only [State.reachedEdges, h.on, h.next, h.now, h.period]

theorem SameSchedule.skipped (t : Nat) : u.skippedEdges t n = s.skippedEdges t n := by
  simp only [State.skippedEdges, h.on, h.due, h.period]

theorem SameSchedule.late (t : Nat) : u.lateEvents t n = s.lateEvents t n := by
  simp only [State.lateEvents, h.skipped t]

end

/-! Edges that TIME_NOW has reached fire one after the other. -/

theorem pulseEdges_next_and_frame {s : State} {n : Nat} (hp : 0 < s.fsyncPeriod n) (k : Nat) :
    (forUpTo k (fun _ s => pulseEdge s n) s).fsyncNext n = s.fsyncNext n + k * s.fsyncPeriod n ∧
      forUpTo k (fun _ s => pulseEdge s n) s =
        { s with time := { s.time with fsync := (forUpTo k (fun _ s => pulseEdge s n) s).time.fsync },
                 outbox := s.outbox ++ (List.range k).map fun i =>
                   .fsyncEdge n (s.fsyncNext n + i * s.fsyncPeriod n) } := by
  induction k with
  | zero => exact ⟨by rw [Nat.zero_mul]; rfl, by rw [List.range_zero, List.map_nil, List.append_nil]; rfl⟩
  | succ k ih =>
    obtain ⟨hnext, hframe⟩ := ih
    rw [forUpTo_succ]
    generalize forUpTo k (fun _ s => pulseEdge s n) s = u at hnext hframe
    have hper : u.fsyncPeriod n = s.fsyncPeriod n := by rw [hframe]; rfl
    refine ⟨?_, ?_⟩
    · rw [pulseEdge_fsyncNext u (by omega), hnext, hper, Nat.succ_mul, Nat.add_assoc]
    · rw [pulseEdge_eq, hnext, List.range_succ, List.map_append, ← List.append_assoc]
      rw [hframe]
      rfl

theorem pulseEdges_fsync_ne (s : State) {n m : Nat} (h : m ≠ n) (k : Nat) :
    (forUpTo k (fun _ s => pulseEdge s n) s).fsync m = s.fsync m :=
  forUpTo_induct (P := fun u : State => u.fsync m = s.fsync m) rfl fun _ u _ hu => (pulseEdge_fsync_ne u h).trans hu

/-- The edges that TIME_NOW has reached change their output and leave the device. -/
theorem fireReached_eq (s : State) (n : Nat) : fireReached s n =
    { s with time := { s.time with fsync := (fireReached s n).time.fsync }, outbox := s.outbox ++ s.reachedEdges n } := by
  by_cases h : s.fsyncOn n = true ∧ s.fsyncNext n < s.now
  · have he : fireReached s n = forUpTo _ (fun _ s => pulseEdge s n) s := if_pos (by simpa using h)
    rw [he, State.reachedEdges, if_pos h]
    exact (pulseEdges_next_and_frame (fsyncPeriod_pos h.1) _).2
  · have he : fireReached s n = s := if_neg (by simpa using h)
    rw [he, State.reachedEdges, if_neg h, List.append_nil]

theorem fireReached_of_none {s : State} {n : Nat} (h : s.reachedEdges n = []) : fireReached s n = s := by
  refine if_neg fun hc => ?_
  have hc : s.fsyncOn n = true ∧ s.fsyncNext n < s.now := by simpa using hc
  have hpos := ceilDiv_pos (Nat.sub_pos_of_lt hc.2) (fsyncPeriod_pos hc.1)
  rw [State.reachedEdges, if_pos hc, List.map_eq_nil_iff, List.range_eq_nil] at h
  omega

theorem fireReached_fsync_ne (s : State) {n m : Nat} (h : m ≠ n) : (fireReached s n).fsync m = s.fsync m := by
  unfold fireReached
  split
  · exact pulseEdges_fsync_ne s h _
  · rfl

theorem fireReached_fsyncOn (s : State) (n m : Nat) : (fireReached s n).fsyncOn m = s.fsyncOn m := by
  rw [fireReached_eq]
  rfl

theorem fireReached_fsyncPeriod (s : State) (n m : Nat) : (fireReached s n).fsyncPeriod m = s.fsyncPeriod m := by
  rw [fireReached_eq]
  rfl

theorem fireReached_fsyncNext {s : State} {n : Nat} (hon : s.fsyncOn n = true) :
    (fireReached s n).fsyncNext n = s.dueEdge n := by
  by_cases h : s.fsyncNext n < s.now
  · have he : fireReached s n = forUpTo _ (fun _ s => pulseEdge s n) s := if_pos (by simp [hon, h])
    have hp := fsyncPeriod_pos hon
    rw [he, (pulseEdges_next_and_frame hp _).1, State.dueEdge, if_pos h]
    exact (nextMultiple_of_lt hp h).symm
  · have he : fireReached s n = s := if_neg (by simp [h])
    rw [he, State.dueEdge, if_neg h]

/-! The step at one output. -/

theorem skippedEdges_ne_zero {s : State} {t n : Nat} :
    s.skippedEdges t n ≠ 0 ↔ s.fsyncOn n = true ∧ s.dueEdge n < t := by
  unfold State.skippedEdges
  split
  · next h =>
    have hpos := ceilDiv_pos (Nat.sub_pos_of_lt h.2) (fsyncPeriod_pos h.1)
    exact iff_of_true (by omega) h
  · next h => exact iff_of_false (fun hne => hne rfl) h

theorem skipEdges_condition (s : State) (t n : Nat) :
    ((fireReached s n).fsyncOn n && decide ((fireReached s n).fsyncNext n < t)) = true ↔ s.skippedEdges t n ≠ 0 := by
  rw [skippedEdges_ne_zero, fireReached_fsyncOn, Bool.and_eq_true, decide_eq_true_eq]
  exact and_congr_right fun hon => by rw [fireReached_fsyncNext hon]

theorem skipEdges_of_none {s : State} {t n : Nat} (h : s.skippedEdges t n = 0) :
    skipEdges s t n = fireReached s n :=
  if_neg fun hc => (skipEdges_condition s t n).mp hc h

/-- The output's place in its schedule after a step that passes edges of it. -/
def State.movedTo (s : State) (t n : Nat) : State :=
  (fireReached s n).setFsync n { (fireReached s n).fsync n with start := t }

theorem skipEdges_of_some {s : State} {t n : Nat} (h : s.skippedEdges t n ≠ 0) : skipEdges s t n =
    (((s.movedTo t n).setBit (Reg.timeFsyncCtrl n) 18 true).addSat Reg.timeLateCount 31 0
      (s.skippedEdges t n)).raiseOpen 0x02 0 n := by
  obtain ⟨hon, hdue⟩ := skippedEdges_ne_zero.mp h
  have hk : s.skippedEdges t n =
      ceilDiv (t - (fireReached s n).fsyncNext n) ((fireReached s n).fsyncPeriod n) := by
    rw [State.skippedEdges, if_pos ⟨hon, hdue⟩, fireReached_fsyncNext hon, fireReached_fsyncPeriod]
  rw [hk]
  exact if_pos ((skipEdges_condition s t n).mpr h)

theorem movedTo_eq (s : State) (t n : Nat) : s.movedTo t n =
    { s with time := { s.time with fsync := (s.movedTo t n).time.fsync }, outbox := s.outbox ++ s.reachedEdges n } := by
  unfold State.movedTo
  rw [State.setFsync, fireReached_eq]

/-- Beyond the FSYNC outputs a step at one output changes registers, the outbox and the events. -/
theorem skipEdges_eq (s : State) (t n : Nat) : skipEdges s t n =
    { s with time := { s.time with fsync := (skipEdges s t n).time.fsync }, regs := (skipEdges s t n).regs
             outbox := s.outbox ++ s.reachedEdges n
             island := { s.island with net := s.island.net ++ s.lateEvents t n } } := by
  by_cases h : s.skippedEdges t n = 0
  · rw [skipEdges_of_none h, State.lateEvents, if_pos h, List.append_nil, fireReached_eq]
  · have hregs : OnlyRegs (s.movedTo t n) (((s.movedTo t n).setBit (Reg.timeFsyncCtrl n) 18 true).addSat
        Reg.timeLateCount 31 0 (s.skippedEdges t n)) := OnlyRegs.refl.setBit.addSat
    rw [skipEdges_of_some h, State.lateEvents, if_neg h]
    generalize State.addSat _ _ _ _ _ = u at hregs ⊢
    rw [hregs, movedTo_eq]
    rfl

theorem skipEdges_fsync_ne (s : State) (t : Nat) {n m : Nat} (hm : m ≠ n) :
    (skipEdges s t n).fsync m = s.fsync m := by
  by_cases h : s.skippedEdges t n = 0
  · rw [skipEdges_of_none h, fireReached_fsync_ne s hm]
  · rw [skipEdges_of_some h, State.fsync, State.raiseOpen_time, State.addSat_time, State.setBit_time]
    exact ((fsync_setFsync _ n m _).trans (if_neg hm)).trans (fireReached_fsync_ne s hm)

/-- An output none of whose edges the step reaches or passes stays. -/
theorem skipEdges_fsync_self {s : State} {t n : Nat} (hr : s.reachedEdges n = []) (h : s.skippedEdges t n = 0) :
    (skipEdges s t n).fsync n = s.fsync n := by
  rw [skipEdges_of_none h, fireReached_of_none hr]

theorem fireReached_reg (s : State) (n a : Nat) : (fireReached s n).reg a = s.reg a := by
  rw [fireReached_eq]
  rfl

theorem movedTo_reg (s : State) (t n a : Nat) : (s.movedTo t n).reg a = s.reg a := fireReached_reg s n a

theorem movedTo_bits (s : State) (t n a msb lsb : Nat) : (s.movedTo t n).bits a msb lsb = s.bits a msb lsb := by
  rw [State.bits, movedTo_reg, State.bits]

theorem timeFsyncCtrl_ne_timeLateCount (n : Nat) : Reg.timeFsyncCtrl n ≠ Reg.timeLateCount := by
  unfold Reg.timeFsyncCtrl Reg.timeLateCount
  omega

theorem timeFsyncCtrl_injective {m n : Nat} (h : m ≠ n) : Reg.timeFsyncCtrl m ≠ Reg.timeFsyncCtrl n := by
  unfold Reg.timeFsyncCtrl
  omega

theorem skipEdges_reg_ne (s : State) (t : Nat) {n a : Nat} (hl : a ≠ Reg.timeLateCount) (hc : a ≠ Reg.timeFsyncCtrl n) :
    (skipEdges s t n).reg a = s.reg a := by
  by_cases h : s.skippedEdges t n = 0
  · rw [skipEdges_of_none h, fireReached_reg]
  · rw [skipEdges_of_some h, State.raiseOpen_reg, State.reg_addSat_ne _ _ _ _ hl, State.reg_setBit_ne _ _ _ hc,
      movedTo_reg]

theorem skipEdges_lateCount (s : State) (t n : Nat) : (skipEdges s t n).bits Reg.timeLateCount 31 0 =
    min (s.bits Reg.timeLateCount 31 0 + s.skippedEdges t n) (2 ^ 32 - 1) := by
  by_cases h : s.skippedEdges t n = 0
  · have hlt : s.bits Reg.timeLateCount 31 0 < 2 ^ 32 := Nat.mod_lt _ (by decide)
    rw [skipEdges_of_none h, State.bits, fireReached_reg, ← State.bits]
    omega
  · rw [skipEdges_of_some h, State.raiseOpen_bits, State.bits_addSat_self _ _ _ _ (by decide),
      State.bits_setBit_of_disjoint _ _ _ _ (by decide) (.inl (timeFsyncCtrl_ne_timeLateCount n).symm), movedTo_bits]

/-- A step sets no flag of an output but its late flag. -/
theorem skipEdges_bit_ne (s : State) (t n m : Nat) {j : Nat} (hj : m ≠ n ∨ j ≠ 18) :
    (skipEdges s t n).bit (Reg.timeFsyncCtrl m) j = s.bit (Reg.timeFsyncCtrl m) j := by
  by_cases h : s.skippedEdges t n = 0
  · rw [skipEdges_of_none h, State.bit, fireReached_reg, State.bit]
  · rw [skipEdges_of_some h, State.raiseOpen_bit, State.addSat,
      State.bit_setBits_of_disjoint _ _ _ _ (by decide) (.inl (timeFsyncCtrl_ne_timeLateCount m)),
      State.bit_setBit_of_disjoint _ _ _ _ (by decide) (hj.imp_left timeFsyncCtrl_injective), State.bit, movedTo_reg,
      State.bit]

theorem skipEdges_late (s : State) (t n : Nat) : (skipEdges s t n).bit (Reg.timeFsyncCtrl n) 18 =
    (s.bit (Reg.timeFsyncCtrl n) 18 || decide (s.skippedEdges t n ≠ 0)) := by
  by_cases h : s.skippedEdges t n = 0
  · rw [skipEdges_of_none h, State.bit, fireReached_reg, ← State.bit, decide_eq_false (fun hne => hne h), Bool.or_false]
  · rw [skipEdges_of_some h, decide_eq_true h, Bool.or_true, State.raiseOpen_bit, State.addSat,
      State.bit_setBits_of_disjoint _ _ _ _ (by decide) (.inl (timeFsyncCtrl_ne_timeLateCount n))]
    exact State.bit_setBit_self _ _ _ (by decide)

/-! The step at every output. -/

/-- The registers that a forward step writes. -/
def stepRegs : List Nat := Reg.timeLateCount :: (List.range 16).map Reg.timeFsyncCtrl

/-- What a step to tick t leaves once it has passed the first k outputs. -/
structure SkippedTo (s : State) (t k : Nat) (u : State) : Prop where
  frame : u = { s with time := { s.time with fsync := u.time.fsync }, regs := u.regs
                       outbox := s.outbox ++ (List.range k).flatMap s.reachedEdges
                       island := { s.island with net := s.island.net ++ (List.range k).flatMap (s.lateEvents t) } }
  regs : SameRegsBut stepRegs s u
  enabled : ∀ n, u.bit (Reg.timeFsyncCtrl n) 16 = s.bit (Reg.timeFsyncCtrl n) 16
  count : u.bits Reg.timeLateCount 31 0 =
    min (s.bits Reg.timeLateCount 31 0 + ((List.range k).map (s.skippedEdges t)).sum) (2 ^ 32 - 1)
  late : ∀ n, u.bit (Reg.timeFsyncCtrl n) 18 =
    (s.bit (Reg.timeFsyncCtrl n) 18 || decide (n < k ∧ s.skippedEdges t n ≠ 0))
  ahead : ∀ n, k ≤ n → u.fsync n = s.fsync n
  passed : ∀ n, n < k → s.reachedEdges n = [] → s.skippedEdges t n = 0 → u.fsync n = s.fsync n

theorem fsyncStart_not_stepRegs (n : Nat) :
    Reg.timeFsyncStartLo n ∉ stepRegs ∧ Reg.timeFsyncStartHi n ∉ stepRegs ∧ Reg.timeFsyncPeriod n ∉ stepRegs := by
  simp only [stepRegs, List.mem_cons, List.mem_map, List.mem_range, Reg.timeLateCount, Reg.timeFsyncCtrl,
    Reg.timeFsyncStartLo, Reg.timeFsyncStartHi, Reg.timeFsyncPeriod]
  omega

theorem SkippedTo.sameSchedule {s u : State} {t k : Nat} (h : SkippedTo s t k u) : SameSchedule s u k := by
  obtain ⟨hlo, hhi, hper⟩ := fsyncStart_not_stepRegs k
  have hperiod : u.fsyncPeriod k = s.fsyncPeriod k := by rw [State.fsyncPeriod, h.regs _ hper, State.fsyncPeriod]
  exact {
    now := by rw [h.frame]; rfl
    on := by rw [State.fsyncOn, h.enabled, hperiod, State.fsyncOn]
    start := by rw [State.fsyncStart, State.reg64, h.regs _ hlo, h.regs _ hhi, State.fsyncStart, State.reg64]
    period := hperiod
    fsync := h.ahead k (Nat.le_refl k) }

theorem skippedTo_zero (s : State) (t : Nat) : SkippedTo s t 0 s where
  frame := by simp
  regs := SameRegsBut.refl
  enabled _ := rfl
  count := by
    have hlt : s.bits Reg.timeLateCount 31 0 < 2 ^ 32 := Nat.mod_lt _ (by decide)
    rw [List.range_zero, List.map_nil, List.sum_nil]
    omega
  late n := by simp
  ahead _ _ := rfl
  passed _ _ _ _ := rfl

theorem SkippedTo.skipEdges {s u : State} {t k : Nat} (h : SkippedTo s t k u) (hk : k < 16) :
    SkippedTo s t (k + 1) (skipEdges u t k) where
  frame := by
    rw [skipEdges_eq, h.sameSchedule.reached, h.sameSchedule.late, List.range_succ, List.flatMap_append,
      List.flatMap_append, List.flatMap_singleton, List.flatMap_singleton, ← List.append_assoc, ← List.append_assoc]
    rw [h.frame]
  regs a ha := by
    have hctrl : Reg.timeFsyncCtrl k ∈ stepRegs :=
      List.mem_cons_of_mem _ (List.mem_map_of_mem (List.mem_range.mpr hk))
    rw [skipEdges_reg_ne u t (List.ne_of_not_mem_cons ha) (fun e => ha (e ▸ hctrl)), h.regs a ha]
  enabled n := by rw [skipEdges_bit_ne u t k n (.inr (by decide)), h.enabled]
  count := by
    rw [skipEdges_lateCount, h.sameSchedule.skipped, h.count, List.range_succ, List.map_append, List.sum_append,
      List.map_singleton, List.sum_singleton]
    omega
  late n := by
    by_cases hn : n = k
    · subst hn
      rw [skipEdges_late, h.late, h.sameSchedule.skipped]
      simp
    · rw [skipEdges_bit_ne u t k n (.inl hn), h.late]
      congr 2
      rw [eq_iff_iff]
      exact and_congr_left fun _ => by omega
  ahead n hn := by rw [skipEdges_fsync_ne u t (by omega), h.ahead n (by omega)]
  passed n hn hr hs := by
    by_cases he : n = k
    · subst he
      rw [skipEdges_fsync_self (h.sameSchedule.reached.trans hr) ((h.sameSchedule.skipped t).trans hs),
        h.ahead n (Nat.le_refl n)]
    · rw [skipEdges_fsync_ne u t he, h.passed n (by omega) hr hs]

theorem skippedTo_forUpTo (s : State) (t : Nat) {k : Nat} (hk : k ≤ 16) :
    SkippedTo s t k (forUpTo k (fun n s => skipEdges s t n) s) := by
  induction k with
  | zero => exact skippedTo_zero s t
  | succ k ih =>
    rw [forUpTo_succ]
    exact (ih (by omega)).skipEdges (by omega)

theorem SkippedTo.correctTime_frame {s u : State} {t k : Nat} (h : SkippedTo s t k u) : correctTime u t =
    { s with time := (correctTime u t).time, regs := u.regs
             outbox := s.outbox ++ (List.range k).flatMap s.reachedEdges
             island := { s.island with net := s.island.net ++ (List.range k).flatMap (s.lateEvents t) } } := by
  rw [h.frame]
  rfl

theorem SkippedTo.late_of_lt {s u : State} {t k n : Nat} (h : SkippedTo s t k u) (hn : n < k) :
    u.bit (Reg.timeFsyncCtrl n) 18 = (s.bit (Reg.timeFsyncCtrl n) 18 || decide (s.skippedEdges t n ≠ 0)) := by
  rw [h.late n]
  simp only [hn, true_and]

/-! Steps of TIME_NOW (R47). -/

theorem step_moves {s : State} {d : Int} (hp : s.pins.porst = false) (hd : d ≠ 0) :
    ¬ (d = 0 ∨ s.pins.porst = true) := by
  simp [hd, hp]

theorem stepTime_zero (s : State) : stepTime s 0 = s := if_pos (.inl rfl)

theorem stepTime_forward {s : State} {d : Int} (hp : s.pins.porst = false) (hd : 0 < d) : stepTime s d =
    correctTime (forUpTo 16 (fun n u => skipEdges u (s.now + d.toNat) n) s) (s.now + d.toNat) := by
  rw [stepTime, if_neg (step_moves hp (by omega)), if_pos hd]

/-- A rein or an FSYNC output is enabled, so that no step goes back (R47). -/
def State.stepBlocked (s : State) : Bool :=
  (List.range 256).any s.reinOn || (List.range 16).any fun n => s.bit (Reg.timeFsyncCtrl n) 16

theorem stepTime_blocked {s : State} {d : Int} (hp : s.pins.porst = false) (hd : d < 0) (hb : s.stepBlocked = true) :
    stepTime s d = (s.setBit Reg.timeStatus 0 true).raise { code := 0x0201, cls := 0 } := by
  rw [stepTime, if_neg (step_moves hp (by omega)), if_neg (by omega)]
  exact if_pos hb

/-- TIME_NOW moved back to a tick, with the martingales held. -/
def State.movedBack (s : State) (now : Nat) : State :=
  forUpTo 255 (fun i u => holdMartingale u s.now (i + 1)) { s with time := { s.time with now := now, stepTo := 0 } }

theorem stepTime_backward {s : State} {d : Int} (hp : s.pins.porst = false) (hd : d < 0) (hb : s.stepBlocked = false) :
    stepTime s d = s.movedBack (unsignedOf (s.now + d) 64) := by
  rw [stepTime, if_neg (step_moves hp (by omega)), if_neg (by omega)]
  exact if_neg (ne_true_of_eq_false hb)

/-- A backward move of TIME_NOW changes the time base and the martingales alone. -/
theorem movedBack_eq (s : State) (now : Nat) : s.movedBack now =
    { s with time := { s.time with now := now, stepTo := 0 }
             island := { s.island with martingales := (s.movedBack now).island.martingales } } :=
  forUpTo_induct (P := fun u : State => u = { s with time := { s.time with now := now, stepTo := 0 }
                                                     island := { s.island with martingales := u.island.martingales } })
    rfl fun i u _ h => by
      unfold holdMartingale
      split
      · dsimp only
        rw [h]
        rfl
      · exact h

/-! The loss of alignment (R50). -/

/-- A chip runs to tick τ and loses its alignment there (R50). -/
def State.alignmentLost (s : State) (τ : Nat) : State :=
  ((runUntil s τ).setBit Reg.timeStatus 1 false).raise { code := 0x0202, cls := 2 }

theorem alignmentLost_eq (s : State) (τ : Nat) : s.alignmentLost τ = { s.raise { code := 0x0202, cls := 2 } with
    regs := (s.alignmentLost τ).regs, time := (s.alignmentLost τ).time } := by
  have hrun := runUntil_eq s τ
  unfold State.alignmentLost
  generalize runUntil s τ = u at hrun ⊢
  rw [hrun]
  rfl

theorem alignmentLost_shown (s : State) (τ : Nat) : (s.alignmentLost τ).bit Reg.timeStatus 1 = false ∧
    SameRegsBut [Reg.timeStatus] s (s.alignmentLost τ) ∧ (s.alignmentLost τ).now = (runUntil s τ).now := by
  refine ⟨?_, fun a ha => ?_, ?_⟩
  · rw [State.alignmentLost, State.raise_bit, State.bit_setBit_self _ _ _ (by decide)]
  · rw [State.alignmentLost, State.raise_reg, State.reg_setBit_ne _ _ _ (List.ne_of_not_mem_cons ha), runUntil_reg]
  · rw [State.alignmentLost, State.raise_now, State.setBit_now]

theorem chainAlignTimeout_of_aligned {s : State} (h : s.bit Reg.timeStatus 1 = true) : exec .chainAlignTimeout s =
    live s (s.alignmentLost ((s.time.lastDelay + 8) * mgmtTicks)) := congrArg (live s) (if_pos h)

theorem alignmentLost_yields {c : Instr} {s : State} {τ : Nat} (hx : exec c s = live s (s.alignmentLost τ))
    (hh : s.held = false) : Yields c s fun t => t.bit Reg.timeStatus 1 = false ∧ SameRegsBut [Reg.timeStatus] s t ∧
      t.now = (runUntil s τ).now ∧
      t = { s.raise { code := 0x0202, cls := 2 } with regs := t.regs, time := t.time } := by
  obtain ⟨haligned, hregs, hnow⟩ := alignmentLost_shown s τ
  have hframe := alignmentLost_eq s τ
  generalize s.alignmentLost τ = u at hx haligned hregs hnow hframe
  refine yields_of_live hx hh ⟨haligned, hregs, hnow, ?_⟩
  rw [hframe]
  rfl

end Sys2Proof.Machine
end

section
/-! Releases of the resets and the PLL's lock: the starts they begin (R41, R435, R437, R449, R450, R473). -/

namespace Sys2Proof.Machine

/-! What a start's choice of firmware reads: the images in flash and the fuses (R437). -/

/-- The registers that a start writes before it chooses the Reeve firmware. -/
def startRegs : List Nat :=
  [Reg.clkStatus, Reg.safeStatus, Reg.hrnsBoot, Reg.reeveRst, Reg.timeStatus, Reg.reeveWtStatus]

/-- t holds what s holds in memory, and in the registers but those. -/
structure SameImages (s t : State) : Prop where
  mem : t.mem = s.mem
  regs : SameRegsBut startRegs s t

/-- A Reeve image of the slots is accepted. -/
def State.acceptsImage (s : State) : Bool := (s.slotImages 1 s.firmwareAt).any fun x => s.firmwareOk true x.2

/-- The key hashes lie above every register that a start writes before. -/
theorem fuseKeyHash_not_startRegs (k i : Nat) : Reg.fuseKeyHash k i ∉ startRegs := by
  have hlow : ∀ a ∈ startRegs, a < 0x50000c0100 := by decide
  intro h
  have hlt := hlow _ h
  unfold Reg.fuseKeyHash at hlt
  omega

section
variable {s t u : State} {env : StartEnv}

theorem SameImages.refl : SameImages s s := ⟨Eq.refl _, SameRegsBut.refl⟩

theorem SameImages.trans (h : SameImages s t) (h' : SameImages t u) : SameImages s u :=
  ⟨h'.mem.trans h.mem, fun a ha => (h'.regs a ha).trans (h.regs a ha)⟩

theorem SameImages.setReg {a : Nat} {v : Word} (h : SameImages s t) (ha : a ∈ startRegs) :
    SameImages s (t.setReg a v) := ⟨h.mem, h.regs.setReg ha⟩

theorem SameImages.setBit {a i : Nat} {b : Bool} (h : SameImages s t) (ha : a ∈ startRegs) :
    SameImages s (t.setBit a i b) := h.setReg ha

theorem SameImages.raise {e : Event} (h : SameImages s t) : SameImages s (t.raise e) := ⟨h.mem, h.regs⟩

theorem SameImages.raiseIf {b : Bool} {e : Event} (h : SameImages s t) : SameImages s (t.raiseIf b e) := by
  cases b
  · exact h
  · exact h.raise

theorem SameImages.withPins (h : SameImages s t) (p : Pins) : SameImages s { t with pins := p } := ⟨h.mem, h.regs⟩

theorem SameImages.withBoot (h : SameImages s t) (b : Boot) : SameImages s { t with boot := b } := ⟨h.mem, h.regs⟩

theorem SameImages.runStart (h : SameImages s t) : SameImages s (runStart t env) where
  mem := by rw [Machine.runStart, runCycles_eq, h.mem]
  regs a ha := by rw [Machine.runStart, runCycles_reg, h.regs a ha]

theorem SameImages.sampleSafeReq (h : SameImages s t) : SameImages s (sampleSafeReq t) := by
  unfold Machine.sampleSafeReq
  split
  · exact (h.setBit (by decide)).raise
  · exact h

theorem SameImages.lockPll (h : SameImages s t) : SameImages s (lockPll t) :=
  SameImages.withPins ((h.setBit (by decide)).setBit (by decide)) _

theorem SameImages.keyMatches (h : SameImages s t) (k : Nat) (key : List Byte) :
    t.keyMatches k key = s.keyMatches k key := by
  unfold State.keyMatches
  exact List.all_congr rfl fun i => by rw [h.regs _ (fuseKeyHash_not_startRegs k i)]

theorem SameImages.keyOk (h : SameImages s t) (k : Nat) (img : List Byte) : t.keyOk k img = s.keyOk k img := by
  have hkey (i : Nat) : t.bit Reg.fuseKey i = s.bit Reg.fuseKey i := by
    rw [State.bit, h.regs _ (by decide), State.bit]
  rw [State.keyOk, h.keyMatches, hkey, hkey, State.keyOk]

theorem SameImages.firmwareOk (h : SameImages s t) (reeve : Bool) (img : List Byte) :
    t.firmwareOk reeve img = s.firmwareOk reeve img := by
  rw [State.firmwareOk, h.keyOk, h.regs Reg.fuseMinSerial (by decide), State.firmwareOk]

theorem slotImages_congr (h : t.mem = s.mem) (kind : Nat) (read : Nat → List Byte) :
    t.slotImages kind read = s.slotImages kind read := by
  have hb : t.bytes = s.bytes := funext fun a => funext fun n => bytes_congr h a n
  have hdir : t.directory = s.directory := by rw [State.directory, hb, State.directory]
  have hle : t.le = s.le := funext fun a => funext fun n => by rw [State.le, hb, State.le]
  rw [State.slotImages, hdir, hle, State.slotImages]

theorem firmwareAt_congr (h : t.mem = s.mem) : t.firmwareAt = s.firmwareAt := by
  have hb : t.bytes = s.bytes := funext fun a => funext fun n => bytes_congr h a n
  funext a
  simp only [State.firmwareAt, State.le, hb]

theorem SameImages.acceptsImage (h : SameImages s t) : t.acceptsImage = s.acceptsImage := by
  unfold State.acceptsImage
  rw [slotImages_congr h.mem, firmwareAt_congr h.mem]
  exact List.any_congr rfl fun x => h.firmwareOk true x.2

end

/-- The slots give an image exactly when one of them holds an accepted one. -/
theorem tryFirmware_isSome (reeve : Bool) (s : State) (xs : List (Nat × List Byte)) :
    (tryFirmware reeve s xs).2.isSome = xs.any fun x => s.firmwareOk reeve x.2 := by
  induction xs generalizing s with
  | nil => rfl
  | cons x xs ih =>
    rw [tryFirmware, List.any_cons]
    by_cases h : s.firmwareOk reeve x.2 = true
    · rw [if_pos h, h]
      rfl
    · rw [if_neg h, ih, eq_false_of_ne_true h, Bool.false_or]
      exact List.any_congr rfl fun y => SameImages.refl.raise.firmwareOk reeve y.2

/-! The full path (R435, R441). -/

/-- The device when step 1 looks for the firmware. -/
def State.atFirmware (s : State) (env : StartEnv) : State :=
  (compareFuses (sampleSafeReq (runStart s env)) env).setBit Reg.hrnsBoot 3
    (compareFuses (sampleSafeReq (runStart s env)) env).directory.2

theorem atFirmware_sameImages (s : State) (env : StartEnv) : SameImages s (s.atFirmware env) :=
  SameImages.refl.runStart.sampleSafeReq.raiseIf.setBit (by decide)

theorem atFirmware_images (s : State) (env : StartEnv) :
    (tryFirmware true (s.atFirmware env) ((s.atFirmware env).slotImages 1 (s.atFirmware env).firmwareAt)).2.isSome =
      s.acceptsImage :=
  (tryFirmware_isSome true _ _).trans (atFirmware_sameImages s env).acceptsImage

theorem startFull_of_accepted {s : State} (env : StartEnv) {path : Nat} (hp : path < 4)
    (h : s.acceptsImage = true) : StartEnded (startFull s env path) env path 9 := by
  have hsome := (atFirmware_images s env).trans h
  unfold State.atFirmware at hsome
  rw [startFull]
  generalize tryFirmware true _ _ = r at hsome ⊢
  obtain ⟨u, _ | img⟩ := r
  · cases hsome
  · exact startFromStep2_ended u env img hp

theorem startFull_of_rejected {s : State} (env : StartEnv) (path : Nat) (h : s.acceptsImage = false) :
    InRecovery (startFull s env path) := by
  have hnone := (atFirmware_images s env).trans h
  unfold State.atFirmware at hnone
  rw [startFull]
  generalize tryFirmware true _ _ = r at hnone ⊢
  obtain ⟨u, _ | img⟩ := r
  · exact enterRecovery_recovery u env
  · cases hnone

/-! The warm start (R449, R450). -/

/-- The checks of the channels and the links on the fast path pass. -/
def fastChecksPass (env : StartEnv) : Prop := env.channelCheckBad = [] ∧ env.linkDownBad = []

theorem startFast_of_checks (s : State) {env : StartEnv} (t : WarmToken) (h : fastChecksPass env) :
    StartEnded (startFast s env t) env 1 24 := by
  rw [startFast]
  split
  · next hbad => exact absurd h (by rw [fastChecksPass]; tauto)
  · exact endStart_ended _ env (by decide) (by decide)

theorem startFast_of_failed_check (s : State) {env : StartEnv} (t : WarmToken) (h : ¬ fastChecksPass env) :
    StartEnded (startFast s env t) env 2 9 := by
  rw [startFast]
  split
  · exact startFromStep3_ended _ env _ (by decide)
  · next hgood => exact absurd (by rw [fastChecksPass]; tauto) h

theorem tokenReasons_congr {s t : State} (env : StartEnv) (htoken : t.boot.token = s.boot.token) (hmem : t.mem = s.mem)
    (hnow : t.now = s.now) (hfault : t.bit Reg.reeveRst 31 = s.bit Reg.reeveRst 31) :
    t.tokenReasons env = s.tokenReasons env := by
  simp only [State.tokenReasons, htoken, hnow, hfault, bytes_congr hmem]

/-- A device without a token fails a condition of R449. -/
theorem token_of_no_reasons {s : State} {env : StartEnv} (h : s.tokenReasons env = 0) :
    ∃ t, s.boot.token = some t := by
  unfold State.tokenReasons at h
  cases ht : s.boot.token with
  | none =>
    rw [ht] at h
    dsimp only at h
    omega
  | some t => exact ⟨t, rfl⟩

/-- The boot ROM at the token's check. -/
def State.atTokenCheck (s : State) : State :=
  (s.setBit Reg.reeveRst 0 true).setBit Reg.timeStatus 2 s.pins.chainHead

theorem atTokenCheck_reasons (s : State) (env : StartEnv) : s.atTokenCheck.tokenReasons env = s.tokenReasons env :=
  tokenReasons_congr env rfl rfl rfl
    ((State.bit_setBit_of_disjoint _ _ _ _ (by decide) (.inl (by decide))).trans
      (State.bit_setBit_of_disjoint _ _ _ _ (by decide) (.inr (by decide))))

theorem startWarm_of_no_reasons {s : State} {env : StartEnv} (h : s.tokenReasons env = 0) :
    ∃ u t, startWarm s env = startFast u env t := by
  have hcheck := (atTokenCheck_reasons s env).trans h
  obtain ⟨t, ht⟩ := token_of_no_reasons hcheck
  unfold State.atTokenCheck at hcheck ht
  rw [startWarm]
  split
  · rw [if_pos hcheck]
    exact ⟨_, _, rfl⟩
  · next hn => cases hn.symm.trans ht

/-- A rejected token gives the full path, from the same images. -/
theorem startWarm_of_reasons {s : State} {env : StartEnv} (h : s.tokenReasons env ≠ 0) :
    ∃ u, SameImages s u ∧ startWarm s env = startFull u env 2 := by
  have hcheck : s.atTokenCheck.tokenReasons env ≠ 0 := fun e => h ((atTokenCheck_reasons s env).symm.trans e)
  have hshown (v : Word) : SameImages s (s.atTokenCheck.setReg Reg.reeveWtStatus v) :=
    ((SameImages.refl.setBit (by decide)).setBit (by decide)).setReg (by decide)
  unfold State.atTokenCheck at hcheck hshown
  rw [startWarm]
  split
  · rw [if_neg hcheck, startWarm.rejected]
    exact ⟨_, (hshown _).raise.raiseIf, rfl⟩
  · rw [startWarm.rejected]
    exact ⟨_, (hshown _).raise.raiseIf, rfl⟩

/-! The outcome of a command that starts the device. -/

section
variable {c : Instr} {s t : State} {env : StartEnv} {a : Bool}

/-- A cold start's end; a says that an image is accepted. -/
theorem yields_of_cold (he : a = s.acceptsImage) (hx : exec c s = always s (startFull t env 0)) (h : SameImages s t) :
    (a = true → Yields c s fun t => StartEnded t env 0 9) ∧
      (a = false → Yields c s InRecovery) := by
  rw [he, ← h.acceptsImage]
  refine ⟨fun ha => yields_of_always hx ?_, fun ha => yields_of_always hx ?_⟩
  · exact (startEnded_withQueue _ _ _ _ _).mpr (startFull_of_accepted env (by decide) ha)
  · exact (inRecovery_withQueue _ _).mpr (startFull_of_rejected env 0 ha)

/-- A warm start's end; a says that an image is accepted. -/
theorem yields_of_warm (he : a = s.acceptsImage) (hx : exec c s = always s (startWarm t env)) (h : SameImages s t)
    (hr : t.tokenReasons env = s.tokenReasons env) :
    (s.tokenReasons env = 0 → fastChecksPass env → Yields c s fun t => StartEnded t env 1 24) ∧
      (s.tokenReasons env = 0 → ¬ fastChecksPass env → Yields c s fun t => StartEnded t env 2 9) ∧
      (s.tokenReasons env ≠ 0 → a = true → Yields c s fun t => StartEnded t env 2 9) ∧
      (s.tokenReasons env ≠ 0 → a = false → Yields c s InRecovery) := by
  rw [he, ← h.acceptsImage, ← hr]
  refine ⟨fun h0 hc => ?_, fun h0 hc => ?_, fun h0 ha => ?_, fun h0 ha => ?_⟩
  · obtain ⟨u, k, hk⟩ := startWarm_of_no_reasons h0
    rw [hk] at hx
    exact yields_of_always hx ((startEnded_withQueue _ _ _ _ _).mpr (startFast_of_checks _ k hc))
  · obtain ⟨u, k, hk⟩ := startWarm_of_no_reasons h0
    rw [hk] at hx
    exact yields_of_always hx ((startEnded_withQueue _ _ _ _ _).mpr (startFast_of_failed_check _ k hc))
  · obtain ⟨u, hu, hk⟩ := startWarm_of_reasons h0
    rw [← hu.acceptsImage] at ha
    rw [hk] at hx
    exact yields_of_always hx ((startEnded_withQueue _ _ _ _ _).mpr (startFull_of_accepted env (by decide) ha))
  · obtain ⟨u, hu, hk⟩ := startWarm_of_reasons h0
    rw [← hu.acceptsImage] at ha
    rw [hk] at hx
    exact yields_of_always hx ((inRecovery_withQueue _ _).mpr (startFull_of_rejected env 2 ha))

end

/-! The releases and the lock, case by case. -/

section
variable {s : State} {env : StartEnv}

theorem startCold_of_locks (s : State) (h : env.pllLocks = true) :
    startCold s env = startFull (lockPll { s with pins := { s.pins with coldDue := false } }) env 0 := if_pos h

/-- The boot ROM waits in step 1 for the lock (R41). -/
def State.waitsForLock (s : State) (env : StartEnv) : State :=
  let s := s.setBits Reg.reeveBoot 28 24 1
  { s with boot := { s.boot with waiting := some env } }

theorem waitsForLock_eq (s : State) (env : StartEnv) : s.waitsForLock env =
    { s with boot := { s.boot with waiting := some env }, regs := (s.waitsForLock env).regs } := by
  have h : OnlyRegs s (s.setBits Reg.reeveBoot 28 24 1) := OnlyRegs.refl.setBits
  unfold State.waitsForLock
  generalize s.setBits Reg.reeveBoot 28 24 1 = u at h ⊢
  rw [h]

theorem waitsForLock_step (s : State) (env : StartEnv) : (s.waitsForLock env).bits Reg.reeveBoot 28 24 = 1 := by
  rw [State.waitsForLock, bits_withBoot, State.bits_setBits_self _ _ _ _ (by decide)]
  rfl

theorem waitsForLock_reg_ne (s : State) (env : StartEnv) {a : Nat} (h : a ≠ Reg.reeveBoot) :
    (s.waitsForLock env).reg a = s.reg a := by
  rw [State.waitsForLock, reg_withBoot, State.reg_setBits_ne _ _ _ _ h]

theorem startCold_of_unlocked (s : State) (h : env.pllLocks = false) :
    startCold s env = State.waitsForLock { s with pins := { s.pins with coldDue := false } } env :=
  if_neg (ne_true_of_eq_false h)

/-- The pins out of PORST_N, with CHAIN_HEAD sampled (R469, R486). -/
def State.releasedPins (s : State) (env : StartEnv) : Pins :=
  { s.pins with porst := false, outputsZ := false, chainHead := env.chainHead,
                tap := if s.pins.tap = 3 then 0 else s.pins.tap }

/-- The device out of PORST_N. -/
def State.porstReleased (s : State) (env : StartEnv) : State :=
  State.setBit { s with pins := s.releasedPins env } Reg.timeStatus 2 env.chainHead

theorem porstReleased_onlyRegs (s : State) (env : StartEnv) :
    OnlyRegs { s with pins := s.releasedPins env } (s.porstReleased env) := OnlyRegs.refl.setBit

theorem porstReleased_head (s : State) (env : StartEnv) :
    (s.porstReleased env).bit Reg.timeStatus 2 = env.chainHead := State.bit_setBit_self _ _ _ (by decide)

theorem porstReleased_reg_ne (s : State) (env : StartEnv) {a : Nat} (h : a ≠ Reg.timeStatus) :
    (s.porstReleased env).reg a = s.reg a := State.reg_setBit_ne _ _ _ h

theorem porstReleased_sameImages (s : State) (env : StartEnv) : SameImages s (s.porstReleased env) :=
  (SameImages.refl.withPins _).setBit (by decide)

theorem releasePorst_of_out (h : s.pins.porst = false ∨ s.pins.vinUp = false) : releasePorst s env = s :=
  if_pos (by rcases h with h | h <;> simp [h])

theorem releasePorst_eq (hp : s.pins.porst = true) (hv : s.pins.vinUp = true) : releasePorst s env =
    if s.pins.warm then
      { s.porstReleased env with pins := { (s.porstReleased env).pins with coldDue := true } }
    else startCold (s.porstReleased env) env := by
  rw [releasePorst, if_neg (by simp [hp, hv])]
  rfl

theorem releaseWarm_of_high (h : s.pins.warm = false) : releaseWarm s env = s := if_pos (by simp [h])

theorem releaseWarm_eq (h : s.pins.warm = true) : releaseWarm s env =
    if s.pins.porst then { s with pins := { s.pins with warm := false } }
    else if s.pins.coldDue then startCold { s with pins := { s.pins with warm := false } } env
    else beginWarm { s with pins := { s.pins with warm := false } } env := if_neg (by simp [h])

end

section
variable {s : State} {env : StartEnv}

/-! PORST_RELEASE. -/

/-- The device out of PORST_N while WARM_N is low: the cold start is due (R473). -/
def State.coldStartDue (s : State) (env : StartEnv) : State :=
  { s.porstReleased env with pins := { (s.porstReleased env).pins with coldDue := true } }

theorem porstRelease_of_warm (hp : s.pins.porst = true) (hv : s.pins.vinUp = true) (hw : s.pins.warm = true) :
    exec (.porstRelease env) s = always s (s.coldStartDue env) := by
  have hx : exec (.porstRelease env) s = always s (releasePorst s env) := rfl
  rw [hx, releasePorst_eq hp hv, if_pos hw]
  rfl

theorem porstRelease_of_locks (hp : s.pins.porst = true) (hv : s.pins.vinUp = true) (hw : s.pins.warm = false)
    (hl : env.pllLocks = true) :
    ∃ u, SameImages s u ∧ exec (.porstRelease env) s = always s (startFull u env 0) := by
  have hx : exec (.porstRelease env) s = always s (releasePorst s env) := rfl
  rw [releasePorst_eq hp hv, if_neg (ne_true_of_eq_false hw), startCold_of_locks _ hl] at hx
  exact ⟨_, ((porstReleased_sameImages s env).withPins _).lockPll, hx⟩

/-- The device out of PORST_N, waiting for the lock. -/
def State.coldStartWaits (s : State) (env : StartEnv) : State :=
  State.waitsForLock { s.porstReleased env with pins := { (s.porstReleased env).pins with coldDue := false } } env

theorem porstRelease_of_unlocked (hp : s.pins.porst = true) (hv : s.pins.vinUp = true) (hw : s.pins.warm = false)
    (hl : env.pllLocks = false) : exec (.porstRelease env) s = always s (s.coldStartWaits env) := by
  have hx : exec (.porstRelease env) s = always s (releasePorst s env) := rfl
  rw [hx, releasePorst_eq hp hv, if_neg (ne_true_of_eq_false hw), startCold_of_unlocked _ hl]
  rfl

theorem coldStartDue_eq (s : State) (env : StartEnv) : s.coldStartDue env =
    { s with pins := { s.releasedPins env with coldDue := true }, regs := (s.coldStartDue env).regs } := by
  have h := porstReleased_onlyRegs s env
  unfold State.coldStartDue
  generalize s.porstReleased env = u at h ⊢
  rw [h]

theorem coldStartWaits_eq (s : State) (env : StartEnv) : s.coldStartWaits env =
    { s with pins := { s.releasedPins env with coldDue := false }
             boot := { s.boot with waiting := some env }, regs := (s.coldStartWaits env).regs } := by
  have h := porstReleased_onlyRegs s env
  unfold State.coldStartWaits
  rw [waitsForLock_eq]
  generalize State.regs (State.waitsForLock _ _) = r
  generalize s.porstReleased env = u at h ⊢
  rw [h]

theorem coldStartDue_head (s : State) (env : StartEnv) :
    (s.coldStartDue env).bit Reg.timeStatus 2 = env.chainHead := by
  rw [State.coldStartDue, bit_withPins, porstReleased_head]

theorem coldStartDue_regs (s : State) (env : StartEnv) : SameRegsBut [Reg.timeStatus] s (s.coldStartDue env) :=
  fun a ha => by rw [State.coldStartDue, reg_withPins, porstReleased_reg_ne s env (List.ne_of_not_mem_cons ha)]

theorem coldStartWaits_head (s : State) (env : StartEnv) :
    (s.coldStartWaits env).bit Reg.timeStatus 2 = env.chainHead := by
  rw [State.coldStartWaits, State.bit, waitsForLock_reg_ne _ _ (by decide), ← State.bit, bit_withPins,
    porstReleased_head]

theorem coldStartWaits_step (s : State) (env : StartEnv) : (s.coldStartWaits env).bits Reg.reeveBoot 28 24 = 1 := by
  rw [State.coldStartWaits, waitsForLock_step]

theorem coldStartWaits_regs (s : State) (env : StartEnv) :
    SameRegsBut [Reg.timeStatus, Reg.reeveBoot] s (s.coldStartWaits env) := fun a ha => by
  have htime := List.ne_of_not_mem_cons ha
  have hboot := List.ne_of_not_mem_cons (List.not_mem_of_not_mem_cons ha)
  rw [State.coldStartWaits, waitsForLock_reg_ne _ _ hboot, reg_withPins, porstReleased_reg_ne s env htime]

/-! PLL_LOCK. -/

theorem pllLock_of_porst (h : s.pins.porst = true) : pllLock s = s := if_pos h

theorem pllLock_of_idle (hp : s.pins.porst = false) (hn : s.boot.waiting = none) : pllLock s =
    if s.pins.pllLocked then s.setBit Reg.clkStatus 2 true else lockPll s := by
  rw [pllLock, if_neg (ne_true_of_eq_false hp), hn]

/-- A lock for which no start waits, after the first (R41). -/
theorem relock_eq (s : State) (h : s.pins.pllLocked = true) : s.setBit Reg.clkStatus 2 true =
    { s with pins := { s.pins with pllLocked := true }, regs := (s.setBit Reg.clkStatus 2 true).regs } := by
  have hregs : OnlyRegs s (s.setBit Reg.clkStatus 2 true) := OnlyRegs.refl.setBit
  generalize s.setBit Reg.clkStatus 2 true = u at hregs ⊢
  rw [← h]
  exact hregs

theorem relock_lock (s : State) : (s.setBit Reg.clkStatus 2 true).bit Reg.clkStatus 2 = true :=
  State.bit_setBit_self _ _ _ (by decide)

theorem relock_reference (s : State) :
    (s.setBit Reg.clkStatus 2 true).bit Reg.clkStatus 3 = s.bit Reg.clkStatus 3 :=
  State.bit_setBit_of_disjoint _ _ _ _ (by decide) (by decide)

theorem relock_regs (s : State) : SameRegsBut [Reg.clkStatus] s (s.setBit Reg.clkStatus 2 true) :=
  SameRegsBut.refl.setBit List.mem_cons_self

/-- The device whose start goes on with the lock. -/
def State.startGoesOn (s : State) : State :=
  { lockPll s with boot := { s.boot with waiting := none, warmWait := false } }

theorem pllLock_of_waiting (hp : s.pins.porst = false) (hs : s.boot.waiting = some env) : pllLock s =
    if s.boot.warmWait then startWarm s.startGoesOn env else startFull s.startGoesOn env 0 := by
  rw [pllLock, if_neg (ne_true_of_eq_false hp), hs]
  rfl

theorem startGoesOn_sameImages (s : State) : SameImages s s.startGoesOn := SameImages.refl.lockPll.withBoot _

theorem lockPll_reg_ne {a : Nat} (h : a ≠ Reg.clkStatus) : (lockPll s).reg a = s.reg a := by
  rw [lockPll, reg_withPins, State.reg_setBit_ne _ _ _ h, State.reg_setBit_ne _ _ _ h]

theorem lockPll_lock (s : State) : (lockPll s).bit Reg.clkStatus 2 = true := by
  rw [lockPll, bit_withPins, State.bit_setBit_of_disjoint _ _ _ _ (by decide) (by decide),
    State.bit_setBit_self _ _ _ (by decide)]

theorem lockPll_reference (s : State) : (lockPll s).bit Reg.clkStatus 3 = true := by
  rw [lockPll, bit_withPins, State.bit_setBit_self _ _ _ (by decide)]

theorem lockPll_eq (s : State) :
    lockPll s = { s with pins := { s.pins with pllLocked := true }, regs := (lockPll s).regs } := by
  have h : OnlyRegs s ((s.setBit Reg.clkStatus 2 true).setBit Reg.clkStatus 3 true) := OnlyRegs.refl.setBit.setBit
  unfold lockPll
  generalize (s.setBit Reg.clkStatus 2 true).setBit Reg.clkStatus 3 true = u at h ⊢
  rw [h]

theorem lockPll_regs (s : State) : SameRegsBut [Reg.clkStatus] s (lockPll s) := fun _ ha =>
  lockPll_reg_ne (List.ne_of_not_mem_cons ha)

theorem lockPll_reasons (s : State) (env : StartEnv) : (lockPll s).tokenReasons env = s.tokenReasons env := by
  have hfault : (lockPll s).bit Reg.reeveRst 31 = s.bit Reg.reeveRst 31 := by
    rw [State.bit, lockPll_reg_ne (by decide), State.bit]
  have h := lockPll_eq s
  generalize lockPll s = u at h hfault ⊢
  exact tokenReasons_congr env (by rw [h]) (by rw [h]) (by rw [h]; rfl) hfault

theorem startGoesOn_reasons (s : State) (env : StartEnv) : s.startGoesOn.tokenReasons env = s.tokenReasons env := by
  have h : (lockPll s).boot.token = s.boot.token := by rw [lockPll_eq]
  rw [← lockPll_reasons s, State.startGoesOn]
  generalize lockPll s = u at h ⊢
  exact tokenReasons_congr env h.symm rfl rfl rfl

/-! WARM_RELEASE. -/

/-- The device with WARM_N high. -/
def State.warmHigh (s : State) : State := { s with pins := { s.pins with warm := false } }

theorem warmHigh_sameImages (s : State) : SameImages s s.warmHigh := SameImages.refl.withPins _

theorem releaseWarm_of_low (h : s.pins.warm = true) (hp : s.pins.porst = false) : releaseWarm s env =
    if s.pins.coldDue then startCold s.warmHigh env else beginWarm s.warmHigh env := by
  rw [releaseWarm_eq h, if_neg (ne_true_of_eq_false hp)]
  rfl

theorem beginWarm_of_lock (h : s.pins.pllLocked = true ∨ env.pllLocks = true) :
    ∃ u, SameImages s u ∧ u.tokenReasons env = s.tokenReasons env ∧ beginWarm s env = startWarm u env := by
  by_cases hl : s.pins.pllLocked = true
  · exact ⟨s, SameImages.refl, rfl, if_pos hl⟩
  · refine ⟨lockPll s, SameImages.refl.lockPll, lockPll_reasons s env, ?_⟩
    rw [beginWarm, if_neg hl, if_pos (h.resolve_left hl)]

/-- A warm start that waits in the boot ROM for the lock. -/
def State.warmStartWaits (s : State) (env : StartEnv) : State :=
  let s := s.setBits Reg.reeveBoot 28 24 1
  { s with boot := { s.boot with waiting := some env, warmWait := true } }

theorem warmStartWaits_eq (s : State) (env : StartEnv) : s.warmStartWaits env =
    { s with boot := { s.boot with waiting := some env, warmWait := true }, regs := (s.warmStartWaits env).regs } := by
  have h : OnlyRegs s (s.setBits Reg.reeveBoot 28 24 1) := OnlyRegs.refl.setBits
  unfold State.warmStartWaits
  generalize s.setBits Reg.reeveBoot 28 24 1 = u at h ⊢
  rw [h]

theorem warmStartWaits_step (s : State) (env : StartEnv) : (s.warmStartWaits env).bits Reg.reeveBoot 28 24 = 1 := by
  rw [State.warmStartWaits, bits_withBoot, State.bits_setBits_self _ _ _ _ (by decide)]
  rfl

theorem warmStartWaits_reg_ne (s : State) (env : StartEnv) {a : Nat} (h : a ≠ Reg.reeveBoot) :
    (s.warmStartWaits env).reg a = s.reg a := by
  rw [State.warmStartWaits, reg_withBoot, State.reg_setBits_ne _ _ _ _ h]

theorem beginWarm_of_unlocked (h : s.pins.pllLocked = false) (hl : env.pllLocks = false) :
    beginWarm s env = s.warmStartWaits env := by
  rw [beginWarm, if_neg (ne_true_of_eq_false h), if_neg (ne_true_of_eq_false hl)]
  rfl

end


/-! Frames of a command's outcome. -/

/-- A state that is s but for its pins and registers. -/
theorem frame_withPins {s u : State} {p : Pins} (h : u = { s with pins := p, regs := u.regs }) :
    u.withQueue s.pending = { s with pins := p, regs := (u.withQueue s.pending).regs } := by
  rw [h]
  rfl

/-- A state that is s but for its pins, its start-up state and registers. -/
theorem frame_withPins_withBoot {s u : State} {p : Pins} {b : Boot}
    (h : u = { s with pins := p, boot := b, regs := u.regs }) :
    u.withQueue s.pending = { s with pins := p, boot := b, regs := (u.withQueue s.pending).regs } := by
  rw [h]
  rfl

end Sys2Proof.Machine
end

section
/-! The pins of clocks, supplies and monitors, and the test port (R42, R372, R471, R481, R485, R486). -/

namespace Sys2Proof.Machine

/-! Clock events (R42). -/

section
variable {s : State} {code i j : Nat}

theorem clockFault_reg_ne {a : Nat} (hk : a ≠ Reg.clkStatus) (hc : a ≠ Reg.timeCtrl) (ht : a ≠ Reg.timeStatus) :
    (clockFault s code j).reg a = s.reg a := by
  rw [clockFault, State.raise_reg, State.reg_setBit_ne _ _ _ ht, State.reg_setBit_ne _ _ _ hc,
    State.reg_setBit_ne _ _ _ hk]

theorem clockFault_clkStatus :
    (clockFault s code j).reg Reg.clkStatus = (s.setBit Reg.clkStatus j true).reg Reg.clkStatus := by
  rw [clockFault, State.raise_reg, State.reg_setBit_ne _ _ _ (by decide), State.reg_setBit_ne _ _ _ (by decide)]

theorem clockFault_flag (hj : j < 32) : (clockFault s code j).bit Reg.clkStatus j = true := by
  rw [State.bit, clockFault_clkStatus, ← State.bit, State.bit_setBit_self _ _ _ hj]

theorem clockFault_status (hj : j < 32) (hij : i ≠ j) :
    (clockFault s code j).bit Reg.clkStatus i = s.bit Reg.clkStatus i := by
  rw [State.bit, clockFault_clkStatus, ← State.bit, State.bit_setBit_of_disjoint _ _ _ _ hj (.inr hij)]

theorem clockFault_lock : (clockFault s code j).bit Reg.timeCtrl 1 = false := by
  rw [clockFault, State.raise_bit, State.bit_setBit_of_disjoint _ _ _ _ (by decide) (.inl (by decide)),
    State.bit_setBit_self _ _ _ (by decide)]

theorem clockFault_aligned : (clockFault s code j).bit Reg.timeStatus 1 = false := by
  rw [clockFault, State.raise_bit, State.bit_setBit_self _ _ _ (by decide)]

theorem clockFault_eq : clockFault s code j =
    { s.raise { code := code, cls := 4 } with regs := (clockFault s code j).regs } := by
  have h : OnlyRegs s (((s.setBit Reg.clkStatus j true).setBit Reg.timeCtrl 1 false).setBit Reg.timeStatus 1 false) :=
    OnlyRegs.refl.setBit.setBit.setBit
  unfold clockFault
  dsimp only
  generalize ((s.setBit Reg.clkStatus j true).setBit Reg.timeCtrl 1 false).setBit Reg.timeStatus 1 false = u at h ⊢
  rw [h]
  rfl

/-- What a clock event that clears flag i and sets flag j leaves. -/
theorem yields_of_clockFault {c : Instr} (hi : i < 32) (hj : j < 32) (hij : i ≠ j)
    (hx : exec c s = always s (clockFault (s.setBit Reg.clkStatus i false) code j)) :
    Yields c s fun t => t.bit Reg.clkStatus i = false ∧ t.bit Reg.clkStatus j = true ∧ t.bit Reg.timeCtrl 1 = false ∧
      t.bit Reg.timeStatus 1 = false ∧ SameRegsBut [Reg.clkStatus, Reg.timeCtrl, Reg.timeStatus] s t ∧
      t = { s.raise { code := code, cls := 4 } with regs := t.regs } := by
  have h : OnlyRegs s (s.setBit Reg.clkStatus i false) := OnlyRegs.refl.setBit
  have hcleared : (s.setBit Reg.clkStatus i false).bit Reg.clkStatus i = false := State.bit_setBit_self _ _ _ hi
  have hregs : SameRegsBut [Reg.clkStatus, Reg.timeCtrl, Reg.timeStatus] s (s.setBit Reg.clkStatus i false) :=
    SameRegsBut.refl.setBit List.mem_cons_self
  generalize s.setBit Reg.clkStatus i false = u at h hcleared hregs hx
  refine yields_of_always hx ?_
  simp only [State.withQueue_bit, sameRegsBut_withQueue]
  refine ⟨(clockFault_status hj hij).trans hcleared, clockFault_flag hj, clockFault_lock, clockFault_aligned,
    fun a ha => ?_, ?_⟩
  · simp only [List.mem_cons, List.not_mem_nil, or_false, not_or] at ha
    obtain ⟨hk, hc, ht⟩ := ha
    rw [clockFault_reg_ne hk hc ht]
    exact hregs a (by simp [hk, hc, ht])
  · have hframe := clockFault_eq (s := u) (code := code) (j := j)
    generalize clockFault u code j = v at hframe ⊢
    rw [hframe, h]
    rfl

end

theorem tripMonitor_of_porst {s : State} (h : s.pins.porst = true) (code : Nat) : tripMonitor s code = s := if_pos h

theorem tripMonitor_of_out {s : State} (h : s.pins.porst = false) (code : Nat) : tripMonitor s code =
    { s with island := { s.island with monitorsBad := true } }.raise { code := code, cls := 4 } :=
  if_neg (ne_true_of_eq_false h)

/-! SAFE_REQ_N (R372). -/

/-- The device with SAFE_REQ_N low. -/
def State.safeReqLow (s : State) : State := { s with pins := { s.pins with safeReq := true } }

theorem safeReqLow_of_low {s : State} (h : s.pins.safeReq = true) : s.safeReqLow = s := by
  unfold State.safeReqLow
  rw [← h]

theorem safeReqAssert_eq (s : State) : exec .safeReqAssert s =
    always s (if s.pins.porst || s.pins.safeReq then s.safeReqLow
      else (s.safeReqLow.setBit Reg.safeStatus 5 true).raise { code := 0x0A02, cls := 4 }) := rfl

/-! The test port (R485). -/

theorem setTap_ballLevel (s : State) (k : Nat) : (setTap s k).ballLevel = s.ballLevel := rfl

theorem sampleCells_length (s : State) (levels : List Bool) : (s.sampleCells levels).length = boundaryCells := by
  rw [State.sampleCells, List.length_map, List.length_range]

theorem sampleCells_getElem (s : State) (levels : List Bool) {k : Nat} (h : k < boundaryCells) :
    (s.sampleCells levels)[k]? = some ((s.ballLevel k).getD ((levels[k]?).getD false)) := by
  rw [State.sampleCells, List.getElem?_map, List.getElem?_range h, Option.map_some]

end Sys2Proof.Machine
end

section
/-! Frames from the Trace chain (R50, R241, R242, R452 to R458). -/

namespace Sys2Proof.Machine

/-! Passing a frame on (R455). -/

theorem chainOn_eq (s : State) (up : Bool) (b : List Byte) :
    chainOn s up b = { s with outbox := (chainOn s up b).outbox } := by
  by_cases h : s.bit Reg.reeveChain (if up then 27 else 26) = true
  · rw [chainOn, if_pos h]
    rfl
  · rw [chainOn, if_neg h]

/-- Passing a frame on changes what leaves the device, nothing else. -/
theorem forward_eq (s : State) (f : ChainFrame) : forward s f = { s with outbox := (forward s f).outbox } := by
  unfold forward
  dsimp only
  split
  · rfl
  · split
    · exact chainOn_eq _ _ _
    · split
      · rfl
      · exact chainOn_eq _ _ _

theorem forward_of_linkLocal {f : ChainFrame} (s : State) (h : f.linkLocal = true) : forward s f = s := if_pos h

theorem forward_of_broadcast {s : State} {f : ChainFrame} (hl : f.linkLocal = false) (hb : f.broadcast = true)
    (hlink : s.bit Reg.reeveChain (if f.fromUp then 26 else 27) = true) :
    forward s f = s.emit (.chainFrame (!f.fromUp) (chainBytes f.type (frameSrcByte f) (frameDstByte f) f.payload)) := by
  have hside : (if !f.fromUp then 27 else 26) = if f.fromUp then 26 else 27 := by cases f.fromUp <;> rfl
  rw [forward, if_neg (ne_true_of_eq_false hl), if_pos (by rw [hb, Bool.true_or]), chainOn, hside, if_pos hlink]

theorem forward_reg (s : State) (f : ChainFrame) (a : Nat) : (forward s f).reg a = s.reg a := by
  rw [forward_eq]
  rfl

theorem forward_bits (s : State) (f : ChainFrame) (a msb lsb : Nat) : (forward s f).bits a msb lsb = s.bits a msb lsb := by
  rw [State.bits, forward_reg, State.bits]

theorem forward_bit (s : State) (f : ChainFrame) (a i : Nat) : (forward s f).bit a i = s.bit a i := by
  rw [State.bit, forward_reg, State.bit]

theorem forward_addressed (s : State) (f : ChainFrame) : (forward s f).addressed = s.addressed := forward_bit s f _ _

theorem forward_chipId (s : State) (f : ChainFrame) : (forward s f).chipId = s.chipId := forward_bits s f _ _ _

theorem forward_pins (s : State) (f : ChainFrame) : (forward s f).pins = s.pins := by rw [forward_eq]

theorem forward_chain (s : State) (f : ChainFrame) : (forward s f).chain = s.chain := by rw [forward_eq]

theorem forward_time (s : State) (f : ChainFrame) : (forward s f).time = s.time := by rw [forward_eq]

theorem forward_island (s : State) (f : ChainFrame) : (forward s f).island = s.island := by rw [forward_eq]

theorem forward_regs (s : State) (f : ChainFrame) (as : List Nat) : SameRegsBut as s (forward s f) :=
  fun a _ => forward_reg s f a

theorem forward_chainMine (s : State) (f : ChainFrame) : (forward s f).chainMine f = s.chainMine f := by
  rw [State.chainMine, forward_addressed, forward_chipId, State.chainMine]

/-! Receiving a frame (R453). -/

section
variable {s : State} {f : ChainFrame} {k : Nat} {act : State → State}

theorem chainReceive_of_down (h : s.bit Reg.reeveChain (if f.fromUp then 27 else 26) = false) :
    chainReceive s f k act = s := if_pos (by rw [h]; rfl)

variable (hlink : s.bit Reg.reeveChain (if f.fromUp then 27 else 26) = true)
include hlink

theorem chainReceive_of_bad_crc (h : chainCrcOk f = false) : chainReceive s f k act =
    (s.addSat Reg.reeveChainCnt 15 0).raise { code := 0x000E, cls := 0 } := by
  rw [chainReceive, if_neg (by simp [hlink]), if_pos (by simp [h])]

theorem chainReceive_of_other_type (hcrc : chainCrcOk f = true) (h : f.type ≠ k) : chainReceive s f k act = s := by
  rw [chainReceive, if_neg (by simp [hlink]), if_neg (by simp [hcrc]), if_pos h]

theorem chainReceive_of_other_chip (hcrc : chainCrcOk f = true) (ht : f.type = k) (h : s.chainMine f = false) :
    chainReceive s f k act = forward s f := by
  rw [chainReceive, if_neg (by simp [hlink]), if_neg (by simp [hcrc]), if_neg (fun hne => hne ht)]
  exact if_neg (by rw [forward_chainMine, h]; exact Bool.false_ne_true)

theorem chainReceive_of_mine (hcrc : chainCrcOk f = true) (ht : f.type = k) (h : s.chainMine f = true) :
    chainReceive s f k act = act (forward s f) := by
  rw [chainReceive, if_neg (by simp [hlink]), if_neg (by simp [hcrc]), if_neg (fun hne => hne ht)]
  exact if_pos (by rw [forward_chainMine, h])

end

/-! Chain errors (R456). -/

/-- t is x with a chain error detected, where x differs from s in REEVE_CHAIN alone. -/
def Detects (s : State) (heads : Bool) (x t : State) : Prop :=
  t.bit Reg.reeveChain (if heads then 29 else 30) = true ∧
    t.island.net = x.island.net ++ [{ code := 0x0004, cls := 2 }] ∧ t.outbox = x.outbox ++ [.chainError heads] ∧
    t.chain.detected = x.chain.detected ++ [heads] ∧ SameRegsBut [Reg.reeveChain] s t

theorem detects_withQueue (s : State) (heads : Bool) (x t : State) (q : List Instr) :
    Detects s heads x (t.withQueue q) ↔ Detects s heads x t := Iff.rfl

theorem chainFault_bit (s : State) (heads : Bool) :
    (chainFault s heads).bit Reg.reeveChain (if heads then 29 else 30) = true := by
  rw [chainFault, State.raise_bit, State.emit_bit, State.bit_setBit_self _ _ _ (by cases heads <;> decide)]

theorem chainFault_eq (s : State) (heads : Bool) : chainFault s heads =
    { s with regs := (chainFault s heads).regs, outbox := s.outbox ++ [.chainError heads]
             island := { s.island with net := s.island.net ++ [{ code := 0x0004, cls := 2 }] } } := by
  have h : OnlyRegs s (s.setBit Reg.reeveChain (if heads then 29 else 30) true) := OnlyRegs.refl.setBit
  unfold chainFault
  dsimp only
  generalize s.setBit Reg.reeveChain (if heads then 29 else 30) true = u at h ⊢
  rw [h]
  rfl

theorem chainFault_reg_ne {s : State} {heads : Bool} {a : Nat} (h : a ≠ Reg.reeveChain) :
    (chainFault s heads).reg a = s.reg a := by
  rw [chainFault, State.raise_reg, State.emit_reg, State.reg_setBit_ne _ _ _ h]

theorem detectChainError_of_old {x : State} {heads : Bool} (h : heads ∈ x.chain.detected) :
    detectChainError x heads = x := if_pos (List.contains_iff_mem.mpr h)

theorem detects_of_chainFault {s x y : State} {heads : Bool} (hregs : SameRegsBut [Reg.reeveChain] s y)
    (hdetected : y.chain.detected = x.chain.detected ++ [heads]) (hisland : y.island = x.island)
    (houtbox : y.outbox = x.outbox) : Detects s heads x (chainFault y heads) := by
  refine ⟨chainFault_bit y heads, ?_, ?_, ?_, fun a ha => ?_⟩
  · rw [chainFault_eq, hisland]
  · rw [chainFault_eq, houtbox]
  · rw [chainFault_eq, hdetected]
  · rw [chainFault_reg_ne (List.ne_of_not_mem_cons ha), hregs a ha]

theorem detectChainError_of_new {s x : State} {heads : Bool} (hs : SameRegsBut [Reg.reeveChain] s x)
    (h : heads ∉ x.chain.detected) : Detects s heads x (detectChainError x heads) := by
  rw [detectChainError, if_neg (fun hc => h (List.contains_iff_mem.mp hc))]
  exact detects_of_chainFault hs rfl rfl rfl

/-! Address offers (R456, R457). -/

/-- The chip after an offer of address a is compared with its own. -/
def State.offered (u : State) (a : Nat) : State :=
  if u.addressed && a != u.chipId then (u.setBit Reg.reeveChain 28 true).raise { code := 0x0005, cls := 2 } else u

/-- An offer that is one too many, passed on to the next chip. -/
def State.offeredOn (u : State) (a : Nat) : State := chainLocal (u.offered a) false 0x01 (leBytes 1 (a + 1))

theorem takeAddr_eq (u : State) (a : Nat) : takeAddr u a =
    if (u.offered a).pins.chainHead then detectChainError (u.offered a) true
    else if 16 ≤ a then detectChainError (u.offeredOn a) false
    else if (u.offered a).addressed then u.offered a
    else takeAddress (u.offered a) a := rfl

theorem offered_pins (u : State) (a : Nat) : (u.offered a).pins = u.pins := by
  unfold State.offered
  split
  · rw [State.raise_pins, State.setBit_pins]
  · rfl

theorem offered_chain (u : State) (a : Nat) : (u.offered a).chain = u.chain := by
  unfold State.offered
  split
  · rw [State.raise_chain, State.setBit_chain]
  · rfl

theorem offered_addressed (u : State) (a : Nat) : (u.offered a).addressed = u.addressed := by
  unfold State.offered
  split
  · rw [State.addressed, State.raise_bit, State.bit_setBit_of_disjoint _ _ _ _ (by decide) (by decide), State.addressed]
  · rfl

theorem offered_regs (u : State) (a : Nat) : SameRegsBut [Reg.reeveChain] u (u.offered a) := by
  unfold State.offered
  split
  · exact fun b hb => by rw [State.raise_reg, State.reg_setBit_ne _ _ _ (List.ne_of_not_mem_cons hb)]
  · exact SameRegsBut.refl

theorem offered_of_unaddressed {u : State} (a : Nat) (h : u.addressed = false) : u.offered a = u :=
  if_neg (by rw [h, Bool.false_and]; exact Bool.false_ne_true)

theorem offeredOn_chain (u : State) (a : Nat) : (u.offeredOn a).chain = u.chain := by
  rw [State.offeredOn, chainLocal, chainOn_eq]
  exact offered_chain u a

theorem chainLocal_reg (s : State) (up : Bool) (k : Nat) (p : List Byte) (a : Nat) :
    (chainLocal s up k p).reg a = s.reg a := by
  rw [chainLocal, chainOn_eq]
  rfl

theorem offeredOn_regs (u : State) (a : Nat) : SameRegsBut [Reg.reeveChain] u (u.offeredOn a) := fun b hb =>
  (chainLocal_reg _ _ _ _ b).trans (offered_regs u a b hb)

theorem takeAddress_regs (u : State) (a : Nat) : SameRegsBut [Reg.reeveChain] u (takeAddress u a) := fun b hb => by
  have hne := List.ne_of_not_mem_cons hb
  rw [takeAddress, reg_withChain, State.reg_setBit_ne _ _ _ hne, State.reg_setBits_ne _ _ _ _ hne]

theorem takeAddress_addressed (u : State) (a : Nat) : (takeAddress u a).addressed = true := by
  rw [State.addressed, State.bit, takeAddress, reg_withChain, ← State.bit, State.bit_setBit_self _ _ _ (by decide)]

theorem takeAddress_chipId (u : State) {a : Nat} (h : a < 16) : (takeAddress u a).chipId = a := by
  rw [State.chipId, State.bits, takeAddress, reg_withChain, ← State.bits,
    State.bits_setBit_of_disjoint _ _ _ _ (by decide) (by decide), State.bits_setBits_self _ _ _ _ (by decide)]
  exact Nat.mod_eq_of_lt h

theorem takeAddress_step6 (u : State) (a : Nat) : (takeAddress u a).chain.step6 = none := by
  rw [takeAddress]

section
variable {u : State} {a : Nat}

theorem takeAddr_of_head (h : u.pins.chainHead = true) : takeAddr u a = detectChainError (u.offered a) true := by
  rw [takeAddr_eq, if_pos (by rw [offered_pins, h])]

variable (h : u.pins.chainHead = false)
include h

theorem offered_not_head : ¬ (u.offered a).pins.chainHead = true := by
  rw [offered_pins, h]
  exact Bool.false_ne_true

theorem takeAddr_of_too_many (ha : 16 ≤ a) : takeAddr u a = detectChainError (u.offeredOn a) false := by
  rw [takeAddr_eq, if_neg (offered_not_head h), if_pos ha]

theorem takeAddr_of_addressed (ha : a < 16) (hs : u.addressed = true) : takeAddr u a = u.offered a := by
  rw [takeAddr_eq, if_neg (offered_not_head h), if_neg (Nat.not_le.mpr ha), if_pos (by rw [offered_addressed, hs])]

theorem takeAddr_of_unaddressed (ha : a < 16) (hs : u.addressed = false) : takeAddr u a = takeAddress u a := by
  rw [takeAddr_eq, if_neg (offered_not_head h), if_neg (Nat.not_le.mpr ha), offered_of_unaddressed a hs,
    if_neg (ne_true_of_eq_false hs)]

end

/-! Heartbeats (R241, R456). -/

/-- Peer p is heard in this management tick. -/
def State.noteHeard (u : State) (p : Nat) : State :=
  let u := if u.chain.heard.contains p then u else { u with chain := { u.chain with heard := u.chain.heard ++ [p] } }
  { u with chain := { u.chain with missed := mapSet 0 u.chain.missed p 0 } }

/-- A heartbeat from address 0 that shows two heads. -/
def State.hearsTwoHeads (u : State) (f : ChainFrame) : Bool :=
  f.src == 0 && (u.chain.heard.contains 0 || (u.addressed && u.chipId == 0))

theorem hear_of_unaddressed {f : ChainFrame} (u : State) (h : f.unaddressed = true) : hear u f = u := if_pos h

theorem hear_of_running {u : State} {f : ChainFrame} (h : f.unaddressed = false)
    (hsafe : bitOf (leAt f.payload 4 1) 0 = false) :
    hear u f = (if u.hearsTwoHeads f then detectChainError u true else u).noteHeard f.src := by
  rw [hear, if_neg (ne_true_of_eq_false h)]
  exact if_neg (ne_true_of_eq_false hsafe)

theorem noteHeard_eq (u : State) (p : Nat) : u.noteHeard p = { u with chain := { u.chain with
    heard := (u.noteHeard p).chain.heard, missed := (u.noteHeard p).chain.missed } } := by
  unfold State.noteHeard
  split <;> rfl

theorem noteHeard_heard (u : State) (p : Nat) : p ∈ (u.noteHeard p).chain.heard := by
  unfold State.noteHeard
  split
  · next h => exact List.contains_iff_mem.mp h
  · exact List.mem_append_right _ List.mem_cons_self

theorem noteHeard_missed (u : State) (p : Nat) : mapGet 0 (u.noteHeard p).chain.missed p = 0 := by
  unfold State.noteHeard
  exact mapGet_mapSet_self (0 : Nat) _ p 0

theorem Detects.noteHeard {s x t : State} {heads : Bool} (h : Detects s heads x t) (p : Nat) :
    Detects s heads x (t.noteHeard p) := by
  rw [noteHeard_eq]
  exact h

/-! Delay replies (R50). -/

/-- TIME_NOW set to tick t, forward as a step forward, otherwise back. -/
def State.timeSet (s : State) (t : Nat) : State :=
  if s.now < t then correctTime (forUpTo 16 (fun n u => skipEdges u t n) s) t
  else if t = s.now then s
  else s.movedBack t

theorem setTime_eq (s : State) (t256 : Nat) : setTime s t256 = { s.timeSet (t256 / 256) with
    time := { (s.timeSet (t256 / 256)).time with phase := t256 % 256 * 2 ^ 32 } } := rfl

theorem timeSet_now {s : State} {t : Nat} (h : t < 2 ^ 64) : (s.timeSet t).now = t := by
  unfold State.timeSet
  split
  · exact Nat.mod_eq_of_lt h
  · split
    · next he => exact he.symm
    · rw [movedBack_eq]
      rfl

theorem timeSet_delays (s : State) (t : Nat) : (s.timeSet t).time.delays = s.time.delays := by
  unfold State.timeSet
  split
  · have h := (skippedTo_forUpTo s t (Nat.le_refl 16)).frame
    generalize forUpTo 16 (fun n u => skipEdges u t n) s = u at h ⊢
    rw [h]
    rfl
  · split
    · rfl
    · rw [movedBack_eq]

theorem timeSet_regs (s : State) (t : Nat) : SameRegsBut stepRegs s (s.timeSet t) := by
  unfold State.timeSet
  split
  · have h := (skippedTo_forUpTo s t (Nat.le_refl 16)).regs
    generalize forUpTo 16 (fun n u => skipEdges u t n) s = u at h ⊢
    exact h
  · split
    · exact SameRegsBut.refl
    · rw [movedBack_eq]
      exact fun _ _ => rfl

theorem setTime_regs (s : State) (t256 : Nat) : SameRegsBut stepRegs s (setTime s t256) := fun a ha => by
  rw [setTime_eq, reg_withTime, timeSet_regs s _ a ha]

theorem setTime_now {s : State} {t256 : Nat} (h : t256 / 256 < 2 ^ 64) : (setTime s t256).now = t256 / 256 :=
  timeSet_now h

theorem setTime_delays (s : State) (t256 : Nat) : (setTime s t256).time.delays = s.time.delays := timeSet_delays s _

theorem setTime_phase (s : State) (t256 : Nat) : (setTime s t256).time.phase = t256 % 256 * 2 ^ 32 := rfl

/-- TIME_NOW and the hop's delay corrected by the 256th reply. -/
def State.corrected (s : State) (delay t256 : Nat) : State :=
  setTime (State.setReg { s with time := { s.time with delays := [] } } Reg.timeChainDelay (BitVec.ofNat 32 delay)) t256

/-- The chip shows that it is aligned. -/
def State.aligned (u : State) : State :=
  let u := u.setBit Reg.timeStatus 1 true
  { u with time := { u.time with lastDelay := u.tickNumber } }

theorem takeReply_of_few {s : State} {sent received up : Nat}
    (h : (s.time.delays ++ [128 * ((received : Int) - sent)]).length < 256) : takeReply s sent received up =
      { s with time := { s.time with delays := s.time.delays ++ [128 * ((received : Int) - sent)] } } := if_pos h

theorem takeReply_of_last {s : State} {sent received up : Nat} {xs : List Int}
    (hxs : xs = s.time.delays ++ [128 * ((received : Int) - sent)]) (h : 256 ≤ xs.length) :
    takeReply s sent received up = (s.corrected (xs.foldl (· + ·) 0 / 256).toNat
      (256 * up + (xs.foldl (· + ·) 0 / 256).toNat)).aligned := by
  subst hxs
  exact if_neg (Nat.not_lt.mpr h)

theorem aligned_time (u : State) : u.aligned.time = { u.time with lastDelay := u.aligned.time.lastDelay } := by
  have h : (u.setBit Reg.timeStatus 1 true).time = u.time := State.setBit_time u _ _ _
  unfold State.aligned
  dsimp only
  rw [h]

theorem aligned_bit (u : State) : u.aligned.bit Reg.timeStatus 1 = true := by
  rw [State.aligned, State.bit, reg_withTime, ← State.bit, State.bit_setBit_self _ _ _ (by decide)]

theorem aligned_reg_ne (u : State) {a : Nat} (h : a ≠ Reg.timeStatus) : u.aligned.reg a = u.reg a := by
  rw [State.aligned, reg_withTime, State.reg_setBit_ne _ _ _ h]

theorem corrected_delays (s : State) (delay t256 : Nat) : (s.corrected delay t256).time.delays = [] := by
  rw [State.corrected, setTime_delays, State.setReg_time]

theorem corrected_chainDelay (s : State) (delay t256 : Nat) :
    (s.corrected delay t256).reg Reg.timeChainDelay = BitVec.ofNat 32 delay := by
  rw [State.corrected, setTime_regs _ _ _ (by decide), State.reg_setReg_self]

/-- What the 256th reply leaves. -/
theorem aligned_corrected (s : State) {delay t256 : Nat} (h : t256 / 256 < 2 ^ 64) :
    let t := (s.corrected delay t256).aligned
    t.time.delays = [] ∧ t.now = t256 / 256 ∧ t.time.phase = t256 % 256 * 2 ^ 32 ∧ t.bit Reg.timeStatus 1 = true ∧
      t.reg Reg.timeChainDelay = BitVec.ofNat 32 delay := by
  have hdelays := corrected_delays s delay t256
  have hnow : (s.corrected delay t256).now = t256 / 256 := setTime_now h
  have hphase : (s.corrected delay t256).time.phase = t256 % 256 * 2 ^ 32 := setTime_phase _ _
  have hreg := corrected_chainDelay s delay t256
  generalize s.corrected delay t256 = u at hdelays hnow hphase hreg ⊢
  refine ⟨?_, ?_, ?_, aligned_bit u, ?_⟩
  · rw [aligned_time, hdelays]
  · rw [State.now, aligned_time]
    exact hnow
  · rw [aligned_time, hphase]
  · rw [aligned_reg_ne u (by decide), hreg]

/-! Reports, notices and messages (R241, R242, R458). -/

theorem headReport_noted (u : State) (p : Nat) : p ∈ (headReport u p).chain.reports ∨
    p ∈ (headReport u p).chain.noticed ∨ u.bit (Reg.drovePeer p) 2 = true := by
  unfold headReport
  split
  · next h => simpa using h
  · exact .inl (List.mem_append_right _ List.mem_cons_self)

theorem headReport_regs (u : State) (p : Nat) : SameRegsBut [] u (headReport u p) := by
  unfold headReport
  split <;> exact fun _ _ => rfl

theorem takeNotice_of_other {u : State} {p : Nat} (h : p ≠ u.chipId) : takeNotice u p = fenceDue u p := if_neg h

theorem queueMgmt_of_room {u : State} {f : ChainFrame} (h : u.chain.queue.length < 16) : queueMgmt u f =
    State.setBits { u with chain := { u.chain with queue := u.chain.queue ++ [(f.src, slice f.payload 0 64)] } }
      Reg.reeveChainStatus 4 0 (u.chain.queue.length + 1) := by
  rw [queueMgmt, if_neg (Nat.not_le.mpr h)]
  dsimp only
  rw [List.length_append, List.length_singleton]

theorem queueMgmt_of_full {u : State} {f : ChainFrame} (h : 16 ≤ u.chain.queue.length) : queueMgmt u f =
    (u.addSat Reg.reeveChainCnt 31 16).raise { code := 0x000F, cls := 0 } := if_pos h

/-- A message that finds room is queued, and the queue's length is shown. -/
theorem queueMgmt_queued {u : State} {f : ChainFrame} (h : u.chain.queue.length < 16) :
    (queueMgmt u f).chain.queue = u.chain.queue ++ [(f.src, slice f.payload 0 64)] ∧
      (queueMgmt u f).bits Reg.reeveChainStatus 4 0 = u.chain.queue.length + 1 ∧
      SameRegsBut [Reg.reeveChainStatus] u (queueMgmt u f) := by
  rw [queueMgmt_of_room h]
  refine ⟨?_, ?_, fun b hb => ?_⟩
  · rw [State.setBits_chain]
  · rw [State.bits_setBits_self _ _ _ _ (by decide)]
    exact Nat.mod_eq_of_lt (Nat.lt_of_lt_of_le (Nat.succ_lt_succ h) (by decide))
  · rw [State.reg_setBits_ne _ _ _ _ (List.ne_of_not_mem_cons hb), reg_withChain]

/-- A message that finds the queue full is counted and recorded. -/
theorem queueMgmt_dropped {u : State} {f : ChainFrame} (h : 16 ≤ u.chain.queue.length) :
    (queueMgmt u f).chain = u.chain ∧
      (queueMgmt u f).bits Reg.reeveChainCnt 31 16 = min (u.bits Reg.reeveChainCnt 31 16 + 1) 65535 ∧
      SameRegsBut [Reg.reeveChainCnt] u (queueMgmt u f) ∧
      (queueMgmt u f).island.net = u.island.net ++ [{ code := 0x000F, cls := 0 }] := by
  rw [queueMgmt_of_full h]
  refine ⟨?_, ?_, fun b hb => ?_, ?_⟩
  · rw [State.raise_chain, State.addSat_chain]
  · rw [State.raise_bits, State.bits_addSat_self _ _ _ _ (by decide)]
    rfl
  · rw [State.raise_reg, State.reg_addSat_ne _ _ _ _ (List.ne_of_not_mem_cons hb)]
  · rw [State.raise_net, State.addSat_island]

/-- A received CHAIN_ERR sets one of the two flags (log 24). -/
theorem setChainErr_flag (u : State) (heads : Bool) :
    (u.setBit Reg.reeveChain (if heads then 29 else 30) true).bit Reg.reeveChain 29 = true ∨
      (u.setBit Reg.reeveChain (if heads then 29 else 30) true).bit Reg.reeveChain 30 = true := by
  cases heads with
  | true => exact .inl (State.bit_setBit_self _ _ _ (by decide))
  | false => exact .inr (State.bit_setBit_self _ _ _ (by decide))

end Sys2Proof.Machine
end

section
/-! The statements of 02_clocks_and_time.md. -/

open Sys2Proof Sys2Proof.Machine

/-- Settles O56: an empty queue's cycle is a run of one cycle. -/
theorem stepsTakeTheFrontCommandOrIdle : Obligations.StepsTakeTheFrontCommandOrIdle := by
  refine ⟨fun s c rest h => by rw [step, h], fun s h => ⟨runCycles s 1, by rw [step, h], runCycles_eq s 1,
    fun hp => runCycles_of_porst hp 1, fun hp => ?_⟩⟩
  have hnow := runCycles_now hp 1
  have hphase := runCycles_phase hp 1
  rw [Nat.cast_one, Int.one_mul] at hnow hphase
  exact ⟨hnow, hphase⟩

/-- Settles O5: the clamp, and a run of n cycles. -/
theorem rateCorrectionClampsAndCarries : Obligations.RateCorrectionClampsAndCarries := by
  intro s
  refine ⟨fun hh value => ?_, fun hp n => ⟨runCycles_now hp n, runCycles_phase hp n, runCycles_eq s n⟩⟩
  refine yields_of_live (u := writeRate s value) rfl hh ⟨writeRate_rate s value, rfl, ?_, rfl⟩
  exact SameRegsBut.refl.setReg List.mem_cons_self

/-- Settles O7: an edge fires at its tick after a run of the clock to it, and so does a pulse's end. -/
theorem fsyncEdgesFollowTheirSchedule : Obligations.FsyncEdgesFollowTheirSchedule := by
  intro s n hh hn e w
  have hfire : exec (.fsyncEdge n) s = live s (fireEdge s n) := congrArg (live s) (withUnit_of hn s _)
  have hend : exec (.fsyncPulseEnd n) s = live s (endPulse s n) := congrArg (live s) (withUnit_of hn s _)
  refine ⟨fun hon => ?_, fun hoff => ?_, fun hhigh => ?_, fun hlow => ?_, fun port tick hp => ?_⟩
  · rw [fireEdge_of_on hon] at hfire
    refine yields_of_live hfire hh ⟨?_, fun k hk => ?_, rfl, ?_⟩
    · refine (pulseEdge_fsync _ n).trans ?_
      rw [runUntil_fsyncNext, runUntil_bits]
    · exact (pulseEdge_fsync_ne _ hk).trans (runUntil_fsync s e k)
    · rw [pulseEdge_eq, runUntil_fsyncNext, runUntil_eq]
      rfl
  · rw [fireEdge_of_off hoff] at hfire
    exact answers_of_live hfire hh
  · rw [endPulse_of_high hhigh] at hend
    refine yields_of_live hend hh ⟨?_, fun k hk => ?_, rfl, ?_⟩
    · exact (fsync_setFsync _ n n _).trans (if_pos rfl)
    · exact ((fsync_setFsync _ n k _).trans (if_neg hk)).trans (runUntil_fsync s _ k)
    · rw [runUntil_eq]
      rfl
  · rw [endPulse_of_low hlow] at hend
    exact answers_of_live hend hh
  · exact answers_of_live (congrArg (live s) (withUnit_of hp s _)) hh

/-- Settles O6: a forward step by its passage over the sixteen outputs, a backward one by what it holds. -/
theorem timeStepsAndAlignmentLoss : Obligations.TimeStepsAndAlignmentLoss := by
  refine ⟨fun s hh => ?_, fun s hh => ⟨fun ha => ?_, fun ha => ?_⟩⟩
  · intro d blocked due fired skipped late
    have hp := porst_of_not_held hh
    have hx : exec .timeStep s = live s (stepTime s d) := rfl
    refine ⟨fun hd => ?_, fun hd => ?_, fun hd hb => ?_, fun hd hb => ?_⟩
    · rw [hd, stepTime_zero] at hx
      exact answers_of_live hx hh
    · rw [stepTime_forward hp hd] at hx
      have h := skippedTo_forUpTo s (s.now + d.toNat) (Nat.le_refl 16)
      generalize forUpTo 16 (fun n u => skipEdges u (s.now + d.toNat) n) s = u at h hx
      refine yields_of_live hx hh ⟨rfl, h.count, fun n hn => ⟨h.late_of_lt hn, h.passed n hn⟩, h.regs, ?_⟩
      rw [h.correctTime_frame]
      rfl
    · rw [stepTime_blocked hp hd hb] at hx
      refine yields_of_live hx hh ⟨State.bit_setBit_self _ _ _ (by decide), ?_, rfl⟩
      exact SameRegsBut.refl.setBit List.mem_cons_self
    · rw [stepTime_backward hp hd hb, movedBack_eq] at hx
      exact yields_of_live hx hh ⟨rfl, rfl⟩
  · have hx := chainAlignTimeout_of_aligned ha
    exact alignmentLost_yields hx hh
  · exact answers_of_live (congrArg (live s) (if_neg (ne_true_of_eq_false ha))) hh

/-- Settles O3: each release by the start that it begins or the wait that it leaves. -/
theorem releasesStartTheDevice : Obligations.ReleasesStartTheDevice := by
  intro s env sampled accepted checks cold warm
  have haccepted : accepted = s.acceptsImage := rfl
  have hlock : exec .pllLock s = always s (pllLock s) := rfl
  have hwarm : exec (.warmRelease env) s = always s (releaseWarm s env) := rfl
  refine ⟨fun h => ?_, fun hp hv => ⟨fun hw => ?_, fun hw hl => ?_, fun hw hl => ?_⟩, fun hp hn => ?_,
    fun hp hs => ⟨fun hw => ?_, fun hw => ?_⟩, fun hp => ?_, fun hw => ?_, fun hw hp => ?_,
    fun hw hp hc => ⟨fun hl => ?_, fun hl => ?_⟩, fun hw hp hc => ⟨fun hl => ?_, fun hk hl => ?_⟩⟩
  · exact answers_of_always (congrArg (always s) (releasePorst_of_out h))
  · refine yields_of_always (porstRelease_of_warm hp hv hw) ⟨frame_withPins (coldStartDue_eq s env), ?_⟩
    simp only [State.withQueue_bit, sameRegsBut_withQueue]
    exact ⟨coldStartDue_head s env, coldStartDue_regs s env⟩
  · refine yields_of_always (porstRelease_of_unlocked hp hv hw hl)
      ⟨frame_withPins_withBoot (coldStartWaits_eq s env), ?_⟩
    simp only [State.withQueue_bit, State.withQueue_bits, sameRegsBut_withQueue]
    exact ⟨coldStartWaits_head s env, coldStartWaits_step s env, coldStartWaits_regs s env⟩
  · obtain ⟨u, hu, hx⟩ := porstRelease_of_locks hp hv hw hl
    exact yields_of_cold haccepted hx hu
  · rw [pllLock_of_idle hp hn] at hlock
    cases hk : s.pins.pllLocked with
    | true =>
      rw [if_pos hk] at hlock
      refine yields_of_always hlock ⟨frame_withPins (relock_eq s hk), ?_⟩
      simp only [State.withQueue_bit, sameRegsBut_withQueue]
      exact ⟨relock_lock s, fun h => Bool.noConfusion h, fun _ => relock_reference s, relock_regs s⟩
    | false =>
      rw [if_neg (ne_true_of_eq_false hk)] at hlock
      refine yields_of_always hlock ⟨frame_withPins (lockPll_eq s), ?_⟩
      simp only [State.withQueue_bit, sameRegsBut_withQueue]
      exact ⟨lockPll_lock s, fun _ => lockPll_reference s, fun h => Bool.noConfusion h, lockPll_regs s⟩
  · rw [pllLock_of_waiting hp hs, if_neg (ne_true_of_eq_false hw)] at hlock
    exact yields_of_cold haccepted hlock (startGoesOn_sameImages s)
  · rw [pllLock_of_waiting hp hs, if_pos hw] at hlock
    exact yields_of_warm haccepted hlock (startGoesOn_sameImages s) (startGoesOn_reasons s env)
  · rw [pllLock_of_porst hp] at hlock
    exact answers_of_always hlock
  · rw [releaseWarm_of_high hw] at hwarm
    exact answers_of_always hwarm
  · rw [releaseWarm_eq hw, if_pos hp] at hwarm
    exact answers_of_always hwarm
  · rw [releaseWarm_of_low hw hp, if_pos hc, startCold_of_locks _ hl] at hwarm
    exact yields_of_cold haccepted hwarm ((warmHigh_sameImages s).withPins _).lockPll
  · rw [releaseWarm_of_low hw hp, if_pos hc, startCold_of_unlocked _ hl] at hwarm
    refine yields_of_always hwarm ⟨frame_withPins_withBoot (waitsForLock_eq _ env), ?_⟩
    simp only [State.withQueue_bits, sameRegsBut_withQueue]
    exact ⟨waitsForLock_step _ env, fun a ha => waitsForLock_reg_ne _ env (List.ne_of_not_mem_cons ha)⟩
  · rw [releaseWarm_of_low hw hp, if_neg (ne_true_of_eq_false hc)] at hwarm
    obtain ⟨u, hu, hr, he⟩ := beginWarm_of_lock (s := s.warmHigh) hl
    rw [he] at hwarm
    exact yields_of_warm haccepted hwarm ((warmHigh_sameImages s).trans hu) hr
  · rw [releaseWarm_of_low hw hp, if_neg (ne_true_of_eq_false hc),
      beginWarm_of_unlocked (s := s.warmHigh) hk hl] at hwarm
    refine yields_of_always hwarm ⟨frame_withPins_withBoot (warmStartWaits_eq _ env), ?_⟩
    simp only [State.withQueue_bits, sameRegsBut_withQueue]
    exact ⟨warmStartWaits_step _ env, fun a ha => warmStartWaits_reg_ne _ env (List.ne_of_not_mem_cons ha)⟩

/-- Settles O4: each pin's command by its case of the held device, each test-port instruction by its outcome. -/
theorem monitorAndTestPinsAct : Obligations.MonitorAndTestPinsAct := by
  refine ⟨fun s => ⟨rfl, rfl, fun h => ?_, ?_, fun hp => ⟨?_, ?_, ?_, ?_, ?_⟩,
    fun hp => ⟨?_, fun hk => ?_, ?_, ?_, ?_, fun hr => ?_, fun hr => ?_⟩⟩,
    fun s => ⟨rfl, rfl, fun scan => ?_, fun hp => ?_, fun hp => ?_⟩⟩
  · exact answers_of_always (congrArg (always s) (if_neg (ne_true_of_eq_false h)))
  · have hx : exec .safeReqRelease s = always s
        (State.setBit { s with pins := { s.pins with safeReq := false } } Reg.safeStatus 5 false) := rfl
    refine yields_of_always hx ⟨?_, ?_, ?_⟩
    · rw [State.withQueue_bit, State.bit_setBit_self _ _ _ (by decide)]
    · intro a ha
      rw [State.withQueue_reg, State.reg_setBit_ne _ _ _ (List.ne_of_not_mem_cons ha), reg_withPins]
    · rfl
  · exact answers_of_always (congrArg (always s) (if_pos hp))
  · exact answers_of_always (congrArg (always s) (if_pos hp))
  · exact answers_of_always (congrArg (always s) (tripMonitor_of_porst hp _))
  · exact answers_of_always (congrArg (always s) (tripMonitor_of_porst hp _))
  · have hx := safeReqAssert_eq s
    rw [hp, Bool.true_or, if_pos rfl] at hx
    exact answers_of_always hx
  · exact yields_of_clockFault (by decide) (by decide) (by decide)
      (congrArg (always s) (if_neg (ne_true_of_eq_false hp)))
  · exact yields_of_clockFault (by decide) (by decide) (by decide) (congrArg (always s) (if_pos hk))
  · have hx : exec .referenceInRange s = always s (s.setBit Reg.clkStatus 3 true) :=
      congrArg (always s) (if_neg (ne_true_of_eq_false hp))
    refine yields_of_always hx ⟨?_, ?_, rfl⟩
    · rw [State.withQueue_bit, State.bit_setBit_self _ _ _ (by decide)]
    · exact (sameRegsBut_withQueue _ _ _ _).mpr (SameRegsBut.refl.setBit List.mem_cons_self)
  · exact answers_of_always (congrArg (always s) (tripMonitor_of_out hp _))
  · exact answers_of_always (congrArg (always s) (tripMonitor_of_out hp _))
  · have hx := safeReqAssert_eq s
    rw [hp, hr, Bool.or_self, if_neg Bool.false_ne_true] at hx
    refine yields_of_always hx ⟨?_, ?_, rfl⟩
    · rw [State.withQueue_bit, State.raise_bit, State.bit_setBit_self _ _ _ (by decide)]
    · intro a ha
      rw [State.withQueue_reg, State.raise_reg, State.reg_setBit_ne _ _ _ (List.ne_of_not_mem_cons ha), State.safeReqLow,
        reg_withPins]
  · have hx := safeReqAssert_eq s
    rw [hr, Bool.or_true, if_pos rfl, safeReqLow_of_low hr] at hx
    exact answers_of_always hx
  · refine ⟨(setTap s 2).sampleCells scan.levels, sampleCells_length _ _, fun k hk => ?_, rfl⟩
    rw [sampleCells_getElem _ _ hk, setTap_ballLevel]
  · exact answers_of_always (congrArg (always s) (if_pos hp))
  · exact answers_of_always (congrArg (always s) (if_neg (ne_true_of_eq_false hp)))

/-- Settles O50: each frame by its way through chainReceive, and at its destination by its message's lemma. -/
theorem chainFramesArriveAndAct : Obligations.ChainFramesArriveAndAct := by
  intro s f tick sent received up hh link u a w v detects good commands
  have hw : w = u.offered a := by
    simp only [w, State.offered, u, forward_addressed, forward_chipId, Bool.and_eq_true, bne_iff_ne, ne_eq]
  have hv : v = u.offeredOn a := by
    simp only [v, hw]
    rfl
  refine ⟨fun x hx => ?_, forward_of_linkLocal s, fun hl hb hup => forward_of_broadcast hl hb hup, fun hm => ?_⟩
  · have hact : ∃ act, exec x.2 s = live s (chainReceive s f x.1 act) := by
      simp only [commands, List.mem_cons, List.not_mem_nil, or_false] at hx
      rcases hx with rfl | rfl | rfl | rfl | rfl | rfl | rfl | rfl | rfl <;> exact ⟨_, rfl⟩
    obtain ⟨act, hx⟩ := hact
    refine ⟨fun hl => ?_, fun hl hc => ?_, fun hl hc ht => ?_, fun ⟨hl, hc, ht⟩ hm => ?_⟩
    · rw [chainReceive_of_down hl] at hx
      exact answers_of_live hx hh
    · rw [chainReceive_of_bad_crc hl hc] at hx
      refine yields_of_live hx hh ⟨?_, ?_, rfl⟩
      · rw [State.withQueue_bits, State.raise_bits, State.bits_addSat_self _ _ _ _ (by decide)]
        rfl
      · exact SameRegsBut.refl.addSat List.mem_cons_self
    · rw [chainReceive_of_other_type hl hc ht] at hx
      exact answers_of_live hx hh
    · rw [chainReceive_of_other_chip hl hc ht hm] at hx
      exact answers_of_live hx hh
  · have hmine {k : Nat} (act : State → State) (h : good k) : live s (chainReceive s f k act) = live s (act u) := by
      obtain ⟨hl, hc, ht⟩ := h
      exact congrArg (live s) (chainReceive_of_mine hl hc ht hm)
    have hpending : u.pending = s.pending := by unfold u; rw [forward_eq]
    have hpins : u.pins = s.pins := forward_pins s f
    have hhead' {b : Bool} (h : s.pins.chainHead = b) : u.pins.chainHead = b := by rw [hpins, h]
    have hchain : u.chain = s.chain := forward_chain s f
    have htime : u.time = s.time := forward_time s f
    have hisland : u.island = s.island := forward_island s f
    have haddressed : u.addressed = s.addressed := forward_addressed s f
    have hid : u.chipId = s.chipId := forward_chipId s f
    have hbits (a msb lsb : Nat) : u.bits a msb lsb = s.bits a msb lsb := forward_bits s f a msb lsb
    have hbit (a i : Nat) : u.bit a i = s.bit a i := forward_bit s f a i
    have hregs (as : List Nat) : SameRegsBut as s u := forward_regs s f as
    have haddr (h : good 1) (hup : f.fromUp = true) : exec (.chainAddrRx f) s = live s (takeAddr u a) :=
      (hmine _ h).trans (congrArg (live s) (if_pos hup))
    clear_value u
    rw [hw, hv]
    clear_value w v
    clear hw hv
    refine ⟨fun h hup hhead => ⟨fun hd => ?_, fun hd => ?_⟩, fun h hup => ?_,
      fun h hup hhead ha => ⟨fun hd => ?_, fun hd => ?_⟩, fun h hup hhead hs ha => ?_, fun h hup hhead hs ha => ?_,
      fun h hs => ?_, fun h hs hsrc htwo hd hsafe => ?_, fun h hs hsrc hsafe => ?_, fun h => ?_, fun h hend => ?_,
      fun h hup hhead => ?_, fun h hother => ?_, fun h hs hzero => ?_, fun h hp => ?_, fun h => ?_, fun h => ?_,
      fun h hroom => ?_, fun h hfull => ?_⟩
    · have hx := haddr h hup
      rw [takeAddr_of_head (hhead' hhead), detectChainError_of_old (by rwa [offered_chain, hchain])] at hx
      exact answers_of_live hx hh
    · have hx := haddr h hup
      rw [takeAddr_of_head (hhead' hhead)] at hx
      exact yields_of_live hx hh ((detects_withQueue _ _ _ _ _).mpr
        (detectChainError_of_new ((hregs _).trans (offered_regs u a)) (by rwa [offered_chain, hchain])))
    · exact answers_of_live ((hmine _ h).trans (congrArg (live s) (if_neg (ne_true_of_eq_false hup)))) hh
    · have hx := haddr h hup
      rw [takeAddr_of_too_many (hhead' hhead) ha, detectChainError_of_old (by rwa [offeredOn_chain, hchain])] at hx
      exact answers_of_live hx hh
    · have hx := haddr h hup
      rw [takeAddr_of_too_many (hhead' hhead) ha] at hx
      exact yields_of_live hx hh ((detects_withQueue _ _ _ _ _).mpr
        (detectChainError_of_new ((hregs _).trans (offeredOn_regs u a)) (by rwa [offeredOn_chain, hchain])))
    · have hx := haddr h hup
      rw [takeAddr_of_addressed (hhead' hhead) ha (haddressed.trans hs)] at hx
      exact answers_of_live hx hh
    · have hx := haddr h hup
      rw [takeAddr_of_unaddressed (hhead' hhead) ha (haddressed.trans hs)] at hx
      exact yields_of_live hx hh ⟨(State.withQueue_bit _ _ _ _).trans (takeAddress_addressed u a),
        (State.withQueue_bits _ _ _ _ _).trans (takeAddress_chipId u ha), takeAddress_step6 u a,
        (sameRegsBut_withQueue _ _ _ _).mpr ((hregs _).trans (takeAddress_regs u a))⟩
    · exact answers_of_live ((hmine _ h).trans (congrArg (live s) (hear_of_unaddressed u hs))) hh
    · have hx : exec (.chainHeartbeatRx f) s = live s (hear u f) := hmine _ h
      have htwice : u.hearsTwoHeads f = true := by
        rw [State.hearsTwoHeads, hchain, haddressed, hid]
        simpa [hsrc] using htwo
      rw [hear_of_running hs hsafe, if_pos htwice] at hx
      exact yields_of_live hx hh ((detects_withQueue _ _ _ _ _).mpr
        ((detectChainError_of_new (hregs _) (by rwa [hchain])).noteHeard f.src))
    · have hx : exec (.chainHeartbeatRx f) s = live s (hear u f) := hmine _ h
      have honce : u.hearsTwoHeads f = false := by
        rw [State.hearsTwoHeads, beq_eq_false_iff_ne.mpr hsrc, Bool.false_and]
      rw [hear_of_running hs hsafe, if_neg (ne_true_of_eq_false honce)] at hx
      refine yields_of_live hx hh ⟨noteHeard_heard u f.src, noteHeard_missed u f.src, ?_⟩
      rw [← hpending, noteHeard_eq]
      rfl
    · have hx : exec (.chainDelayProbeRx f tick) s = live s (if f.fromUp then u else answerProbe u tick) := hmine _ h
      rw [answerProbe, State.now, htime] at hx
      exact answers_of_live hx hh
    · refine answers_of_live ((hmine _ h).trans (congrArg (live s) (if_neg ?_))) hh
      rw [hpins]
      rcases hend with hend | hend <;> simp [hend]
    · have hx : exec (.chainDelayReplyRx f sent received up) s = live s (takeReply u sent received up) :=
        (hmine _ h).trans (congrArg (live s) (if_pos (by rw [hup, hpins, hhead]; rfl)))
      intro xs delay
      have hxs : xs = u.time.delays ++ [128 * ((received : Int) - sent)] := by rw [htime]
      refine ⟨fun hlen => ?_, fun hlen hlt => ?_⟩
      · rw [hxs] at hlen
        rw [takeReply_of_few hlen, ← hxs] at hx
        exact answers_of_live hx hh
      · rw [takeReply_of_last hxs hlen] at hx
        exact yields_of_live hx hh (aligned_corrected u hlt)
    · refine answers_of_live ((hmine _ h).trans (congrArg (live s) (if_neg ?_))) hh
      rw [haddressed, hid]
      rcases hother with hother | hother <;> simp [hother]
    · have hx : exec (.chainFenceReportRx f) s = live s (headReport u (leAt f.payload 0 1 % 16)) :=
        (hmine _ h).trans (congrArg (live s) (if_pos (by rw [haddressed, hid, hs, hzero]; rfl)))
      have hnoted := headReport_noted u (leAt f.payload 0 1 % 16)
      rw [hbit] at hnoted
      exact yields_of_live hx hh ⟨hnoted, (hregs _).trans (headReport_regs u _)⟩
    · exact answers_of_live ((hmine _ h).trans (congrArg (live s) (takeNotice_of_other (by rwa [hid])))) hh
    · exact answers_of_live (hmine _ h) hh
    · have hx : exec (.chainErrRx f) s = live s
          (u.setBit Reg.reeveChain (if Config.chainErrorHeads f.payload then 29 else 30) true) := hmine _ h
      refine yields_of_live hx hh ⟨?_, (sameRegsBut_withQueue _ _ _ _).mpr ((hregs _).setBit List.mem_cons_self), ?_⟩
      · simp only [State.withQueue_bit]
        exact setChainErr_flag u _
      · rw [← hpending]
        rfl
    · have hx : exec (.chainMgmtRx f) s = live s (queueMgmt u f) := hmine _ h
      obtain ⟨hqueue, hlength, hstatus⟩ := queueMgmt_queued (u := u) (f := f) (by rwa [hchain])
      rw [hchain] at hqueue hlength
      generalize queueMgmt u f = t at hx hqueue hlength hstatus
      exact yields_of_live hx hh ⟨hqueue, hlength, (hregs _).trans hstatus⟩
    · have hx : exec (.chainMgmtRx f) s = live s (queueMgmt u f) := hmine _ h
      obtain ⟨hkept, hcount, hcnt, hnet⟩ := queueMgmt_dropped (u := u) (f := f) (by rwa [hchain])
      rw [hchain] at hkept
      rw [hbits] at hcount
      rw [hisland] at hnet
      generalize queueMgmt u f = t at hx hkept hcount hcnt hnet
      exact yields_of_live hx hh ⟨hkept, hcount, (hregs _).trans hcnt, hnet⟩
end

section
/-! SUPPORT. REDUCE over integers (R97): the lanes and the pairwise rounds compute one fold over the row. -/

namespace Sys2Proof.Machine

/-! Folds of an associative, commutative operation. -/

section
variable {α : Type} {op : α → α → α} {e : α}

/-- Lanes that all start from e fold to what one fold over their elements gives, where e leaves the start b. -/
theorem foldl_map_foldl [Std.Associative op] [Std.Commutative op] {b : α} (hb : op e b = b)
    (ls : List (List α)) : (ls.map (List.foldl op e)).foldl op b = ls.flatten.foldl op b := by
  induction ls generalizing b with
  | nil => rfl
  | cons l ls ih =>
    have hstart : op b (l.foldl op e) = l.foldl op b := by
      rw [← List.foldl_assoc (op := op), Std.Commutative.comm (op := op) b e, hb]
    have hkept : op e (l.foldl op b) = l.foldl op b := by rw [← List.foldl_assoc (op := op), hb]
    rw [List.map_cons, List.foldl_cons, hstart, ih hkept, List.flatten_cons, List.foldl_append]

/-- Sorting elements into n classes takes each element of a class below n once. -/
theorem flatMap_filter_perm (n : Nat) (cls : α → Nat) (xs : List α) :
    ((List.range n).flatMap fun i => xs.filter (cls · == i)).Perm (xs.filter (cls · < n)) := by
  induction n with
  | zero => simp
  | succ n ih =>
    have hlow : (xs.filter (cls · < n + 1)).filter (cls · < n) = xs.filter (cls · < n) := by
      rw [List.filter_filter]
      exact List.filter_congr fun x _ => by grind
    have hlast : (xs.filter (cls · < n + 1)).filter (fun x => !decide (cls x < n)) = xs.filter (cls · == n) := by
      rw [List.filter_filter]
      exact List.filter_congr fun x _ => by grind
    have hsplit := List.filter_append_perm (fun x => decide (cls x < n)) (xs.filter (cls · < n + 1))
    rw [hlow, hlast] at hsplit
    rw [List.range_succ, List.flatMap_append, List.flatMap_singleton]
    exact (ih.append_right _).trans hsplit

/-- One round of combining neighbours. -/
def pairUp (op : α → α → α) : List α → List α
  | [] => []
  | [x] => [x]
  | x :: y :: l => op x y :: pairUp op l

theorem length_pairUp : ∀ xs : List α, (pairUp op xs).length = (xs.length + 1) / 2
  | [] => by simp [pairUp]
  | [x] => by simp [pairUp]
  | x :: y :: l => by rw [pairUp, List.length_cons, length_pairUp l, List.length_cons, List.length_cons]; omega

theorem foldl_pairUp [Std.Associative op] : ∀ (xs : List α) (a : α), (pairUp op xs).foldl op a = xs.foldl op a
  | [], a => by rw [pairUp]
  | [x], a => by rw [pairUp]
  | x :: y :: l, a => by
    rw [pairUp, List.foldl_cons, foldl_pairUp l, List.foldl_cons, List.foldl_cons, Std.Associative.assoc (op := op)]

/-- What e leaves, it leaves after a round. -/
theorem pairUp_absorbs [Std.Associative op] :
    ∀ {xs : List α}, (∀ x ∈ xs, op e x = x) → ∀ x ∈ pairUp op xs, op e x = x
  | [], h => by rwa [pairUp]
  | [x], h => by rwa [pairUp]
  | x :: y :: l, h => by
    rw [pairUp]
    intro z hz
    rcases List.mem_cons.mp hz with rfl | hz
    · rw [← Std.Associative.assoc (op := op), h x List.mem_cons_self]
    · exact pairUp_absorbs (fun w hw => h w (List.mem_cons_of_mem _ (List.mem_cons_of_mem _ hw))) z hz

/-- k rounds over 2^k values that e leaves end with their fold. -/
theorem iterate_pairUp [Std.Associative op] (k : Nat) {xs : List α} (hl : xs.length = 2 ^ k)
    (h : ∀ x ∈ xs, op e x = x) : (pairUp op)^[k] xs = [xs.foldl op e] := by
  induction k generalizing xs with
  | zero =>
    obtain ⟨x, rfl⟩ := List.length_eq_one_iff.mp hl
    rw [List.foldl_cons, List.foldl_nil, h x List.mem_cons_self]
    rfl
  | succ k ih =>
    have hhalf : (pairUp op xs).length = 2 ^ k := by
      rw [length_pairUp, hl, Nat.pow_succ]
      omega
    rw [Function.iterate_succ_apply, ih hhalf (pairUp_absorbs h), foldl_pairUp]

end

/-! Integers as exact values. -/

theorem scaled_ofInt (x : Int) : scaled (decide (x < 0)) x.natAbs 0 0 = x := by
  rw [scaled, Int.sub_self, Int.toNat_zero, Int.pow_zero, Int.mul_one]
  by_cases h : x < 0
  · rw [decide_eq_true h, if_pos rfl]; omega
  · rw [decide_eq_false h, if_neg Bool.false_ne_true]; omega

theorem add_ofInt (x y : Int) : (Val.ofInt x).add (Val.ofInt y) = Val.ofInt (x + y) := by
  have hzero : (decide (x.natAbs = 0) && decide (y.natAbs = 0) && decide (x < 0) && decide (y < 0)) = false := by grind
  simp only [Val.ofInt, Val.add, min_self, scaled_ofInt, valOf, hzero]
  split
  · next h => rw [h]; rfl
  · rfl

theorem lt_ofInt (x y : Int) : (Val.ofInt x).lt (Val.ofInt y) = decide (x < y) := by
  have hzero : (decide (x.natAbs = 0) && decide (x < 0)) = false := by grind
  simp only [Val.ofInt, Val.lt, min_self, scaled_ofInt, Bool.and_assoc]
  rw [← Bool.and_assoc (decide (x.natAbs = 0)), hzero, Bool.false_and, Bool.and_false, Bool.or_false]

theorem max_ofInt (x y : Int) : (Val.ofInt x).max (Val.ofInt y) = Val.ofInt (max x y) := by
  have hmax : (Val.ofInt x).max (Val.ofInt y) =
      if (Val.ofInt x).lt (Val.ofInt y) then Val.ofInt y else Val.ofInt x := rfl
  rw [hmax, lt_ofInt, max_def]
  grind

theorem min_ofInt (x y : Int) : (Val.ofInt x).min (Val.ofInt y) = Val.ofInt (min x y) := by
  have hmin : (Val.ofInt x).min (Val.ofInt y) =
      if (Val.ofInt y).lt (Val.ofInt x) then Val.ofInt y else Val.ofInt x := rfl
  rw [hmin, lt_ofInt, min_def]
  grind

/-- The signed reading of 32 bits is the balanced remainder modulo 2^32. -/
theorem signedOf_unsignedOf_word (x : Int) : signedOf (unsignedOf x 32) 32 = x.bmod (2 ^ 32) := by
  simp only [signedOf, unsignedOf, Int.bmod_def]
  grind

theorem wrap32_ofInt (x : Int) : wrap32 (Val.ofInt x) = Val.ofInt (x.bmod (2 ^ 32)) := by
  rw [Val.ofInt, wrap32, scaled_ofInt, signedOf_unsignedOf_word]

/-! The reductions. -/

/-- On integers a reduction folds op from e. -/
structure Reduction.OnInts (f : Reduction) (op : Int → Int → Int) (e : Int) : Prop where
  neutral : f.neutral true = Val.ofInt e
  take : ∀ x y, f.take true (Val.ofInt x) (Val.ofInt y) = Val.ofInt (op x y)
  combine : ∀ x y, f.combine true (Val.ofInt x) (Val.ofInt y) = Val.ofInt (op x y)
  noScale : f ≠ .mean
  assoc : Std.Associative op
  comm : Std.Commutative op
  idem : op e e = e

theorem onInts_sum : Reduction.sum.OnInts (fun x y => (x + y).bmod (2 ^ 32)) 0 where
  neutral := rfl
  take x y := (congrArg wrap32 (add_ofInt x y)).trans (wrap32_ofInt _)
  combine x y := (congrArg wrap32 (add_ofInt x y)).trans (wrap32_ofInt _)
  noScale := by decide
  assoc := ⟨fun x y z => by rw [Int.bmod_add_bmod, Int.add_bmod_bmod, Int.add_assoc]⟩
  comm := ⟨fun x y => by rw [Int.add_comm]⟩
  idem := rfl

theorem onInts_max : Reduction.max.OnInts max (-(2 ^ 31)) where
  neutral := rfl
  take := max_ofInt
  combine := max_ofInt
  noScale := by decide
  assoc := inferInstance
  comm := inferInstance
  idem := max_self _

theorem onInts_min : Reduction.min.OnInts min (2 ^ 31 - 1) where
  neutral := rfl
  take := min_ofInt
  combine := min_ofInt
  noScale := by decide
  assoc := inferInstance
  comm := inferInstance
  idem := min_self _

/-- Sums wrapped at every step are the sum wrapped once. -/
theorem foldl_bmod_add (m : Nat) (xs : List Int) (a : Int) :
    xs.foldl (fun x y => (x + y).bmod m) (a.bmod m) = (a + xs.sum).bmod m := by
  induction xs generalizing a with
  | nil => rw [List.foldl_nil, List.sum_nil, Int.add_zero]
  | cons x xs ih => rw [List.foldl_cons, Int.bmod_add_bmod, ih, List.sum_cons, Int.add_assoc]

section
variable {f : Reduction} {op : Int → Int → Int} {e : Int}

theorem reduceRound_ofInt (h : f.OnInts op e) :
    ∀ xs : List Int, reduceRound f true (xs.map Val.ofInt) = (pairUp op xs).map Val.ofInt
  | [] => by simp [reduceRound, pairUp]
  | [x] => by simp [reduceRound, pairUp]
  | x :: y :: l => by simp only [List.map_cons, reduceRound, pairUp, h.combine, reduceRound_ofInt h l]

/-- The elements that lane i of a row takes. -/
def laneOf (xs : List Int) (i : Nat) : List Int := (xs.zipIdx.filter fun x => x.2 % 64 == i).map (·.1)

theorem flatMap_laneOf_perm (xs : List Int) : ((List.range 64).flatMap (laneOf xs)).Perm xs := by
  have hperm := (flatMap_filter_perm 64 (fun x : Int × Nat => x.2 % 64) xs.zipIdx).map Prod.fst
  have hall : (xs.zipIdx.filter fun x => decide (x.2 % 64 < 64)) = xs.zipIdx :=
    List.filter_eq_self.mpr fun x _ => decide_eq_true (Nat.mod_lt _ (by decide))
  rw [List.map_flatMap, hall, List.zipIdx_map_fst] at hperm
  exact hperm

theorem lane_ofInt (h : f.OnInts op e) (xs : List Int) (i : Nat) :
    (((xs.map Val.ofInt).zipIdx.filter fun x => x.2 % 64 == i).foldl (fun acc x => f.take true acc x.1)
      (f.neutral true)) = Val.ofInt ((laneOf xs i).foldl op e) := by
  rw [List.zipIdx_map, List.filter_map, List.foldl_map, laneOf, List.foldl_map, h.neutral]
  exact List.foldl_hom Val.ofInt fun x y => h.take x y.1

/-- A row of integers reduces to one fold over its elements (R97). -/
theorem reduceRow_ofInt (h : f.OnInts op e) (xs : List Int) :
    reduceRow f true (xs.map Val.ofInt) = Val.ofInt (xs.foldl op e) := by
  have := h.assoc
  have := h.comm
  have hlanes : ((List.range 64).map fun i => ((xs.map Val.ofInt).zipIdx.filter fun x => x.2 % 64 == i).foldl
      (fun acc x => f.take true acc x.1) (f.neutral true)) =
      (((List.range 64).map (laneOf xs)).map (List.foldl op e)).map Val.ofInt := by
    simp only [List.map_map]
    exact List.map_congr_left fun i _ => lane_ofInt h xs i
  have habsorbs : ∀ x ∈ ((List.range 64).map (laneOf xs)).map (List.foldl op e), op e x = x := by
    intro x hx
    obtain ⟨l, -, rfl⟩ := List.mem_map.mp hx
    rw [← List.foldl_assoc (op := op), h.idem]
  have hfold : (((List.range 64).map (laneOf xs)).map (List.foldl op e)).foldl op e = xs.foldl op e := by
    rw [foldl_map_foldl h.idem, ← List.flatMap_def]
    exact (flatMap_laneOf_perm xs).foldl_op_eq
  have hrounds := iterate_pairUp 6 (by simp) habsorbs
  simp only [Function.iterate_succ_apply', Function.iterate_zero_apply, hfold] at hrounds
  simp only [reduceRow, if_neg h.noScale]
  rw [hlanes]
  simp only [reduceRound_ofInt h, hrounds, List.map_cons, List.headD_cons]

end

end Sys2Proof.Machine
end

section
/-! SUPPORT. Integer elements of a row in memory and of a destination row (R53, R60, R76, R77, R107). -/

namespace Sys2Proof.Machine

/-! Elements in memory. -/

theorem leNat_lt (bs : List Byte) : leNat bs < 256 ^ bs.length := by
  induction bs with
  | nil => rw [leNat]; decide
  | cons b bs ih =>
    have hb := b.isLt
    rw [leNat, List.length_cons, Nat.pow_succ]
    omega

theorem length_view (s : State) (a n : Nat) : (s.view a n).length = n := by
  rw [State.view, List.length_map, List.length_range]

/-- A part of what a read gives is a read of that part. -/
theorem view_drop_take (s : State) (a : Nat) {k m n : Nat} (h : k + m ≤ n) :
    ((s.view a n).drop k).take m = s.view (a + k) m := by
  refine List.ext_getElem ?_ fun i hi hj => ?_
  · simp only [List.length_take, List.length_drop, length_view]
    omega
  · simp only [State.view, List.getElem_take, List.getElem_drop, List.getElem_map, List.getElem_range, Nat.add_assoc]

theorem leNat_view_lt (s : State) (a k : Nat) : leNat (s.view a k) < 2 ^ (8 * k) := by
  have h := leNat_lt (s.view a k)
  rwa [length_view, show (256 : Nat) = 2 ^ 8 from rfl, ← Nat.pow_mul] at h

/-- Elements of whole bytes lie at their own addresses. -/
theorem rowElems_of_bytes (s : State) {fmt k : Nat} (hw : fmtWidth fmt = 8 * k) (a n : Nat) :
    s.rowElems fmt a n = (List.range n).map fun j => leNat (s.view (a + j * k) k) := by
  have hrow : rowBytes (fmtWidth fmt) n = k * n := by
    rw [rowBytes, ceilDiv, hw, Nat.mul_assoc]
    omega
  refine List.map_congr_left fun j hj => ?_
  have hfit : j * k + k ≤ k * n := by
    rw [← Nat.succ_mul, Nat.mul_comm k n]
    exact Nat.mul_le_mul_right k (List.mem_range.mp hj)
  have hoff : 8 * k * j = 8 * (j * k) := by rw [Nat.mul_assoc, Nat.mul_comm k j]
  have hcount : (0 + 8 * k + 7) / 8 = k := by omega
  rw [elemAt, packedAt, hrow, hw, hoff, Nat.mul_mod_right, Nat.mul_div_cancel_left _ (by decide : 0 < 8), hcount,
    view_drop_take s a hfit, Nat.pow_zero, Nat.div_one, Nat.mod_eq_of_lt (leNat_view_lt s _ k)]

/-! Integer formats (R53). -/

/-- The integer formats of whole bytes. -/
def byteInts : List Nat := [1, 2, 3, 4]

/-- The integer that an element's bits are. -/
def intValue (fmt v : Nat) : Int := if fmt = 2 then v else signedOf v (fmtWidth fmt)

variable {fmt : Nat}

theorem byteInts_width : ∀ fmt ∈ byteInts,
    0 < fmtWidth fmt / 8 ∧ fmtWidth fmt / 8 ≤ 4 ∧ fmtWidth fmt = 8 * (fmtWidth fmt / 8) := by
  decide

theorem byteInts_isInt : ∀ fmt ∈ byteInts, fmtIsInt fmt = true := by decide

theorem byteInts_floatFmt : ∀ fmt ∈ byteInts, floatFmt fmt = none := by decide

theorem byteInts_intRange : ∀ fmt ∈ byteInts, intRange fmt =
    (if fmt = 2 then 0 else -(2 ^ (fmtWidth fmt - 1)), if fmt = 2 then 255 else 2 ^ (fmtWidth fmt - 1) - 1) := by decide

theorem byteInts_intRange_le : ∀ fmt ∈ byteInts, (intRange fmt).1 ≤ (intRange fmt).2 := by decide

theorem decodeElem_of_byteInts (h : fmt ∈ byteInts) {v : Nat} (hv : v < 2 ^ fmtWidth fmt) :
    decodeElem fmt v = Val.ofInt (intValue fmt v) := by
  simp only [byteInts, List.mem_cons, List.not_mem_nil, or_false] at h
  rcases h with rfl | rfl | rfl | rfl
  · rfl
  · have hmod : (v : Int) % 256 = v := by
      have hv : v < 256 := hv
      omega
    exact congrArg Val.ofInt hmod
  · rfl
  · rfl

/-- A row of integers as exact values. -/
theorem decode_rowElems (s : State) (h : fmt ∈ byteInts) (a n : Nat) :
    (s.rowElems fmt a n).map (decodeElem fmt) = ((List.range n).map fun j =>
      intValue fmt (leNat (s.view (a + j * (fmtWidth fmt / 8)) (fmtWidth fmt / 8)))).map Val.ofInt := by
  obtain ⟨-, -, hw⟩ := byteInts_width fmt h
  rw [rowElems_of_bytes s hw, List.map_map, List.map_map]
  refine List.map_congr_left fun j _ => decodeElem_of_byteInts h ?_
  have hlt := leNat_view_lt s (a + j * (fmtWidth fmt / 8)) (fmtWidth fmt / 8)
  rwa [← hw] at hlt

/-! Narrowing (R76, R77). -/

/-- An integer narrowed to an integer format: it, or the limit of the range that it passes. -/
theorem narrow_ofInt (h : fmt ∈ byteInts) (mode : Rounding) (x : Int) (src : Significand) :
    (narrow fmt mode (Val.ofInt x) src).bits =
      unsignedOf (max (intRange fmt).1 (min (intRange fmt).2 x)) (fmtWidth fmt) := by
  have hround : roundAt mode x.natAbs 0 0 src = x.natAbs := by simp [roundAt]
  have hsign : (if decide (x < 0) = true then -((x.natAbs : Nat) : Int) else x.natAbs) = x := by
    split
    · next hneg => have := of_decide_eq_true hneg; omega
    · next hneg => simp only [decide_eq_true_eq] at hneg; omega
  have hle := byteInts_intRange_le fmt h
  rw [narrow, byteInts_floatFmt fmt h]
  simp only [narrowInt, Val.ofInt, hround, hsign]
  split
  · rw [max_eq_left (by omega)]
  · split
    · rw [min_eq_left (by omega), max_eq_right hle]
    · rw [min_eq_right (by omega), max_eq_right (by omega)]

/-- With no group scale one value of a row narrows alone. -/
theorem narrowElems_single (d : Desc) (i : Nat) (v : Val) (src : Significand) :
    (narrowElems d i [(v, src)]).1 = [(narrow d.fmtOut (roundingOf d.round d.seed d.tag i) v src).bits] := rfl

/-! Destination rows (R107, R117). -/

theorem unsignedOf_lt (x : Int) (w : Nat) : unsignedOf x w < 2 ^ w := by
  rw [← unsignedOf_mod]
  exact Nat.mod_lt _ (Nat.two_pow_pos w)

/-- One element of whole bytes makes a granule: its bytes, and zeros. -/
theorem writeRow_single {v k : Nat} (hk : 0 < k) (hk32 : k ≤ 32) (hw : fmtWidth fmt = 8 * k) (hv : v < 2 ^ (8 * k)) :
    writeRow false fmt [v] = leBytes k v ++ List.replicate (32 - k) 0 := by
  have hcount : ceilDiv (8 * k) 8 = k := by rw [ceilDiv]; omega
  have hpack : packElems (8 * k) [v] = leBytes k v := by
    simp [packElems, hcount, Nat.mod_eq_of_lt hv]
  have hround : roundUp k 32 = 32 := by rw [roundUp, ceilDiv]; omega
  rw [writeRow, if_neg Bool.false_ne_true, hw, hpack, padGranules, length_leBytes, hround]

theorem leAt_leBytes_append {v k : Nat} (hv : v < 2 ^ (8 * k)) (pad : List Byte) :
    leAt (leBytes k v ++ pad) 0 k = v := by
  rw [leAt, slice_zero, List.append_assoc, List.take_left' (length_leBytes k v), leNat_leBytes,
    show (256 : Nat) = 2 ^ 8 from rfl, ← Nat.pow_mul, Nat.mod_eq_of_lt hv]

end Sys2Proof.Machine
end

section
/-! The reading of a REDUCE task's operands (R95, R97, R107), and the statement of 03_number_formats.md. -/

namespace Sys2Proof.Machine

/-! A task that reads its operands. -/

theorem countWork_mem (s : State) (n : Nat) (w : Work) : (countWork s n w).mem = s.mem := by
  unfold countWork addCount
  refine foldl_induct (P := fun t : State => t.mem = s.mem) w.resid (by simp) fun u x _ h => ?_
  dsimp only
  split
  · exact h
  · split <;> simpa using h

theorem useBuffers_mem (s : State) (n op : Nat) : (useBuffers s n op).mem = s.mem := by
  unfold useBuffers
  split
  · rfl
  · split <;> rfl

theorem showFence_furrow (s : State) (n m : Nat) : (showFence s n).furrow m = s.furrow m := rfl

theorem showFence_mem (s : State) (n : Nat) : (showFence s n).mem = s.mem := rfl

theorem setTask_task (s : State) (n : Nat) (t : Option Task) : ((setTask s n t).furrow n).task = t := by
  rw [setTask, State.furrow_setFurrow_self]

/-- Furrow n of v commits tiles of these pieces for a task, and no byte of memory differs from s. -/
def Commits (s v : State) (n : Nat) (t : Task) (pieces : List (List (Nat × List Byte))) : Prop :=
  ∃ k, (v.furrow n).task = some k ∧ k.stage = .committing ∧ k.committed = t.committed ∧
    k.tilesLeft.map Tile.pieces = pieces ∧ v.mem = s.mem

/-- Work that gives tiles alone leaves its task to commit them. -/
theorem runWork_commits {s : State} {n : Nat} {t : Task} {o : OpDef} {tiles : List Tile}
    (h : o.work s (s.taskReach n t.hopper) t.desc = ({ tiles := tiles }, s)) :
    Commits s (runWork s n t o) n t (tiles.map Tile.pieces) := by
  have hread (u : State) : u.readsPoisoned [] = false := rfl
  unfold runWork
  simp only [h, hread, Bool.false_eq_true, if_false, ne_eq, not_true_eq_false, List.foldl_nil, ite_self]
  refine ⟨_, (congrArg Furrow.task (showFence_furrow _ n n)).trans (setTask_task _ n _), rfl, rfl, ?_, ?_⟩
  · rw [List.map_map]
    rfl
  · rw [showFence_mem, setTask, State.setFurrow_mem, countWork_mem, useBuffers_mem, noteReads_mem, noteReads_mem]

theorem endWait_desc (s : State) (t : Task) : (s.endWait t).desc = t.desc := by
  unfold State.endWait
  split <;> rfl

theorem endWait_committed (s : State) (t : Task) : (s.endWait t).committed = t.committed := by
  unfold State.endWait
  split <;> rfl

/-- A charged task whose operands may be read reads them. -/
theorem tryRead_of_ready {s : State} {n : Nat} {t : Task} {o : OpDef} (hr : s.taskRejected n t = false)
    (hw : s.nextWait n t = .none) (hc : t.charged = true) (hy : s.yokeWaits n = false)
    (ho : opDefOf t.desc.op = some o) : tryRead s n t = runWork s n { s.endWait t with charged := true } o := by
  simp [tryRead, hr, hw, ho, hc, hy]

/-- A running task that reads its operands only tries to read them. -/
theorem advanceTask_of_reading {s : State} {n : Nat} {t : Task} (ht : (s.furrow n).task = some t)
    (hst : t.stage = .reading) (hres : t.resuming = false) (hstores : (s.furrow n).stores = []) :
    advanceTask s n = tryRead s n t := by
  have hfault : storeFault s n = s := by simp [storeFault, ht, hst, hstores]
  simp [advanceTask, hfault, ht, hst, hres]

/-- TASK_DONE leaves a task with tiles to commit as it is. -/
theorem taskDone_of_commits {s : State} {n : Nat} {t : Task} {pieces : List (List (Nat × List Byte))}
    (h : Commits s (advanceTask s n) n t pieces) (hp : pieces ≠ []) : taskDone s n = advanceTask s n := by
  obtain ⟨k, hk, hst, -, htiles, -⟩ := h
  have hleft : k.tilesLeft ≠ [] := fun he => hp (by rw [← htiles, he]; rfl)
  simp [taskDone, hk, hst, hleft]

/-! The rows of an op that are computed one by one (R95, R107). -/

/-- Row i lies in tile i / tileRows at its stride from the first destination. -/
theorem rowTiles_pieces {d : Desc} {ea ed rows tileRows ld a : Nat} {bases : List Nat} {row : Nat → List Nat × List Nat}
    {inA more : Nat → List (Nat × Nat)} {i : Nat} (ht : 0 < tileRows) (hi : i < rows) :
    ∃ pieces, ((rowTiles d ea ed rows tileRows ld (a :: bases) row inA more).map Tile.pieces)[i / tileRows]? =
        some pieces ∧
      pieces[i % tileRows]? = some (a + i * ld, writeRow d.zcDst d.fmtOut (row i).1) := by
  have htile : i / tileRows < ceilDiv rows tileRows := by
    rw [ceilDiv, Nat.lt_iff_add_one_le, ← Nat.add_div_right i ht]
    exact Nat.div_le_div_right (by omega)
  have hrow : i / tileRows * tileRows + i % tileRows = i := Nat.div_add_mod' i tileRows
  have hin : i % tileRows < min tileRows (rows - i / tileRows * tileRows) := by
    have := Nat.mod_lt i ht
    omega
  simp [rowTiles, ranges, htile, hin, hrow]

/-! REDUCE of integers (R97). -/

/-- The value of a row of integers under a REDUCE function. -/
def reduced (fn : Nat) (xs : List Int) : Int :=
  if fn = 0 then signedOf (unsignedOf xs.sum 32) 32
  else if fn = 1 then xs.foldl max (-(2 ^ 31)) else xs.foldl min (2 ^ 31 - 1)

theorem reduceRow_of_fn {fn : Nat} (h : fn ≤ 2) (xs : List Int) :
    ∃ f, reductionOf fn = some f ∧ f ≠ .mean ∧ reduceRow f true (xs.map Val.ofInt) = Val.ofInt (reduced fn xs) := by
  obtain rfl | rfl | rfl : fn = 0 ∨ fn = 1 ∨ fn = 2 := by omega
  · refine ⟨.sum, rfl, by decide, ?_⟩
    have hsum := foldl_bmod_add (2 ^ 32) xs 0
    rw [Int.zero_bmod, Int.zero_add] at hsum
    rw [reduceRow_ofInt onInts_sum, hsum, reduced, if_pos rfl, signedOf_unsignedOf_word]
  · exact ⟨.max, rfl, by decide, reduceRow_ofInt onInts_max xs⟩
  · exact ⟨.min, rfl, by decide, reduceRow_ofInt onInts_min xs⟩

/-- The integers of row i of a REDUCE task's operand. -/
def State.reduceInputs (s : State) (d : Desc) (i : Nat) : List Int :=
  (List.range (s.param d 0)).map fun j => intValue d.fmtA
    (leNat (s.view (d.aAddr + i * s.param d 2 + j * (fmtWidth d.fmtA / 8)) (fmtWidth d.fmtA / 8)))

/-- The element that row i of a REDUCE task of integers has as its result. -/
def State.reduceElem (s : State) (d : Desc) (i : Nat) : Nat :=
  unsignedOf (max (intRange d.fmtOut).1 (min (intRange d.fmtOut).2 (reduced (s.param d 4) (s.reduceInputs d i))))
    (fmtWidth d.fmtOut)

/-- The elements and events of row i of a REDUCE task that computes f on integers. -/
def State.reduceOut (s : State) (d : Desc) (f : Reduction) (i : Nat) : List Nat × List Nat :=
  let xs := readRow s d.zcA d.fmtA (d.aAddr + i * s.param d 2) (s.param d 0)
  narrowElems d i [(reduceRow f true (xs.map (decodeElem d.fmtA)), int32Lsb)]

section
variable {s : State} {r : Reach} {d : Desc}

theorem reduceWork_tiles {f : Reduction} (hA : d.fmtA ∈ byteInts) (hf : reductionOf (s.param d 4) = some f)
    (hmean : f ≠ .mean) : (reduceWork s r d).1.tiles =
      rowTiles d (s.param d 0) 1 (s.param d 1) (s.param d 5) (s.param d 3) [d.dstAddr] (s.reduceOut d f)
        (fun i => readSpans s d.zcA d.fmtA (d.aAddr + i * s.param d 2) (s.param d 0)) fun _ => [] := by
  simp only [reduceWork, reduceDims, hf, Option.getD_some, byteInts_isInt _ hA, Bool.true_and, bne_iff_ne.mpr hmean,
    if_true]
  rfl

theorem reduceOut_elems {f : Reduction} {i : Nat} (hz : d.zcA = false) (hA : d.fmtA ∈ byteInts)
    (hOut : d.fmtOut ∈ byteInts) (hred : reduceRow f true ((s.reduceInputs d i).map Val.ofInt) =
      Val.ofInt (reduced (s.param d 4) (s.reduceInputs d i))) :
    (s.reduceOut d f i).1 = [s.reduceElem d i] := by
  have hread : (readRow s d.zcA d.fmtA (d.aAddr + i * s.param d 2) (s.param d 0)).map (decodeElem d.fmtA) =
      (s.reduceInputs d i).map Val.ofInt := by
    rw [readRow, hz, if_neg Bool.false_ne_true]
    exact decode_rowElems s hA _ _
  rw [State.reduceOut, narrowElems_single, hread, hred, narrow_ofInt hOut, State.reduceElem]

/-- Row i of a REDUCE task of integers: its tile, its address and its granule. -/
theorem reduceWork_pieces {i : Nat} (hzA : d.zcA = false) (hzD : d.zcDst = false) (hA : d.fmtA ∈ byteInts)
    (hOut : d.fmtOut ∈ byteInts) (hfn : s.param d 4 ≤ 2) (ht : 0 < s.param d 5) (hi : i < s.param d 1) :
    ∃ pieces, ((reduceWork s r d).1.tiles.map Tile.pieces)[i / s.param d 5]? = some pieces ∧
      pieces[i % s.param d 5]? = some (d.dstAddr + i * s.param d 3,
        leBytes (fmtWidth d.fmtOut / 8) (s.reduceElem d i) ++ List.replicate (32 - fmtWidth d.fmtOut / 8) 0) := by
  obtain ⟨f, hf, hmean, hred⟩ := reduceRow_of_fn hfn (s.reduceInputs d i)
  obtain ⟨hk, hk4, hw⟩ := byteInts_width d.fmtOut hOut
  have hv : s.reduceElem d i < 2 ^ (8 * (fmtWidth d.fmtOut / 8)) := by
    rw [← hw]
    exact unsignedOf_lt _ _
  rw [reduceWork_tiles hA hf hmean, ← writeRow_single hk (by omega) hw hv, ← reduceOut_elems hzA hA hOut hred, ← hzD]
  exact rowTiles_pieces ht hi

end

end Sys2Proof.Machine

open Sys2Proof Sys2Proof.Machine

/-- Settles O59: the task commits the tiles of its work, whose row i is the fold of its integers, narrowed. -/
theorem reduceTaskComputesSaturatedRows : Obligations.ReduceTaskComputesSaturatedRows := by
  intro s n t hh hn ht hst hop hres hstores hrej hwait hcharged hyoke d len rows fn tileRows value lowest highest hzA
    hzD hA hOut hfn _ hrows htr
  have hplaced {i : Nat} (hi : i < rows) := reduceWork_pieces (r := s.taskReach n (s.endWait t).hopper) hzA hzD hA hOut
    hfn htr hi
  have hcommits : Commits s (advanceTask s n) n { s.endWait t with charged := true }
      ((reduceWork s (s.taskReach n (s.endWait t).hopper) d).1.tiles.map Tile.pieces) := by
    rw [advanceTask_of_reading ht hst hres hstores,
      tryRead_of_ready hrej hwait hcharged hyoke (show opDefOf t.desc.op = some reduceOp by rw [hop]; rfl)]
    refine runWork_commits ?_
    dsimp only
    rw [endWait_desc]
    rfl
  have hdone : taskDone s n = advanceTask s n := taskDone_of_commits hcommits fun hnil => by
    obtain ⟨pieces, hpieces, -⟩ := hplaced hrows
    rw [hnil] at hpieces
    cases hpieces
  obtain ⟨k, hk, hstage, hcommitted, htiles, hmem⟩ := hcommits
  have hx : exec (.taskDone n) s = live s (advanceTask s n) := by
    rw [exec, execTaskDone, withUnit_of hn, hdone]
  refine yields_of_live hx hh ⟨k, hk, hstage, hcommitted.trans (endWait_committed s t), fun a => ?_, fun i hi => ?_⟩
  · exact congrArg (mapGet 0 · a) hmem
  · intro width xs result
    obtain ⟨pieces, hpieces, hrow⟩ := hplaced hi
    rw [← htiles, List.getElem?_map, Option.map_eq_some_iff] at hpieces
    obtain ⟨tile, htile, rfl⟩ := hpieces
    obtain ⟨hpos, hle, hw⟩ := byteInts_width d.fmtOut hOut
    refine ⟨tile, _, htile, hrow, ?_, ?_, ?_⟩
    · rw [List.length_append, length_leBytes, List.length_replicate]
      omega
    · rw [leAt_leBytes_append (by rw [← hw]; exact unsignedOf_lt _ _), State.reduceElem, byteInts_intRange _ hOut]
      rfl
    · rw [List.drop_left' (length_leBytes _ _)]
      exact fun b hb => List.eq_of_mem_replicate hb
end

section
/-! The running task: how it comes to its end, and how far a command takes it (R90, R103, R106). -/

namespace Sys2Proof.Machine

/-! A task that is to end. -/

/-- A running task once its fault cause is known. -/
def Task.ended (t : Task) (cause : Nat) : Task :=
  { t with stage := .ending cause, wait := .none, tilesLeft := [], charged := false }

theorem releaseYoke_eq (s : State) (n : Nat) : releaseYoke s n = { s with yokes := (releaseYoke s n).yokes } := by
  unfold releaseYoke
  split <;> rfl

theorem toEnding_eq (s : State) (n : Nat) (t : Task) (cause : Nat) : toEnding s n t cause =
    { setTask s n (some (t.ended cause)) with yokes := (toEnding s n t cause).yokes } := releaseYoke_eq _ n

theorem toEnding_furrow (s : State) (n : Nat) (t : Task) (cause m : Nat) :
    (toEnding s n t cause).furrow m = (setTask s n (some (t.ended cause))).furrow m := by
  rw [toEnding_eq]
  rfl

theorem toEnding_task (s : State) (n : Nat) (t : Task) (cause : Nat) :
    ((toEnding s n t cause).furrow n).task = some (t.ended cause) := by
  rw [toEnding_furrow, setTask_task]

theorem toEnding_furrow_ne {n m : Nat} (s : State) (t : Task) (cause : Nat) (h : m ≠ n) :
    (toEnding s n t cause).furrow m = s.furrow m := by
  rw [toEnding_furrow, setTask, State.furrow_setFurrow_ne _ _ h]

theorem toEnding_frame (s : State) (n : Nat) (t : Task) (cause : Nat) : toEnding s n t cause =
    { s with furrows := (toEnding s n t cause).furrows, yokes := (toEnding s n t cause).yokes } := by
  rw [toEnding_eq]
  rfl

/-- A command that leaves the running task to end changes its Furrow's task and the yokes alone. -/
theorem yields_of_toEnding {c : Instr} {s : State} {n : Nat} {t : Task} {cause : Nat}
    (hx : exec c s = live s (toEnding s n t cause)) (hh : s.held = false) : Yields c s fun u =>
      (u.furrow n).task = some (t.ended cause) ∧ (∀ m, m ≠ n → u.furrow m = s.furrow m) ∧
        u = { s with furrows := u.furrows, yokes := u.yokes } := by
  refine yields_of_live hx hh ⟨toEnding_task s n t cause, fun m hm => toEnding_furrow_ne s t cause hm, ?_⟩
  rw [toEnding_eq]
  rfl

/-! How far a running task comes towards its tile commits. -/

section
variable {s : State} {n : Nat} {t : Task}

theorem advanceTask_of_none (h : (s.furrow n).task = none) : advanceTask s n = s := by
  simp [advanceTask, storeFault, h]

theorem advanceTask_of_ending {cause : Nat} (ht : (s.furrow n).task = some t) (hst : t.stage = .ending cause) :
    advanceTask s n = s := by
  simp [advanceTask, storeFault, Task.isEnding, ht, hst]

theorem advanceTask_of_committing (ht : (s.furrow n).task = some t) (hst : t.stage = .committing)
    (hstores : (s.furrow n).stores = []) (hres : t.resuming = false) : advanceTask s n = s := by
  simp [advanceTask, storeFault, ht, hst, hstores, hres]

/-- An instruction store with an uncorrectable word ends the task (R90). -/
theorem advanceTask_of_bad_store (ht : (s.furrow n).task = some t) (hst : t.stage = .committing)
    (hstores : (s.furrow n).stores ≠ []) : advanceTask s n = toEnding s n t 0x0B := by
  have hfault : storeFault s n = toEnding s n t 0x0B := by simp [storeFault, ht, hst, hstores]
  simp [advanceTask, hfault, toEnding_task, Task.isEnding, Task.ended]

end

end Sys2Proof.Machine
end

section
/-! TILE_COMMIT (R90, R107, R312, R383). -/

namespace Sys2Proof.Machine

section
variable {s : State} {n : Nat} {t : Task} {mismatch : Bool}

theorem exec_tileCommit (hn : n < 64) : exec (.tileCommit { furrow := n, mismatch := mismatch }) s =
    live s (tileCommit s n mismatch) := by
  rw [exec, execTileCommit, withUnit_of hn]

theorem tileCommit_of_none (h : (s.furrow n).task = none) : tileCommit s n mismatch = s := by
  simp [tileCommit, h]

theorem tileCommit_of_ending {cause : Nat} (ht : (s.furrow n).task = some t) (hst : t.stage = .ending cause) :
    tileCommit s n mismatch = s := by
  simp [tileCommit, ht, hst]

theorem tileCommit_of_bad_store (ht : (s.furrow n).task = some t) (hst : t.stage = .committing)
    (hstores : (s.furrow n).stores ≠ []) : tileCommit s n mismatch = toEnding s n t 0x0B := by
  simp [tileCommit, ht, hst, advanceTask_of_bad_store ht hst hstores, toEnding_task, Task.ended]

/-- A task that commits has nothing to do before its next tile (R383). -/
theorem tileCommit_of_committing (ht : (s.furrow n).task = some t) (hst : t.stage = .committing)
    (hstores : (s.furrow n).stores = []) (hres : t.resuming = false) : tileCommit s n mismatch =
      if mismatch && !t.tilesLeft.isEmpty then toEnding s n t 0x23 else commitNext s n t := by
  simp [tileCommit, advanceTask_of_committing ht hst hstores hres, ht, hst, hres]

/-! The next tile, where something holds it. -/

theorem commitNext_of_none (h : t.tilesLeft = []) : commitNext s n t = s := by
  simp [commitNext, h]

variable {k : Tile} {rest : List Tile}

theorem commitNext_of_rejected (hk : t.tilesLeft = k :: rest) (hr : s.taskRejected n t = true) :
    commitNext s n t = toEnding s n t 0x10 := by
  simp [commitNext, hk, hr]

theorem commitNext_of_poison (hk : t.tilesLeft = k :: rest) (hr : s.taskRejected n t = false) (hp : k.poison = true) :
    commitNext s n t = toEnding s n t 0x0A := by
  simp [commitNext, hk, hr, hp]

theorem commitNext_of_wait (hk : t.tilesLeft = k :: rest) (hr : s.taskRejected n t = false) (hp : k.poison = false)
    (hw : s.nextWait n t ≠ .none) : commitNext s n t = noteWait s n t (s.nextWait n t) := by
  simp [commitNext, hk, hr, hp, hw]

/-- The state in which a task's next accesses are charged, where they have not been yet. -/
def State.chargedFor (s : State) (n : Nat) (t : Task) (xs : List (Nat × Nat)) : State :=
  if t.charged then s else taskCharge s n t xs

theorem commitNext_of_ready (hk : t.tilesLeft = k :: rest) (hr : s.taskRejected n t = false) (hp : k.poison = false)
    (hw : s.nextWait n t = .none) : commitNext s n t =
      let v := s.chargedFor n t (tileAccesses s n t k)
      if v.yokeWaits n then setTask v n (some { v.endWait t with charged := true })
      else commitTile v n { v.endWait t with charged := true } k rest := by
  simp only [commitNext, hk, hr, hp, hw, Bool.false_eq_true, if_false, ne_eq, not_true_eq_false]
  rfl

/-- What a task waits for, and since when, once a wait is noted (R253). -/
theorem noteWait_task (s : State) (n : Nat) (t : Task) (w : Wait) : ∃ t', noteWait s n t w = setTask s n (some t') ∧
    t'.wait = w ∧ t'.waitTick = (if t.wait = t'.wait then t.waitTick else s.now) ∧
    t'.extra = (if t.wait = t'.wait then t.extra else (s.endWait t).extra) ∧
    t' = { t with wait := t'.wait, waitTick := t'.waitTick, extra := t'.extra } := by
  unfold noteWait
  by_cases h : t.wait = w
  · exact ⟨t, if_pos h, h, (if_pos rfl).symm, (if_pos rfl).symm, rfl⟩
  · refine ⟨_, if_neg h, rfl, (if_neg h).symm, (if_neg h).symm, ?_⟩
    unfold State.endWait
    split <;> rfl

/-! A tile that is written (R107, R312). -/

/-- The end of a wait changes the wait and the cycles spent on it alone. -/
theorem endWait_frame (s : State) (t : Task) : ∃ wait extra, s.endWait t = { t with wait := wait, extra := extra } := by
  unfold State.endWait
  split <;> exact ⟨_, _, rfl⟩

/-- The tile counts that a commit shows, and the task it leaves (R107, R163). -/
def countTile (s : State) (n : Nat) (t : Task) (k : Tile) (rest : List Tile) : State :=
  setTask (((s.setBits (Reg.furTiles n) 15 0 (t.committed + 1)).addSat (Reg.furZcRaw n) 31 0 k.zc.1).addSat
      (Reg.furZcMoved n) 31 0 k.zc.2) n
    (some { t with committed := t.committed + 1, tilesLeft := rest, crcs := t.crcs ++ [crc32c (k.pieces.flatMap (·.2))]
                   events := addEvents t.events k.events, drafts := [], wait := .none, charged := false })

theorem countTile_tiles (s : State) (n : Nat) (t : Task) (k : Tile) (rest : List Tile) :
    (countTile s n t k rest).bits (Reg.furTiles n) 15 0 = (t.committed + 1) % 2 ^ 16 := by
  have hraw : Reg.furTiles n ≠ Reg.furZcRaw n := by unfold Reg.furTiles Reg.furZcRaw; omega
  have hmoved : Reg.furTiles n ≠ Reg.furZcMoved n := by unfold Reg.furTiles Reg.furZcMoved; omega
  rw [countTile, setTask, State.setFurrow_bits, State.bits, State.reg_addSat_ne _ _ _ _ hmoved,
    State.reg_addSat_ne _ _ _ _ hraw]
  exact State.bits_setBits_self _ _ _ _ (by decide)

theorem countTile_mem (s : State) (n : Nat) (t : Task) (k : Tile) (rest : List Tile) :
    (countTile s n t k rest).mem = s.mem := rfl

theorem commitTile_of_dropped
    (h : (writePieces s n ((s.finalTile k).pieces ++ (s.finalTile k).copies)).2 = false) (charged : Bool) :
    commitTile s n { t with charged := charged } k rest =
      toEnding (writePieces s n ((s.finalTile k).pieces ++ (s.finalTile k).copies)).1 n t 0x05 := by
  simp only [commitTile, h, Bool.not_false, if_true]
  rfl

/-- Where no write of it is dropped, a tile commits: its pieces, its checksum granule, its stubble word, then its messages. -/
theorem commitTile_of_written
    (h : (writePieces s n ((s.finalTile k).pieces ++ (s.finalTile k).copies)).2 = true)
    (hslot : inMailbox ((writePieces s n ((s.finalTile k).pieces ++ (s.finalTile k).copies)).1.header t.desc 8 +
      32 * (t.committed / 8)) = false) :
    commitTile s n t k rest =
      let k' := s.finalTile k
      let w := (writePieces s n (k'.pieces ++ k'.copies)).1
      let slot := w.header t.desc 8 + 32 * (t.committed / 8)
      let crcs := t.crcs ++ [crc32c (k'.pieces.flatMap (·.2))]
      countTile (t.drafts.foldl issueMessage (writeStubble (storeGranule w slot (crcGranule crcs t.committed)) t.desc
        (t.committed + 1) 0 1 (addEvents t.events k'.events))) n t k' rest := by
  simp only [commitTile, h, hslot, Bool.not_true, Bool.false_eq_true, if_false]
  rfl

end

end Sys2Proof.Machine

open Sys2Proof Sys2Proof.Machine

/-- Settles O11: the cases of TILE_COMMIT in its own order, the last by the lemma on a tile that is written. -/
theorem tileCommitWritesTileChecksumStubble : Obligations.TileCommitWritesTileChecksumStubble := by
  intro s n hh hn mismatch c
  have hx {u : State} (e : tileCommit s n mismatch = u) : exec c s = live s u := e ▸ exec_tileCommit hn
  refine ⟨fun h => answers_of_live (hx (tileCommit_of_none h)) hh, ?_⟩
  intro t ht ends
  have hends {cause : Nat} (e : tileCommit s n mismatch = toEnding s n t cause) : ends cause :=
    yields_of_toEnding (hx e) hh
  refine ⟨fun cause hst => answers_of_live (hx (tileCommit_of_ending ht hst)) hh,
    fun hst hstores => hends (tileCommit_of_bad_store ht hst hstores), fun hst hstores hres => ?_⟩
  have htile := tileCommit_of_committing (mismatch := mismatch) ht hst hstores hres
  refine ⟨fun hnil => ?_, ?_⟩
  · rw [if_neg (by simp [hnil]), commitNext_of_none hnil] at htile
    exact answers_of_live (hx htile) hh
  intro k rest hk v k' w slot crcs
  refine ⟨fun hm => ?_, fun hm => ?_⟩
  · rw [if_pos (by simp [hm, hk])] at htile
    exact hends htile
  · rw [if_neg (by simp [hm])] at htile
    refine ⟨fun hr => hends (htile.trans (commitNext_of_rejected hk hr)),
      fun hr hp => hends (htile.trans (commitNext_of_poison hk hr hp)), fun hr hp => ⟨fun hw => ?_, fun hw => ?_⟩⟩
    · obtain ⟨t', he, hwait, htick, hextra, hframe⟩ := noteWait_task s n t (s.nextWait n t)
      refine yields_of_live (hx (htile.trans ((commitNext_of_wait hk hr hp hw).trans he))) hh
        ⟨t', setTask_task s n (some t'), hwait, htick, hextra, hframe, rfl⟩
    · have hready : tileCommit s n mismatch = if v.yokeWaits n then setTask v n (some { v.endWait t with charged := true })
          else commitTile v n { v.endWait t with charged := true } k rest :=
        htile.trans (commitNext_of_ready hk hr hp hw)
      clear_value v
      refine ⟨fun hy => ?_, fun hy hdrop => ?_, fun hy hok hslot => ?_⟩
      · exact answers_of_live (hx (hready.trans (if_pos hy))) hh
      · have he := hready.trans (if_neg (Bool.eq_false_iff.mp hy))
        exact answers_of_live (hx (he.trans (commitTile_of_dropped hdrop true))) hh
      · have he := hready.trans (if_neg (Bool.eq_false_iff.mp hy))
        obtain ⟨wait, extra, hend⟩ := endWait_frame v t
        rw [hend] at he ⊢
        have hwritten := he.trans (commitTile_of_written hok hslot)
        refine yields_of_live (hx hwritten) hh ⟨?_, ?_, fun hdrafts => ?_⟩
        · rw [State.withQueue_bits]
          exact countTile_tiles _ n _ _ _
        · rw [State.withQueue_furrow]
          exact setTask_task _ n _
        · rw [State.withQueue_mem, countTile_mem, hdrafts]
          rfl
end

section
/-! Accesses of memory and their charges: what they leave (R124, R126, R206, R215, R264). -/

namespace Sys2Proof.Machine

/-! The registers that they write. -/

/-- The level of some yoke. -/
def YokeLevelReg (a : Nat) : Prop := ∃ f < 8, ∃ r < 3, a = Reg.yokeLevel f r

/-- A level of a yoke, or an error record of a seedbed or of DRAM. -/
def AccessReg (a : Nat) : Prop :=
  YokeLevelReg a ∨ (∃ n < 64, a = Reg.furSbErr n ∨ a = Reg.furSbEccCnt n) ∨ (∃ c < 32, a = Reg.dramChEcc c) ∨
    a = Reg.dramErr ∨ a = Reg.dramErrAddrLo ∨ a = Reg.dramErrAddrHi

theorem accessReg_furSbErr {n : Nat} (h : n < 64) : AccessReg (Reg.furSbErr n) := .inr (.inl ⟨n, h, .inl rfl⟩)

theorem accessReg_furSbEccCnt {n : Nat} (h : n < 64) : AccessReg (Reg.furSbEccCnt n) := .inr (.inl ⟨n, h, .inr rfl⟩)

theorem accessReg_dramChEcc {c : Nat} (h : c < 32) : AccessReg (Reg.dramChEcc c) := .inr (.inr (.inl ⟨c, h, rfl⟩))

theorem accessReg_dramErr : AccessReg Reg.dramErr := .inr (.inr (.inr (.inl rfl)))

theorem accessReg_dramErrAddrLo : AccessReg Reg.dramErrAddrLo := .inr (.inr (.inr (.inr (.inl rfl))))

theorem accessReg_dramErrAddrHi : AccessReg Reg.dramErrAddrHi := .inr (.inr (.inr (.inr (.inr rfl))))

/-- The first registers of a Furrow, its status and its task's, are none of them. -/
theorem not_accessReg_of_furrow {a n : Nat} (hn : n < 64) (lo : Reg.furId n ≤ a) (hi : a < Reg.furSbCtrl n) :
    ¬ AccessReg a := by
  unfold Reg.furId at lo
  unfold Reg.furSbCtrl at hi
  rintro (⟨f, hf, r, hr, rfl⟩ | ⟨m, hm, rfl | rfl⟩ | ⟨c, hc, rfl⟩ | rfl | rfl | rfl) <;>
    simp only [Reg.yokeLevel, Reg.furSbErr, Reg.furSbEccCnt, Reg.dramChEcc, Reg.dramErr, Reg.dramErrAddrLo,
      Reg.dramErrAddrHi] at lo hi <;> omega

/-- The registers of a Field are none of them. -/
theorem not_accessReg_of_field {a : Nat} (lo : Reg.fldCtrl 0 ≤ a) (hi : a < Reg.fldCtrl 8) : ¬ AccessReg a := by
  unfold Reg.fldCtrl at lo hi
  rintro (⟨f, hf, r, hr, rfl⟩ | ⟨m, hm, rfl | rfl⟩ | ⟨c, hc, rfl⟩ | rfl | rfl | rfl) <;>
    simp only [Reg.yokeLevel, Reg.furSbErr, Reg.furSbEccCnt, Reg.dramChEcc, Reg.dramErr, Reg.dramErrAddrLo,
      Reg.dramErrAddrHi] at lo hi <;> omega

theorem dramChannel_lt (b : Nat) : dramChannel b < 32 :=
  Nat.xor_lt_two_pow (n := 5) (Nat.mod_lt _ (by decide)) (Nat.mod_lt _ (by decide))

theorem seedbedOf_lt {a n : Nat} (h : seedbedOf a = some n) : n < 64 := by
  unfold seedbedOf at h
  split at h
  · cases h
    exact Nat.mod_lt _ (by decide)
  · cases h

theorem fieldOf_lt {s : State} {n f : Nat} (h : s.fieldOf n = some f) : f < 8 := by
  unfold State.fieldOf at h
  split at h
  · cases h
    exact Nat.mod_lt _ (by decide)
  · cases h

/-! Charges (R215 to R217). -/

/-- t is s but for the levels and the queues of the yokes. -/
structure Charged (s t : State) : Prop where
  frame : t = { s with regs := t.regs, yokes := t.yokes }
  regs : ∀ a, ¬ YokeLevelReg a → t.reg a = s.reg a

section
variable {s t : State}

theorem Charged.refl : Charged s s := ⟨rfl, fun _ _ => rfl⟩

theorem Charged.ite {b : Prop} {_ : Decidable b} {t' : State} (h : Charged s t) (h' : Charged s t') :
    Charged s (if b then t else t') := by
  split <;> assumption

theorem Charged.setYokeLevel {f r : Nat} {v : Int} (h : Charged s t) (hf : f < 8) (hr : r < 3) :
    Charged s (t.setYokeLevel f r v) where
  frame := congrArg (fun u : State => { u with regs := (t.setYokeLevel f r v).regs }) h.frame
  regs a ha := (State.reg_setReg_ne _ _ fun e => ha ⟨f, hf, r, hr, e⟩).trans (h.regs a ha)

theorem Charged.setYoke {f r : Nat} {y : Yoke} (h : Charged s t) : Charged s (t.setYoke f r y) where
  frame := congrArg (fun u : State => { u with yokes := (t.setYoke f r y).yokes }) h.frame
  regs := h.regs

/-- A request that is no frame's changes nothing else as it is admitted. -/
theorem admitAtOnce_of_not_frame {u : YokeUser} (hu : ∀ i, u ≠ .frame i) (s : State) : admitAtOnce s u = s := by
  cases u with
  | frame i => exact absurd rfl (hu i)
  | _ => rfl

theorem Charged.yokeRequest {f r : Nat} {q : YokeRequest} (h : Charged s t) (hf : f < 8) (hr : r < 3)
    (hu : ∀ i, q.user ≠ .frame i) : Charged s (yokeRequest t f r q) := by
  unfold Machine.yokeRequest
  rw [admitAtOnce_of_not_frame hu, admitAtOnce_of_not_frame hu]
  exact ite h (ite (h.setYokeLevel hf hr) h.setYoke)

theorem Charged.chargeAccess {u : YokeUser} {m a n : Nat} {system : Bool} (h : Charged s t)
    (hu : ∀ i, u ≠ .frame i) : Charged s (chargeAccess t u m system a n) := by
  unfold Machine.chargeAccess
  split
  · exact h
  · next f hf =>
    have hf := fieldOf_lt hf
    have hdram : Charged s (if t.region a == some .dram then Machine.yokeRequest t f 0 ⟨ceilDiv n 64, u⟩ else t) :=
      ite (h.yokeRequest hf (by decide) hu) h
    exact ite h (ite hdram (hdram.yokeRequest hf (by decide) hu))

theorem Charged.taskCharge {n : Nat} {k : Task} {xs : List (Nat × Nat)} (h : Charged s t) :
    Charged s (taskCharge t n k xs) :=
  foldl_induct (P := Charged s) xs h fun _ _ _ h => h.chargeAccess nofun

end

/-! Accesses. -/

/-- t is s after accesses of memory, their charges and the fetch of descriptors: registers other than theirs, hoppers,
TIME_NOW and the queue stay, of the Furrows the write-backs that wait and the descriptor buffers alone differ, and the
fault-report network holds more events. -/
structure Accessed (s t : State) : Prop where
  regs : ∀ a, ¬ AccessReg a → t.reg a = s.reg a
  hoppers : t.hoppers = s.hoppers
  time : t.time = s.time
  pending : t.pending = s.pending
  furrow : ∀ m, t.furrow m =
    { s.furrow m with writeBack := (t.furrow m).writeBack, buffer := (t.furrow m).buffer }
  net : s.island.net <+: t.island.net

section
variable {s t : State}

theorem Accessed.refl : Accessed s s := ⟨fun _ _ => rfl, rfl, rfl, rfl, fun _ => rfl, List.prefix_rfl⟩

theorem Accessed.trans {u : State} (h : Accessed s t) (h' : Accessed t u) : Accessed s u where
  regs a ha := (h'.regs a ha).trans (h.regs a ha)
  hoppers := h'.hoppers.trans h.hoppers
  time := h'.time.trans h.time
  pending := h'.pending.trans h.pending
  furrow m := by rw [h'.furrow m, h.furrow m]
  net := h.net.trans h'.net

theorem Accessed.ite {b : Prop} {_ : Decidable b} {t' : State} (h : Accessed s t) (h' : Accessed s t') :
    Accessed s (if b then t else t') := by
  split <;> assumption

theorem Accessed.foldl {α : Type} {f : State → α → State} {xs : List α} (h : Accessed s t)
    (hf : ∀ t x, Accessed s t → Accessed s (f t x)) : Accessed s (xs.foldl f t) :=
  foldl_induct (P := Accessed s) xs h fun t x _ => hf t x

theorem Accessed.forUpTo {n : Nat} {f : Nat → State → State} (h : Accessed s t)
    (hf : ∀ i t, Accessed s t → Accessed s (f i t)) : Accessed s (forUpTo n f t) :=
  forUpTo_induct (P := Accessed s) h fun i t _ => hf i t

theorem Accessed.charged {u : State} (h : Accessed s t) (hc : Charged t u) : Accessed s u := by
  refine h.trans ⟨fun a ha => hc.regs a fun e => ha (.inl e), ?_, ?_, ?_, fun m => ?_, ?_⟩
  all_goals rw [hc.frame]
  rfl

/-! Updates. -/

theorem Accessed.setReg {a : Nat} {v : Word} (h : Accessed s t) (ha : AccessReg a) : Accessed s (t.setReg a v) :=
  { h with regs := fun b hb => (State.reg_setReg_ne _ _ fun e : b = a => hb (e ▸ ha)).trans (h.regs b hb) }

theorem Accessed.setBits {a msb lsb v : Nat} (h : Accessed s t) (ha : AccessReg a) :
    Accessed s (t.setBits a msb lsb v) := h.setReg ha

theorem Accessed.setBit {a i : Nat} {b : Bool} (h : Accessed s t) (ha : AccessReg a) : Accessed s (t.setBit a i b) :=
  h.setReg ha

theorem Accessed.addSat {a msb lsb k : Nat} (h : Accessed s t) (ha : AccessReg a) :
    Accessed s (t.addSat a msb lsb k) := h.setReg ha

theorem Accessed.raise {e : Event} (h : Accessed s t) : Accessed s (t.raise e) :=
  { h with net := h.net.trans (List.prefix_append _ _) }

theorem Accessed.setMark {g : Nat} {m : Mark} (h : Accessed s t) : Accessed s (t.setMark g m) := { h with }

theorem Accessed.markRange {a n : Nat} {m : Mark} (h : Accessed s t) : Accessed s (t.markRange a n m) :=
  h.foldl fun _ _ h => h.setMark

theorem Accessed.poke {a : Nat} {bs : List Byte} (h : Accessed s t) : Accessed s (t.poke a bs) := { h with }

theorem Accessed.setFurrow {n : Nat} {wb : List (Nat × Nat)} {buffer : Option DescBuffer} (h : Accessed s t) :
    Accessed s (t.setFurrow n { t.furrow n with writeBack := wb, buffer := buffer }) :=
  { h with
    furrow := fun m => by
      rw [State.furrow_setFurrow]
      split
      · next e => rw [e, h.furrow n]
      · exact h.furrow m }

/-! Seedbeds. -/

theorem Accessed.seedError {n granule : Nat} {uncorr scrub : Bool} (h : Accessed s t) (hn : n < 64) :
    Accessed s (seedError t n granule uncorr scrub) :=
  have herr := accessReg_furSbErr hn
  have hcount := accessReg_furSbEccCnt hn
  have hset := (ite (b := (uncorr || !t.bit (Reg.furSbErr n) 31) = true) ((h.setBits herr).setBit herr) h).setBit herr
  ite (hset.addSat hcount) (hset.addSat hcount)

theorem Accessed.readSeedRow {n row : Nat} {upsets : List Upset} (h : Accessed s t) (hn : n < 64) :
    Accessed s (readSeedRow t n row upsets) := by
  unfold Machine.readSeedRow
  refine h.forUpTo fun _ _ h => ?_
  dsimp only
  split
  · exact h.setMark
  · exact (h.setMark.seedError hn).raise
  · exact (h.setMark.seedError hn).raise

theorem Accessed.cancelWriteBacks {a n : Nat} (h : Accessed s t) : Accessed s (cancelWriteBacks t a n) := by
  unfold Machine.cancelWriteBacks
  split
  · exact ite h h.setFurrow
  · exact h

theorem Accessed.writeSeed {a : Nat} {bs : List Byte} {poison : Bool} (h : Accessed s t) :
    Accessed s (writeSeed t a bs poison) := h.cancelWriteBacks.poke.markRange

/-! DRAM. -/

theorem Accessed.setBlockMark {b : Nat} {m : Mark} (h : Accessed s t) : Accessed s (setBlockMark t b m) :=
  h.setMark.setMark

theorem Accessed.dramError {b : Nat} {uncorr scrub : Bool} (h : Accessed s t) :
    Accessed s (dramError t b uncorr scrub) :=
  have herr := accessReg_dramErr
  have hcount := accessReg_dramChEcc (dramChannel_lt b)
  have hset := (ite (b := (uncorr || !t.bit Reg.dramErr 31) = true)
    ((((h.setReg accessReg_dramErrAddrLo).setReg accessReg_dramErrAddrHi).setBit herr).setBits herr) h).setBit herr
  ite (hset.addSat hcount) (hset.addSat hcount)

theorem Accessed.checkBlock {b : Nat} {u : Upset} {scrub : Bool} (h : Accessed s t) :
    Accessed s (checkBlock t b u scrub) := by
  unfold Machine.checkBlock
  dsimp only
  split
  · exact h.setBlockMark
  · exact h.setBlockMark.dramError.raise
  · exact h.setBlockMark.dramError.raise
  · exact h.setBlockMark.dramError.raise

theorem Accessed.writeBlock {b off : Nat} {bs : List Byte} {poison : Bool} {u : Upset} (h : Accessed s t) :
    Accessed s (writeBlock t b off bs poison u) := ite h.poke.setBlockMark h.checkBlock.poke.setBlockMark

theorem Accessed.writeDram {a : Nat} {bs : List Byte} {poison : Bool} {u : Upset} {fuel : Nat} (h : Accessed s t) :
    Accessed s (writeDram t a bs poison u fuel) := by
  induction fuel generalizing t a bs with
  | zero => exact h
  | succ fuel ih =>
    rw [Machine.writeDram]
    exact ite h (ih h.writeBlock)

/-! Any memory. -/

theorem Accessed.store {a : Nat} {bs : List Byte} {poison : Bool} (h : Accessed s t) :
    Accessed s (t.store a bs poison) := ite h.writeDram (ite h.writeSeed h.poke.markRange)

theorem Accessed.storeGranule {a : Nat} {bs : List Byte} (h : Accessed s t) : Accessed s (storeGranule t a bs) :=
  ite h.raise h.store

theorem Accessed.noteRead {a n : Nat} (h : Accessed s t) : Accessed s (noteRead t a n) := by
  unfold Machine.noteRead
  split
  · exact h
  · split
    · exact h.forUpTo fun _ _ h => h.checkBlock
    · split
      · next m hm => exact h.forUpTo fun _ _ h => h.readSeedRow (seedbedOf_lt hm)
      · exact h

/-! The descriptor buffer (R206). -/

theorem Accessed.fillBuffer {n : Nat} (h : Accessed s t) : Accessed s (fillBuffer t n) := by
  unfold Machine.fillBuffer
  split
  · exact ite h h.noteRead.setFurrow
  · exact h

theorem Accessed.refreshBuffer {n : Nat} (h : Accessed s t) : Accessed s (refreshBuffer t n) := by
  unfold Machine.refreshBuffer
  split
  · exact ite h.fillBuffer (h.setFurrow.charged (Charged.refl.chargeAccess (u := .fetch n) nofun)).fillBuffer
  · exact h

/-! What is read of a Furrow, a hopper or a register then. -/

theorem Accessed.task (h : Accessed s t) (m : Nat) : (t.furrow m).task = (s.furrow m).task := by
  rw [h.furrow m]

theorem Accessed.unacked (h : Accessed s t) (m : Nat) : (t.furrow m).unacked = (s.furrow m).unacked := by
  rw [h.furrow m]

theorem Accessed.hopper (h : Accessed s t) (k : Nat) : t.hopper k = s.hopper k := by
  rw [State.hopper, h.hoppers, State.hopper]

theorem Accessed.now (h : Accessed s t) : t.now = s.now := by
  rw [State.now, h.time, State.now]

theorem Accessed.bits (h : Accessed s t) {a : Nat} (msb lsb : Nat) (ha : ¬ AccessReg a) :
    t.bits a msb lsb = s.bits a msb lsb := by
  rw [State.bits, h.regs a ha, State.bits]

theorem Accessed.bit (h : Accessed s t) {a : Nat} (i : Nat) (ha : ¬ AccessReg a) : t.bit a i = s.bit a i := by
  rw [State.bit, h.regs a ha, State.bit]

end

end Sys2Proof.Machine
end

section
/-! STUBBLE_WRITE_ACK: the acknowledged word and the generation of the slot it moves (R104, R130, R395). -/

namespace Sys2Proof.Machine

/-! A slot's change after a done use (R130). -/

theorem advanceSlot_eq (s : State) (x : SlotUse) : advanceSlot s x = { s with regs := (advanceSlot s x).regs } := by
  unfold advanceSlot
  dsimp only
  split
  · rfl
  · split <;> rfl

theorem advanceSlot_regs (s : State) (x : SlotUse) :
    SameRegsBut [Reg.furSbSlotGen x.furrow x.slot] s (advanceSlot s x) := fun a ha => by
  have hne := List.ne_of_not_mem_cons ha
  unfold advanceSlot
  dsimp only
  split
  · rw [State.reg_setBits_ne _ _ _ _ hne, State.reg_addWrap_ne _ _ _ _ hne]
  · split
    · rw [State.reg_setBits_ne _ _ _ _ hne, State.reg_addWrap_ne _ _ _ _ hne]
    · exact State.reg_setBits_ne _ _ _ _ hne

section
variable (s : State) {x : SlotUse}

theorem addWrap_then_setBits_gen (r v : Nat) :
    ((s.addWrap r 15 0).setBits r 19 16 v).bits r 15 0 = (s.bits r 15 0 + 1) % 2 ^ 16 := by
  rw [State.bits_setBits_of_disjoint _ _ _ _ (by decide) (by omega), State.bits_addWrap_self _ _ _ _ (by decide)]

/-- A write makes its slot readable by the count of readers that the slot is set to. -/
theorem advanceSlot_of_write (h : x.write = true) :
    (advanceSlot s x).bits (Reg.furSbSlotGen x.furrow x.slot) 15 0 =
        (s.bits (Reg.furSbSlotGen x.furrow x.slot) 15 0 + 1) % 2 ^ 16 ∧
      (advanceSlot s x).bits (Reg.furSbSlotGen x.furrow x.slot) 19 16 =
        s.bits (Reg.furSbSlotGen x.furrow x.slot) 23 20 := by
  rw [advanceSlot, if_pos h]
  refine ⟨addWrap_then_setBits_gen s _ _, ?_⟩
  rw [State.bits_setBits_self _ _ _ _ (by decide)]
  exact Nat.mod_eq_of_lt (Nat.mod_lt _ (Nat.two_pow_pos _))

/-- The last read frees its slot. -/
theorem advanceSlot_of_last_read (h : x.write = false)
    (hleft : s.bits (Reg.furSbSlotGen x.furrow x.slot) 19 16 ≤ 1) :
    (advanceSlot s x).bits (Reg.furSbSlotGen x.furrow x.slot) 15 0 =
        (s.bits (Reg.furSbSlotGen x.furrow x.slot) 15 0 + 1) % 2 ^ 16 ∧
      (advanceSlot s x).bits (Reg.furSbSlotGen x.furrow x.slot) 19 16 = 0 := by
  rw [advanceSlot, if_neg (Bool.eq_false_iff.mp h), if_pos hleft]
  exact ⟨addWrap_then_setBits_gen s _ _, State.bits_setBits_self _ _ _ _ (by decide)⟩

/-- An earlier read counts one reader off. -/
theorem advanceSlot_of_read (h : x.write = false)
    (hleft : 1 < s.bits (Reg.furSbSlotGen x.furrow x.slot) 19 16) :
    (advanceSlot s x).bits (Reg.furSbSlotGen x.furrow x.slot) 15 0 =
        s.bits (Reg.furSbSlotGen x.furrow x.slot) 15 0 ∧
      (advanceSlot s x).bits (Reg.furSbSlotGen x.furrow x.slot) 19 16 =
        s.bits (Reg.furSbSlotGen x.furrow x.slot) 19 16 - 1 := by
  have hlt : s.bits (Reg.furSbSlotGen x.furrow x.slot) 19 16 < 2 ^ (19 + 1 - 16) := Nat.mod_lt _ (Nat.two_pow_pos _)
  rw [advanceSlot, if_neg (Bool.eq_false_iff.mp h), if_neg (Nat.not_le.mpr hleft)]
  refine ⟨State.bits_setBits_of_disjoint _ _ _ _ (by decide) (by omega), ?_⟩
  rw [State.bits_setBits_self _ _ _ _ (by decide)]
  exact Nat.mod_eq_of_lt (Nat.lt_of_le_of_lt (Nat.sub_le _ _) hlt)

/-! The note of a change (R135). -/

theorem noteAdvance_furrow (x : SlotUse) (m : Nat) :
    (noteAdvance s x).furrow m = { s.furrow m with advanced := ((noteAdvance s x).furrow m).advanced } := by
  rw [noteAdvance, State.furrow_setFurrow]
  split
  · next h => rw [h]
  · rfl

/-- A slot's note and change write its register and the list of changes alone. -/
theorem advanced_eq (x : SlotUse) : advanceSlot (noteAdvance s x) x =
    { s with regs := (advanceSlot (noteAdvance s x) x).regs, furrows := (noteAdvance s x).furrows } :=
  advanceSlot_eq (noteAdvance s x) x

theorem advanced_furrow (x : SlotUse) (m : Nat) : (advanceSlot (noteAdvance s x) x).furrow m =
    { s.furrow m with advanced := ((advanceSlot (noteAdvance s x) x).furrow m).advanced } := by
  rw [show (advanceSlot (noteAdvance s x) x).furrow m = (noteAdvance s x).furrow m by rw [advanced_eq]; rfl]
  exact noteAdvance_furrow s x m

end

/-! What an acknowledgement takes. -/

/-- The state once write u of Furrow n is taken and its word has landed (log 37). -/
def landAcked (s : State) (n : Nat) (u : Unacked) : State :=
  let taken := s.setFurrow n { s.furrow n with unacked := (s.furrow n).unacked.erase u }
  match u.word with
  | some (a, w) => storeGranule taken a w
  | none => taken

theorem landAcked_accessed (s : State) (n : Nat) (u : Unacked) :
    Accessed (s.setFurrow n { s.furrow n with unacked := (s.furrow n).unacked.erase u }) (landAcked s n u) := by
  unfold landAcked
  dsimp only
  split
  · exact Accessed.refl.storeGranule
  · exact Accessed.refl

theorem landAcked_unacked (s : State) (n : Nat) (u : Unacked) :
    ((landAcked s n u).furrow n).unacked = (s.furrow n).unacked.erase u := by
  rw [(landAcked_accessed s n u).unacked, State.furrow_setFurrow_self]

theorem landAcked_pending (s : State) (n : Nat) (u : Unacked) : (landAcked s n u).pending = s.pending :=
  (landAcked_accessed s n u).pending

section
variable {s : State} {n : Nat} {u : Unacked}

theorem stubbleAck_of_none (h : (s.furrow n).unacked.find? (s.ackable n) = none) : stubbleAck s n = s := by
  simp only [stubbleAck, h]

theorem stubbleAck_of_faulted (h : (s.furrow n).unacked.find? (s.ackable n) = some u) (hd : u.done = false) :
    stubbleAck s n = landAcked s n u := by
  simp only [stubbleAck, h, hd, Bool.not_false, if_true]
  rfl

/-- A done task that consumed no round and is in no stage of a martingale moves the slots it used alone. -/
theorem stubbleAck_of_done (h : (s.furrow n).unacked.find? (s.ackable n) = some u) (hd : u.done = true)
    (hb : u.buffers = []) (hg : u.stageNo = 0) :
    stubbleAck s n = u.uses.foldl (fun s x => advanceSlot (noteAdvance s x) x) (landAcked s n u) := by
  simp only [stubbleAck, h, hd, hb, hg, checkInTask, ne_eq, not_true_eq_false, false_and, if_false, Bool.not_true,
    Bool.false_eq_true, List.foldl_nil]
  rfl

end

end Sys2Proof.Machine

open Sys2Proof Sys2Proof.Machine

/-- Settles O14: the word lands, then the slot's note and change, whose three cases are advanceSlot's. -/
theorem stubbleAckMovesGenerations : Obligations.StubbleAckMovesGenerations := by
  intro s n hh hn
  have hx {u : State} (e : stubbleAck s n = u) : exec (.stubbleWriteAck n) s = live s u := by
    rw [exec, execStubbleWriteAck, withUnit_of hn, e]
  refine ⟨fun h => answers_of_live (hx (stubbleAck_of_none h)) hh, fun u hu => ?_⟩
  intro us taken v
  refine ⟨fun hd => answers_of_live (hx (stubbleAck_of_faulted hu hd)) hh, fun hd huses hb hg => ?_,
    fun x hd huses hb hg => ?_⟩
  · have e := stubbleAck_of_done hu hd hb hg
    rw [huses] at e
    exact answers_of_live (hx e) hh
  · intro r
    have e := stubbleAck_of_done hu hd hb hg
    rw [huses, List.foldl_cons, List.foldl_nil] at e
    have hus : (v.furrow n).unacked = us := landAcked_unacked s n u
    have hpending : v.pending = s.pending := landAcked_pending s n u
    refine yields_of_live (u := advanceSlot (noteAdvance v x) x) (hx e) hh ⟨?_, ?_, ?_, ?_, ?_, ?_, ?_⟩
    · rw [State.withQueue_furrow, advanced_furrow, hus]
    · exact advanceSlot_regs (noteAdvance v x) x
    · exact advanced_furrow v x
    · rw [advanced_eq, ← hpending]
      rfl
    · exact advanceSlot_of_write (noteAdvance v x)
    · exact advanceSlot_of_last_read (noteAdvance v x)
    · exact advanceSlot_of_read (noteAdvance v x)
end

section
/-! The end of a faulted task, and its hopper's retry or freeze (R103, R199, R203). -/

namespace Sys2Proof.Machine

/-! Registers that a Furrow shows. -/

theorem OnlyRegs.showEvents {s t : State} {n : Nat} {events : List Nat} (h : OnlyRegs s t) :
    OnlyRegs s (showEvents t n events) :=
  forUpTo_induct (P := OnlyRegs s) h fun _ _ _ h => h.setReg

theorem showEvents_eq (s : State) (n : Nat) (events : List Nat) :
    showEvents s n events = { s with regs := (showEvents s n events).regs } := OnlyRegs.refl.showEvents

theorem showEvents_hopper (s : State) (n : Nat) (events : List Nat) (h : Nat) :
    (showEvents s n events).hopper h = s.hopper h := by
  rw [showEvents_eq]
  rfl

theorem showEvents_island (s : State) (n : Nat) (events : List Nat) : (showEvents s n events).island = s.island := by
  rw [showEvents_eq]

theorem OnlyRegs.showFence {s t : State} {n : Nat} (h : OnlyRegs s t) : OnlyRegs s (showFence t n) := h.setBits.setBit

/-- The registers that the end of a task on Furrow n writes, its fault entry apart. -/
def endRegs (n : Nat) : List Nat :=
  [Reg.furStatus n, Reg.furTask n, Reg.furTaskCycles n, Reg.furHwFenceStatus n] ++ (List.range 4).map (Reg.furFmtCnt n)

theorem mem_endRegs {n a : Nat} : a ∈ endRegs n ↔ a = Reg.furStatus n ∨ a = Reg.furTask n ∨ a = Reg.furTaskCycles n ∨
    a = Reg.furHwFenceStatus n ∨ ∃ k < 4, Reg.furFmtCnt n k = a := by
  simp [endRegs]

theorem furFault_not_endRegs (n : Nat) : Reg.furFault n ∉ endRegs n := by
  rw [mem_endRegs]
  unfold Reg.furFault Reg.furStatus Reg.furTask Reg.furTaskCycles Reg.furHwFenceStatus Reg.furFmtCnt
  rintro (h | h | h | h | ⟨k, hk, h⟩) <;> omega

theorem fldStatus_not_endRegs {n : Nat} (hn : n < 64) (f : Nat) : Reg.fldStatus f ∉ endRegs n := by
  rw [mem_endRegs]
  unfold Reg.fldStatus Reg.furStatus Reg.furTask Reg.furTaskCycles Reg.furHwFenceStatus Reg.furFmtCnt
  rintro (h | h | h | h | ⟨k, hk, h⟩) <;> omega

theorem SameRegsBut.showEvents {s t : State} {n : Nat} {events : List Nat} (h : SameRegsBut (endRegs n) s t) :
    SameRegsBut (endRegs n) s (showEvents t n events) :=
  forUpTo_induct (P := SameRegsBut (endRegs n) s) h fun _ _ hk h =>
    h.setReg (List.mem_append_right _ (List.mem_map_of_mem (List.mem_range.mpr hk)))

theorem SameRegsBut.showFence {as : List Nat} {s t : State} {n : Nat} (h : SameRegsBut as s t)
    (hm : Reg.furHwFenceStatus n ∈ as) : SameRegsBut as s (showFence t n) := (h.setBits hm).setBit hm

/-! The Furrow once it is free. -/

theorem freeFurrow_onlyRegs (s : State) (n cycles : Nat) (events : List Nat) :
    OnlyRegs (setTask s n none) (freeFurrow s n cycles events) := by
  unfold freeFurrow
  dsimp only
  split
  · exact OnlyRegs.refl.setBit.setBits.showEvents.showFence
  · exact OnlyRegs.refl.setBits.setBit.setBits.showEvents.showFence

theorem freeFurrow_regs (s : State) (n cycles : Nat) (events : List Nat) :
    SameRegsBut (endRegs n) s (freeFurrow s n cycles events) := by
  have hstatus : Reg.furStatus n ∈ endRegs n := by simp [endRegs]
  have htask : Reg.furTask n ∈ endRegs n := by simp [endRegs]
  have hcycles : Reg.furTaskCycles n ∈ endRegs n := by simp [endRegs]
  have hfence : Reg.furHwFenceStatus n ∈ endRegs n := by simp [endRegs]
  have h : SameRegsBut (endRegs n) s (setTask s n none) := SameRegsBut.refl
  unfold freeFurrow
  dsimp only
  split
  · exact (((h.setBit htask).setBits hcycles).showEvents).showFence hfence
  · exact ((((h.setBits hstatus).setBit htask).setBits hcycles).showEvents).showFence hfence

theorem freeFurrow_task (s : State) (n cycles : Nat) (events : List Nat) :
    ((freeFurrow s n cycles events).furrow n).task = none := by
  rw [freeFurrow_onlyRegs]
  exact setTask_task s n none

theorem showEvents_reg {n a : Nat} (s : State) (events : List Nat) (h : a < Reg.furFmtCnt n 0) :
    (showEvents s n events).reg a = s.reg a :=
  forUpTo_induct (P := fun t : State => t.reg a = s.reg a) rfl fun k _ _ ht =>
    (State.reg_setReg_ne _ _ (by unfold Reg.furFmtCnt at h ⊢; omega)).trans ht

theorem showFence_reg {n a : Nat} (s : State) (h : a ≠ Reg.furHwFenceStatus n) : (showFence s n).reg a = s.reg a := by
  rw [showFence, State.reg_setBit_ne _ _ _ h, State.reg_setBits_ne _ _ _ _ h]

/-- FUR_TASK shows no task any more. -/
theorem freeFurrow_shows_none (s : State) (n cycles : Nat) (events : List Nat) :
    (freeFurrow s n cycles events).bit (Reg.furTask n) 31 = false := by
  have hcycles : Reg.furTask n ≠ Reg.furTaskCycles n := by unfold Reg.furTask Reg.furTaskCycles; omega
  have hevents : Reg.furTask n < Reg.furFmtCnt n 0 := by unfold Reg.furTask Reg.furFmtCnt; omega
  have hfence : Reg.furTask n ≠ Reg.furHwFenceStatus n := by unfold Reg.furTask Reg.furHwFenceStatus; omega
  rw [freeFurrow, State.bit, showFence_reg _ hfence, showEvents_reg _ _ hevents, State.reg_setBits_ne _ _ _ _ hcycles]
  exact State.bit_setBit_self _ _ _ (by decide)

/-! The final stubble write of a user task (R215). -/

/-- The write of a user task waits for its acknowledgement: besides the Furrow's record of it, it changes what its charge
does. -/
theorem issueFinal_of_user {t : Task} (s : State) (n cause state : Nat) (u : Unacked) (h : isSystem t.hopper = false) :
    (issueFinal s n t cause state u).island = s.island ∧ (issueFinal s n t cause state u).hoppers = s.hoppers ∧
      ∀ a, ¬ YokeLevelReg a → (issueFinal s n t cause state u).reg a = s.reg a := by
  have hc : ∃ f, Charged (s.setFurrow n f) (issueFinal s n t cause state u) := by
    rw [issueFinal, if_neg (Bool.eq_false_iff.mp h)]
    exact ⟨_, Charged.refl.chargeAccess nofun⟩
  obtain ⟨f, hc⟩ := hc
  refine ⟨?_, ?_, hc.regs⟩ <;> rw [hc.frame] <;> rfl

/-! The fault entry of a task (R103, R195). -/

/-- The state in which FUR_FAULT and the hopper's entry show a task's fault code, and FUR_FMT_CNT its events. -/
def showFault (s : State) (n : Nat) (t : Task) (code : Nat) : State :=
  showEvents (((s.setBits (Reg.furFault n) 15 0 code).setBit (Reg.furFault n) 16 true).setHopper t.hopper
    { s.hopper t.hopper with fault := code }) n t.events

section
variable (s : State) {n : Nat} (t : Task) (code : Nat)

theorem showFault_furFault : (showFault s n t code).bits (Reg.furFault n) 15 0 = code % 2 ^ 16 ∧
    (showFault s n t code).bit (Reg.furFault n) 16 = true := by
  have hevents : Reg.furFault n < Reg.furFmtCnt n 0 := by unfold Reg.furFault Reg.furFmtCnt; omega
  rw [State.bits, State.bit, showFault, showEvents_reg _ _ hevents, State.setHopper_reg, ← State.bits, ← State.bit,
    State.bits_setBit_of_disjoint _ _ _ _ (by decide) (.inr (.inl (by decide))), State.bits_setBits_self _ _ _ _ (by decide)]
  exact ⟨rfl, State.bit_setBit_self _ _ _ (by decide)⟩

theorem showFault_hopper : (showFault s n t code).hopper t.hopper = { s.hopper t.hopper with fault := code } := by
  rw [showFault, showEvents_hopper, State.hopper_setHopper_self]

theorem showFault_island : (showFault s n t code).island = s.island := by
  rw [showFault, showEvents_island, State.setHopper_island, State.setBit_island, State.setBits_island]

theorem showFault_fieldState (hn : n < 64) (f : Nat) : (showFault s n t code).fieldState f = s.fieldState f := by
  have hne : Reg.fldStatus f ≠ Reg.furFault n := by unfold Reg.fldStatus Reg.furFault; omega
  have h : SameRegsBut (endRegs n) _ (showFault s n t code) := SameRegsBut.refl.showEvents
  rw [State.fieldState, State.bits, h _ (fldStatus_not_endRegs hn f), State.setHopper_reg, State.reg_setBit_ne _ _ _ hne,
    State.reg_setBits_ne _ _ _ _ hne, State.fieldState, State.bits]

end

/-! The report of a faulted task (R103). -/

/-- The state in which a faulted task's cause is shown and its final stubble write issued, where it may be written. -/
def postFault (s : State) (n : Nat) (t : Task) (cause : Nat) : State :=
  if t.stubble then
    issueFinal (showFault s n t (0x2000 + cause)) n t cause 4
      { hopper := t.hopper, done := false, uses := [], stageNo := 0, capture := none, buffers := [] }
  else showFault s n t (0x2000 + cause)

theorem endFaulted_eq (s : State) (n : Nat) (t : Task) (cause : Nat) (field : Option Nat) :
    endFaulted s n t cause field = (postFault s n t cause).raise (taskFaultEvent n cause field) := by
  simp only [endFaulted, postFault, showFault, State.setBit_hopper, State.setBits_hopper]

/-- The final stubble write of a user task is charged besides (R215). -/
theorem postFault_of_user {t : Task} (s : State) (n cause : Nat) (h : isSystem t.hopper = false) :
    (postFault s n t cause).island = s.island ∧
      (postFault s n t cause).hoppers = (showFault s n t (0x2000 + cause)).hoppers ∧
      ∀ a, ¬ YokeLevelReg a → (postFault s n t cause).reg a = (showFault s n t (0x2000 + cause)).reg a := by
  have hshown := showFault_island s (n := n) t (0x2000 + cause)
  by_cases hs : t.stubble = true
  · rw [postFault, if_pos hs]
    obtain ⟨hisland, hhoppers, hregs⟩ := issueFinal_of_user (showFault s n t (0x2000 + cause)) n cause 4
      { hopper := t.hopper, done := false, uses := [], stageNo := 0, capture := none, buffers := [] } h
    exact ⟨hisland.trans hshown, hhoppers, hregs⟩
  · rw [postFault, if_neg hs]
    exact ⟨hshown, rfl, fun _ _ => rfl⟩

/-! Its hopper (R199). -/

/-- A fault is tried again, or its tries are used up, only in class F2 and while the Field does not stop. -/
abbrev State.triesAgain (s : State) (h cause : Nat) : Prop :=
  causeClass cause = 2 ∧ s.fieldState (s.hopper h).field ≠ fldStopping ∧ (s.hopper h).tries < (s.hopper h).retries

/-- The event of a hopper whose tries are used up. -/
abbrev State.triesUsedUp (s : State) (h cause : Nat) : Prop :=
  causeClass cause = 2 ∧ s.fieldState (s.hopper h).field ≠ fldStopping ∧ (s.hopper h).retries ≤ (s.hopper h).tries

section
variable (s : State) (h cause : Nat)

theorem hopperFaulted_hopper : (hopperFaulted s h cause).hopper h =
    { s.hopper h with
      stage := if s.triesAgain h cause then .idle else .frozen
      tries := if s.triesAgain h cause then (s.hopper h).tries + 1 else (s.hopper h).tries } := by
  unfold hopperFaulted
  dsimp only
  split
  · next hf2 =>
    obtain ⟨hclass, hfield⟩ := hf2
    split
    · next htries => rw [State.hopper_setHopper_self, if_pos ⟨hclass, hfield, htries⟩, if_pos ⟨hclass, hfield, htries⟩]
    · next htries =>
      have hno : ¬ s.triesAgain h cause := fun ⟨_, _, hlt⟩ => htries hlt
      rw [State.raise_hopper, State.hopper_setHopper_self, if_neg hno, if_neg hno]
  · next hf2 =>
    have hno : ¬ s.triesAgain h cause := fun ⟨hclass, hfield, _⟩ => hf2 ⟨hclass, hfield⟩
    rw [State.hopper_setHopper_self, if_neg hno, if_neg hno]

theorem hopperFaulted_net : (hopperFaulted s h cause).island.net = s.island.net ++
    if s.triesUsedUp h cause then [{ code := 0x2204, cls := 3, inst := h, field := some (s.hopper h).field }] else [] := by
  unfold hopperFaulted
  dsimp only
  split
  · next hf2 =>
    obtain ⟨hclass, hfield⟩ := hf2
    split
    · next htries =>
      have hno : ¬ s.triesUsedUp h cause := fun ⟨_, _, hle⟩ => absurd htries (Nat.not_lt.mpr hle)
      rw [if_neg hno, List.append_nil, State.setHopper_island]
    · next htries => rw [if_pos ⟨hclass, hfield, Nat.le_of_not_lt htries⟩, State.raise_net, State.setHopper_island]
  · next hf2 =>
    have hno : ¬ s.triesUsedUp h cause := fun ⟨hclass, hfield, _⟩ => hf2 ⟨hclass, hfield⟩
    rw [if_neg hno, List.append_nil, State.setHopper_island]

theorem hopperFaulted_regs_furrows :
    (hopperFaulted s h cause).regs = s.regs ∧ (hopperFaulted s h cause).furrows = s.furrows := by
  unfold hopperFaulted
  dsimp only
  split
  · split <;> exact ⟨rfl, rfl⟩
  · exact ⟨rfl, rfl⟩

end

/-! TASK_DONE of a task that is to end faulted. -/

section
variable {s : State} {n : Nat} {t : Task} {cause : Nat}

/-- A task that its hopper alone ran ends faulted. -/
theorem taskDone_of_faulted (ht : (s.furrow n).task = some t) (hst : t.stage = .ending cause) (ho : t.outer = none) :
    taskDone s n = refreshBuffer (endTaskFaulted s n t cause) n := by
  simp only [taskDone, advanceTask_of_ending ht hst, ht, hst, finishFaulted, ho]

/-- The state of a faulted user task's end before its hopper goes on: the cause shown and reported, the Furrow free. -/
def faultedFree (s : State) (n : Nat) (t : Task) (cause : Nat) : State :=
  freeFurrow ((postFault s n t cause).raise (taskFaultEvent n cause (s.taskField n t))) n
    (((postFault s n t cause).raise (taskFaultEvent n cause (s.taskField n t))).ranCycles t) t.events

theorem endTaskFaulted_of_user (hs : isSystem t.hopper = false) :
    endTaskFaulted s n t cause = hopperFaulted (faultedFree s n t cause) t.hopper cause := by
  rw [endTaskFaulted, endFaulted_eq]
  exact if_neg (Bool.eq_false_iff.mp hs)

theorem faultedFree_island (hs : isSystem t.hopper = false) : (faultedFree s n t cause).island.net =
    s.island.net ++ [taskFaultEvent n cause (s.taskField n t)] := by
  obtain ⟨hisland, -, -⟩ := postFault_of_user s n cause hs
  rw [faultedFree, freeFurrow_onlyRegs, ← hisland]
  rfl

theorem faultedFree_hopper (hs : isSystem t.hopper = false) : (faultedFree s n t cause).hopper t.hopper =
    { s.hopper t.hopper with fault := 0x2000 + cause } := by
  obtain ⟨-, hhoppers, -⟩ := postFault_of_user s n cause hs
  rw [← showFault_hopper s (n := n) t (0x2000 + cause), State.hopper, State.hopper, ← hhoppers, faultedFree,
    freeFurrow_onlyRegs]
  rfl

/-- A register that only the fault entry of the Furrow may write. -/
theorem faultedFree_reg {a : Nat} (hs : isSystem t.hopper = false) (ha : ¬ YokeLevelReg a) (he : a ∉ endRegs n) :
    (faultedFree s n t cause).reg a = (showFault s n t (0x2000 + cause)).reg a := by
  obtain ⟨-, -, hregs⟩ := postFault_of_user s n cause hs
  rw [faultedFree, freeFurrow_regs _ n _ _ a he, State.raise_reg]
  exact hregs a ha

theorem faultedFree_fieldState (hn : n < 64) (hs : isSystem t.hopper = false) (f : Nat) :
    (faultedFree s n t cause).fieldState f = s.fieldState f := by
  have hyoke : ¬ YokeLevelReg (Reg.fldStatus f) := by
    rintro ⟨g, hg, r, hr, e⟩
    unfold Reg.fldStatus Reg.yokeLevel at e
    omega
  rw [State.fieldState, State.bits, faultedFree_reg hs hyoke (fldStatus_not_endRegs hn f)]
  exact showFault_fieldState s t _ hn f

theorem faultedFree_furFault (hn : n < 64) (hs : isSystem t.hopper = false) (hc : cause < 256) :
    (faultedFree s n t cause).bits (Reg.furFault n) 15 0 = 0x2000 + cause ∧
      (faultedFree s n t cause).bit (Reg.furFault n) 16 = true := by
  have hyoke : ¬ YokeLevelReg (Reg.furFault n) := fun h => not_accessReg_of_furrow hn
    (by unfold Reg.furId Reg.furFault; omega) (by unfold Reg.furFault Reg.furSbCtrl; omega) (.inl h)
  obtain ⟨hcode, hvalid⟩ := showFault_furFault s (n := n) t (0x2000 + cause)
  rw [State.bits, State.bit, faultedFree_reg hs hyoke (furFault_not_endRegs n)]
  exact ⟨hcode.trans (Nat.mod_eq_of_lt (by omega)), hvalid⟩

end

end Sys2Proof.Machine

open Sys2Proof Sys2Proof.Machine

/-- Settles O13: the cause is shown and reported, the Furrow is free, and its hopper's case is hopperFaulted's. -/
theorem taskFaultRetriesOrFreezes : Obligations.TaskFaultRetriesOrFreezes := by
  intro s n t cause hh hn ht hst ho hs hc x again usedUp
  have hx : exec (.taskDone n) s =
      live s (refreshBuffer (hopperFaulted (faultedFree s n t cause) t.hopper cause) n) := by
    rw [exec, execTaskDone, withUnit_of hn, taskDone_of_faulted ht hst ho, endTaskFaulted_of_user hs]
  have hacc : Accessed (hopperFaulted (faultedFree s n t cause) t.hopper cause)
      (refreshBuffer (hopperFaulted (faultedFree s n t cause) t.hopper cause) n) := Accessed.refl.refreshBuffer
  obtain ⟨hregs, hfurrows⟩ := hopperFaulted_regs_furrows (faultedFree s n t cause) t.hopper cause
  have hentry : (faultedFree s n t cause).hopper t.hopper = { x with fault := 0x2000 + cause } := faultedFree_hopper hs
  have hfield : (faultedFree s n t cause).fieldState x.field = s.fieldState x.field := faultedFree_fieldState hn hs _
  have hagain : (faultedFree s n t cause).triesAgain t.hopper cause ↔ again := by
    rw [State.triesAgain, hentry, hfield]
  have husedUp : (faultedFree s n t cause).triesUsedUp t.hopper cause ↔ usedUp := by
    rw [State.triesUsedUp, hentry, hfield]
  have hhopper := hopperFaulted_hopper (faultedFree s n t cause) t.hopper cause
  have hnet := hopperFaulted_net (faultedFree s n t cause) t.hopper cause
  have hfur {a : Nat} (lo : Reg.furId n ≤ a) (hi : a < Reg.furSbCtrl n) := not_accessReg_of_furrow hn lo hi
  have hfault := hfur (a := Reg.furFault n) (by unfold Reg.furId Reg.furFault; omega) (by unfold Reg.furFault Reg.furSbCtrl; omega)
  have htask := hfur (a := Reg.furTask n) (by unfold Reg.furId Reg.furTask; omega) (by unfold Reg.furTask Reg.furSbCtrl; omega)
  obtain ⟨hcode, hvalid⟩ := faultedFree_furFault (s := s) (t := t) hn hs hc
  refine yields_of_live hx hh ⟨?_, ?_, ?_, ?_, ?_, ?_, ?_, ?_, ?_, ?_⟩
  · rw [State.withQueue_bits, hacc.bits _ _ hfault, State.bits, State.reg, hregs]
    exact hcode
  · rw [State.withQueue_bit, hacc.bit _ hfault, State.bit, State.reg, hregs]
    exact hvalid
  · rw [State.withQueue_hopper, hacc.hopper]
    have hshown := congrArg Hopper.fault hentry
    exact (congrArg Hopper.fault hhopper).trans hshown
  · rw [State.withQueue_hopper, hacc.hopper]
    exact (congrArg Hopper.stage hhopper).trans (if_congr hagain rfl rfl)
  · rw [State.withQueue_hopper, hacc.hopper]
    have htries := congrArg Hopper.tries hentry
    exact (congrArg Hopper.tries hhopper).trans (if_congr hagain (congrArg (· + 1) htries) htries)
  · rw [State.withQueue_hopper, hacc.hopper]
    have hhead := congrArg Hopper.head hentry
    exact (congrArg Hopper.head hhopper).trans hhead
  · rw [State.withQueue_hopper, hacc.hopper]
    have hinflight := congrArg Hopper.inflight hentry
    exact (congrArg Hopper.inflight hhopper).trans hinflight
  · rw [State.withQueue_furrow, hacc.task, State.furrow, hfurrows]
    exact freeFurrow_task _ n _ _
  · rw [State.withQueue_bit, hacc.bit _ htask, State.bit, State.reg, hregs]
    exact freeFurrow_shows_none _ n _ _
  · obtain ⟨es, hes⟩ := hacc.net
    refine ⟨es, ?_⟩
    rw [State.withQueue_island, ← hes, hnet, faultedFree_island hs]
    refine congrArg (_ ++ · ++ es) (if_congr husedUp ?_ rfl)
    rw [hentry]
end

section
/-! The stop of a Field that runs or quiesces: its state, the trigger's code, and its running tasks (R200, R201, R203). -/

namespace Sys2Proof.Machine

/-! What follows a stop's record leaves the registers of the Fields and only adds events. -/

/-- A register of a Field. -/
def FieldReg (a : Nat) : Prop := Reg.fldCtrl 0 ≤ a ∧ a < Reg.fldCtrl 8

/-- From s to t the registers of the Fields and the running tasks stay, and the fault-report network only grows. -/
structure FieldsStay (s t : State) : Prop where
  regs : ∀ a, FieldReg a → t.reg a = s.reg a
  task : ∀ m, (t.furrow m).task = (s.furrow m).task
  net : s.island.net <+: t.island.net

section
variable {s t : State}

theorem FieldsStay.refl : FieldsStay s s := ⟨fun _ _ => rfl, fun _ => rfl, List.prefix_rfl⟩

theorem FieldsStay.ite {b : Prop} {_ : Decidable b} {t' : State} (h : FieldsStay s t) (h' : FieldsStay s t') :
    FieldsStay s (if b then t else t') := by
  split <;> assumption

theorem FieldsStay.foldl {α : Type} {f : State → α → State} {xs : List α} (h : FieldsStay s t)
    (hf : ∀ t, ∀ x ∈ xs, FieldsStay s t → FieldsStay s (f t x)) : FieldsStay s (xs.foldl f t) :=
  foldl_induct (P := FieldsStay s) xs h hf

theorem FieldsStay.forUpTo {n : Nat} {f : Nat → State → State} (h : FieldsStay s t)
    (hf : ∀ i < n, ∀ t, FieldsStay s t → FieldsStay s (f i t)) : FieldsStay s (forUpTo n f t) :=
  forUpTo_induct (P := FieldsStay s) h fun i t hi => hf i hi t

theorem FieldsStay.accessed {u : State} (h : FieldsStay s t) (ha : Accessed t u) : FieldsStay s u where
  regs a hf := (ha.regs a (not_accessReg_of_field hf.1 hf.2)).trans (h.regs a hf)
  task m := (ha.task m).trans (h.task m)
  net := h.net.trans ha.net

theorem FieldsStay.setReg {a : Nat} {v : Word} (h : FieldsStay s t) (ha : ¬ FieldReg a) : FieldsStay s (t.setReg a v) :=
  { h with regs := fun b hb => (State.reg_setReg_ne _ _ fun e : b = a => ha (e ▸ hb)).trans (h.regs b hb) }

theorem FieldsStay.setBits {a msb lsb v : Nat} (h : FieldsStay s t) (ha : ¬ FieldReg a) :
    FieldsStay s (t.setBits a msb lsb v) := h.setReg ha

theorem FieldsStay.setBit {a i : Nat} {b : Bool} (h : FieldsStay s t) (ha : ¬ FieldReg a) :
    FieldsStay s (t.setBit a i b) := h.setReg ha

theorem FieldsStay.setHopper {k : Nat} {x : Hopper} (h : FieldsStay s t) : FieldsStay s (t.setHopper k x) := { h with }

theorem FieldsStay.setField {f : Nat} {x : Field} (h : FieldsStay s t) : FieldsStay s (t.setField f x) := { h with }

theorem FieldsStay.setYoke {f r : Nat} {y : Yoke} (h : FieldsStay s t) : FieldsStay s (t.setYoke f r y) := { h with }

theorem FieldsStay.withDrove {d : Droveway} (h : FieldsStay s t) : FieldsStay s { t with drove := d } := { h with }

theorem FieldsStay.raise {e : Event} (h : FieldsStay s t) : FieldsStay s (t.raise e) :=
  { h with net := h.net.trans (List.prefix_append _ _) }

theorem FieldsStay.setFurrow {n : Nat} {x : Furrow} (h : FieldsStay s t) (hx : x.task = (t.furrow n).task) :
    FieldsStay s (t.setFurrow n x) :=
  { h with
    task := fun m => by
      rw [State.furrow_setFurrow]
      split
      · next e => rw [hx, e, h.task n]
      · exact h.task m }

/-! The tasks that were parked end faulted (R203). -/

theorem FieldsStay.showEvents {n : Nat} {events : List Nat} (h : FieldsStay s t) (hn : n < 64) :
    FieldsStay s (showEvents t n events) :=
  h.forUpTo fun k hk _ h => h.setReg fun ⟨lo, _⟩ => by unfold Reg.furFmtCnt Reg.fldCtrl at lo; omega

theorem FieldsStay.issueFinal {n cause state : Nat} {k : Task} {u : Unacked} (h : FieldsStay s t) :
    FieldsStay s (issueFinal t n k cause state u) := by
  unfold Machine.issueFinal
  dsimp only
  split
  · refine (h.setFurrow ?_).accessed Accessed.refl.storeGranule
    rfl
  · refine (h.setFurrow ?_).accessed (Accessed.refl.charged (Charged.refl.chargeAccess nofun))
    rfl

theorem FieldsStay.endFaulted {n cause : Nat} {k : Task} {field : Option Nat} (h : FieldsStay s t) (hn : n < 64) :
    FieldsStay s (endFaulted t n k cause field) :=
  have hfault : ¬ FieldReg (Reg.furFault n) := fun ⟨lo, _⟩ => by unfold Reg.furFault Reg.fldCtrl at lo; omega
  have hshown := (((h.setBits hfault).setBit hfault).setHopper).showEvents hn
  (ite hshown.issueFinal hshown).raise

theorem FieldsStay.stopParked {n f : Nat} (h : FieldsStay s t) (hn : n < 64) : FieldsStay s (stopParked t n f) :=
  (h.setFurrow (x := { t.furrow n with slots := [] }) rfl).foldl fun _ _ _ h => (h.endFaulted hn).setHopper

/-! Discarded requests, descriptor buffers and hoppers (R203). -/

theorem FieldsStay.undeliver {m : Message} (h : FieldsStay s t) : FieldsStay s (undeliver t m) :=
  ite h h.withDrove.withDrove

theorem FieldsStay.clearYokes {f : Nat} (h : FieldsStay s t) : FieldsStay s (clearYokes t f) :=
  ((h.foldl fun _ _ _ h => h.undeliver).withDrove.forUpTo fun _ _ _ h => h.setYoke).forUpTo fun _ _ _ h =>
    ite h (h.setFurrow rfl)

theorem FieldsStay.emptyBuffers {f : Nat} (h : FieldsStay s t) : FieldsStay s (emptyBuffers t f) :=
  h.foldl fun _ _ _ h => h.setFurrow rfl

theorem FieldsStay.freezeHoppers {f : Nat} (h : FieldsStay s t) : FieldsStay s (freezeHoppers t f) :=
  h.foldl fun _ _ _ h => ite h.setHopper h

end

/-! The running tasks of a Field that stops (R203). -/

section
variable {s : State} {n m : Nat} {t : Task}

theorem stopTask_of_ending {cause : Nat} (ht : (s.furrow n).task = some t) (hst : t.stage = .ending cause) :
    stopTask s n = s := by
  simp only [stopTask, ht, hst]

theorem stopTask_of_running (ht : (s.furrow n).task = some t) (hst : ∀ c, t.stage ≠ .ending c)
    (hs : isSystem t.hopper = false) : stopTask s n = toEnding s n t 0x0D := by
  unfold stopTask
  dsimp only
  rw [ht]
  dsimp only
  split
  · next c hc => exact absurd hc (hst c)
  · exact if_neg (Bool.eq_false_iff.mp hs)

/-- A stop of a task changes its Furrow and the yokes alone. -/
theorem stopTask_cases (s : State) (n : Nat) : stopTask s n = s ∨ ∃ t cause, stopTask s n = toEnding s n t cause := by
  cases ht : (s.furrow n).task with
  | none => exact .inl (by simp only [stopTask, ht])
  | some t =>
    by_cases hst : ∃ c, t.stage = .ending c
    · exact .inl (stopTask_of_ending ht hst.choose_spec)
    · cases hs : isSystem t.hopper with
      | true =>
        left
        unfold stopTask
        dsimp only
        rw [ht]
        dsimp only
        split
        · rfl
        · exact if_pos hs
      | false => exact .inr ⟨t, _, stopTask_of_running ht (fun c hc => hst ⟨c, hc⟩) hs⟩

theorem stopTask_furrow_ne (s : State) (h : m ≠ n) : (stopTask s n).furrow m = s.furrow m := by
  obtain e | ⟨t, cause, e⟩ := stopTask_cases s n
  · rw [e]
  · rw [e, toEnding_furrow_ne _ _ _ h]

theorem stopTask_frame (s : State) (n : Nat) :
    stopTask s n = { s with furrows := (stopTask s n).furrows, yokes := (stopTask s n).yokes } := by
  obtain e | ⟨t, cause, e⟩ := stopTask_cases s n
  · rw [e]
  · rw [e]
    exact toEnding_frame s n t cause

theorem foldl_stopTask_frame (s : State) (ns : List Nat) : ns.foldl stopTask s =
    { s with furrows := (ns.foldl stopTask s).furrows, yokes := (ns.foldl stopTask s).yokes } :=
  foldl_induct (P := fun u : State => u = { s with furrows := u.furrows, yokes := u.yokes }) ns rfl fun u n _ h => by
    rw [stopTask_frame, h]

theorem foldl_stopTask_of_ending {cause : Nat} (ns : List Nat) (ht : (s.furrow m).task = some t)
    (hst : t.stage = .ending cause) : ((ns.foldl stopTask s).furrow m).task = some t :=
  foldl_induct (P := fun u : State => (u.furrow m).task = some t) ns ht fun u n _ h => by
    by_cases hm : m = n
    · subst hm
      rwa [stopTask_of_ending h hst]
    · rwa [stopTask_furrow_ne u hm]

/-- A running user task on one of the Furrows is to end with cause 0x0D (R110). -/
theorem foldl_stopTask_of_running {ns : List Nat} (hm : m ∈ ns) (ht : (s.furrow m).task = some t)
    (hst : ∀ c, t.stage ≠ .ending c) (hs : isSystem t.hopper = false) :
    ((ns.foldl stopTask s).furrow m).task = some (t.ended 0x0D) := by
  induction ns generalizing s with
  | nil => cases hm
  | cons n ns ih =>
    rw [List.foldl_cons]
    by_cases h : m = n
    · subst h
      refine foldl_stopTask_of_ending ns ?_ rfl
      rw [stopTask_of_running ht hst hs, toEnding_task]
    · refine ih ((List.mem_cons.mp hm).resolve_left h) ?_
      rwa [stopTask_furrow_ne s h]

end

/-! The record of a stop, and the Field's state (R200, R201, R430). -/

theorem notify_frame (s : State) (n v : Nat) : ∃ p o, s.notify n v = { s with pcie := p, outbox := o } := by
  unfold State.notify
  dsimp only
  split
  · exact ⟨_, _, rfl⟩
  · split
    · exact ⟨_, _, rfl⟩
    · exact ⟨_, _, rfl⟩

theorem setFieldState_frame (s : State) (f v : Nat) :
    ∃ p o, setFieldState s f v = { s.setBits (Reg.fldStatus f) 2 0 v with pcie := p, outbox := o } := by
  obtain ⟨p, o, h⟩ := notify_frame (s.setBits (Reg.fldStatus f) 2 0 v) (f + 1) 0
  obtain ⟨p', o', h'⟩ := notify_frame ((s.setBits (Reg.fldStatus f) 2 0 v).notify (f + 1) 0) 0 0
  refine ⟨p', o', ?_⟩
  rw [setFieldState, h', h]

theorem setBits_frame (s : State) (a msb lsb v : Nat) : ∃ r, s.setBits a msb lsb v = { s with regs := r } := ⟨_, rfl⟩

theorem setReg64_frame (s : State) (lo hi v : Nat) : ∃ r, s.setReg64 lo hi v = { s with regs := r } := ⟨_, rfl⟩

theorem recordStop_frame (s : State) (f code : Nat) : ∃ r, recordStop s f code = { s with regs := r } := by
  obtain ⟨r, h⟩ : ∃ r, s.addSat (Reg.fldStop f) 31 16 = { s with regs := r } := setBits_frame s _ _ _ _
  obtain ⟨r', h'⟩ := setBits_frame (s.addSat (Reg.fldStop f) 31 16) (Reg.fldStop f) 15 0 code
  rw [recordStop, h', h]
  exact setReg64_frame _ _ _ _

/-- The state in which a Field's stop is recorded and shown. -/
def stopShown (s : State) (f code : Nat) : State := setFieldState (recordStop s f code) f fldStopping

/-- Registers, the host's interrupts and the outbox are all that the record of a stop can change. -/
theorem stopShown_frame (s : State) (f code : Nat) :
    ∃ r p o, stopShown s f code = { s with regs := r, pcie := p, outbox := o } := by
  obtain ⟨p, o, h⟩ := setFieldState_frame (recordStop s f code) f fldStopping
  obtain ⟨r, h'⟩ := setBits_frame (recordStop s f code) (Reg.fldStatus f) 2 0 fldStopping
  obtain ⟨r', h''⟩ := recordStop_frame s f code
  rw [stopShown, h, h', h'']
  exact ⟨_, _, _, rfl⟩

theorem stopShown_furrow (s : State) (f code m : Nat) : (stopShown s f code).furrow m = s.furrow m := by
  obtain ⟨r, p, o, h⟩ := stopShown_frame s f code
  rw [h]
  rfl

theorem stopShown_net (s : State) (f code : Nat) : (stopShown s f code).island.net = s.island.net := by
  obtain ⟨r, p, o, h⟩ := stopShown_frame s f code
  rw [h]

theorem setFieldState_reg (s : State) (f v a : Nat) :
    (setFieldState s f v).reg a = (s.setBits (Reg.fldStatus f) 2 0 v).reg a := by
  obtain ⟨p, o, h⟩ := setFieldState_frame s f v
  rw [h]
  rfl

theorem stopShown_fieldState (s : State) (f code : Nat) : (stopShown s f code).fieldState f = fldStopping := by
  rw [State.fieldState, State.bits, stopShown, setFieldState_reg]
  exact State.bits_setBits_self _ _ _ _ (by decide)

/-- A register that neither the record of a stop nor the Field's state writes. -/
theorem stopShown_reg_of_below {a : Nat} (s : State) (f code : Nat) (h : a < Reg.fldCtrl 0) :
    (stopShown s f code).reg a = s.reg a := by
  have hstatus : a ≠ Reg.fldStatus f := by unfold Reg.fldCtrl at h; unfold Reg.fldStatus; omega
  have hstop : a ≠ Reg.fldStop f := by unfold Reg.fldCtrl at h; unfold Reg.fldStop; omega
  have hlo : a ≠ Reg.fldStopTickLo f := by unfold Reg.fldCtrl at h; unfold Reg.fldStopTickLo; omega
  have hhi : a ≠ Reg.fldStopTickHi f := by unfold Reg.fldCtrl at h; unfold Reg.fldStopTickHi; omega
  rw [stopShown, setFieldState_reg, State.reg_setBits_ne _ _ _ _ hstatus, recordStop, State.reg_setReg64_ne _ _ hlo hhi,
    State.reg_setBits_ne _ _ _ _ hstop, State.reg_addSat_ne _ _ _ _ hstop]

theorem stopShown_code (s : State) (f code : Nat) : (stopShown s f code).bits (Reg.fldStop f) 15 0 = code % 2 ^ 16 := by
  have hstatus : Reg.fldStop f ≠ Reg.fldStatus f := by unfold Reg.fldStop Reg.fldStatus; omega
  have hlo : Reg.fldStop f ≠ Reg.fldStopTickLo f := by unfold Reg.fldStop Reg.fldStopTickLo; omega
  have hhi : Reg.fldStop f ≠ Reg.fldStopTickHi f := by unfold Reg.fldStop Reg.fldStopTickHi; omega
  rw [State.bits, stopShown, setFieldState_reg, State.reg_setBits_ne _ _ _ _ hstatus, recordStop, State.reg_setReg64_ne _ _ hlo hhi]
  exact State.bits_setBits_self _ _ _ _ (by decide)

/-! The stop. -/

/-- The state of a stop once the hoppers no longer show what the last stop found parked. -/
def stopBegun (s : State) (f code : Nat) : State :=
  ((stopShown s f code).hoppersOf f).foldl (fun s h => s.setHopper h { s.hopper h with wasParked := false })
    (stopShown s f code)

theorem stopBegun_regs (s : State) (f code : Nat) : (stopBegun s f code).regs = (stopShown s f code).regs :=
  foldl_induct (P := fun u : State => u.regs = (stopShown s f code).regs) _ rfl fun _ _ _ h => h

theorem stopBegun_stays (s : State) (f code : Nat) : FieldsStay (stopShown s f code) (stopBegun s f code) :=
  FieldsStay.refl.foldl fun _ _ _ h => h.setHopper

theorem stopField_of_active {s : State} {f : Nat} (code : Nat)
    (h : s.fieldState f = fldRunning ∨ s.fieldState f = fldQuiescing) : stopField s f code =
      let ns := (stopBegun s f code).furrowsOf f
      (freezeHoppers (ns.foldl (fun s n => stopParked s n f)
        (ns.foldl stopTask (clearYokes (emptyBuffers (stopBegun s f code) f) f))) f).setField f {} := by
  unfold stopField
  exact if_pos h

theorem mem_furrowsOf {s : State} {f m : Nat} : m ∈ s.furrowsOf f ↔ m < 64 ∧ s.fieldOf m = some f := by
  simp [State.furrowsOf, State.furrowIn]

theorem stopBegun_furrowsOf {s : State} {f m : Nat} (code : Nat) (hm : m < 64) (h : s.fieldOf m = some f) :
    m ∈ (stopBegun s f code).furrowsOf f := by
  have hreg : (stopBegun s f code).reg (Reg.furStatus m) = s.reg (Reg.furStatus m) := by
    rw [State.reg, stopBegun_regs]
    exact stopShown_reg_of_below s f code (by unfold Reg.furStatus Reg.fldCtrl; omega)
  refine mem_furrowsOf.mpr ⟨hm, ?_⟩
  rwa [State.fieldOf, State.bit, State.bits, hreg]

/-- What a stop leaves of a Field that runs or quiesces: its state, the trigger's code and its running tasks, with the
events of the tasks that end added. -/
theorem stopField_stops {s : State} {f : Nat} (code : Nat) (hf : f < 8)
    (h : s.fieldState f = fldRunning ∨ s.fieldState f = fldQuiescing) :
    (stopField s f code).fieldState f = fldStopping ∧
      (stopField s f code).bits (Reg.fldStop f) 15 0 = code % 2 ^ 16 ∧
      s.island.net <+: (stopField s f code).island.net ∧
      ∀ m t, m < 64 → s.fieldOf m = some f → (s.furrow m).task = some t → (∀ c, t.stage ≠ .ending c) →
        isSystem t.hopper = false → ((stopField s f code).furrow m).task = some (t.ended 0x0D) := by
  have hbefore : FieldsStay (stopShown s f code) (clearYokes (emptyBuffers (stopBegun s f code) f) f) :=
    (stopBegun_stays s f code).emptyBuffers.clearYokes
  have hframe := foldl_stopTask_frame (clearYokes (emptyBuffers (stopBegun s f code) f) f)
    ((stopBegun s f code).furrowsOf f)
  have hafter : FieldsStay (((stopBegun s f code).furrowsOf f).foldl stopTask
      (clearYokes (emptyBuffers (stopBegun s f code) f) f)) (stopField s f code) := by
    rw [stopField_of_active code h]
    exact (FieldsStay.refl.foldl fun _ m hm h => h.stopParked (mem_furrowsOf.mp hm).1).freezeHoppers.setField
  have hreg {a : Nat} (ha : FieldReg a) : (stopField s f code).reg a = (stopShown s f code).reg a := by
    rw [hafter.regs a ha, ← hbefore.regs a ha, hframe]
    rfl
  have hstatus : FieldReg (Reg.fldStatus f) := by unfold FieldReg Reg.fldCtrl Reg.fldStatus; omega
  have hstop : FieldReg (Reg.fldStop f) := by unfold FieldReg Reg.fldCtrl Reg.fldStop; omega
  refine ⟨?_, ?_, ?_, fun m t hm hfield ht hst hs => ?_⟩
  · rw [State.fieldState, State.bits, hreg hstatus]
    exact stopShown_fieldState s f code
  · rw [State.bits, hreg hstop]
    exact stopShown_code s f code
  · have hbegin := hbefore.net
    have hend := hafter.net
    rw [stopShown_net] at hbegin
    rw [hframe] at hend
    exact hbegin.trans hend
  · rw [hafter.task]
    refine foldl_stopTask_of_running (stopBegun_furrowsOf code hm hfield) ?_ hst hs
    rwa [hbefore.task, stopShown_furrow]

end Sys2Proof.Machine
end

section
/-! Budgets and gate timeouts (R109, R134). -/

namespace Sys2Proof.Machine

/-! A budget's end (R109). -/

section
variable {s : State} {n : Nat} {t : Task}

theorem budgetExpiry_of_none (h : (s.furrow n).task = none) : budgetExpiry s n = s := by
  simp only [budgetExpiry, h]

theorem budgetExpiry_of_ending {cause : Nat} (ht : (s.furrow n).task = some t) (hst : t.stage = .ending cause) :
    budgetExpiry s n = s := by
  simp only [budgetExpiry, ht, hst]

theorem budgetExpiry_of_running (ht : (s.furrow n).task = some t) (hst : ∀ c, t.stage ≠ .ending c)
    (ho : t.outer = none) :
    budgetExpiry s n = toEnding (runUntil s (s.cycleTick t t.desc.budget)) n t 0x09 := by
  unfold budgetExpiry
  rw [ht]
  dsimp only
  split
  · next c hc => exact absurd hc (hst c)
  · rw [Task.limit, Task.spent, ho]

end

/-! The access that is held longest at a gate (R134). -/

theorem oldestHeld_some {s : State} {n m k since : Nat} (h : s.oldestHeld n = some (m, k, since)) :
    m < 64 ∧ heldAt s n m = some (k, since) := by
  suffices hall : ∀ x, s.oldestHeld n = some x → x.1 < 64 ∧ heldAt s n x.1 = some x.2 from hall _ h
  unfold State.oldestHeld
  refine foldl_induct (P := fun b : Option (Nat × Nat × Nat) => ∀ x, b = some x → x.1 < 64 ∧ heldAt s n x.1 = some x.2) _
    nofun fun b y hy hb x hx => ?_
  obtain ⟨i, hi, he⟩ := List.mem_filterMap.mp hy
  obtain ⟨⟨j, since⟩, hheld, rfl⟩ := Option.map_eq_some_iff.mp he
  have hnew : i < 64 ∧ heldAt s n i = some (j, since) := ⟨List.mem_range.mp hi, hheld⟩
  cases b with
  | none =>
    cases hx
    exact hnew
  | some z =>
    by_cases hlt : since < z.2.2
    · cases (if_pos hlt).symm.trans hx
      exact hnew
    · exact hb x ((if_neg hlt).symm.trans hx)

/-- A task that is held at a gate has not come to its end. -/
theorem running_of_heldAt {s : State} {n m : Nat} {t : Task} {x : Nat × Nat} (h : heldAt s n m = some x)
    (ht : (s.furrow m).task = some t) (c : Nat) : t.stage ≠ .ending c := by
  intro hst
  simp only [heldAt, ht, State.nextWait, hst] at h
  cases h

end Sys2Proof.Machine
end

section
/-! A gate's timeout, and O15 (R109, R134). -/

namespace Sys2Proof.Machine

/-- A gate whose timeout has run out shows it with its slot. -/
def showGate (s : State) (n k : Nat) : State :=
  (s.setBit (Reg.furSbStatus n) 2 true).setBits (Reg.furSbGate n) 23 16 k

/-- The state at the end of a timeout of gate n on slot k, its event raised. -/
def gateRaised (s : State) (n k due : Nat) : State :=
  (runUntil s due).raise { code := 0x2105, cls := 3, inst := n, info := some k }

/-- The Field of the task that Furrow m runs, where it has one. -/
def State.runningField (s : State) (m : Nat) : Option Nat :=
  match (s.furrow m).task with
  | some t => s.taskField m t
  | none => none

/-- The tick at which an access held since that tick comes to the end of the timeout. -/
abbrev State.gateDue (s : State) (n since : Nat) : Nat := since + s.gateTimeout n * s.coreTicks

/-- The budget of Furrow m's task ends no later than the tick, in cycles of CLK_CORE. -/
abbrev State.budgetFirst (s : State) (m due : Nat) : Bool :=
  (s.budgetTick m).any fun b => b / max s.coreTicks 1 ≤ due / max s.coreTicks 1

section
variable {s : State} {n m k since : Nat}

theorem showGate_frame (s : State) (n k : Nat) : ∃ r, showGate s n k = { s with regs := r } := ⟨_, rfl⟩

theorem showGate_reg_ne {a : Nat} (s : State) (k : Nat) (h : a ≠ Reg.furSbStatus n) (h' : a ≠ Reg.furSbGate n) :
    (showGate s n k).reg a = s.reg a := by
  rw [showGate, State.reg_setBits_ne _ _ _ _ h', State.reg_setBit_ne _ _ _ h]

theorem showGate_shows (s : State) (n k : Nat) :
    (showGate s n k).bit (Reg.furSbStatus n) 2 = true ∧ (showGate s n k).bits (Reg.furSbGate n) 23 16 = k % 256 := by
  have hne : Reg.furSbStatus n ≠ Reg.furSbGate n := by unfold Reg.furSbStatus Reg.furSbGate; omega
  refine ⟨?_, State.bits_setBits_self _ _ _ _ (by decide)⟩
  rw [showGate, State.bit, State.reg_setBits_ne _ _ _ _ hne]
  exact State.bit_setBit_self _ _ _ (by decide)

theorem gateRaised_eq (s : State) (n k due : Nat) : gateRaised s n k due =
    { s.raise { code := 0x2105, cls := 3, inst := n, info := some k } with time := (runUntil s due).time } := by
  rw [gateRaised, runUntil_eq]
  rfl

theorem gateTimeout_of_none (h : s.oldestHeld n = none) : gateTimeout s n = s := by
  simp only [gateTimeout, h]

theorem gateTimeout_of_budget (h : s.oldestHeld n = some (m, k, since))
    (hb : s.budgetFirst m (s.gateDue n since) = true) : gateTimeout s n = budgetExpiry s m := by
  unfold gateTimeout
  rw [h]
  exact if_pos hb

theorem gateTimeout_of_held (h : s.oldestHeld n = some (m, k, since))
    (hb : s.budgetFirst m (s.gateDue n since) = false) : gateTimeout s n =
      showGate (match s.runningField m with
        | some f => stopField (gateRaised s n k (s.gateDue n since)) f 0x2105
        | none => gateRaised s n k (s.gateDue n since)) n k := by
  unfold gateTimeout
  rw [h]
  exact if_neg (Bool.eq_false_iff.mp hb)

theorem gateTimeout_shows_gate (h : s.oldestHeld n = some (m, k, since))
    (hb : s.budgetFirst m (s.gateDue n since) = false) :
    (gateTimeout s n).bit (Reg.furSbStatus n) 2 = true ∧ (gateTimeout s n).bits (Reg.furSbGate n) 23 16 = k % 256 := by
  rw [gateTimeout_of_held h hb]
  exact showGate_shows _ n k

theorem gateTimeout_of_no_field (h : s.oldestHeld n = some (m, k, since))
    (hb : s.budgetFirst m (s.gateDue n since) = false) (hf : s.runningField m = none) :
    gateTimeout s n = showGate (gateRaised s n k (s.gateDue n since)) n k := by
  rw [gateTimeout_of_held h hb, hf]

theorem gateTimeout_of_field {f : Nat} (h : s.oldestHeld n = some (m, k, since))
    (hb : s.budgetFirst m (s.gateDue n since) = false) (hf : s.runningField m = some f) :
    gateTimeout s n = showGate (stopField (gateRaised s n k (s.gateDue n since)) f 0x2105) n k := by
  rw [gateTimeout_of_held h hb, hf]

theorem taskField_some {t : Task} {f : Nat} (h : s.taskField m t = some f) :
    isSystem t.hopper = false ∧ s.fieldOf m = some f := by
  unfold State.taskField at h
  split at h
  · cases h
  · next hs => exact ⟨Bool.eq_false_iff.mpr hs, h⟩

/-- What the timeout leaves of a Field that runs or quiesces (R134, R201). -/
theorem gateTimeout_stops {t : Task} {f : Nat} (h : s.oldestHeld n = some (m, k, since))
    (hb : s.budgetFirst m (s.gateDue n since) = false) (ht : (s.furrow m).task = some t)
    (hf : s.taskField m t = some f) (ha : s.fieldState f = fldRunning ∨ s.fieldState f = fldQuiescing) :
    (gateTimeout s n).fieldState f = fldStopping ∧ (gateTimeout s n).bits (Reg.fldStop f) 15 0 = 0x2105 ∧
      (∃ es, (gateTimeout s n).island.net =
        s.island.net ++ { code := 0x2105, cls := 3, inst := n, info := some k } :: es) ∧
      ((gateTimeout s n).furrow m).task = some (t.ended 0x0D) := by
  obtain ⟨hs, hfield⟩ := taskField_some hf
  obtain ⟨hm, hheld⟩ := oldestHeld_some h
  have hlt := fieldOf_lt hfield
  have hraised := gateRaised_eq s n k (s.gateDue n since)
  generalize hr : gateRaised s n k (s.gateDue n since) = r at hraised
  have hactive : r.fieldState f = fldRunning ∨ r.fieldState f = fldQuiescing := by
    rw [hraised]
    exact ha
  obtain ⟨hstate, hcode, hnet, htask⟩ := stopField_stops 0x2105 hlt hactive
  have hmt := htask m t hm (by rw [hraised]; exact hfield) (by rw [hraised]; exact ht) (running_of_heldAt hheld ht) hs
  have hrun : s.runningField m = some f := by rw [State.runningField, ht, ← hf]
  rw [gateTimeout_of_field h hb hrun, hr]
  obtain ⟨g, hg⟩ := showGate_frame (stopField r f 0x2105) n k
  refine ⟨?_, ?_, ?_, ?_⟩
  · rw [State.fieldState, State.bits, showGate_reg_ne, ← State.bits]
    · exact hstate
    · unfold Reg.fldStatus Reg.furSbStatus; omega
    · unfold Reg.fldStatus Reg.furSbGate; omega
  · rw [State.bits, showGate_reg_ne, ← State.bits]
    · exact hcode
    · unfold Reg.fldStop Reg.furSbStatus; omega
    · unfold Reg.fldStop Reg.furSbGate; omega
  · obtain ⟨es, hes⟩ := hnet
    refine ⟨es, ?_⟩
    rw [hg, ← hes, hraised]
    exact List.append_assoc _ [_] es
  · rw [hg]
    exact hmt

/-- What the timeout leaves of a device whose held task is of no Field. -/
theorem gateTimeout_shows (h : s.oldestHeld n = some (m, k, since))
    (hb : s.budgetFirst m (s.gateDue n since) = false) (hf : s.runningField m = none) :
    (gateTimeout s n).now = (runUntil s (s.gateDue n since)).now ∧
      SameRegsBut [Reg.furSbStatus n, Reg.furSbGate n] s (gateTimeout s n) ∧
      gateTimeout s n = { s.raise { code := 0x2105, cls := 3, inst := n, info := some k } with
        regs := (gateTimeout s n).regs, time := (gateTimeout s n).time } := by
  obtain ⟨g, hg⟩ := showGate_frame (gateRaised s n k (s.gateDue n since)) n k
  rw [gateTimeout_of_no_field h hb hf]
  refine ⟨?_, fun a ha => ?_, ?_⟩
  · rw [hg, gateRaised_eq]
    rfl
  · simp only [List.mem_cons, List.not_mem_nil, or_false, not_or] at ha
    rw [showGate_reg_ne _ _ ha.1 ha.2, gateRaised_eq]
    rfl
  · rw [hg, gateRaised_eq]

end

theorem exec_budgetExpiry {n : Nat} (hn : n < 64) (s : State) :
    exec (.budgetExpiry n) s = live s (budgetExpiry s n) := congrArg (live s) (withUnit_of hn s _)

theorem exec_gateTimeout {n : Nat} (hn : n < 64) (s : State) :
    exec (.gateTimeout n) s = live s (gateTimeout s n) := congrArg (live s) (withUnit_of hn s _)

end Sys2Proof.Machine

section
open Sys2Proof Sys2Proof.Machine

/-- Settles O15: a budget's end is a fault of the task, and a timeout stops the Field before the gate is shown, so that
its event is the first of the stop's. -/
theorem budgetsAndGatesEndTasks : Obligations.BudgetsAndGatesEndTasks := by
  intro s n hh hn
  refine ⟨fun ht => ?_, fun t c ht hst => ?_, fun t ht hst ho => ?_, fun h => ?_, ?_⟩
  · have hx := exec_budgetExpiry hn s
    rw [budgetExpiry_of_none ht] at hx
    exact answers_of_live hx hh
  · have hx := exec_budgetExpiry hn s
    rw [budgetExpiry_of_ending ht hst] at hx
    exact answers_of_live hx hh
  · have hx := exec_budgetExpiry hn s
    rw [budgetExpiry_of_running ht hst ho, runUntil_eq] at hx
    refine yields_of_live hx hh ⟨toEnding_task _ _ _ _, ?_, ?_, fun m hm => toEnding_furrow_ne _ _ _ hm⟩
    · rw [toEnding_frame]
      rfl
    · rw [toEnding_frame]
      rfl
  · have hx := exec_gateTimeout hn s
    rw [gateTimeout_of_none h] at hx
    exact answers_of_live hx hh
  · intro m k since h due early
    have hx := exec_gateTimeout hn s
    refine ⟨fun he => ?_, fun he => ?_, fun he hf => ?_, fun t f he ht hf ha => ?_⟩
    · rw [gateTimeout_of_budget h he] at hx
      exact answers_of_live hx hh
    · obtain ⟨hstatus, hgate⟩ := gateTimeout_shows_gate h he
      exact yields_of_live hx hh ⟨hstatus, hgate⟩
    · have hnone : s.runningField m = none := by
        cases ht : (s.furrow m).task with
        | none => rw [State.runningField, ht]
        | some t => rw [State.runningField, ht, ← hf t ht]
      obtain ⟨hnow, hregs, hframe⟩ := gateTimeout_shows h he hnone
      refine yields_of_live hx hh ⟨hnow, hregs, ?_⟩
      rw [hframe]
      rfl
    · obtain ⟨hstate, hcode, hnet, htask⟩ := gateTimeout_stops h he ht hf ha
      exact yields_of_live hx hh ⟨hstate, hcode, hnet, htask⟩

end
end

section
/-! A tag written over the task's own parameter block (R93, R111): the model reads the header's tag out again after the
tag's write, so a tag whose last bytes spell a mailbox slot makes its own write a dropped one (R312). -/

namespace Sys2Proof.Machine

/-- The first byte of seedbed 0, where the task's parameter block lies. -/
def overlapBlock : Nat := 0x4000000000

/-- A task with every tile committed. -/
def overlapTask : Task :=
  { hopper := 0, stage := .committing, desc := { decodeDesc [] with paramAddr := overlapBlock, budget := 100 } }

/-- Furrow 0 runs the task. Its block names one tag in, at 0x100 of the seedbed, and a tag out, which is the block itself;
bytes 24 to 31 of the tag, which land on the header's tag out, spell the address of mailbox slot 0. -/
def overlapState : State :=
  let s : State := { pins := { porst := false }, furrows := [(0, { task := some overlapTask })] }
  ((s.poke overlapBlock (leBytes 8 (overlapBlock + 0x100))).poke (overlapBlock + 24) (leBytes 8 overlapBlock)).poke
    (overlapBlock + 0x100 + 24) (leBytes 8 mailboxBase)

theorem overlap_running : overlapState.held = false ∧ (overlapState.furrow 0).task = some overlapTask ∧
    (overlapState.furrow 0).stores = [] := by
  decide +kernel

/-- No message of the task is rejected, and no tag that it reads is poisoned. -/
theorem overlap_clean : overlapState.taskRejected 0 overlapTask = false ∧
    overlapState.readsPoisoned (tagReads overlapState overlapTask.desc) = false := by
  decide +kernel

/-- The yoke admits the provenance accesses; the tag out, as it stands, is no mailbox slot, and the budget is not reached. -/
theorem overlap_admitted :
    (taskCharge overlapState 0 overlapTask (tagAccesses overlapState overlapTask.desc)).yokeWaits 0 = false ∧
      inMailbox (overlapState.header overlapTask.desc 3) = false ∧
      max (overlapTask.cycles + overlapTask.extra) (overlapState.ranCycles overlapTask) ≤ overlapTask.desc.budget := by
  decide +kernel

theorem overlap_freezes : ((taskDone overlapState 0).hopper 0).stage = .frozen := by decide +kernel

theorem taskDone_of_yields {s : State} {n : Nat} {P : State → Prop} (hh : s.held = false) (hn : n < 64)
    (h : Yields (.taskDone n) s P) : P ((taskDone s n).withQueue s.pending) := by
  obtain ⟨u, hu, hp⟩ := h
  have hx : exec (.taskDone n) s = live s (taskDone s n) := congrArg (live s) (withUnit_of hn s _)
  rw [live_eq hh] at hx
  cases hx.symm.trans hu
  exact hp

/-- What the statement says of a hopper whose task ends with its tag admitted and its budget not reached. -/
theorem stage_idle_of_statement (h : Obligations.TaskDoneAdvancesTheHopper) {s : State} {n : Nat} {t : Task}
    (hheld : s.held = false) (hn : n < 64) (htask : (s.furrow n).task = some t) (hstage : t.stage = .committing)
    (hstores : (s.furrow n).stores = []) (hresume : t.resuming = false) (hleft : t.tilesLeft = [])
    (houter : t.outer = none) (hcharged : t.charged = false) (hrejected : s.taskRejected n t = false)
    (hpoison : s.readsPoisoned (tagReads s t.desc) = false)
    (hyoke : (taskCharge s n t (tagAccesses s t.desc)).yokeWaits n = false)
    (hmailbox : inMailbox (s.header t.desc 3) = false)
    (hbudget : max (t.cycles + t.extra) (s.ranCycles t) ≤ t.desc.budget) :
    ((taskDone s n).hopper t.hopper).stage = .idle := by
  obtain ⟨-, hdone⟩ := (h s n hheld hn).2 t htask hstage hstores hresume
  obtain ⟨-, hends⟩ := hdone hleft houter hrejected hpoison
  rw [hcharged] at hends
  obtain ⟨hhopper, -⟩ := taskDone_of_yields hheld hn (hends hyoke hmailbox hbudget)
  exact congrArg Hopper.stage hhopper

end Sys2Proof.Machine

section
open Sys2Proof Sys2Proof.Machine

/-- Refutes O12: a tag out that overlaps the parameter block. The task of `overlapState` meets every premise, its tag's
write changes the tag out that the header names into a mailbox slot, and the model, which reads the header again, ends the
task with cause 0x05 and freezes its hopper. -/
theorem not_taskDoneAdvancesTheHopper : ¬ Obligations.TaskDoneAdvancesTheHopper := by
  intro h
  obtain ⟨hheld, htask, hstores⟩ := overlap_running
  obtain ⟨hrejected, hpoison⟩ := overlap_clean
  obtain ⟨hyoke, hmailbox, hbudget⟩ := overlap_admitted
  have hidle := stage_idle_of_statement h hheld (by decide) htask rfl hstores rfl rfl rfl rfl hrejected hpoison hyoke
    hmailbox hbudget
  rw [show overlapTask.hopper = 0 from rfl, overlap_freezes] at hidle
  cases hidle

end
end

section
/-! The task that an acceptance leaves on its Furrow, however far it comes at once: still to be checked, waiting, reading,
committing or ending (R96, R106, R198, R388). -/

namespace Sys2Proof.Machine

/-! A task of a hopper that has committed no tile since its start. -/

/-- The task is the hopper's, started at this tick, with no tile committed. -/
def Task.Fresh (t : Task) (h start : Nat) : Prop := t.hopper = h ∧ t.start = start ∧ t.committed = 0

/-- Furrow n runs such a task. -/
structure RunsFresh (s : State) (n h start : Nat) : Prop where
  running : ∃ k, (s.furrow n).task = some k ∧ k.Fresh h start

section
variable {s : State} {n h start : Nat} {t : Task}

theorem Task.Fresh.endWait (hk : t.Fresh h start) : (s.endWait t).Fresh h start := by
  unfold State.endWait
  split <;> exact hk

theorem RunsFresh.ite {b : Prop} {_ : Decidable b} {s' : State} (hs : RunsFresh s n h start)
    (hs' : RunsFresh s' n h start) : RunsFresh (if b then s else s') n h start := by
  split <;> assumption

theorem RunsFresh.setTask (hk : t.Fresh h start) : RunsFresh (setTask s n (some t)) n h start :=
  ⟨⟨t, setTask_task s n _, hk⟩⟩

theorem RunsFresh.toEnding {cause : Nat} (hk : t.Fresh h start) : RunsFresh (toEnding s n t cause) n h start :=
  ⟨⟨t.ended cause, toEnding_task s n t cause, hk⟩⟩

theorem RunsFresh.noteWait {w : Wait} (hk : t.Fresh h start) : RunsFresh (noteWait s n t w) n h start := by
  unfold Machine.noteWait
  split
  · exact RunsFresh.setTask hk
  · exact RunsFresh.setTask hk.endWait

theorem RunsFresh.showFence (hs : RunsFresh s n h start) : RunsFresh (showFence s n) n h start := by
  obtain ⟨k, hk, hfresh⟩ := hs.running
  exact ⟨⟨k, by rwa [showFence_furrow], hfresh⟩⟩

theorem RunsFresh.runWork {o : OpDef} (hk : t.Fresh h start) : RunsFresh (runWork s n t o) n h start := by
  refine ite (RunsFresh.toEnding hk) (ite (RunsFresh.toEnding hk) (RunsFresh.showFence (RunsFresh.setTask ?_)))
  exact hk

theorem RunsFresh.tryRead (hk : t.Fresh h start) (ht : (s.furrow n).task = some t) :
    RunsFresh (tryRead s n t) n h start := by
  refine ite (RunsFresh.toEnding hk) (ite (RunsFresh.noteWait hk) ?_)
  split
  · exact ⟨⟨t, ht, hk⟩⟩
  · dsimp only
    generalize (if (t.charged || isSystem t.hopper) = true then s else _) = v
    refine ite (RunsFresh.setTask ?_) (RunsFresh.runWork ?_)
    · exact hk.endWait (s := v)
    · exact hk.endWait (s := v)

theorem RunsFresh.sendGet {p : Plan} (hk : t.Fresh h start) : RunsFresh (sendGet s n t p) n h start := by
  unfold Machine.sendGet
  split
  · exact RunsFresh.setTask hk
  · obtain ⟨tag, v⟩ := s.messageTag t.desc
    dsimp only
    obtain ⟨g, w⟩ := newGroup v
    refine RunsFresh.setTask ?_
    exact hk

/-- The running task goes on to its operands. -/
theorem RunsFresh.read (hs : RunsFresh s n h start) (ht : (s.furrow n).task = some t) :
    RunsFresh (Machine.tryRead s n t) n h start := by
  obtain ⟨k, hk, hfresh⟩ := hs.running
  cases hk.symm.trans ht
  exact RunsFresh.tryRead hfresh ht

theorem RunsFresh.tryStart (hk : t.Fresh h start) (ho : (opDefOf t.desc.op).isSome) :
    RunsFresh (tryStart s n t) n h start := by
  refine ite (RunsFresh.setTask hk) ?_
  dsimp only
  generalize (if t.charged = true then s else _) = v
  refine ite (RunsFresh.setTask ?_) ?_
  · exact hk
  · split
    · next e =>
      rw [e] at ho
      cases ho
    · refine ite (RunsFresh.toEnding hk) ?_
      split
      · next e =>
        refine RunsFresh.read (RunsFresh.sendGet ?_) e
        exact hk
      · refine RunsFresh.sendGet ?_
        exact hk

end

end Sys2Proof.Machine
end

section
/-! An accepted descriptor's task, and O10 (R96, R106, R198, R205, R206, R388). -/

namespace Sys2Proof.Machine

section
variable {s : State} {n h start : Nat} {t : Task}

/-! Ops that the checks pass. -/

theorem opFor_of_ne {system inner : Bool} {code : Nat} (h : code ≠ opCheckPlot) :
    opFor system inner code = opDefOf code := if_neg h

/-- Outside the system hopper, and inside a CHECK_PLOT, a CHECK_PLOT names no op (R96). -/
theorem opDefOf_of_opFor {system inner : Bool} {code : Nat} (hs : (system && !inner) = false)
    (h : (opFor system inner code).isSome) : (opDefOf code).isSome := by
  by_cases hc : code = opCheckPlot
  · rw [opFor, if_pos hc, hs] at h
    cases h
  · rwa [opFor_of_ne hc] at h

theorem opFor_of_headCause {r : Reach} {system inner poisoned : Bool} {d : Desc}
    (h : headCause s r system inner poisoned d = 0) : (opFor system inner d.op).isSome := by
  unfold headCause at h
  split at h
  · cases h
  · split at h
    · cases h
    · split at h
      · cases h
      · next o ho =>
        rw [ho]
        rfl

theorem opFor_of_checkDesc {r : Reach} {system inner poisoned : Bool} {d : Desc}
    (h : (checkDesc s r system inner poisoned d).cause = 0) : (opFor system inner d.op).isSome := by
  by_cases hne : headCause s r system inner poisoned d = 0
  · exact opFor_of_headCause hne
  · rw [checkDesc, if_pos hne] at h
    exact absurd h hne

/-! The task from its acceptance to its operands. -/

theorem RunsFresh.beginTask {c : Checked} (hk : t.Fresh h start) (ho : c.cause = 0 → (opDefOf t.desc.op).isSome) :
    RunsFresh (beginTask s n t c) n h start := by
  unfold Machine.beginTask
  split
  · refine RunsFresh.setTask ?_
    exact hk
  · next hc =>
    refine RunsFresh.tryStart ?_ (ho (Decidable.not_not.mp hc))
    exact hk

theorem RunsFresh.tryCheck (hk : t.Fresh h start) (hs : isSystem t.hopper = false) :
    RunsFresh (tryCheck s n t) n h start := by
  unfold Machine.tryCheck
  dsimp only
  generalize (if t.charged = true then s else _) = v
  refine ite (RunsFresh.setTask ?_) (RunsFresh.beginTask hk fun hc => ?_)
  · exact hk
  · rw [hs] at hc
    exact opDefOf_of_opFor rfl (opFor_of_checkDesc hc)

theorem RunsFresh.beginCheck {c : Checked} (hk : t.Fresh h start) : RunsFresh (beginCheck s n t c) n h start := by
  unfold Machine.beginCheck
  split
  · refine RunsFresh.setTask ?_
    exact hk
  · dsimp only
    refine RunsFresh.beginTask ?_ fun hc => opDefOf_of_opFor rfl (opFor_of_checkDesc hc)
    exact hk

/-! The accepted descriptor. -/

/-- The registers and the hopper's entry of an accepted task, with the task itself. -/
structure State.Shows (s : State) (n h : Nat) (d : Desc) (start : Nat) : Prop where
  inflight : (s.hopper h).inflight = true
  stage : (s.hopper h).stage = .running
  kind : s.bits (Reg.furStatus n) 2 0 = if isSystem h then 2 else 1
  hopper : s.reg (Reg.furTask n) = BitVec.ofNat 32 (0x80000000 + h)
  tag : s.reg (Reg.furTaskTag n) = BitVec.ofNat 32 d.tag
  tiles : s.reg (Reg.furTiles n) = BitVec.ofNat 32 (d.tiles * 65536)
  cycles : s.reg (Reg.furTaskCycles n) = 0
  fresh : RunsFresh s n h start

/-- The hopper's entry once its head runs (R198, R199). -/
def Hopper.accepted (x : Hopper) : Hopper :=
  { x with stage := .running, inflight := true, tries := if x.inflight then x.tries else 0 }

theorem showAccepted_furrow (s : State) (n h : Nat) (d : Desc) (m : Nat) :
    (showAccepted s n h d).furrow m = s.furrow m := by
  simp [showAccepted]

theorem showAccepted_hopper (s : State) (n h : Nat) (d : Desc) :
    (showAccepted s n h d).hopper h = (s.hopper h).accepted := by
  simp [showAccepted, Hopper.accepted]

theorem showAccepted_shows (d : Desc) (hs : RunsFresh s n h start) : (showAccepted s n h d).Shows n h d start where
  inflight := by rw [showAccepted_hopper, Hopper.accepted]
  stage := by rw [showAccepted_hopper, Hopper.accepted]
  kind := by
    rw [showAccepted, State.bits, State.reg_setReg_ne, State.reg_setReg_ne, State.reg_setReg_ne, State.reg_setReg_ne,
      ← State.bits, State.bits_setBits_self _ _ _ _ (by decide)]
    · split <;> rfl
    · unfold Reg.furStatus Reg.furTask; omega
    · unfold Reg.furStatus Reg.furTaskTag; omega
    · unfold Reg.furStatus Reg.furTiles; omega
    · unfold Reg.furStatus Reg.furTaskCycles; omega
  hopper := by
    rw [showAccepted, State.reg_setReg_ne, State.reg_setReg_ne, State.reg_setReg_ne, State.reg_setReg_self]
    · unfold Reg.furTask Reg.furTaskTag; omega
    · unfold Reg.furTask Reg.furTiles; omega
    · unfold Reg.furTask Reg.furTaskCycles; omega
  tag := by
    rw [showAccepted, State.reg_setReg_ne, State.reg_setReg_ne, State.reg_setReg_self]
    · unfold Reg.furTaskTag Reg.furTiles; omega
    · unfold Reg.furTaskTag Reg.furTaskCycles; omega
  tiles := by
    rw [showAccepted, State.reg_setReg_ne, State.reg_setReg_self]
    unfold Reg.furTiles Reg.furTaskCycles
    omega
  cycles := State.reg_setReg_self _ _ _
  fresh := by
    obtain ⟨k, hk, hfresh⟩ := hs.running
    exact ⟨⟨k, by rwa [showAccepted_furrow], hfresh⟩⟩

/-- Accesses after the acceptance leave what it shows. -/
theorem State.Shows.accessed {u : State} {d : Desc} (hs : s.Shows n h d start) (ha : Accessed s u) (hn : n < 64) :
    u.Shows n h d start where
  inflight := by rw [ha.hopper, hs.inflight]
  stage := by rw [ha.hopper, hs.stage]
  kind := by
    rw [ha.bits _ _ (not_accessReg_of_furrow hn _ _), hs.kind] <;> unfold Reg.furStatus
    · unfold Reg.furId; omega
    · unfold Reg.furSbCtrl; omega
  hopper := by
    rw [ha.regs _ (not_accessReg_of_furrow hn _ _), hs.hopper] <;> unfold Reg.furTask
    · unfold Reg.furId; omega
    · unfold Reg.furSbCtrl; omega
  tag := by
    rw [ha.regs _ (not_accessReg_of_furrow hn _ _), hs.tag] <;> unfold Reg.furTaskTag
    · unfold Reg.furId; omega
    · unfold Reg.furSbCtrl; omega
  tiles := by
    rw [ha.regs _ (not_accessReg_of_furrow hn _ _), hs.tiles] <;> unfold Reg.furTiles
    · unfold Reg.furId; omega
    · unfold Reg.furSbCtrl; omega
  cycles := by
    rw [ha.regs _ (not_accessReg_of_furrow hn _ _), hs.cycles] <;> unfold Reg.furTaskCycles
    · unfold Reg.furId; omega
    · unfold Reg.furSbCtrl; omega
  fresh := by
    obtain ⟨k, hk, hfresh⟩ := hs.fresh.running
    exact ⟨⟨k, by rwa [ha.task], hfresh⟩⟩

theorem acceptDesc_shows (s : State) (n h : Nat) (d : Desc) (poisoned : Bool) :
    (acceptDesc s n h d poisoned).Shows n h d s.now := by
  refine showAccepted_shows d ?_
  dsimp only
  cases hs : isSystem h with
  | true =>
    rw [if_pos rfl]
    by_cases hd : d.op = opCheckPlot
    · rw [if_pos hd]
      exact RunsFresh.beginCheck ⟨rfl, rfl, rfl⟩
    · rw [if_neg hd]
      refine RunsFresh.beginTask ⟨rfl, rfl, rfl⟩ fun hc => ?_
      rw [← opFor_of_ne (system := true) (inner := false) hd]
      exact opFor_of_checkDesc hc
  | false =>
    rw [if_neg Bool.false_ne_true]
    refine RunsFresh.ite (RunsFresh.setTask ⟨rfl, rfl, rfl⟩) (RunsFresh.tryCheck ⟨rfl, rfl, rfl⟩ hs)

end
end Sys2Proof.Machine
end

section
/-! The commands that accept a task, and O10. -/

namespace Sys2Proof.Machine

section
variable {s : State} {n h : Nat} {d : Desc}

theorem descAt_of_mem {u : State} (hm : u.mem = s.mem) (a : Nat) : u.descAt a = s.descAt a := by
  simp [State.descAt, State.bytes, State.byte, hm]

theorem noteRunStart_now (s : State) (n h : Nat) : (noteRunStart s n h).now = s.now := rfl

theorem noteRunStart_mem (s : State) (n h : Nat) : (noteRunStart s n h).mem = s.mem := rfl

theorem acceptTask_shows (hd : s.nextDesc n h = some d) : (acceptTask s n h).Shows n h d s.now := by
  unfold State.nextDesc at hd
  unfold acceptTask
  cases hs : isSystem h with
  | true =>
    rw [hs, if_pos rfl] at hd
    rw [if_pos rfl]
    have hnow : (noteRead (noteRunStart s n h) (s.hopper h).headSlot 64).now = s.now :=
      Accessed.refl.noteRead.now.trans (noteRunStart_now s n h)
    have hmem : (noteRead (noteRunStart s n h) (s.hopper h).headSlot 64).mem = s.mem :=
      (noteRead_mem _ _ _).trans (noteRunStart_mem s n h)
    dsimp only
    rw [← hnow, ← Option.some.inj hd, ← descAt_of_mem hmem]
    exact acceptDesc_shows _ n h _ _
  | false =>
    rw [hs, if_neg Bool.false_ne_true] at hd
    rw [if_neg Bool.false_ne_true]
    split at hd
    · split at hd
      · obtain ⟨⟨bs, poisoned⟩, hdata, rfl⟩ := Option.map_eq_some_iff.mp hd
        simp only [*]
        exact acceptDesc_shows _ n h _ _
      · cases hd
    · cases hd

/-! The scheduler's choice and the head descriptor (R205, R206). -/

/-- The state once the buffer has followed the choice of hopper h. -/
abbrev State.follows (s : State) (n h : Nat) : State := if isSystem h then s else refreshBuffer s n

theorem follows_now (s : State) (n h : Nat) : (s.follows n h).now = s.now :=
  (Accessed.refl.ite Accessed.refl.refreshBuffer).now

variable {mine : State → Bool → Desc → Bool}

theorem acceptIf_of_no_choice (hc : s.nextHopper n = none) : acceptIf s n mine = s := by
  simp only [acceptIf, hc]

theorem acceptIf_of_unfetched (hc : s.nextHopper n = some h) (hd : (s.follows n h).nextDesc n h = none) :
    acceptIf s n mine = s.follows n h := by
  simp only [acceptIf, hc, hd]

theorem acceptIf_of_other (hc : s.nextHopper n = some h) (hd : (s.follows n h).nextDesc n h = some d)
    (hm : mine (s.follows n h) (isSystem h) d = false) : acceptIf s n mine = s.follows n h := by
  simp only [acceptIf, hc, hd, hm, Bool.false_eq_true, if_false]

theorem acceptIf_of_mine (hc : s.nextHopper n = some h) (hd : (s.follows n h).nextDesc n h = some d)
    (hm : mine (s.follows n h) (isSystem h) d = true) :
    acceptIf s n mine = refreshBuffer (acceptTask (s.follows n h) n h) n := by
  simp only [acceptIf, hc, hd, hm, if_true]

theorem acceptIf_shows (hn : n < 64) (hc : s.nextHopper n = some h) (hd : (s.follows n h).nextDesc n h = some d)
    (hm : mine (s.follows n h) (isSystem h) d = true) : (acceptIf s n mine).Shows n h d s.now := by
  rw [acceptIf_of_mine hc hd hm, ← follows_now s n h]
  exact (acceptTask_shows hd).accessed Accessed.refl.refreshBuffer hn

/-! The commands. -/

/-- A command accepts the descriptors of a row; of this descriptor in state v it says whether the row names it. -/
def AcceptsRow (s : State) (n : Nat) (v : State) (system : Bool) (d : Desc) (c : Instr × Bool) : Prop :=
  ∃ mine, exec c.1 s = live s (acceptIf s n mine) ∧ mine v system d = c.2

variable {v : State} {system : Bool} {c : Instr}

theorem acceptsRow_of (hn : n < 64) (mine : State → Bool → Desc → Bool)
    (hx : exec c s = live s (withUnit s 64 n fun s n => acceptIf s n mine)) :
    AcceptsRow s n v system d (c, mine v system d) :=
  ⟨mine, hx.trans (congrArg (live s) (withUnit_of hn s _)), rfl⟩

theorem acceptsRow_of_op (hn : n < 64) (code : Nat) (hx : exec c s = live s (acceptOp code n s)) :
    AcceptsRow s n v system d (c, d.op == code) :=
  acceptsRow_of hn (fun _ _ d => d.op == code) hx

theorem acceptsRow_of_mode (hn : n < 64) (code mode modes : Nat)
    (hx : exec c s = live s (acceptMode code mode modes n s)) :
    AcceptsRow s n v system d (c, d.op == code && (if v.param d 0 < modes then v.param d 0 else 0) == mode) :=
  acceptsRow_of hn (fun s _ d => d.op == code && (if s.param d 0 < modes then s.param d 0 else 0) == mode) hx

end

end Sys2Proof.Machine

section
open Sys2Proof Sys2Proof.Machine

/-- Settles O10: each command is an acceptance under its row's premise, and however far the accepted task comes at once, it
is the hopper's, started now. -/
theorem acceptedTaskRunsOnTheFurrow : Obligations.AcceptedTaskRunsOnTheFurrow := by
  intro s n hh hn rows
  have hrows (v : State) (system : Bool) (d : Desc) : ∀ c ∈ rows v system d, AcceptsRow s n v system d c := by
    simp only [rows, List.forall_mem_cons]
    have op {c : Instr} (code : Nat) := acceptsRow_of_op (s := s) (v := v) (system := system) (d := d) (c := c) hn code
    have mode {c : Instr} (code mode modes : Nat) :=
      acceptsRow_of_mode (s := s) (v := v) (system := system) (d := d) (c := c) hn code mode modes
    exact ⟨op 0x01 rfl, op 0x02 rfl, op 0x03 rfl, op 0x04 rfl, op 0x05 rfl, op 0x06 rfl, op 0x07 rfl, op 0x08 rfl,
      op 0x09 rfl, mode 0x0A 0 4 rfl, mode 0x0A 1 4 rfl, mode 0x0A 2 4 rfl, mode 0x0A 3 4 rfl, mode 0x0B 0 2 rfl,
      mode 0x0B 1 2 rfl, op 0x0C rfl, op 0x0D rfl, op 0x0E rfl, mode 0x0F 0 3 rfl, mode 0x0F 1 3 rfl, mode 0x0F 2 3 rfl,
      acceptsRow_of hn (fun _ system d => system && d.op == opCheckPlot) rfl,
      acceptsRow_of hn (fun _ system d => (opFor system false d.op).isNone) rfl, List.forall_mem_nil _⟩
  refine ⟨fun hc d c hmem => ?_, ?_⟩
  · obtain ⟨mine, hx, -⟩ := hrows _ _ _ c hmem
    rw [acceptIf_of_no_choice hc] at hx
    exact answers_of_live hx hh
  · intro h hc v
    refine ⟨fun hd d c hmem => ?_, fun d hd c hmem => ?_⟩
    · obtain ⟨mine, hx, -⟩ := hrows _ _ _ c hmem
      rw [acceptIf_of_unfetched hc hd] at hx
      exact answers_of_live hx hh
    · obtain ⟨mine, hx, hmine⟩ := hrows _ _ _ c hmem
      refine ⟨fun hm => ?_, fun hm => ?_⟩
      · rw [acceptIf_of_other hc hd (hmine.trans hm)] at hx
        exact answers_of_live hx hh
      · have hshows := acceptIf_shows hn hc hd (hmine.trans hm)
        generalize acceptIf s n mine = u at hx hshows
        exact yields_of_live hx hh ⟨hshows.inflight, hshows.stage, hshows.kind, hshows.hopper, hshows.tag, hshows.tiles,
          hshows.cycles, hshows.fresh.running⟩

end
end

section
/-! Errors of a packet on the Headland (R126, R271 to R277). -/

namespace Sys2Proof.Machine

/-- A state whose queue is that of s has it put back unchanged. -/
theorem withQueue_of_pending {s t : State} (h : t.pending = s.pending) : t.withQueue s.pending = t := by
  rw [← h, State.withQueue_self]

/-- A meaning that leaves the queue alone is what its command leaves in a running device. -/
theorem yields_of_kept_queue {c : Instr} {s u : State} {P : State → Prop} (hx : exec c s = live s u)
    (hh : s.held = false) (hq : u.pending = s.pending) (hp : P u) : Yields c s P :=
  yields_of_live hx hh (by rwa [withQueue_of_pending hq])

/-! The packet's way to a router input. -/

section
variable {s v t : State} {p : Packet}

theorem exec_headlandPacket_of_wellFormed (h : p.wellFormed = true) (s : State) :
    exec (.headlandPacket p) s = live s (headlandPacket s p) := by
  simp only [Packet.wellFormed, Bool.and_eq_true, decide_eq_true_eq] at h
  obtain ⟨⟨⟨⟨⟨⟨hsx, hsy⟩, hdx⟩, hdy⟩, hvc⟩, hr⟩, hport⟩ := h
  have hroute : routedPacket s p = headlandPacket s p := by
    simp only [routedPacket, withUnit_of, hsx, hsy, hdx, hdy, hvc, hr, hport]
  exact congrArg (live s) hroute

theorem headlandPacket_of_absent (h : onPath p p.inRouter = false ∨ s.carries p = false) : headlandPacket s p = s :=
  if_pos (by simpa using h)

theorem headlandPacket_of_noCredit (hon : onPath p p.inRouter = true) (hc : s.carries p = true)
    (hn : p.noCredit = true) : headlandPacket s p = s.raise { code := 0x0304, cls := 4, inst := p.inRouter } := by
  simp [headlandPacket, hon, hc, hn]

theorem headlandPacket_of_bad_header (hon : onPath p p.inRouter = true) (hc : s.carries p = true)
    (hn : p.noCredit = false) (hu : p.upsetHead = .double ∨ p.upsetHead = .wrongAddress) :
    headlandPacket s p = headDiscard s p := by
  have hsingle : p.upsetHead ≠ .single := by rcases hu with h | h <;> simp [h]
  simp [headlandPacket, hon, hc, hn, hu, hsingle]

/-- v is s once the packet's header has passed: a clean one records nothing, a corrected one its correction. -/
def HeaderPassed (s : State) (p : Packet) (v : State) : Prop :=
  p.upsetHead = .clean ∧ v = s ∨ p.upsetHead = .single ∧ v = headCorrected s p

/-- The data word that the packet's error lies in, where it carries bytes. -/
def meetWord (v : State) (p : Packet) : State :=
  if p.bytes = 0 then v
  else
    match p.upsetWord with
    | .clean => v
    | .single => headCorrected v p
    | _ => headPoison v p

theorem headlandPacket_of_passed (hon : onPath p p.inRouter = true) (hc : s.carries p = true)
    (hn : p.noCredit = false) (hv : HeaderPassed s p v) : headlandPacket s p = meetWord v p := by
  obtain ⟨hu, rfl⟩ | ⟨hu, rfl⟩ := hv <;> simp [headlandPacket, hon, hc, hn, hu, meetWord] <;> rfl

theorem meetWord_of_clean (h : p.upsetWord = .clean ∨ p.bytes = 0) : meetWord v p = v := by
  unfold meetWord
  split
  · rfl
  · next hb => rw [h.resolve_right hb]

theorem meetWord_of_single (h : p.upsetWord = .single) (hb : p.bytes ≠ 0) : meetWord v p = headCorrected v p := by
  rw [meetWord, if_neg hb, h]

theorem meetWord_of_double (h : p.upsetWord = .double ∨ p.upsetWord = .wrongAddress) (hb : p.bytes ≠ 0) :
    meetWord v p = headPoison v p := by
  rw [meetWord, if_neg hb]
  rcases h with h | h <;> rw [h]

/-! What HEAD_ERR and HEAD_ECC record (R277). -/

/-- t holds the packet's error in HEAD_ERR, with its flag, and its count in the field of HEAD_ECC above lsb. -/
def RecordsFlitError (p : Packet) (v t : State) (flag lsb : Nat) : Prop :=
  t.bits Reg.headErr 15 12 = p.vc ∧ t.bits Reg.headErr 9 7 = p.inPort ∧ t.bits Reg.headErr 6 0 = p.inRouter ∧
    t.bit Reg.headErr flag = true ∧ t.bits Reg.headEcc (lsb + 15) lsb = min (v.bits Reg.headEcc (lsb + 15) lsb + 1) 65535 ∧
    SameRegsBut [Reg.headErr, Reg.headEcc] v t

/-- HEAD_ERR with the packet's error, before HEAD_ECC counts it. -/
def showFlitError (s : State) (p : Packet) (flag : Nat) : State :=
  (((s.setBits Reg.headErr 15 12 p.vc).setBits Reg.headErr 9 7 p.inPort).setBits Reg.headErr 6 0 p.inRouter).setBit
    Reg.headErr flag true

theorem headError_eq (s : State) (p : Packet) (uncorr : Bool) : headError s p uncorr =
    (showFlitError s p (if uncorr then 31 else 30)).addSat Reg.headEcc (if uncorr then 31 else 15)
      (if uncorr then 16 else 0) := by
  cases uncorr <;> rfl

theorem headErr_ne_headEcc : Reg.headErr ≠ Reg.headEcc := by decide

theorem showFlitError_headErr (h : p.wellFormed = true) {flag : Nat} (h16 : 16 ≤ flag) (h32 : flag < 32) :
    (showFlitError s p flag).bits Reg.headErr 15 12 = p.vc ∧ (showFlitError s p flag).bits Reg.headErr 9 7 = p.inPort ∧
      (showFlitError s p flag).bits Reg.headErr 6 0 = p.inRouter ∧ (showFlitError s p flag).bit Reg.headErr flag = true := by
  simp only [Packet.wellFormed, Bool.and_eq_true, decide_eq_true_eq] at h
  obtain ⟨⟨⟨-, hvc⟩, hr⟩, hport⟩ := h
  unfold showFlitError
  refine ⟨?_, ?_, ?_, State.bit_setBit_self _ _ _ h32⟩
  · rw [State.bits_setBit_of_disjoint _ _ _ _ h32 (by omega), State.bits_setBits_of_disjoint _ _ _ _ (by omega) (by omega),
      State.bits_setBits_of_disjoint _ _ _ _ (by omega) (by omega), State.bits_setBits_self _ _ _ _ (by omega)]
    omega
  · rw [State.bits_setBit_of_disjoint _ _ _ _ h32 (by omega), State.bits_setBits_of_disjoint _ _ _ _ (by omega) (by omega),
      State.bits_setBits_self _ _ _ _ (by omega)]
    omega
  · rw [State.bits_setBit_of_disjoint _ _ _ _ h32 (by omega), State.bits_setBits_self _ _ _ _ (by omega)]
    omega

theorem showFlitError_sameRegs (s : State) (p : Packet) (flag : Nat) :
    SameRegsBut [Reg.headErr] s (showFlitError s p flag) :=
  have hm : Reg.headErr ∈ [Reg.headErr] := List.mem_singleton_self _
  (((SameRegsBut.refl.setBits hm).setBits hm).setBits hm).setBit hm

theorem showFlitError_count_records (h : p.wellFormed = true) (v : State) {flag lsb : Nat} (h16 : 16 ≤ flag)
    (h32 : flag < 32) (hl : lsb + 15 < 32) :
    RecordsFlitError p v ((showFlitError v p flag).addSat Reg.headEcc (lsb + 15) lsb) flag lsb := by
  obtain ⟨hvc, hport, hr, hflag⟩ := showFlitError_headErr (s := v) h h16 h32
  have hne := headErr_ne_headEcc
  have hregs := showFlitError_sameRegs v p flag
  refine ⟨?_, ?_, ?_, ?_, ?_, ?_⟩
  · rw [State.addSat, State.bits_setBits_of_disjoint _ _ _ _ hl (.inl hne), hvc]
  · rw [State.addSat, State.bits_setBits_of_disjoint _ _ _ _ hl (.inl hne), hport]
  · rw [State.addSat, State.bits_setBits_of_disjoint _ _ _ _ hl (.inl hne), hr]
  · rw [State.addSat, State.bit_setBits_of_disjoint _ _ _ _ hl (.inl hne), hflag]
  · rw [State.bits_addSat_self _ _ _ _ hl, State.bits, hregs _ (by simp [hne.symm]), ← State.bits,
      show lsb + 15 + 1 - lsb = 16 by omega]
    rfl
  · refine SameRegsBut.addSat (fun a ha => hregs a fun hm => ha ?_) (by simp)
    exact List.mem_cons.mpr (.inl (List.mem_singleton.mp hm))

theorem headError_records (h : p.wellFormed = true) (v : State) (uncorr : Bool) :
    RecordsFlitError p v (headError v p uncorr) (if uncorr then 31 else 30) (if uncorr then 16 else 0) := by
  rw [headError_eq]
  cases uncorr
  · exact showFlitError_count_records h v (by decide) (by decide) (by decide)
  · exact showFlitError_count_records h v (by decide) (by decide) (by decide)

theorem headError_onlyRegs (s : State) (p : Packet) (uncorr : Bool) : OnlyRegs s (headError s p uncorr) := by
  rw [headError_eq, showFlitError]
  exact OnlyRegs.refl.setBits.setBits.setBits.setBit.addSat

theorem RecordsFlitError.raise {flag lsb : Nat} (h : RecordsFlitError p v t flag lsb) (e : Event) :
    RecordsFlitError p v (t.raise e) flag lsb := h

/-- An error that is recorded and raised changes registers alone but for the event. -/
theorem OnlyRegs.raise_eq (h : OnlyRegs s t) (e : Event) : t.raise e = { s.raise e with regs := (t.raise e).regs } := by
  have hregs := congrArg (fun u : State => u.raise e) h
  exact hregs

@[simp] theorem headError_pending (s : State) (p : Packet) (uncorr : Bool) :
    (headError s p uncorr).pending = s.pending := by
  rw [headError_onlyRegs s p uncorr]

@[simp] theorem headError_marks (s : State) (p : Packet) (uncorr : Bool) : (headError s p uncorr).marks = s.marks := by
  rw [headError_onlyRegs s p uncorr]

@[simp] theorem headError_furrows (s : State) (p : Packet) (uncorr : Bool) :
    (headError s p uncorr).furrows = s.furrows := by
  rw [headError_onlyRegs s p uncorr]

/-- A corrected word: HEAD_ERR and HEAD_ECC record it, and the event is F1 0x0301. -/
theorem headCorrected_records (h : p.wellFormed = true) (v : State) :
    RecordsFlitError p v (headCorrected v p) 30 0 ∧
      headCorrected v p = { v.raise { code := 0x0301, cls := 1, inst := p.inRouter } with
        regs := (headCorrected v p).regs } :=
  ⟨(headError_records h v false).raise _, (headError_onlyRegs v p false).raise_eq _⟩

/-- An uncorrectable header: HEAD_ERR and HEAD_ECC record it, and the event is F4 0x0303 on the system channel, else F3. -/
theorem headDiscard_records (h : p.wellFormed = true) (s : State) :
    RecordsFlitError p s (headDiscard s p) 31 16 ∧
      headDiscard s p = { s.raise { code := 0x0303, cls := if p.vc = 8 then 4 else 3, inst := p.inRouter
                                    field := if p.vc = 8 then none else some p.vc } with
        regs := (headDiscard s p).regs } :=
  ⟨(headError_records h s true).raise _, (headError_onlyRegs s p true).raise_eq _⟩

/-- An uncorrectable data word before its poison goes on: what is recorded of it, and its event F2 0x0302. -/
def wordRecorded (s : State) (p : Packet) : State :=
  (headError s p true).raise { code := 0x0302, cls := 2, inst := p.inRouter }

theorem wordRecorded_records (h : p.wellFormed = true) (s : State) :
    RecordsFlitError p s (wordRecorded s p) 31 16 ∧
      wordRecorded s p = { s.raise { code := 0x0302, cls := 2, inst := p.inRouter } with
        regs := (wordRecorded s p).regs } :=
  ⟨(headError_records h s true).raise _, (headError_onlyRegs s p true).raise_eq _⟩

theorem headPoison_of_response (h : p.response = true) :
    headPoison s p = poisonRequester (wordRecorded s p) p (p.granule / 32 * 32) := if_pos h

theorem headPoison_of_write (h : p.response = false) :
    headPoison s p = (wordTargets p).foldl storePoison (wordRecorded s p) := if_neg (by simp [h])

theorem headDiscard_pending (s : State) (p : Packet) : (headDiscard s p).pending = s.pending := by
  rw [headDiscard, State.raise_pending, headError_pending]

theorem headCorrected_pending (s : State) (p : Packet) : (headCorrected s p).pending = s.pending := by
  rw [headCorrected, State.raise_pending, headError_pending]

theorem HeaderPassed.pending (h : HeaderPassed s p v) : v.pending = s.pending := by
  obtain ⟨-, rfl⟩ | ⟨-, rfl⟩ := h
  · rfl
  · exact headCorrected_pending s p

/-- The registers aside, the marks, the Furrows and the queue stay as they were up to a write's poison. -/
theorem HeaderPassed.wordRecorded_keeps (h : HeaderPassed s p v) : (wordRecorded v p).marks = s.marks ∧
    (wordRecorded v p).furrows = s.furrows ∧ (wordRecorded v p).pending = s.pending := by
  rw [wordRecorded, State.raise_marks, State.raise_furrows, State.raise_pending, headError_marks, headError_furrows,
    headError_pending]
  obtain ⟨-, rfl⟩ | ⟨-, rfl⟩ := h
  · exact ⟨rfl, rfl, rfl⟩
  · rw [headCorrected, State.raise_marks, State.raise_furrows, State.raise_pending, headError_marks, headError_furrows,
      headError_pending]
    exact ⟨rfl, rfl, rfl⟩

end

/-! A write's poisoned word (R127, R138, R276). -/

theorem not_dram_of_seedbedOf {a m : Nat} (h : seedbedOf a = some m) : ¬ a < 0x2000000000 := fun hlt => by
  rw [seedbedOf, if_neg (by omega)] at h
  cases h

theorem seedbedOf_granule (a : Nat) : seedbedOf (a / 32 * 32) = seedbedOf a := by
  unfold seedbedOf
  congr 1
  · apply propext; omega
  · congr 1; omega

theorem granulesOf_granule (a : Nat) : granulesOf (a / 32 * 32) 32 = [a / 32] := by
  have hcount : (a / 32 * 32 + 32 - 1) / 32 + 1 - a / 32 * 32 / 32 = 1 := by omega
  rw [granulesOf, if_neg (by decide), hcount]
  simp

/-- A write takes back the scrub's write-backs of its granules, in the seedbed that it goes to. -/
theorem cancelWriteBacks_furrow (s : State) (a n m : Nat) : (cancelWriteBacks s a n).furrow m =
    if seedbedOf a = some m then { s.furrow m with
      writeBack := (s.furrow m).writeBack.filter fun x => !(granulesOf a n).contains (x.2 / 32) }
    else s.furrow m := by
  unfold cancelWriteBacks
  split
  · next k hk =>
    simp only [hk, Option.some.injEq]
    by_cases hkm : k = m
    · subst hkm
      rw [if_pos rfl]
      split
      · next he => rw [List.isEmpty_iff.mp he, List.filter_nil, ← List.isEmpty_iff.mp he]
      · exact State.furrow_setFurrow_self _ _ _
    · rw [if_neg hkm]
      split
      · rfl
      · exact State.furrow_setFurrow_ne _ _ fun h => hkm h.symm
  · next hk => simp [hk]

theorem mark_congr {s t : State} (h : t.marks = s.marks) (g : Nat) : t.mark g = s.mark g := by
  rw [State.mark, State.mark, h]

theorem furrow_congr {s t : State} (h : t.furrows = s.furrows) (m : Nat) : t.furrow m = s.furrow m := by
  rw [State.furrow, State.furrow, h]

theorem setBlockMark_mark (s : State) (b : Nat) (m : Mark) (g : Nat) :
    (setBlockMark s b m).mark g = if g / 2 = b then m else s.mark g := by
  rw [setBlockMark, State.mark_setMark, State.mark_setMark]
  by_cases h1 : g = 2 * b + 1
  · rw [if_pos h1, if_pos (by omega)]
  · rw [if_neg h1]
    exact if_congr (by omega) rfl rfl

theorem storePoison_mark (s : State) (a g : Nat) :
    (storePoison s a).mark g = if (if a < 0x2000000000 then g / 2 = a / 64 else g = a / 32) then .double else s.mark g := by
  unfold storePoison
  split
  · exact setBlockMark_mark s _ _ g
  · rw [State.mark_setMark, cancelWriteBacks_eq]
    rfl

theorem storePoison_furrow (s : State) (a m : Nat) : (storePoison s a).furrow m =
    if seedbedOf a = some m then { s.furrow m with
      writeBack := (s.furrow m).writeBack.filter fun x => x.2 / 32 != a / 32 }
    else s.furrow m := by
  unfold storePoison
  split
  · next hlo => rw [if_neg fun h => not_dram_of_seedbedOf h hlo]; rfl
  · rw [State.setMark_furrow, cancelWriteBacks_furrow, seedbedOf_granule, granulesOf_granule]
    simp only [List.contains_cons, List.contains_nil, Bool.or_false]
    rfl

theorem storePoison_frame (s : State) (a : Nat) :
    storePoison s a = { s with marks := (storePoison s a).marks, furrows := (storePoison s a).furrows } := by
  unfold storePoison
  split
  · rfl
  · rw [cancelWriteBacks_eq]
    rfl

/-- t is s once a word has been stored poisoned at every address of a list: their marks, and the write-backs that wait. -/
structure StoresPoison (s t : State) (as : List Nat) : Prop where
  marked : ∀ a ∈ as, if a < 0x2000000000 then t.blockMark (a / 64) = .double else t.mark (a / 32) = .double
  kept : ∀ g, (∀ a ∈ as, a / 64 ≠ g / 2) → t.mark g = s.mark g
  writeBacks : ∀ m, ∃ ws, t.furrow m = { s.furrow m with writeBack := ws } ∧
    ∀ a ∈ as, seedbedOf a = some m → ∀ x ∈ ws, x.2 / 32 ≠ a / 32
  frame : t = { s with marks := t.marks, furrows := t.furrows }

theorem StoresPoison.pending {s t : State} {as : List Nat} (h : StoresPoison s t as) : t.pending = s.pending := by
  rw [h.frame]

theorem StoresPoison.records {v s t : State} {p : Packet} {as : List Nat} {flag lsb : Nat} (h : StoresPoison s t as)
    (hrec : RecordsFlitError p v s flag lsb) : RecordsFlitError p v t flag lsb := by
  rw [h.frame]
  exact hrec

/-- What holds of s but for its registers holds of t but for registers, marks and Furrows. -/
theorem StoresPoison.frame_trans {s t u : State} {as : List Nat} (h : StoresPoison s t as)
    (hs : s = { u with regs := s.regs }) :
    t = { u with regs := t.regs, marks := t.marks, furrows := t.furrows } := by
  rw [h.frame, hs]

theorem StoresPoison.refl (s : State) : StoresPoison s s [] where
  marked _ h := absurd h List.not_mem_nil
  kept _ _ := rfl
  writeBacks m := ⟨(s.furrow m).writeBack, rfl, fun _ h => absurd h List.not_mem_nil⟩
  frame := rfl

theorem storePoison_keeps_double {s : State} {g : Nat} (h : s.mark g = .double) (a : Nat) :
    (storePoison s a).mark g = .double := by
  rw [storePoison_mark, h, ite_self]

theorem storePoison_marks_own (s : State) (a : Nat) : if a < 0x2000000000 then (storePoison s a).blockMark (a / 64) = .double
    else (storePoison s a).mark (a / 32) = .double := by
  split
  · next h => rw [State.blockMark, storePoison_mark, if_pos (by rw [if_pos h]; omega)]
  · next h => rw [storePoison_mark, if_pos (by rw [if_neg h])]

theorem StoresPoison.storePoison {s t : State} {as : List Nat} (h : StoresPoison s t as) (a : Nat) :
    StoresPoison s (storePoison t a) (as ++ [a]) where
  marked b hb := by
    obtain hb | rfl : b ∈ as ∨ b = a := by simpa using hb
    · have hm := h.marked b hb
      split
      · next hlo => rw [if_pos hlo] at hm; exact storePoison_keeps_double hm a
      · next hlo => rw [if_neg hlo] at hm; exact storePoison_keeps_double hm a
    · exact storePoison_marks_own t b
  kept g hg := by
    have ha := hg a (by simp)
    rw [storePoison_mark, if_neg (by split <;> omega)]
    exact h.kept g fun b hb => hg b (by simp [hb])
  writeBacks m := by
    obtain ⟨ws, hf, hws⟩ := h.writeBacks m
    rw [storePoison_furrow, hf]
    by_cases hm : seedbedOf a = some m
    · rw [if_pos hm]
      refine ⟨_, rfl, fun b hb hbm x hx => ?_⟩
      obtain ⟨hx, hxa⟩ := List.mem_filter.mp hx
      obtain hb | rfl : b ∈ as ∨ b = a := by simpa using hb
      · exact hws b hb hbm x hx
      · simpa using hxa
    · rw [if_neg hm]
      refine ⟨ws, rfl, fun b hb hbm => ?_⟩
      obtain hb | rfl : b ∈ as ∨ b = a := by simpa using hb
      · exact hws b hb hbm
      · exact absurd hbm hm
  frame := by
    rw [storePoison_frame t a, h.frame]

theorem storesPoison_foldl (s : State) (as : List Nat) : StoresPoison s (as.foldl storePoison s) as := by
  induction as using List.reverseRecOn with
  | nil => exact StoresPoison.refl s
  | append_singleton as a ih =>
    rw [List.foldl_append]
    exact ih.storePoison a

end Sys2Proof.Machine

section
open Sys2Proof Sys2Proof.Machine

/-- Settles O32: the cases of headlandPacket in its own order, the last by the lemma on a write's poisoned word. -/
theorem headlandErrorsAreRecorded : Obligations.HeadlandErrorsAreRecorded := by
  intro s p hh hwf c recorded corrected
  have hx {u : State} (e : headlandPacket s p = u) : exec c s = live s u :=
    e ▸ exec_headlandPacket_of_wellFormed hwf s
  refine ⟨fun h => answers_of_live (hx (headlandPacket_of_absent h)) hh,
    fun hon hc hn => answers_of_live (hx (headlandPacket_of_noCredit hon hc hn)) hh, fun hon hc hn => ⟨fun hu => ?_, ?_⟩⟩
  · exact yields_of_kept_queue (hx (headlandPacket_of_bad_header hon hc hn hu)) hh
      (headDiscard_pending s p) (headDiscard_records hwf s)
  intro v hv
  have hpassed : HeaderPassed s p v := hv
  have hmeet := headlandPacket_of_passed hon hc hn hpassed
  refine ⟨fun hu => ?_, fun hw => ?_, fun hw hb => ?_, fun hw hb => ?_⟩
  · obtain ⟨hclean, -⟩ | ⟨-, rfl⟩ := hv
    · rw [hclean] at hu; cases hu
    · exact headCorrected_records hwf s
  · rw [meetWord_of_clean hw] at hmeet
    exact answers_of_live (hx hmeet) hh
  · rw [meetWord_of_single hw hb] at hmeet
    exact yields_of_kept_queue (hx hmeet) hh ((headCorrected_pending v p).trans hpassed.pending)
      (headCorrected_records hwf v)
  · rw [meetWord_of_double hw hb] at hmeet
    obtain ⟨hrec, hframe⟩ := wordRecorded_records hwf v
    refine ⟨fun hresp => ⟨wordRecorded v p,
      answers_of_live (hx (hmeet.trans (headPoison_of_response hresp))) hh, hrec, hframe⟩, fun hresp => ?_⟩
    obtain ⟨hmarks, hfurrows, hpending⟩ := hpassed.wordRecorded_keeps
    have hst := storesPoison_foldl (wordRecorded v p) (wordTargets p)
    refine yields_of_kept_queue (hx (hmeet.trans (headPoison_of_write hresp))) hh (hst.pending.trans hpending)
      ⟨hst.records hrec, hst.marked, fun g hg => (hst.kept g hg).trans (mark_congr hmarks g), fun m => ?_,
        hst.frame_trans hframe⟩
    obtain ⟨ws, hf, hws⟩ := hst.writeBacks m
    exact ⟨ws, by rw [hf, furrow_congr hfurrows], hws⟩

end
end

section
/-! The scrub of the SEC-DED memories (R138, R163, R191, R222, R256, R302, R332, R348, R361, R377, R385). -/

namespace Sys2Proof.Machine

/-! What a scrub finds, and the entry that it gives. -/

@[simp] theorem scrubFound_double (m : Mark) : scrubFound m .double = .uncorrectable := by
  cases m <;> rfl

/-- An uncorrectable error is found in a word that meets one or holds one. -/
theorem scrubFound_lost {m : Mark} {u : Upset} (h : u = .double ∨ m = .double) : scrubFound m u = .uncorrectable := by
  rcases h with rfl | rfl
  · exact scrubFound_double m
  · rfl

/-- The events of a scrub: none of a clean word, F1 of a corrected one, F2 of an uncorrectable one. -/
def scrubEntries (x : ScrubFound) (corr uncorr inst : Nat) : List Event :=
  match x with
  | .clean => []
  | .corrected => [{ code := corr, cls := 1, inst := inst }]
  | .uncorrectable => [{ code := uncorr, cls := 2, inst := inst }]

/-- From s to t the events es reach the network, and no byte of memory changes. -/
def Reports (s t : State) (es : List Event) : Prop := t.island.net = s.island.net ++ es ∧ SameBytes s t

/-- From s to t no event reaches the network, no byte of memory changes and no mark of a buffer's word. -/
structure Silent (s t : State) : Prop where
  island : t.island = s.island
  mem : t.mem = s.mem
  words : t.words = s.words

section
variable {s t u : State} {es : List Event}

theorem Silent.refl : Silent s s := ⟨rfl, rfl, rfl⟩

theorem Silent.setBit (h : Silent s t) (a i : Nat) (b : Bool) : Silent s (t.setBit a i b) := ⟨h.island, h.mem, h.words⟩

theorem Silent.addSat (h : Silent s t) (a msb lsb k : Nat) : Silent s (t.addSat a msb lsb k) := ⟨h.island, h.mem, h.words⟩

theorem OnlyRegs.silent (h : OnlyRegs s t) : Silent s t := by
  rw [h]
  exact ⟨rfl, rfl, rfl⟩

theorem sameBytes_of_mem (h : t.mem = s.mem) : SameBytes s t := fun a => by rw [State.byte, State.byte, h]

theorem Silent.reports (h : Silent s t) (h' : Reports t u es) : Reports s u es :=
  ⟨by rw [h'.1, h.island], fun a => (h'.2 a).trans (sameBytes_of_mem h.mem a)⟩

theorem Reports.silent (h : Reports s t es) (h' : Silent t u) : Reports s u es :=
  ⟨by rw [h'.island, h.1], fun a => (sameBytes_of_mem h'.mem a).trans (h.2 a)⟩

theorem Reports.refl : Reports s s [] := ⟨(List.append_nil _).symm, fun _ => rfl⟩

theorem reports_raise (s : State) (e : Event) : Reports s (s.raise e) [e] := ⟨rfl, fun _ => rfl⟩

end

/-- A scrub's entry changes the fault-report network alone. -/
theorem scrubEvent_eq (s : State) (x : ScrubFound) (corr uncorr inst : Nat) :
    scrubEvent s x corr uncorr inst = { s with island := (scrubEvent s x corr uncorr inst).island } := by
  cases x <;> rfl

theorem scrubEvent_reports (s : State) (x : ScrubFound) (corr uncorr inst : Nat) :
    Reports s (scrubEvent s x corr uncorr inst) (scrubEntries x corr uncorr inst) := by
  cases x with
  | clean => exact Reports.refl
  | corrected => exact reports_raise s _
  | uncorrectable => exact reports_raise s _

@[simp] theorem scrubEvent_words (s : State) (x : ScrubFound) (corr uncorr inst : Nat) :
    (scrubEvent s x corr uncorr inst).words = s.words := by
  rw [scrubEvent_eq]

@[simp] theorem scrubEvent_furrow (s : State) (x : ScrubFound) (corr uncorr inst n : Nat) :
    (scrubEvent s x corr uncorr inst).furrow n = s.furrow n := by
  rw [scrubEvent_eq]
  rfl

/-! A scrub command, and what it reports. -/

section
variable {s : State} {m : ScrubMemory} {corr uncorr inst : Nat}

theorem yields_of_scrub {u : Upset} {t : State} {P : State → Prop} (hh : s.held = false)
    (e : scrubMemory s m u = t) (hp : P (t.withQueue s.pending)) : Yields (.secDedMemoryScrub m u) s P :=
  yields_of_live (congrArg (live s) e) hh hp

/-- The scrub of a word that meets u reports the events es, and changes no byte of memory. -/
def ScrubReports (s : State) (m : ScrubMemory) (u : Upset) (es : List Event) : Prop :=
  Yields (.secDedMemoryScrub m u) s fun t => t.island.net = s.island.net ++ es ∧ SameBytes s t

theorem Reports.yields {u : Upset} {t : State} {es : List Event} (h : Reports s t es) (hh : s.held = false)
    (e : scrubMemory s m u = t) : ScrubReports s m u es := yields_of_scrub hh e h

/-- The scrub of a word of this mark: what it meets is reported by kind, and an uncorrectable word is found again. -/
def ReportsByKind (s : State) (m : ScrubMemory) (mark : Mark) (corr uncorr inst : Nat) : Prop :=
  (mark = .clean → ScrubReports s m .clean [] ∧ ScrubReports s m .single [{ code := corr, cls := 1, inst := inst }] ∧
    ScrubReports s m .double [{ code := uncorr, cls := 2, inst := inst }]) ∧
  (mark = .double → ∀ u, ScrubReports s m u [{ code := uncorr, cls := 2, inst := inst }])

theorem reportsByKind_of_entries {mark : Mark}
    (h : ∀ u, ScrubReports s m u (scrubEntries (scrubFound mark u) corr uncorr inst)) :
    ReportsByKind s m mark corr uncorr inst := by
  refine ⟨fun hm => ?_, fun hm u => ?_⟩
  · subst hm
    exact ⟨h .clean, h .single, h .double⟩
  · subst hm
    exact h u

end

/-! Words of the buffers without a device address. -/

/-- What a buffer's scrub does with what it finds reports it under these codes, and leaves the buffers' words. -/
structure NotesWord (f : State → Nat → ScrubFound → State) (corr uncorr : Nat) : Prop where
  reports : ∀ s i x, Reports s (f s i x) (scrubEntries x corr uncorr i)
  words : ∀ s i x, (f s i x).words = s.words

section
variable {s : State} {m : ScrubMemory} {b : WordBuffer} {i k corr uncorr : Nat}
  {f : State → Nat → ScrubFound → State}

/-- A buffer's word: its errors are reported by kind, a correctable one is corrected in place, an uncorrectable one stays. -/
def WordScrub (s : State) (m : ScrubMemory) (b : WordBuffer) (i k corr uncorr : Nat) : Prop :=
  ReportsByKind s m (s.word b i k) corr uncorr i ∧
    (s.word b i k = .clean → Yields (.secDedMemoryScrub m .single) s fun t => t.word b i k = .clean) ∧
    Yields (.secDedMemoryScrub m .double) s fun t => t.word b i k = .double

/-- The state after the scrub of a buffer's word that meets u. -/
def wordScrubbed (s : State) (b : WordBuffer) (i k : Nat) (f : State → Nat → ScrubFound → State) (u : Upset) : State :=
  f (s.setWord b i k (scrubFound (s.word b i k) u).mark) i (scrubFound (s.word b i k) u)

theorem scrubBuffer_of {n : Nat} (hi : i < n) (u : Upset) : scrubBuffer s b n i k u f = wordScrubbed s b i k f u :=
  withUnit_of hi s _

theorem wordScrubbed_word (hf : NotesWord f corr uncorr) (u : Upset) :
    (wordScrubbed s b i k f u).word b i k = (scrubFound (s.word b i k) u).mark := by
  rw [State.word, wordScrubbed, hf.words]
  exact mapGet_mapSet_self _ _ _ _

theorem wordBuffer_scrub (hh : s.held = false) (hf : NotesWord f corr uncorr)
    (he : ∀ u, scrubMemory s m u = wordScrubbed s b i k f u) : WordScrub s m b i k corr uncorr := by
  refine ⟨reportsByKind_of_entries fun u => ?_, fun hc => ?_, ?_⟩
  · exact (hf.reports (s.setWord b i k (scrubFound (s.word b i k) u).mark) i _).yields (s := s) hh (he u)
  · refine yields_of_scrub hh (he .single) ((wordScrubbed_word hf .single).trans ?_)
    rw [hc]
    rfl
  · refine yields_of_scrub hh (he .double) ((wordScrubbed_word hf .double).trans ?_)
    rw [scrubFound_double]
    rfl

end

/-! Line buffers and score buffers of a Furrow (R163, R191). -/

theorem toEnding_silent (s : State) (n : Nat) (t : Task) (cause : Nat) : Silent s (toEnding s n t cause) := by
  rw [toEnding_frame]
  exact ⟨rfl, rfl, rfl⟩

theorem noteWord_onlyRegs (s : State) (a : Nat) (x : ScrubFound) : OnlyRegs s (noteWord s a x) := by
  cases x with
  | clean => exact OnlyRegs.refl
  | corrected => exact OnlyRegs.refl.setBit.addSat
  | uncorrectable => exact OnlyRegs.refl.setBit.addSat

theorem noteWord_furrow (s : State) (a : Nat) (x : ScrubFound) (n : Nat) : (noteWord s a x).furrow n = s.furrow n := by
  rw [noteWord_onlyRegs s a x]
  rfl

theorem poisonUnit_silent (s : State) (n : Nat) (ops : List Nat) (x : ScrubFound) : Silent s (poisonUnit s n ops x) := by
  unfold poisonUnit
  split
  · split
    · exact toEnding_silent _ _ _ _
    · exact Silent.refl
  · exact Silent.refl

/-- The scrub meets a word of the buffers of a Furrow's unit, whose ops and register are given. -/
def scrubUnit (reg : Nat → Nat) (corr uncorr : Nat) (ops : List Nat) (s : State) (n : Nat) (x : ScrubFound) : State :=
  poisonUnit (scrubEvent (noteWord s (reg n) x) x corr uncorr n) n ops x

theorem scrubRake_eq : scrubRake = scrubUnit Reg.furRkEcc 0x2030 0x2031 [0x02, 0x03, 0x04] := rfl

theorem scrubHarrow_eq : scrubHarrow = scrubUnit Reg.furHwEcc 0x2032 0x2033 [0x05] := rfl

section
variable {s : State} {m : ScrubMemory} {b : WordBuffer} {n k corr uncorr : Nat} {reg : Nat → Nat} {ops : List Nat}

theorem notesWord_scrubUnit (reg : Nat → Nat) (corr uncorr : Nat) (ops : List Nat) :
    NotesWord (scrubUnit reg corr uncorr ops) corr uncorr where
  reports s n x := (noteWord_onlyRegs s _ x).silent.reports
    ((scrubEvent_reports _ _ _ _ _).silent (poisonUnit_silent _ _ _ _))
  words s n x := by
    rw [scrubUnit, (poisonUnit_silent _ _ _ _).words, scrubEvent_words, (noteWord_onlyRegs s _ x).silent.words]

/-- A task that runs: it has passed its checks and its end is not fixed. -/
def Task.inRun (t : Task) : Bool := t.stage != .checking && !t.isEnding

theorem inRun_of_stage {t : Task} (hc : t.stage ≠ .checking) (he : ∀ c, t.stage ≠ .ending c) : t.inRun = true := by
  have hend : t.isEnding = false := by
    unfold Task.isEnding
    split
    · next c h => exact absurd h (he c)
    · rfl
  simp [Task.inRun, hc, hend]

theorem poisonUnit_of_op {t : Task} (ht : (s.furrow n).task = some t) (hr : t.inRun = true) (ho : t.desc.op ∈ ops) :
    poisonUnit s n ops .uncorrectable = toEnding s n t 0x0A := by
  rw [Task.inRun, Bool.and_eq_true] at hr
  simp [poisonUnit, ht, ho, hr]

theorem poisonUnit_of_other_op {t : Task} (ht : (s.furrow n).task = some t) (ho : t.desc.op ∉ ops) (x : ScrubFound) :
    poisonUnit s n ops x = s := by
  cases x <;> simp [poisonUnit, ht, ho]

/-- An uncorrectable word ends the running task of its unit with 0x0A, and leaves a task of another op. -/
def UnitScrub (s : State) (m : ScrubMemory) (n : Nat) (ops : List Nat) : Prop :=
  ∀ t0, (s.furrow n).task = some t0 → t0.stage ≠ .checking → (∀ c, t0.stage ≠ .ending c) →
    (t0.desc.op ∈ ops → Yields (.secDedMemoryScrub m .double) s fun t =>
      (t.furrow n).task = some (t0.ended 0x0A)) ∧
    (t0.desc.op ∉ ops → Yields (.secDedMemoryScrub m .double) s fun t => t.furrow n = s.furrow n)

theorem scrubUnit_task (hh : s.held = false)
    (he : ∀ u, scrubMemory s m u = wordScrubbed s b n k (scrubUnit reg corr uncorr ops) u) : UnitScrub s m n ops := by
  intro t0 ht hc hend
  have hfound := he .double
  rw [wordScrubbed, scrubFound_double, scrubUnit] at hfound
  have hkeep (v : State) (x : ScrubFound) : (scrubEvent (noteWord v (reg n) x) x corr uncorr n).furrow n = v.furrow n := by
    rw [scrubEvent_furrow, noteWord_furrow]
  refine ⟨fun ho => ?_, fun ho => ?_⟩
  · rw [poisonUnit_of_op (t := t0) (by rw [hkeep]; exact ht) (inRun_of_stage hc hend) ho] at hfound
    exact yields_of_scrub hh hfound (toEnding_task _ n t0 0x0A)
  · rw [poisonUnit_of_other_op (t := t0) (by rw [hkeep]; exact ht) ho] at hfound
    refine yields_of_scrub hh hfound ?_
    rw [State.withQueue_furrow, hkeep, State.setWord_furrow]

end

/-! Line buffers of the Intake and frame buffers of the Droveway (R256, R302). -/

theorem setPipe_silent (s : State) (p : Nat) (x : IntakePipe) : Silent s (s.setPipe p x) := ⟨rfl, rfl, rfl⟩

theorem errorFrame_silent (s : State) (p : Nat) : Silent s (errorFrame s p) := by
  unfold errorFrame
  dsimp only
  split
  · split
    · exact (setPipe_silent s p _).addSat _ _ _ _
    · exact Silent.refl
  · exact Silent.refl

theorem pipeEvent_of_flag {flag : Nat} (h : flag < 32) (s : State) (p cause cls : Nat) : pipeEvent s p cause cls flag =
    (s.setBit (Reg.intkPipeErr p) flag true).raise { code := 0x0500 + cause, cls := cls, inst := p } := by
  rw [pipeEvent, if_pos h]

theorem pipeEvent_reports {flag : Nat} (h : flag < 32) (s : State) (p cause cls : Nat) :
    Reports s (pipeEvent s p cause cls flag) [{ code := 0x0500 + cause, cls := cls, inst := p }] := by
  rw [pipeEvent_of_flag h]
  exact (Silent.refl.setBit _ _ _).reports (reports_raise _ _)

theorem pipeEvent_words {flag : Nat} (h : flag < 32) (s : State) (p cause cls : Nat) :
    (pipeEvent s p cause cls flag).words = s.words := by
  rw [pipeEvent_of_flag h, State.raise_words, State.setBit_words]

theorem notesWord_scrubLine : NotesWord scrubLine 0x050B 0x050C where
  reports s p x := by
    cases x with
    | clean => exact Reports.refl
    | corrected => exact pipeEvent_reports (by decide) s p 0x0B 1
    | uncorrectable => exact (pipeEvent_reports (by decide) s p 0x0C 2).silent (errorFrame_silent _ p)
  words s p x := by
    cases x with
    | clean => rfl
    | corrected => exact pipeEvent_words (by decide) s p 0x0B 1
    | uncorrectable => exact (errorFrame_silent _ p).words.trans (pipeEvent_words (by decide) s p 0x0C 2)

theorem poisonFrame_silent (s : State) (q : Nat) : Silent s (poisonFrame s q) := by
  unfold poisonFrame
  split <;> exact ⟨rfl, rfl, rfl⟩

theorem notesWord_droveWord : NotesWord droveWord 0x0609 0x0608 where
  reports s q x := by
    unfold droveWord
    split
    · exact (poisonFrame_silent s q).reports (scrubEvent_reports _ _ _ _ _)
    · exact scrubEvent_reports _ _ _ _ _
  words s q x := by
    rw [droveWord, scrubEvent_words]
    split
    · exact (poisonFrame_silent s q).words
    · rfl

/-! The four buffers. -/

section
variable {s : State} {k : Nat}

theorem lineBuffer_scrub {n : Nat} (hh : s.held = false) (hw : (ScrubMemory.lineBuffer n k).wellFormed = true) :
    WordScrub s (.lineBuffer n k) .line n k 0x2030 0x2031 ∧ UnitScrub s (.lineBuffer n k) n [0x02, 0x03, 0x04] := by
  simp only [ScrubMemory.wellFormed, Bool.and_eq_true, decide_eq_true_eq] at hw
  have he (u : Upset) : scrubMemory s (.lineBuffer n k) u =
      wordScrubbed s .line n k (scrubUnit Reg.furRkEcc 0x2030 0x2031 [0x02, 0x03, 0x04]) u := by
    rw [scrubMemory, withUnit_of hw.2, scrubBuffer_of hw.1, scrubRake_eq]
  exact ⟨wordBuffer_scrub hh (notesWord_scrubUnit _ _ _ _) he, scrubUnit_task hh he⟩

theorem scoreBuffer_scrub {n : Nat} (hh : s.held = false) (hw : (ScrubMemory.scoreBuffer n k).wellFormed = true) :
    WordScrub s (.scoreBuffer n k) .score n k 0x2032 0x2033 ∧ UnitScrub s (.scoreBuffer n k) n [0x05] := by
  simp only [ScrubMemory.wellFormed, Bool.and_eq_true, decide_eq_true_eq] at hw
  have he (u : Upset) : scrubMemory s (.scoreBuffer n k) u =
      wordScrubbed s .score n k (scrubUnit Reg.furHwEcc 0x2032 0x2033 [0x05]) u := by
    rw [scrubMemory, withUnit_of hw.2, scrubBuffer_of hw.1, scrubHarrow_eq]
  exact ⟨wordBuffer_scrub hh (notesWord_scrubUnit _ _ _ _) he, scrubUnit_task hh he⟩

theorem droveBuffer_scrub {q : Nat} (hh : s.held = false) (hq : q < 4) :
    WordScrub s (.droveBuffer q k) .drove q k 0x0609 0x0608 :=
  wordBuffer_scrub hh notesWord_droveWord fun u => by rw [scrubMemory, scrubBuffer_of hq]

theorem intakeLine_scrub {p : Nat} (hh : s.held = false) (hp : p < 16) :
    WordScrub s (.intakeLine p k) .intake p k 0x050B 0x050C :=
  wordBuffer_scrub hh notesWord_scrubLine fun u => by rw [scrubMemory, scrubBuffer_of hp]

end

/-! Objects and transmit FIFOs of the Bridle (R359, R361). -/

theorem noteRam_onlyRegs (s : State) (c : Nat) (x : ScrubFound) : OnlyRegs s (noteRam s c x) := by
  cases x with
  | clean => exact OnlyRegs.refl
  | corrected => exact OnlyRegs.refl.setBit
  | uncorrectable => exact OnlyRegs.refl.setBit

section
variable {s : State}

theorem setObject_silent (s : State) (o : Nat) (x : BridleObject) : Silent s (s.setObject o x) := ⟨rfl, rfl, rfl⟩

theorem scrubObject_reports (s : State) (o : Nat) (u : Upset) :
    Reports s (scrubObject s o u) (scrubEntries (scrubFound (s.object o).mark u) 0x0801 0x0802 o) :=
  (setObject_silent s o _).reports
    ((noteRam_onlyRegs _ _ _).silent.reports (scrubEvent_reports _ _ _ _ _))

theorem scrubObject_object (s : State) (o : Nat) (u : Upset) : (scrubObject s o u).object o = { s.object o with
    valid := (s.object o).valid && scrubFound (s.object o).mark u != .uncorrectable
    mark := (scrubFound (s.object o).mark u).mark } := by
  rw [scrubObject, scrubEvent_eq, noteRam_onlyRegs]
  exact mapGet_mapSet_self _ _ _ _

theorem bridleObject_scrub {o : Nat} (hh : s.held = false) (ho : o < 2048) :
    ReportsByKind s (.bridleObject o) (s.object o).mark 0x0801 0x0802 o ∧
      Yields (.secDedMemoryScrub (.bridleObject o) .double) s fun t =>
        (t.object o).valid = false ∧ (t.object o).mark = .double := by
  have he (u : Upset) : scrubMemory s (.bridleObject o) u = scrubObject s o u := by
    rw [scrubMemory, withUnit_of ho]
  refine ⟨reportsByKind_of_entries fun u => (scrubObject_reports s o u).yields hh (he u), yields_of_scrub hh (he .double) ?_⟩
  have hobj := scrubObject_object s o .double
  rw [scrubFound_double] at hobj
  generalize scrubObject s o .double = t at hobj
  change (t.object o).valid = false ∧ (t.object o).mark = .double
  rw [hobj]
  exact ⟨Bool.and_false _, rfl⟩

theorem scrubFifo_of_none {c k : Nat} (h : (s.fifo c)[k]? = none) (u : Upset) : scrubFifo s c k u = s := by
  rw [State.fifo] at h
  simp only [scrubFifo, h]

theorem setFifo_silent (s : State) (c : Nat) (q : List FifoEntry) : Silent s (s.setFifo c q) := ⟨rfl, rfl, rfl⟩

theorem scrubFifo_reports {c k : Nat} {e : FifoEntry} (h : (s.fifo c)[k]? = some e) (u : Upset) :
    Reports s (scrubFifo s c k u) (scrubEntries (scrubFound e.mark u) 0x080B 0x0803 c) := by
  rw [State.fifo] at h
  simp only [scrubFifo, h]
  exact (setFifo_silent s c _).reports ((noteRam_onlyRegs _ _ _).silent.reports (scrubEvent_reports _ _ _ _ _))

theorem scrubMemory_bridleFifo {c k : Nat} (s : State) (hw : (ScrubMemory.bridleFifo c k).wellFormed = true) (u : Upset) :
    scrubMemory s (.bridleFifo c k) u = scrubFifo s c k u := by
  simp only [ScrubMemory.wellFormed, Bool.and_eq_true, decide_eq_true_eq] at hw
  rw [scrubMemory, withUnit_of hw.1, withUnit_of hw.2]

theorem bridleFifo_scrub {c k : Nat} (hh : s.held = false) (hw : (ScrubMemory.bridleFifo c k).wellFormed = true) :
    ((s.fifo c).length ≤ k → ∀ u, ScrubReports s (.bridleFifo c k) u []) ∧
      ∀ e, (s.fifo c)[k]? = some e → ReportsByKind s (.bridleFifo c k) e.mark 0x080B 0x0803 c := by
  have he := scrubMemory_bridleFifo s hw
  refine ⟨fun hlen u => Reports.refl.yields hh ((he u).trans (scrubFifo_of_none (List.getElem?_eq_none hlen) u)),
    fun e hsome => reportsByKind_of_entries fun u => (scrubFifo_reports hsome u).yields hh (he u)⟩

/-! Chutes (R348). -/

theorem setChute_silent (s : State) (c : Nat) (x : Chute) : Silent s (s.setChute c x) := by
  have hset : Silent s { s with chutes := mapSet {} s.chutes c x } := ⟨rfl, rfl, rfl⟩
  unfold State.setChute
  dsimp only
  split
  · exact (hset.setBit _ _ _).setBit _ _ _
  · exact hset.setBit _ _ _

theorem checkWord_reports (s : State) (c : Nat) (kept : Mark) (u : Upset) :
    Reports s (checkWord s c (metMark kept u)).1 (scrubEntries (scrubFound kept u) 0x0901 0x0902 c) := by
  unfold scrubFound
  cases metMark kept u with
  | clean => exact Reports.refl
  | single => exact ((Silent.refl.setBit _ _ _).addSat _ _ _ _).reports (reports_raise _ _)
  | double => exact ((Silent.refl.setBit _ _ _).addSat _ _ _ _).reports (reports_raise _ _)
  | wrongAddress => exact ((Silent.refl.setBit _ _ _).addSat _ _ _ _).reports (reports_raise _ _)

theorem scrubChute_of_none {c k : Nat} (h : (s.chute c).words[k]? = none) (u : Upset) : scrubChute s c k u = s := by
  simp only [scrubChute, h]

theorem scrubChute_reports {c k : Nat} {w : ChuteWord} (h : (s.chute c).words[k]? = some w) (u : Upset) :
    Reports s (scrubChute s c k u) (scrubEntries (scrubFound w.mark u) 0x0901 0x0902 c) := by
  simp only [scrubChute, h]
  exact (setChute_silent _ _ _).reports (checkWord_reports _ _ _ _)

theorem scrubMemory_chute {c k : Nat} (s : State) (hw : (ScrubMemory.chute c k).wellFormed = true) (u : Upset) :
    scrubMemory s (.chute c k) u = scrubChute s c k u := by
  simp only [ScrubMemory.wellFormed, Bool.and_eq_true, decide_eq_true_eq] at hw
  rw [scrubMemory, withUnit_of hw.1, withUnit_of hw.2]

theorem chute_scrub {c k : Nat} (hh : s.held = false) (hw : (ScrubMemory.chute c k).wellFormed = true) :
    ((s.chute c).words.length ≤ k → ∀ u, ScrubReports s (.chute c k) u []) ∧
      ∀ w, (s.chute c).words[k]? = some w → ReportsByKind s (.chute c k) w.mark 0x0901 0x0902 c := by
  have he := scrubMemory_chute s hw
  refine ⟨fun hlen u => Reports.refl.yields hh ((he u).trans (scrubChute_of_none (List.getElem?_eq_none hlen) u)),
    fun w hsome => reportsByKind_of_entries fun u => (scrubChute_reports hsome u).yields hh (he u)⟩

/-! The state of a rein (R332). -/

theorem noteWordError_onlyRegs (s : State) (n : Nat) (m : Mark) : OnlyRegs s (noteWordError s n m) := by
  cases m with
  | clean => exact OnlyRegs.refl
  | single => exact OnlyRegs.refl.setBit.setBits
  | double => exact OnlyRegs.refl.setBit.setBits
  | wrongAddress => exact OnlyRegs.refl.setBit.setBits

theorem setRein_silent (s : State) (n : Nat) (r : Rein) : Silent s (s.setRein n r) := ⟨rfl, rfl, rfl⟩

theorem reinWord_reports (s : State) (n : Nat) (x : ScrubFound) :
    Reports s (reinWord s n x) (scrubEntries x 0x0708 0x0709 n) :=
  (setRein_silent s n _).reports
    ((noteWordError_onlyRegs _ _ _).silent.reports (scrubEvent_reports _ _ _ _ _))

theorem reinWord_bad (s : State) (n : Nat) (x : ScrubFound) : ((reinWord s n x).reinRec n).bad = x.mark := by
  unfold reinWord
  rw [scrubEvent_eq, noteWordError_onlyRegs]
  exact congrArg Rein.bad (mapGet_mapSet_self _ _ _ _)

theorem reinState_scrub {n : Nat} (hh : s.held = false) (hn : n < 256) :
    ReportsByKind s (.reinState n) (s.reinRec n).bad 0x0708 0x0709 n ∧
      Yields (.secDedMemoryScrub (.reinState n) .double) s fun t => (t.reinRec n).bad = .double := by
  have he (u : Upset) : scrubMemory s (.reinState n) u = reinWord s n (scrubFound (s.reinRec n).bad u) := by
    rw [scrubMemory, withUnit_of hn, scrubRein]
  refine ⟨reportsByKind_of_entries fun u => (reinWord_reports s n _).yields hh (he u), yields_of_scrub hh (he .double) ?_⟩
  refine (reinWord_bad s n _).trans ?_
  rw [scrubFound_double]
  rfl

/-! A hopper's state entry (R222). -/

theorem setHopper_silent (s : State) (h : Nat) (y : Hopper) : Silent s (s.setHopper h y) := ⟨rfl, rfl, rfl⟩

theorem scrubHopper_of_correctable {h : Nat} {u : Upset} (hx : scrubFound (s.hopper h).mark u ≠ .uncorrectable) :
    scrubHopper s h u = scrubEvent (s.setHopper h { s.hopper h with mark := (scrubFound (s.hopper h).mark u).mark })
      (scrubFound (s.hopper h).mark u) 0x2202 0x2203 h := if_neg hx

/-- Hopper h's state entry is left uncorrectable, and the Field whose range holds it is to stop. -/
theorem scrubHopper_of_uncorrectable {h : Nat} {u : Upset} (hh : h < 32704)
    (hx : scrubFound (s.hopper h).mark u = .uncorrectable) : scrubHopper s h u =
      (s.setHopper h { s.hopper h with mark := .double }).raise
        { code := 0x2203, cls := 3, inst := h, field := (List.range 8).find? fun f => s.hopperIn f h } := by
  have hsys : isSystem h = false := decide_eq_false (by unfold sysHopper; omega)
  rw [scrubHopper, hx]
  dsimp only
  rw [if_pos rfl, hopperBad, hsys, if_neg Bool.false_ne_true]
  rfl

theorem find_hopperIn_spec (s : State) (h : Nat) :
    (∀ f, ((List.range 8).find? fun f => s.hopperIn f h) = some f → f < 8 ∧ s.hopperIn f h = true) ∧
      ∀ f < 8, s.hopperIn f h = true → ((List.range 8).find? fun f => s.hopperIn f h) ≠ none := by
  refine ⟨fun f hf => ⟨List.mem_range.mp (List.mem_of_find?_eq_some hf), ?_⟩, fun f hf hin hnone => ?_⟩
  · exact List.find?_some (p := fun f => s.hopperIn f h) hf
  · exact List.find?_eq_none.mp hnone f (List.mem_range.mpr hf) hin

theorem hopper_scrub {h : Nat} (hh : s.held = false) (hlt : h < 32768) :
    ((s.hopper h).mark = .clean → ScrubReports s (.hopper h) .clean [] ∧
      ScrubReports s (.hopper h) .single [{ code := 0x2202, cls := 1, inst := h }]) ∧
    (h < 32704 → ∀ u, u = .double ∨ (s.hopper h).mark = .double → Yields (.secDedMemoryScrub (.hopper h) u) s fun t =>
      SameBytes s t ∧ (t.hopper h).mark = .double ∧ ∃ fld, t.island.net = s.island.net ++
          [{ code := 0x2203, cls := 3, inst := h, field := fld }] ∧
        (∀ f, fld = some f → f < 8 ∧ s.hopperIn f h = true) ∧ ∀ f < 8, s.hopperIn f h = true → fld ≠ none) := by
  have he (u : Upset) : scrubMemory s (.hopper h) u = scrubHopper s h u := by
    rw [scrubMemory, withUnit_of hlt]
  refine ⟨fun hm => ?_, fun huser u hu => ?_⟩
  · have hcorr {u : Upset} {x : ScrubFound} (hx : scrubFound (s.hopper h).mark u = x) (hne : x ≠ .uncorrectable) :
        ScrubReports s (.hopper h) u (scrubEntries x 0x2202 0x2203 h) := by
      subst hx
      exact ((setHopper_silent _ _ _).reports (scrubEvent_reports _ _ _ _ _)).yields hh
        ((he u).trans (scrubHopper_of_correctable hne))
    exact ⟨hcorr (x := .clean) (by rw [hm]; rfl) (by decide), hcorr (x := .corrected) (by rw [hm]; rfl) (by decide)⟩
  · refine yields_of_scrub hh ((he u).trans (scrubHopper_of_uncorrectable huser (scrubFound_lost hu)))
      ⟨fun _ => rfl, ?_, _, rfl, find_hopperIn_spec s h⟩
    exact congrArg Hopper.mark (State.hopper_setHopper_self s h _)

/-! Instruction stores (R6, R7, R90). -/

/-- Furrow n with this mark on word k of its instruction store. -/
def State.setStore (s : State) (n k : Nat) (m : Mark) : State :=
  s.setFurrow n { s.furrow n with stores := mapSet .clean (s.furrow n).stores k m }

theorem setStore_furrow (s : State) (n k : Nat) (m : Mark) : (s.setStore n k m).furrow n =
    { s.furrow n with stores := mapSet .clean (s.furrow n).stores k m } := State.furrow_setFurrow_self _ _ _

theorem setStore_stores (s : State) (n k : Nat) (m : Mark) :
    mapGet .clean ((s.setStore n k m).furrow n).stores k = m := by
  rw [setStore_furrow]
  exact mapGet_mapSet_self _ _ _ _

theorem setStore_task (s : State) (n k : Nat) (m : Mark) : ((s.setStore n k m).furrow n).task = (s.furrow n).task := by
  rw [setStore_furrow]

theorem setStore_silent (s : State) (n k : Nat) (m : Mark) : Silent s (s.setStore n k m) := ⟨rfl, rfl, rfl⟩

theorem setStore_storeInUse (s : State) (n k : Nat) (m : Mark) : (s.setStore n k m).storeInUse n = s.storeInUse n := by
  rw [State.storeInUse, setStore_task]
  rfl

section
variable {n k : Nat} {u : Upset}

theorem scrubStore_of_clean (hx : scrubFound (mapGet .clean (s.furrow n).stores k) u = .clean) :
    scrubStore s n k u = s.setStore n k .clean := by
  rw [scrubStore, hx]
  rfl

theorem scrubStore_of_corrected (hx : scrubFound (mapGet .clean (s.furrow n).stores k) u = .corrected) :
    scrubStore s n k u = ((s.setStore n k .clean).setBit (Reg.furFw n) (8 + k) true).raiseOpen 0x20 1 n := by
  rw [scrubStore, hx]
  rfl

theorem scrubStore_of_idle (hx : scrubFound (mapGet .clean (s.furrow n).stores k) u = .uncorrectable)
    (hu : s.storeInUse n = false) :
    scrubStore s n k u = (s.setStore n k .double).raise { code := 0x200B, cls := 3, inst := n } := by
  rw [← setStore_storeInUse s n k .double] at hu
  rw [scrubStore, hx]
  exact if_neg (by rw [Bool.not_eq_true]; exact hu)

theorem storeFault_of_running {t : Task} (ht : (s.furrow n).task = some t) (hr : t.inRun = true)
    (hs : (s.furrow n).stores.isEmpty = false) : storeFault s n = toEnding s n t 0x0B := by
  unfold Task.inRun Task.isEnding at hr
  unfold storeFault
  cases hst : t.stage <;> simp_all

theorem isEmpty_of_mapGet_double {xs : SMap Mark} (h : mapGet .clean xs k = .double) : xs.isEmpty = false := by
  cases xs with
  | nil => cases h
  | cons x xs => rfl

theorem scrubStore_of_running {t : Task} (hx : scrubFound (mapGet .clean (s.furrow n).stores k) u = .uncorrectable)
    (ht : (s.furrow n).task = some t) (hu : s.storeInUse n = true) :
    scrubStore s n k u = toEnding (s.setStore n k .double) n t 0x0B := by
  have hr : t.inRun = true := by
    rw [State.storeInUse, ht] at hu
    exact hu
  rw [← setStore_storeInUse s n k .double] at hu
  rw [scrubStore, hx]
  exact (if_pos hu).trans (storeFault_of_running ((setStore_task s n k .double).trans ht) hr
    (isEmpty_of_mapGet_double (setStore_stores s n k .double)))

end

theorem scrubMemory_instructionStore {n k : Nat} (s : State)
    (hw : (ScrubMemory.instructionStore n k).wellFormed = true) (u : Upset) :
    scrubMemory s (.instructionStore n k) u = scrubStore s n k u := by
  simp only [ScrubMemory.wellFormed, Bool.and_eq_true, decide_eq_true_eq] at hw
  rw [scrubMemory, withUnit_of hw.1, withUnit_of hw.2]

/-- A store's correctable error: nothing of a clean word, FUR_FW and an F1 entry of a corrected one. -/
theorem instructionStore_scrub_correctable {n k : Nat} (hh : s.held = false)
    (hw : (ScrubMemory.instructionStore n k).wellFormed = true)
    (hc : mapGet .clean (s.furrow n).stores k = .clean) : ScrubReports s (.instructionStore n k) .clean [] ∧
      Yields (.secDedMemoryScrub (.instructionStore n k) .single) s fun t =>
        t.bit (Reg.furFw n) (8 + k) = true ∧ SameRegsBut [Reg.furFw n] s t ∧ SameBytes s t ∧
          ∃ e, e.cls = 1 ∧ e.inst = n ∧ e.code / 256 = 0x20 ∧ t.island.net = s.island.net ++ [e] := by
  have he := scrubMemory_instructionStore s hw
  have hbit : 8 + k < 32 := by
    simp only [ScrubMemory.wellFormed, Bool.and_eq_true, decide_eq_true_eq] at hw
    omega
  have hclean := scrubStore_of_clean (u := .clean) (by rw [hc]; rfl)
  have hcorr := scrubStore_of_corrected (u := .single) (by rw [hc]; rfl)
  refine ⟨((setStore_silent s n k .clean).reports Reports.refl).yields hh ((he _).trans hclean), ?_⟩
  refine yields_of_scrub hh ((he _).trans hcorr) ⟨State.bit_setBit_self _ _ _ hbit, ?_, fun _ => rfl, ?_⟩
  · exact SameRegsBut.setBit (t := s.setStore n k .clean) (fun _ _ => rfl) (List.mem_singleton_self _)
  · refine ⟨_, rfl, rfl, ?_, rfl⟩
    have hb := (Config.openCause 0x20).isLt
    dsimp only
    omega

/-- A store's uncorrectable error stays: the sweep records it where no task runs, and ends the task that runs. -/
theorem instructionStore_scrub_uncorrectable {n k : Nat} (hh : s.held = false)
    (hw : (ScrubMemory.instructionStore n k).wellFormed = true) :
    Yields (.secDedMemoryScrub (.instructionStore n k) .double) s fun t => mapGet .clean (t.furrow n).stores k = .double ∧
      (s.storeInUse n = false →
        t.island.net = s.island.net ++ [{ code := 0x200B, cls := 3, inst := n }] ∧ (t.furrow n).task = (s.furrow n).task) ∧
      ∀ t0, (s.furrow n).task = some t0 → s.storeInUse n = true → t.island = s.island ∧
        (t.furrow n).task = some (t0.ended 0x0B) := by
  have he := scrubMemory_instructionStore s hw
  have hx := scrubFound_double (mapGet .clean (s.furrow n).stores k)
  cases hu : s.storeInUse n with
  | false =>
    exact yields_of_scrub hh ((he _).trans (scrubStore_of_idle hx hu)) ⟨setStore_stores s n k .double,
      fun _ => ⟨rfl, setStore_task s n k .double⟩, fun _ _ h => absurd h Bool.false_ne_true⟩
  | true =>
    obtain ⟨t0, ht⟩ : ∃ t0, (s.furrow n).task = some t0 := Option.isSome_iff_exists.mp (Option.isSome_of_any hu)
    refine yields_of_scrub hh ((he _).trans (scrubStore_of_running hx ht hu)) ⟨?_,
      fun h => absurd h.symm Bool.false_ne_true, fun t1 ht1 _ => ?_⟩
    · rw [State.withQueue_furrow, toEnding_furrow, setTask, State.furrow_setFurrow_self]
      exact setStore_stores s n k .double
    · obtain rfl : t0 = t1 := Option.some.inj (ht.symm.trans ht1)
      exact ⟨(toEnding_silent _ _ _ _).island, toEnding_task _ _ _ _⟩

/-! Entries of the tally log (R377). -/

theorem setMark_silent (s : State) (g : Nat) (m : Mark) : Silent s (s.setMark g m) := ⟨rfl, rfl, rfl⟩

theorem scrubTally_of_correctable {k : Nat} {u : Upset} {x : ScrubFound}
    (hx : scrubFound (s.mark ((tallyBase + 32 * k) / 32)) u = x) (hne : x ≠ .uncorrectable) :
    scrubTally s k u = scrubEvent (s.setMark ((tallyBase + 32 * k) / 32) x.mark) x 0x0A08 0x0A09 0 := by
  rw [scrubTally, hx]
  cases x with
  | clean => rfl
  | corrected => rfl
  | uncorrectable => exact absurd rfl hne

/-- A lost tally entry takes a CRC that fails (log 28). -/
theorem scrubTally_of_lost {k : Nat} {u : Upset}
    (hx : scrubFound (s.mark ((tallyBase + 32 * k) / 32)) u = .uncorrectable) :
    ∃ v < 2 ^ 32, v ≠ (crc32c (s.bytes (tallyBase + 32 * k) 28)).toNat ∧ scrubTally s k u =
      ((s.setMark ((tallyBase + 32 * k) / 32) .double).takeFree.2.poke (tallyBase + 32 * k + 28) (leBytes 4 v)).raise
        { code := 0x0A09, cls := 2 } := by
  refine ⟨((crc32c (s.bytes (tallyBase + 32 * k) 28)).toNat + 1 +
    (s.setMark ((tallyBase + 32 * k) / 32) .double).takeFree.1.toNat % (2 ^ 32 - 1)) % 2 ^ 32, ?_, ?_, ?_⟩
  · exact Nat.mod_lt _ (by decide)
  · have hcrc := (crc32c (s.bytes (tallyBase + 32 * k) 28)).isLt
    omega
  · rw [scrubTally, hx]
    rfl

/-- An entry whose CRC bytes are rewritten holds in them what was written, and its first 28 bytes as they were. -/
theorem poke_crc (s : State) (a : Nat) {v : Nat} (hv : v < 2 ^ 32) :
    (s.poke (a + 28) (leBytes 4 v)).le (a + 28) 4 = v ∧ (s.poke (a + 28) (leBytes 4 v)).bytes a 28 = s.bytes a 28 ∧
      SameBytesOutside (a + 28) 4 s (s.poke (a + 28) (leBytes 4 v)) := by
  have hlen : (leBytes 4 v).length = 4 := length_leBytes 4 v
  have hout : SameBytesOutside (a + 28) 4 s (s.poke (a + 28) (leBytes 4 v)) := fun x hx => by
    rw [byte_poke, hlen, if_neg hx]
  refine ⟨?_, ?_, hout⟩
  · have hbytes : (s.poke (a + 28) (leBytes 4 v)).bytes (a + 28) (leBytes 4 v).length = leBytes 4 v :=
      bytes_of_written fun i hi => by rw [byte_poke, if_pos (by omega), Nat.add_sub_cancel_left]
    rw [hlen] at hbytes
    rw [State.le, hbytes, leNat_leBytes]
    exact Nat.mod_eq_of_lt hv
  · refine List.map_congr_left fun i hi => hout _ ?_
    have hlt := List.mem_range.mp hi
    omega

theorem tally_scrub {k : Nat} (hh : s.held = false) (hk : k < 1024) :
    (s.mark ((tallyBase + 32 * k) / 32) = .clean →
      ScrubReports s (.tally k) .clean [] ∧ ScrubReports s (.tally k) .single [{ code := 0x0A08, cls := 1 }]) ∧
    ∀ u, u = .double ∨ s.mark ((tallyBase + 32 * k) / 32) = .double → Yields (.secDedMemoryScrub (.tally k) u) s fun t =>
      t.island.net = s.island.net ++ [{ code := 0x0A09, cls := 2 }] ∧
      SameBytesOutside (tallyBase + 32 * k + 28) 4 s t ∧
      t.le (tallyBase + 32 * k + 28) 4 ≠ (crc32c (t.bytes (tallyBase + 32 * k) 28)).toNat := by
  have he (u : Upset) : scrubMemory s (.tally k) u = scrubTally s k u := by
    rw [scrubMemory, withUnit_of hk]
  refine ⟨fun hm => ?_, fun u hu => ?_⟩
  · have hcorr {u : Upset} {x : ScrubFound} (hx : scrubFound (s.mark ((tallyBase + 32 * k) / 32)) u = x)
        (hne : x ≠ .uncorrectable) : ScrubReports s (.tally k) u (scrubEntries x 0x0A08 0x0A09 0) :=
      ((setMark_silent s _ _).reports (scrubEvent_reports _ _ _ _ _)).yields hh
        ((he u).trans (scrubTally_of_correctable hx hne))
    exact ⟨hcorr (x := .clean) (by rw [hm]; rfl) (by decide), hcorr (x := .corrected) (by rw [hm]; rfl) (by decide)⟩
  · obtain ⟨v, hv, hne, heq⟩ := scrubTally_of_lost (scrubFound_lost hu)
    obtain ⟨hle, hbytes, hout⟩ :=
      poke_crc (s.setMark ((tallyBase + 32 * k) / 32) .double).takeFree.2 (tallyBase + 32 * k) hv
    refine yields_of_scrub hh ((he u).trans heq) ⟨rfl, hout, ?_⟩
    rw [State.withQueue_bytes, State.raise_bytes, hbytes]
    exact fun h => hne (hle.symm.trans h)

end

end Sys2Proof.Machine

section
open Sys2Proof Sys2Proof.Machine

/-- Settles O55: each memory's clause by the lemma on its scrub; the clauses of the buffers that have no device address share
wordBuffer_scrub. -/
theorem memoryScrubReportsErrors : Obligations.MemoryScrubReportsErrors := by
  intro s m hh hwf
  refine ⟨?_, ?_, ?_, ?_, ?_, ?_, ?_, ?_, ?_, ?_, ?_⟩
  · rintro n k rfl
    exact lineBuffer_scrub hh hwf
  · rintro n k rfl
    exact scoreBuffer_scrub hh hwf
  · rintro q k rfl
    exact droveBuffer_scrub hh (of_decide_eq_true hwf)
  · rintro p k rfl
    exact intakeLine_scrub hh (of_decide_eq_true hwf)
  · rintro o rfl
    exact bridleObject_scrub hh (of_decide_eq_true hwf)
  · rintro n rfl
    exact reinState_scrub hh (of_decide_eq_true hwf)
  · rintro h rfl
    exact hopper_scrub hh (of_decide_eq_true hwf)
  · rintro c k rfl
    exact bridleFifo_scrub hh hwf
  · rintro c k rfl
    exact chute_scrub hh hwf
  · rintro n k rfl
    exact ⟨instructionStore_scrub_correctable hh hwf, instructionStore_scrub_uncorrectable hh hwf⟩
  · rintro k rfl
    exact tally_scrub hh (of_decide_eq_true hwf)

end
end

section
/-! Doorbells and the control writes of hoppers (R32, R34, R196, R198, R204, R206). -/

namespace Sys2Proof.Machine

/-! What a command answers or yields when its body is a function of the state whose value is known. -/

section
variable {c : Instr} {s v u : State}

theorem answers_of_eq (hx : exec c s = live s v) (hh : s.held = false) (e : v = u) : Answers c s u :=
  answers_of_live (e ▸ hx) hh

theorem yields_of_eq {P : State → Prop} (hx : exec c s = live s v) (hh : s.held = false) (e : v = u)
    (hp : P (u.withQueue s.pending)) : Yields c s P := yields_of_live (e ▸ hx) hh hp

end

/-! Doorbells (R196, R206). -/

section
variable {s : State} {req : Requester} {h : Nat} {tail : BitVec 16}

theorem exec_doorbell (hh : h < 32768) (s : State) :
    exec (.doorbell req h tail) s = live s (ringFrom s req h tail.toNat) := congrArg (live s) (withUnit_of hh s _)

theorem ringFrom_of_denied (hr : s.recoveryReach req Reg.hopDoorbell = false) :
    ringFrom s req h tail.toNat = deniedAccess s req Reg.hopDoorbell := if_neg (Bool.eq_false_iff.mp hr)

theorem ringFrom_of_reached (hr : s.recoveryReach req Reg.hopDoorbell = true) :
    ringFrom s req h tail.toNat = ring s (.req req) h tail.toNat := if_pos hr

theorem doorbell_of_accepted {r : Reach} (hd : doorbellRefusal s r h tail.toNat = none) :
    doorbell s r h tail.toNat = s.setHopper h { s.hopper h with tail := tail.toNat } := by
  rw [doorbell, hd]
  dsimp only
  rw [Nat.mod_eq_of_lt tail.isLt]

theorem ring_of_system {r : Reach} (hd : doorbellRefusal s r h tail.toNat = none) (hs : isSystem h = true) :
    ring s r h tail.toNat = s.setHopper h { s.hopper h with tail := tail.toNat } := by
  simp only [ring, hs, Bool.true_or, if_true, doorbell_of_accepted hd]

theorem ring_of_user {r : Reach} (hd : doorbellRefusal s r h tail.toNat = none) (hs : isSystem h = false) :
    ring s r h tail.toNat =
      refreshBuffer (s.setHopper h { s.hopper h with tail := tail.toNat }) (s.hopper h).furrow := by
  simp only [ring, hs, hd, Option.isSome_none, Bool.or_self, Bool.false_eq_true, if_false, doorbell_of_accepted hd,
    State.hopper_setHopper_self]

/-- A refused doorbell: HOP_ERR, a vector of the requester, and F0 0x2201 (R196). -/
theorem ring_of_refused {r : Reach} {t reason : Nat} (hh : h < 32768) (hd : doorbellRefusal s r h t = some reason) :
    ∃ p o, ring s r h t =
      { (s.setReg Reg.hopErr (BitVec.ofNat 32 (0x80000000 + reason * 0x10000 + h))).raise
          { code := 0x2201, cls := 0, inst := h } with pcie := p, outbox := o } := by
  simp only [ring, doorbell, hd, Option.isSome_some, Bool.or_true, if_true, Nat.mod_eq_of_lt hh]
  split
  · obtain ⟨p, o, e⟩ := notify_frame (s.setReg Reg.hopErr (BitVec.ofNat 32 (0x80000000 + reason * 0x10000 + h))) 0 3
    exact ⟨p, o, by rw [e]; rfl⟩
  · next f =>
    obtain ⟨p, o, e⟩ :=
      notify_frame (s.setReg Reg.hopErr (BitVec.ofNat 32 (0x80000000 + reason * 0x10000 + h))) (f + 1) 3
    exact ⟨p, o, by rw [e]; rfl⟩
  · exact ⟨_, _, rfl⟩

/-- What a register write and an event leave, beside what the host is told. -/
theorem setReg_raise_shows (s : State) (a : Nat) (v : Word) (e : Event) (p : SMap PcieFunction) (o : List Output) :
    let t : State := { (s.setReg a v).raise e with pcie := p, outbox := o }
    t.reg a = v ∧ t.island.net = s.island.net ++ [e] ∧ SameRegsBut [a] s t ∧ t.hoppers = s.hoppers ∧ SameBytes s t :=
  ⟨State.reg_setReg_self _ _ _, rfl, SameRegsBut.refl.setReg List.mem_cons_self, rfl, fun _ => rfl⟩

theorem doorbellRefusal_lt {r : Reach} {t reason : Nat} (hd : doorbellRefusal s r h t = some reason) : reason < 4 := by
  simp only [doorbellRefusal] at hd
  split_ifs at hd <;> cases hd <;> decide

end

section
variable {s : State} {f h t : Nat}

theorem doorbellRefusal_of_system (hs : isSystem h = true) : doorbellRefusal s (.req (.field f)) h t = some 3 :=
  if_pos ⟨hs, nofun⟩

theorem doorbellRefusal_of_user (hs : isSystem h = false) : doorbellRefusal s (.req (.field f)) h t =
    if s.hopperIn f h = false then some 2 else if (s.hopper h).enable = false then some 1
    else if (t + 65536 - (s.hopper h).head) % 65536 ≤ 2 ^ (s.hopper h).k then none else some 0 := by
  simp only [doorbellRefusal, hs, Bool.false_eq_true, false_and, if_false, Bool.not_eq_true', ← Nat.not_le, ite_not]

end

/-! HOP_SKIP and HOP_CNT_RESET (R198, R204). -/

section
variable {s : State} {req : Requester} {h : Nat}

theorem exec_hopSkip (hh : h < 32768) (s : State) :
    exec (.hopSkip req h) s = live s (controlHopper s req h Reg.hopSkip hopSkip) := congrArg (live s) (withUnit_of hh s _)

theorem exec_hopCntReset (hh : h < 32768) (s : State) :
    exec (.hopCntReset req h) s = live s (controlHopper s req h Reg.hopCntReset hopCntReset) :=
  congrArg (live s) (withUnit_of hh s _)

theorem controlHopper_of_allowed {a : Nat} {g : State → Nat → State} (hm : s.mayControl req h = true) :
    controlHopper s req h a g = g s h := if_pos hm

theorem controlHopper_of_denied {a : Nat} {g : State → Nat → State} (hm : s.mayControl req h = false) :
    controlHopper s req h a g = deniedAccess s req a := if_neg (Bool.eq_false_iff.mp hm)

end

end Sys2Proof.Machine

section
open Sys2Proof Sys2Proof.Machine

/-- Settles O20: the cases of a doorbell are those of its refusal, whose reasons are tested in the order of R196. -/
theorem doorbellsSetTheTailOrAreRefused : Obligations.DoorbellsSetTheTailOrAreRefused := by
  refine ⟨?_, ?_⟩
  · intro s req h tail hheld hh v reached
    have hx : exec (.doorbell req h tail) s = live s (ringFrom s req h tail.toNat) := exec_doorbell hh s
    refine ⟨fun hr => answers_of_eq hx hheld (ringFrom_of_denied hr),
      fun hr hd hs => answers_of_eq hx hheld ((ringFrom_of_reached hr).trans (ring_of_system hd hs)),
      fun hr hd hs => answers_of_eq hx hheld ((ringFrom_of_reached hr).trans (ring_of_user hd hs)),
      fun reason hr hd => ?_⟩
    obtain ⟨p, o, e⟩ := ring_of_refused hh hd
    obtain ⟨herr, hframe⟩ := setReg_raise_shows s Reg.hopErr (BitVec.ofNat 32 (0x80000000 + reason * 0x10000 + h))
      { code := 0x2201, cls := 0, inst := h } p o
    rw [← e] at herr hframe
    exact yields_of_eq hx hheld (ringFrom_of_reached hr)
      ⟨(State.withQueue_reg _ _ _).trans herr, doorbellRefusal_lt hd, hframe⟩
  · intro s f h tail x refusal
    refine ⟨fun hs => doorbellRefusal_of_system hs, fun hs hin => ?_, fun hs hin hen => ?_, fun hs hin hen => ?_⟩
    · exact (doorbellRefusal_of_user hs).trans (if_pos hin)
    · exact (doorbellRefusal_of_user hs).trans ((if_neg (by simp [hin])).trans (if_pos hen))
    · exact (doorbellRefusal_of_user hs).trans ((if_neg (by simp [hin])).trans (if_neg (by simp [x, hen])))

/-- Settles O21: a control write is the hopper's own change or a denied access. -/
theorem hopperControlSkipsAndResets : Obligations.HopperControlSkipsAndResets := by
  intro s req h hheld hh x st skips
  refine ⟨fun hm => ⟨fun hs => ?_, fun hs => ?_, ?_⟩, fun hm => ⟨?_, ?_⟩⟩
  · exact answers_of_eq (exec_hopSkip hh s) hheld ((controlHopper_of_allowed hm).trans (if_pos hs))
  · exact answers_of_eq (exec_hopSkip hh s) hheld
      ((controlHopper_of_allowed hm).trans (if_neg (Bool.eq_false_iff.mp hs)))
  · exact answers_of_eq (exec_hopCntReset hh s) hheld (controlHopper_of_allowed hm)
  · exact answers_of_eq (exec_hopSkip hh s) hheld (controlHopper_of_denied hm)
  · exact answers_of_eq (exec_hopCntReset hh s) hheld (controlHopper_of_denied hm)

end
end

section
/-! What a stop trigger leaves: the PCIe functions, the pins, and the park slots of other Furrows (R200, R201, R203). -/

namespace Sys2Proof.Machine

/-! A write of memory leaves the PCIe functions and the pins. -/

/-- From s to t neither the PCIe functions nor the pins change. -/
structure HostStays (s t : State) : Prop where
  pcie : t.pcie = s.pcie
  pins : t.pins = s.pins

section
variable {s t : State}

theorem HostStays.refl : HostStays s s := ⟨rfl, rfl⟩

theorem HostStays.ite {b : Prop} {_ : Decidable b} {t' : State} (h : HostStays s t) (h' : HostStays s t') :
    HostStays s (if b then t else t') := by
  split <;> assumption

theorem HostStays.setReg {a : Nat} {v : Word} (h : HostStays s t) : HostStays s (t.setReg a v) := { h with }

theorem HostStays.raise {e : Event} (h : HostStays s t) : HostStays s (t.raise e) := { h with }

theorem HostStays.poke {a : Nat} {bs : List Byte} (h : HostStays s t) : HostStays s (t.poke a bs) := { h with }

theorem HostStays.setBlockMark {b : Nat} {m : Mark} (h : HostStays s t) : HostStays s (setBlockMark t b m) := { h with }

theorem HostStays.markRange {a n : Nat} {m : Mark} (h : HostStays s t) : HostStays s (t.markRange a n m) := by
  rw [markRange_eq]
  exact { h with }

theorem HostStays.cancelWriteBacks {a n : Nat} (h : HostStays s t) : HostStays s (cancelWriteBacks t a n) := by
  rw [cancelWriteBacks_eq]
  exact { h with }

theorem HostStays.dramError {b : Nat} {uncorr scrub : Bool} (h : HostStays s t) :
    HostStays s (dramError t b uncorr scrub) :=
  have hset := (ite (b := (uncorr || !t.bit Reg.dramErr 31) = true) h.setReg.setReg.setReg.setReg h).setReg
  ite hset.setReg hset.setReg

theorem HostStays.checkBlock {b : Nat} {u : Upset} {scrub : Bool} (h : HostStays s t) :
    HostStays s (checkBlock t b u scrub) := by
  unfold Machine.checkBlock
  dsimp only
  split
  · exact h.setBlockMark
  · exact h.setBlockMark.dramError.raise
  · exact h.setBlockMark.dramError.raise
  · exact h.setBlockMark.dramError.raise

theorem HostStays.writeBlock {b off : Nat} {bs : List Byte} {poison : Bool} {u : Upset} (h : HostStays s t) :
    HostStays s (writeBlock t b off bs poison u) :=
  ite h.poke.setBlockMark h.checkBlock.poke.setBlockMark

theorem HostStays.writeDram {a : Nat} {bs : List Byte} {poison : Bool} {u : Upset} {fuel : Nat} (h : HostStays s t) :
    HostStays s (writeDram t a bs poison u fuel) := by
  induction fuel generalizing t a bs with
  | zero => exact h
  | succ fuel ih =>
    rw [Machine.writeDram]
    exact ite h (ih h.writeBlock)

theorem HostStays.storeGranule {a : Nat} {bs : List Byte} (h : HostStays s t) : HostStays s (storeGranule t a bs) :=
  ite h.raise (ite h.writeDram (ite h.cancelWriteBacks.poke.markRange h.poke.markRange))

theorem Charged.hostStays (h : Charged s t) : HostStays s t := by
  rw [h.frame]
  exact ⟨rfl, rfl⟩

end

/-! Discarded requests change Furrows, yokes and the Droveway alone. -/

theorem undeliver_frame (s : State) (m : Message) : ∃ d, undeliver s m = { s with drove := d } := by
  unfold undeliver
  split
  · exact ⟨_, rfl⟩
  · exact ⟨_, rfl⟩

theorem dropWaiting_frame (s : State) (qs : List YokeRequest) : ∃ d, dropWaiting s qs = { s with drove := d } := by
  have hgone (ms : List Message) : ∃ d, ms.foldl undeliver s = { s with drove := d } :=
    foldl_induct (P := fun u : State => ∃ d, u = { s with drove := d }) ms ⟨s.drove, rfl⟩ fun u m _ ⟨d, hu⟩ => by
      obtain ⟨d', h⟩ := undeliver_frame u m
      exact ⟨d', by rw [h, hu]⟩
  unfold dropWaiting
  dsimp only
  generalize hms : List.foldl undeliver s _ = u
  obtain ⟨d, hd⟩ := hms ▸ hgone _
  exact ⟨_, by rw [hd]⟩

/-- A Furrow whose requests are discarded keeps its park slots. -/
theorem dropPosted_slots (s : State) (qs : List YokeRequest) (n m : Nat) :
    ((dropPosted s qs n).furrow m).slots = (s.furrow m).slots := by
  rw [dropPosted, State.furrow_setFurrow]
  split
  · next e => rw [e]
  · rfl

theorem clearYokes_frame (s : State) (f : Nat) : ∃ fs ys d,
    clearYokes s f = { s with furrows := fs, yokes := ys, drove := d } := by
  obtain ⟨d, hd⟩ := dropWaiting_frame s ((List.range 3).flatMap fun r => (s.yoke f r).queue)
  refine forUpTo_induct (P := fun u : State => ∃ fs ys d, u = { s with furrows := fs, yokes := ys, drove := d })
    (forUpTo_induct (P := fun u : State => ∃ fs ys d, u = { s with furrows := fs, yokes := ys, drove := d })
      ⟨s.furrows, s.yokes, d, hd⟩ ?_) ?_
  · rintro r _ - ⟨fs, ys, d, rfl⟩
    exact ⟨fs, _, d, rfl⟩
  · rintro n _ - ⟨fs, ys, d, rfl⟩
    split
    · exact ⟨fs, ys, d, rfl⟩
    · exact ⟨_, ys, d, rfl⟩

theorem clearYokes_slots (s : State) (f m : Nat) : ((clearYokes s f).furrow m).slots = (s.furrow m).slots := by
  obtain ⟨d, hd⟩ := dropWaiting_frame s ((List.range 3).flatMap fun r => (s.yoke f r).queue)
  refine forUpTo_induct (P := fun u : State => (u.furrow m).slots = (s.furrow m).slots)
    (forUpTo_induct (P := fun u : State => (u.furrow m).slots = (s.furrow m).slots) ?_ fun r u _ hu => hu)
    fun n u _ hu => ?_
  · rw [hd]
    rfl
  · split
    · exact hu
    · exact (dropPosted_slots u _ n m).trans hu

theorem freezeHoppers_frame (s : State) (f : Nat) : ∃ hs, freezeHoppers s f = { s with hoppers := hs } := by
  refine foldl_induct (P := fun u : State => ∃ hs, u = { s with hoppers := hs }) _ ⟨s.hoppers, rfl⟩ ?_
  rintro _ h - ⟨hs, rfl⟩
  dsimp only
  split
  · exact ⟨_, rfl⟩
  · exact ⟨hs, rfl⟩

theorem oweWrites_frame (s : State) (f k : Nat) :
    ∃ fs, forUpTo k (fun n s => oweWrites s f n) s = { s with furrows := fs } := by
  refine forUpTo_induct (P := fun u : State => ∃ fs, u = { s with furrows := fs }) ⟨s.furrows, rfl⟩ ?_
  rintro n _ - ⟨fs, rfl⟩
  unfold oweWrites
  dsimp only
  split
  · exact ⟨fs, rfl⟩
  · exact ⟨_, rfl⟩

/-! The tasks of the Field's Furrows end, and others stay. -/

/-- From s to t the PCIe functions, the pins and the park slots of every Furrow but those listed stay. -/
structure StopLeaves (ns : List Nat) (s t : State) : Prop where
  pcieFn : ∀ fn, t.reg (Reg.pcieFn fn) = s.reg (Reg.pcieFn fn)
  host : HostStays s t
  slots : ∀ m ∉ ns, (t.furrow m).slots = (s.furrow m).slots

theorem not_accessReg_pcieFn (fn : Nat) : ¬ AccessReg (Reg.pcieFn fn) := by
  rintro (⟨f, hf, r, hr, e⟩ | ⟨m, hm, e | e⟩ | ⟨c, hc, e⟩ | e | e | e) <;>
    simp only [Reg.pcieFn, Reg.yokeLevel, Reg.furSbErr, Reg.furSbEccCnt, Reg.dramChEcc, Reg.dramErr, Reg.dramErrAddrLo,
      Reg.dramErrAddrHi] at e <;> omega

section
variable {ns : List Nat} {s t : State}

theorem StopLeaves.refl : StopLeaves ns s s := ⟨fun _ => rfl, HostStays.refl, fun _ _ => rfl⟩

theorem StopLeaves.ite {b : Prop} {_ : Decidable b} {t' : State} (h : StopLeaves ns s t) (h' : StopLeaves ns s t') :
    StopLeaves ns s (if b then t else t') := by
  split <;> assumption

theorem StopLeaves.host_of {u : State} (h : StopLeaves ns s t) (hh : HostStays t u) : HostStays s u :=
  ⟨hh.pcie.trans h.host.pcie, hh.pins.trans h.host.pins⟩

theorem StopLeaves.accessed {u : State} (h : StopLeaves ns s t) (ha : Accessed t u) (hh : HostStays t u) :
    StopLeaves ns s u where
  pcieFn fn := (ha.regs _ (not_accessReg_pcieFn fn)).trans (h.pcieFn fn)
  host := h.host_of hh
  slots m hm := by rw [ha.furrow m, h.slots m hm]

theorem StopLeaves.charged {u : State} (h : StopLeaves ns s t) (hc : Charged t u) : StopLeaves ns s u :=
  h.accessed (Accessed.refl.charged hc) hc.hostStays

theorem StopLeaves.setReg {a : Nat} {v : Word} (h : StopLeaves ns s t) (ha : a < Reg.pcieFn 0) :
    StopLeaves ns s (t.setReg a v) :=
  { h with
    pcieFn := fun fn =>
      (State.reg_setReg_ne _ _ (by unfold Reg.pcieFn at ha ⊢; omega)).trans (h.pcieFn fn)
    host := h.host.setReg }

theorem StopLeaves.setHopper {k : Nat} {x : Hopper} (h : StopLeaves ns s t) : StopLeaves ns s (t.setHopper k x) :=
  { h with host := { h.host with } }

theorem StopLeaves.setField {f : Nat} {x : Field} (h : StopLeaves ns s t) : StopLeaves ns s (t.setField f x) :=
  { h with host := { h.host with } }

theorem StopLeaves.raise {e : Event} (h : StopLeaves ns s t) : StopLeaves ns s (t.raise e) :=
  { h with host := h.host.raise }

theorem StopLeaves.setFurrow {n : Nat} {x : Furrow} (h : StopLeaves ns s t)
    (hx : n ∉ ns → x.slots = (t.furrow n).slots) : StopLeaves ns s (t.setFurrow n x) :=
  { h with
    host := { h.host with }
    slots := fun m hm => by
      rw [State.furrow_setFurrow]
      split
      · next e => rw [hx (e ▸ hm), ← e, h.slots m hm]
      · exact h.slots m hm }

theorem StopLeaves.showEvents {n : Nat} {events : List Nat} (h : StopLeaves ns s t) (hn : n < 64) :
    StopLeaves ns s (showEvents t n events) :=
  forUpTo_induct (P := StopLeaves ns s) h fun k _ hk h => h.setReg (by unfold Reg.furFmtCnt Reg.pcieFn; omega)

theorem StopLeaves.issueFinal {n cause state : Nat} {k : Task} {u : Unacked} (h : StopLeaves ns s t) :
    StopLeaves ns s (issueFinal t n k cause state u) := by
  unfold Machine.issueFinal
  dsimp only
  split
  · refine (h.setFurrow ?_).accessed Accessed.refl.storeGranule HostStays.refl.storeGranule
    exact fun _ => rfl
  · refine (h.setFurrow ?_).charged (Charged.refl.chargeAccess nofun)
    exact fun _ => rfl

theorem StopLeaves.endFaulted {n cause : Nat} {k : Task} {field : Option Nat} (h : StopLeaves ns s t) (hn : n < 64) :
    StopLeaves ns s (endFaulted t n k cause field) :=
  have hfault : Reg.furFault n < Reg.pcieFn 0 := by unfold Reg.furFault Reg.pcieFn; omega
  have hshown := (((h.setReg hfault).setReg hfault).setHopper).showEvents hn
  (ite hshown.issueFinal hshown).raise

theorem StopLeaves.stopParked {n f : Nat} (h : StopLeaves ns s t) (hn : n < 64) (hm : n ∈ ns) :
    StopLeaves ns s (stopParked t n f) :=
  foldl_induct (P := StopLeaves ns s) _ (h.setFurrow fun hno => absurd hm hno) fun _ _ _ h => (h.endFaulted hn).setHopper

theorem StopLeaves.emptyBuffers {f : Nat} (h : StopLeaves ns s t) : StopLeaves ns s (emptyBuffers t f) :=
  foldl_induct (P := StopLeaves ns s) _ h fun _ _ _ h => h.setFurrow fun _ => rfl

theorem StopLeaves.clearYokes {f : Nat} (h : StopLeaves ns s t) : StopLeaves ns s (clearYokes t f) := by
  have hslots := clearYokes_slots t f
  obtain ⟨fs, ys, d, e⟩ := clearYokes_frame t f
  rw [e] at hslots ⊢
  exact ⟨h.pcieFn, { h.host with }, fun m hm => (hslots m).trans (h.slots m hm)⟩

theorem StopLeaves.freezeHoppers {f : Nat} (h : StopLeaves ns s t) : StopLeaves ns s (freezeHoppers t f) :=
  foldl_induct (P := StopLeaves ns s) _ h fun _ _ _ h => ite h.setHopper h

theorem StopLeaves.stopTask {n : Nat} (h : StopLeaves ns s t) (hm : n ∈ ns) : StopLeaves ns s (stopTask t n) := by
  have hne (m : Nat) (hno : m ∉ ns) : (Machine.stopTask t n).furrow m = t.furrow m :=
    stopTask_furrow_ne t fun e => hno (e ▸ hm)
  refine ⟨fun fn => ?_, ?_, fun m hno => by rw [hne m hno, h.slots m hno]⟩
  · rw [stopTask_frame]
    exact h.pcieFn fn
  · rw [stopTask_frame]
    exact { h.host with }

end

/-! The stop of a Field that runs or quiesces. -/

section
variable {s : State} {f : Nat} (code : Nat)

/-- The state of a stop before the first running task is stopped. -/
def stopCleared (s : State) (f code : Nat) : State := clearYokes (emptyBuffers (stopBegun s f code) f) f

theorem stopCleared_stays : FieldsStay (stopShown s f code) (stopCleared s f code) :=
  (stopBegun_stays s f code).emptyBuffers.clearYokes

/-- What follows the running tasks' stop. -/
theorem stopField_stays (h : s.fieldState f = fldRunning ∨ s.fieldState f = fldQuiescing) :
    FieldsStay (((stopBegun s f code).furrowsOf f).foldl stopTask (stopCleared s f code)) (stopField s f code) := by
  rw [stopField_of_active code h]
  exact (FieldsStay.refl.foldl fun _ _ hm h => h.stopParked (mem_furrowsOf.mp hm).1).freezeHoppers.setField

theorem foldl_stopTask_reg (s : State) (ns : List Nat) (a : Nat) : (ns.foldl stopTask s).reg a = s.reg a := by
  rw [foldl_stopTask_frame]
  rfl

/-- The registers of the Fields are as the stop's record left them. -/
theorem stopField_reg (h : s.fieldState f = fldRunning ∨ s.fieldState f = fldQuiescing) {a : Nat} (ha : FieldReg a) :
    (stopField s f code).reg a = (stopShown s f code).reg a := by
  rw [(stopField_stays code h).regs a ha, ← (stopCleared_stays code).regs a ha, foldl_stopTask_reg]

theorem stopField_leaves (h : s.fieldState f = fldRunning ∨ s.fieldState f = fldQuiescing) :
    StopLeaves ((stopBegun s f code).furrowsOf f) (stopShown s f code) (stopField s f code) := by
  have hbegun : StopLeaves ((stopBegun s f code).furrowsOf f) (stopShown s f code) (stopBegun s f code) :=
    foldl_induct (P := StopLeaves _ (stopShown s f code)) _ StopLeaves.refl fun _ _ _ h => h.setHopper
  rw [stopField_of_active code h]
  have htasks := foldl_induct (P := StopLeaves ((stopBegun s f code).furrowsOf f) (stopShown s f code))
    ((stopBegun s f code).furrowsOf f) ((hbegun.emptyBuffers (f := f)).clearYokes (f := f)) fun _ _ hm h =>
    h.stopTask hm
  exact (foldl_induct (P := StopLeaves _ (stopShown s f code)) _ htasks fun _ _ hm h =>
    h.stopParked (mem_furrowsOf.mp hm).1 hm).freezeHoppers.setField

theorem not_mem_stopBegun_furrowsOf {m : Nat} (h : s.fieldOf m ≠ some f) : m ∉ (stopBegun s f code).furrowsOf f := by
  intro hm
  obtain ⟨hlt, hfield⟩ := mem_furrowsOf.mp hm
  have hreg : (stopBegun s f code).reg (Reg.furStatus m) = s.reg (Reg.furStatus m) := by
    rw [State.reg, stopBegun_regs]
    exact stopShown_reg_of_below s f code (by unfold Reg.furStatus Reg.fldCtrl; omega)
  rw [State.fieldOf, State.bit, State.bits, hreg] at hfield
  exact h hfield

theorem foldl_stopTask_furrow {m : Nat} {ns : List Nat} (s : State) (h : m ∉ ns) :
    (ns.foldl stopTask s).furrow m = s.furrow m :=
  foldl_induct (P := fun u : State => u.furrow m = s.furrow m) ns rfl fun u _ hn hu =>
    (stopTask_furrow_ne u fun e : m = _ => h (e ▸ hn)).trans hu

/-- A Furrow outside the Field keeps its running task and its parked ones (R203). -/
theorem stopField_other_furrow (h : s.fieldState f = fldRunning ∨ s.fieldState f = fldQuiescing) {m : Nat}
    (hm : s.fieldOf m ≠ some f) : ((stopField s f code).furrow m).task = (s.furrow m).task ∧
      ((stopField s f code).furrow m).slots = (s.furrow m).slots := by
  have hno := not_mem_stopBegun_furrowsOf code hm
  constructor
  · rw [(stopField_stays code h).task, foldl_stopTask_furrow _ hno, (stopCleared_stays code).task, stopShown_furrow]
  · rw [(stopField_leaves code h).slots m hno, stopShown_furrow]

theorem stopShown_tick (s : State) (f code : Nat) :
    (stopShown s f code).reg64 (Reg.fldStopTickLo f) (Reg.fldStopTickHi f) = s.now % 2 ^ 64 := by
  have hlo : Reg.fldStopTickLo f ≠ Reg.fldStatus f := by unfold Reg.fldStopTickLo Reg.fldStatus; omega
  have hhi : Reg.fldStopTickHi f ≠ Reg.fldStatus f := by unfold Reg.fldStopTickHi Reg.fldStatus; omega
  have hne : Reg.fldStopTickLo f ≠ Reg.fldStopTickHi f := by unfold Reg.fldStopTickLo Reg.fldStopTickHi; omega
  rw [State.reg64, stopShown, setFieldState_reg, setFieldState_reg, State.reg_setBits_ne _ _ _ _ hlo,
    State.reg_setBits_ne _ _ _ _ hhi, ← State.reg64, recordStop, State.reg64_setReg64 _ _ hne, State.setBits_now,
    State.addSat_now]

/-- FLD_STOP_TICK shows the tick of the trigger (R201). -/
theorem stopField_tick (hf : f < 8) (h : s.fieldState f = fldRunning ∨ s.fieldState f = fldQuiescing) :
    (stopField s f code).reg64 (Reg.fldStopTickLo f) (Reg.fldStopTickHi f) = s.now % 2 ^ 64 := by
  have hlo : FieldReg (Reg.fldStopTickLo f) := by unfold FieldReg Reg.fldCtrl Reg.fldStopTickLo; omega
  have hhi : FieldReg (Reg.fldStopTickHi f) := by unfold FieldReg Reg.fldCtrl Reg.fldStopTickHi; omega
  rw [State.reg64, stopField_reg code h hlo, stopField_reg code h hhi]
  exact stopShown_tick s f code

end

/-! The stop of a Field that is ready or quiesced (R200, R203). -/

/-- The state in which a stop of a ready or quiesced Field is recorded, with nothing to glean. -/
def stopSettled (s : State) (f code : Nat) : State :=
  ((setFieldState (recordStop s f code) f fldStopped).setBits (Reg.fldGleanCount f) 15 0 0).setBit (Reg.fldStatus f) 7 true

section
variable {s : State} {f : Nat} (code : Nat)

theorem not_active_of_settled (h : s.fieldState f = fldReady ∨ s.fieldState f = fldQuiesced) :
    ¬ (s.fieldState f = fldRunning ∨ s.fieldState f = fldQuiescing) := by
  rcases h with h | h <;> rw [h] <;> decide

/-- Besides its record such a stop changes Furrows, hoppers, yokes and the Droveway alone. -/
theorem stopField_of_settled (h : s.fieldState f = fldReady ∨ s.fieldState f = fldQuiesced) : ∃ fs hs ys d,
    stopField s f code = { stopSettled s f code with furrows := fs, hoppers := hs, yokes := ys, drove := d } := by
  obtain ⟨hs, hfrozen⟩ := freezeHoppers_frame (setFieldState (recordStop s f code) f fldStopped) f
  obtain ⟨fs, ys, d, hcleared⟩ :=
    clearYokes_frame (freezeHoppers (setFieldState (recordStop s f code) f fldStopped) f) f
  obtain ⟨fs', howed⟩ :=
    oweWrites_frame (clearYokes (freezeHoppers (setFieldState (recordStop s f code) f fldStopped) f) f) f 64
  refine ⟨fs', hs, ys, d, ?_⟩
  unfold stopField
  dsimp only
  rw [if_neg (not_active_of_settled h), if_pos h, howed, hcleared, hfrozen]
  rfl

theorem stopField_of_inactive (h : ¬ (s.fieldState f = fldRunning ∨ s.fieldState f = fldQuiescing))
    (h' : ¬ (s.fieldState f = fldReady ∨ s.fieldState f = fldQuiesced)) : stopField s f code = s := by
  unfold stopField
  dsimp only
  rw [if_neg h, if_neg h']

theorem stopSettled_net (s : State) (f code : Nat) : (stopSettled s f code).island.net = s.island.net := by
  obtain ⟨p, o, e⟩ := setFieldState_frame (recordStop s f code) f fldStopped
  obtain ⟨r, e'⟩ := recordStop_frame s f code
  rw [stopSettled, e, e']
  rfl

theorem stopSettled_reg {a : Nat} (s : State) (code : Nat) (hs : a ≠ Reg.fldStatus f) (hg : a ≠ Reg.fldGleanCount f) :
    (stopSettled s f code).reg a = (recordStop s f code).reg a := by
  rw [stopSettled, State.reg_setBit_ne _ _ _ hs, State.reg_setBits_ne _ _ _ _ hg, setFieldState_reg,
    State.reg_setBits_ne _ _ _ _ hs]

/-- What such a stop shows: stopped and gleaned with no entry, and the trigger's code. -/
theorem stopSettled_shows (s : State) (f code : Nat) : (stopSettled s f code).fieldState f = fldStopped ∧
    (stopSettled s f code).bit (Reg.fldStatus f) 7 = true ∧
      (stopSettled s f code).bits (Reg.fldGleanCount f) 15 0 = 0 ∧
      (stopSettled s f code).bits (Reg.fldStop f) 15 0 = code % 2 ^ 16 := by
  have hgs : Reg.fldStatus f ≠ Reg.fldGleanCount f := by unfold Reg.fldStatus Reg.fldGleanCount; omega
  have hss : Reg.fldStop f ≠ Reg.fldStatus f := by unfold Reg.fldStop Reg.fldStatus; omega
  have hsg : Reg.fldStop f ≠ Reg.fldGleanCount f := by unfold Reg.fldStop Reg.fldGleanCount; omega
  have hlo : Reg.fldStop f ≠ Reg.fldStopTickLo f := by unfold Reg.fldStop Reg.fldStopTickLo; omega
  have hhi : Reg.fldStop f ≠ Reg.fldStopTickHi f := by unfold Reg.fldStop Reg.fldStopTickHi; omega
  refine ⟨?_, State.bit_setBit_self _ _ _ (by decide), ?_, ?_⟩
  · rw [State.fieldState, stopSettled, State.bits_setBit_of_disjoint _ _ _ _ (by decide) (.inr (.inl (by decide))),
      State.bits_setBits_of_disjoint _ _ _ _ (by decide) (.inl hgs), State.bits, setFieldState_reg]
    exact State.bits_setBits_self _ _ _ _ (by decide)
  · rw [stopSettled, State.bits_setBit_of_disjoint _ _ _ _ (by decide) (.inl hgs.symm)]
    exact State.bits_setBits_self _ _ _ _ (by decide)
  · rw [State.bits, stopSettled_reg s code hss hsg, recordStop, State.reg_setReg64_ne _ _ hlo hhi]
    exact State.bits_setBits_self _ _ _ _ (by decide)

end

end Sys2Proof.Machine

section
open Sys2Proof Sys2Proof.Machine

/-- Settles O24: the record of the stop is kept by what follows it, which reaches no Furrow outside the Field. -/
theorem stopTriggerEndsTheFieldsTasks : Obligations.StopTriggerEndsTheFieldsTasks := by
  intro s f code hf hcode h t
  obtain ⟨hstate, hshown, -, htask⟩ := stopField_stops code hf h
  exact ⟨hstate, hshown.trans (Nat.mod_eq_of_lt hcode), stopField_tick code hf h,
    fun n k hn hfield hk hst hs => htask n k hn hfield hk hst hs, fun n hn => stopField_other_furrow code h hn⟩

end
end

section
/-! The requests of FLD_CTRL (R32, R34, R200, R201, R202). -/

namespace Sys2Proof.Machine

section
variable {s : State} {req : Requester} {f : Nat}

theorem exec_fieldStart (hf : f < 8) (s : State) :
    exec (.fieldStart req f) s = live s (controlField s req f startField) := congrArg (live s) (withUnit_of hf s _)

theorem exec_fieldQuiesce (hf : f < 8) (s : State) :
    exec (.fieldQuiesce req f) s = live s (controlField s req f quiesceField) := congrArg (live s) (withUnit_of hf s _)

theorem exec_fieldStop (hf : f < 8) (s : State) :
    exec (.fieldStop req f) s = live s (controlField s req f requestStop) := congrArg (live s) (withUnit_of hf s _)

theorem controlField_of_denied {g : State → Nat → State} (h : s.reaches (.req req) (Reg.fldCtrl f) 4 true = false) :
    controlField s req f g = deniedAccess s req (Reg.fldCtrl f) := if_neg (Bool.eq_false_iff.mp h)

theorem controlField_of_reached {g : State → Nat → State} (h : s.reaches (.req req) (Reg.fldCtrl f) 4 true = true) :
    controlField s req f g = g s f := if_pos h

end

/-! A Field's state as a change of it leaves the registers (R200). -/

section
variable (s : State) (f v : Nat)

theorem setFieldState_shows : (setFieldState s f v).fieldState f = v % 8 := by
  rw [State.fieldState, State.bits, setFieldState_reg]
  exact State.bits_setBits_self _ _ _ _ (by decide)

theorem setFieldState_sameRegs : SameRegsBut [Reg.fldStatus f] s (setFieldState s f v) := fun a ha =>
  (setFieldState_reg s f v a).trans (State.reg_setBits_ne _ _ _ _ fun e => ha (by rw [e]; exact List.mem_cons_self))

theorem setFieldState_hoppers : (setFieldState s f v).hoppers = s.hoppers := by
  obtain ⟨p, o, e⟩ := setFieldState_frame s f v
  rw [e]
  rfl

theorem setFieldState_furrows : (setFieldState s f v).furrows = s.furrows := by
  obtain ⟨p, o, e⟩ := setFieldState_frame s f v
  rw [e]
  rfl

theorem setFieldState_furrow (n : Nat) : (setFieldState s f v).furrow n = s.furrow n := by
  rw [State.furrow, setFieldState_furrows, State.furrow]

end

/-! Start (R200). -/

/-- The first k yokes of a Field are full: each level is its bucket's depth (R216). -/
def fillYokes (s : State) (f k : Nat) : State :=
  forUpTo k (fun r s => s.setReg (Reg.yokeLevel f r) (BitVec.ofNat 32 (s.bits (Reg.yokeDepth f r) 20 0))) s

section
variable (s : State) (f : Nat)

theorem fillYokes_onlyRegs (k : Nat) : OnlyRegs s (fillYokes s f k) :=
  forUpTo_induct (P := OnlyRegs s) OnlyRegs.refl fun _ _ _ h => h.setReg

theorem fillYokes_sameRegs (k : Nat) : SameRegsBut ((List.range k).map (Reg.yokeLevel f)) s (fillYokes s f k) :=
  forUpTo_induct (P := SameRegsBut ((List.range k).map (Reg.yokeLevel f)) s) SameRegsBut.refl fun _ _ hr h =>
    h.setReg (List.mem_map_of_mem (List.mem_range.mpr hr))

theorem fillYokes_level {k r : Nat} (hr : r < k) :
    (fillYokes s f k).reg (Reg.yokeLevel f r) = BitVec.ofNat 32 (s.bits (Reg.yokeDepth f r) 20 0) := by
  induction k with
  | zero => cases hr
  | succ k ih =>
    rw [fillYokes, forUpTo_succ, ← fillYokes]
    by_cases h : r = k
    · subst h
      have hno : Reg.yokeDepth f r ∉ (List.range r).map (Reg.yokeLevel f) := by
        rw [List.mem_map]
        rintro ⟨j, -, e⟩
        unfold Reg.yokeLevel Reg.yokeDepth at e
        omega
      rw [State.reg_setReg_self, State.bits, fillYokes_sameRegs s f r _ hno, State.bits]
    · have hne : Reg.yokeLevel f r ≠ Reg.yokeLevel f k := by unfold Reg.yokeLevel; omega
      rw [State.reg_setReg_ne _ _ hne]
      exact ih (by omega)

/-- A Field's hoppers are idle. -/
def idleHoppers (s : State) (f : Nat) : State :=
  (s.hoppersOf f).foldl (fun s h =>
    s.setHopper h { s.hopper h with stage := .idle, noAck := false, wasParked := false }) s

theorem idleHoppers_frame : ∃ hs, idleHoppers s f = { s with hoppers := hs } := by
  refine foldl_induct (P := fun u : State => ∃ hs, u = { s with hoppers := hs }) _ ⟨s.hoppers, rfl⟩ ?_
  rintro _ h - ⟨hs, rfl⟩
  exact ⟨_, rfl⟩

theorem idleHoppers_reg (a : Nat) : (idleHoppers s f).reg a = s.reg a := by
  obtain ⟨hs, e⟩ := idleHoppers_frame s f
  rw [e]
  rfl

/-- The state in which a Field shows that it runs. -/
def runShown (s : State) (f : Nat) : State := (setFieldState s f fldRunning).setBit (Reg.fldStatus f) 7 false

theorem runField_eq : runField s f = fillYokes (idleHoppers (runShown s f) f) f 3 := rfl

theorem runShown_frame : ∃ r p o, runShown s f = { s with regs := r, pcie := p, outbox := o } := by
  obtain ⟨p, o, e⟩ := setFieldState_frame s f fldRunning
  rw [runShown, e]
  exact ⟨_, p, o, rfl⟩

theorem runField_frame : runField s f = { s with
    regs := (runField s f).regs, hoppers := (runField s f).hoppers, pcie := (runField s f).pcie
    outbox := (runField s f).outbox } := by
  obtain ⟨r, p, o, e⟩ := runShown_frame s f
  obtain ⟨hs, e'⟩ := idleHoppers_frame (runShown s f) f
  rw [runField_eq, fillYokes_onlyRegs, e', e]

theorem runField_sameRegs :
    SameRegsBut (Reg.fldStatus f :: (List.range 3).map (Reg.yokeLevel f)) s (runField s f) := fun a ha => by
  obtain ⟨hstatus, hlevel⟩ := not_or.mp fun h => ha (List.mem_cons.mpr h)
  rw [runField_eq, fillYokes_sameRegs _ _ _ a hlevel, idleHoppers_reg, runShown]
  refine (State.reg_setBit_ne _ _ _ hstatus).trans (setFieldState_sameRegs s f fldRunning a ?_)
  rwa [List.mem_singleton]

theorem fldStatus_not_level : Reg.fldStatus f ∉ (List.range 3).map (Reg.yokeLevel f) := by
  rw [List.mem_map]
  rintro ⟨r, -, e⟩
  unfold Reg.fldStatus Reg.yokeLevel at e
  omega

theorem runField_status : (runField s f).reg (Reg.fldStatus f) = (runShown s f).reg (Reg.fldStatus f) := by
  rw [runField_eq, fillYokes_sameRegs _ _ _ _ (fldStatus_not_level f), idleHoppers_reg]

/-- What a start shows: the Field runs, it is not gleaned, and its yokes are full (R200). -/
theorem runField_shows : (runField s f).fieldState f = fldRunning ∧ (runField s f).bit (Reg.fldStatus f) 7 = false ∧
    ∀ r < 3, (runField s f).reg (Reg.yokeLevel f r) = BitVec.ofNat 32 (s.bits (Reg.yokeDepth f r) 20 0) := by
  refine ⟨?_, ?_, fun r hr => ?_⟩
  · rw [State.fieldState, State.bits, runField_status, ← State.bits, runShown,
      State.bits_setBit_of_disjoint _ _ _ _ (by decide) (.inr (.inl (by decide)))]
    exact setFieldState_shows s f fldRunning
  · rw [State.bit, runField_status]
    exact State.bit_setBit_self _ _ _ (by decide)
  · have hdepth : Reg.yokeDepth f r ∉ [Reg.fldStatus f] := by
      rw [List.mem_singleton]
      unfold Reg.yokeDepth Reg.fldStatus
      omega
    have hreg : (runShown s f).reg (Reg.yokeDepth f r) = s.reg (Reg.yokeDepth f r) :=
      (setFieldState_sameRegs s f fldRunning).setBit List.mem_cons_self _ hdepth
    rw [runField_eq, fillYokes_level _ _ hr, State.bits, idleHoppers_reg, hreg, State.bits]

end

/-! Quiesce and stop (R200, R201, R202). -/

section
variable {s : State} {f : Nat}

theorem startField_of_allowed (h : s.mayStart f = true) :
    startField s f = (s.furrowsOf f).foldl refreshBuffer (runField s f) := if_pos h

theorem startField_of_refused (h : s.mayStart f = false) : startField s f = refuseField s f :=
  if_neg (Bool.eq_false_iff.mp h)

/-- The state in which a Field shows that it quiesces. -/
def quiesceShown (s : State) (f : Nat) : State :=
  (setFieldState s f fldQuiescing).setField f { s.field f with quiesceTicks := 0 }

theorem quiesceField_of_running (h : s.fieldState f = fldRunning) :
    quiesceField s f = emptyBuffers (quiesceShown s f) f := if_pos h

theorem quiesceField_of_refused (h : s.fieldState f ≠ fldRunning) : quiesceField s f = refuseField s f := if_neg h

theorem emptyBuffers_frame (s : State) (f : Nat) : ∃ fs, emptyBuffers s f = { s with furrows := fs } := by
  refine foldl_induct (P := fun u : State => ∃ fs, u = { s with furrows := fs }) _ ⟨s.furrows, rfl⟩ ?_
  rintro _ n - ⟨fs, rfl⟩
  exact ⟨_, rfl⟩

/-- A Furrow keeps its running task and its parked ones as its descriptor buffer is emptied. -/
theorem emptyBuffers_furrow (s : State) (f n : Nat) : ((emptyBuffers s f).furrow n).task = (s.furrow n).task ∧
    ((emptyBuffers s f).furrow n).slots = (s.furrow n).slots :=
  ⟨FieldsStay.refl.emptyBuffers.task n, (StopLeaves.refl (ns := [])).emptyBuffers.slots n List.not_mem_nil⟩

theorem requestStop_of_allowed (h : s.fieldState f = fldRunning ∨ s.fieldState f = fldQuiescing ∨
      s.fieldState f = fldReady ∨ s.fieldState f = fldQuiesced) :
    requestStop s f = stopField (s.raise { code := 0x2206, cls := 0, inst := f }) f 0x2206 := if_pos h

theorem requestStop_of_refused (h : s.fieldState f = fldUnconfigured ∨ s.fieldState f = fldStopping ∨
      s.fieldState f = fldStopped) : requestStop s f = refuseField s f := by
  refine if_neg ?_
  rcases h with h | h | h <;> rw [h] <;> decide

/-- The stop of a Field that runs or quiesces after an event of its own (R200, R201). -/
theorem stopField_after_raise (e : Event) {code : Nat} (hf : f < 8) (hc : code < 65536)
    (h : s.fieldState f = fldRunning ∨ s.fieldState f = fldQuiescing) :
    (stopField (s.raise e) f code).fieldState f = fldStopping ∧
      (stopField (s.raise e) f code).bits (Reg.fldStop f) 15 0 = code ∧
      (stopField (s.raise e) f code).reg64 (Reg.fldStopTickLo f) (Reg.fldStopTickHi f) = s.now % 2 ^ 64 ∧
      ∃ es, (stopField (s.raise e) f code).island.net = s.island.net ++ e :: es := by
  have h' : (s.raise e).fieldState f = fldRunning ∨ (s.raise e).fieldState f = fldQuiescing := h
  obtain ⟨hstate, hcode, ⟨es, hes⟩, -⟩ := stopField_stops code hf h'
  refine ⟨hstate, hcode.trans (Nat.mod_eq_of_lt hc), stopField_tick code hf h', es, ?_⟩
  rw [← hes, State.raise_net, List.append_assoc]
  rfl

/-- The stop of a ready or quiesced Field after an event of its own. -/
theorem stopField_settled_after_raise (e : Event) {code : Nat} (hc : code < 65536)
    (h : s.fieldState f = fldReady ∨ s.fieldState f = fldQuiesced) :
    (stopField (s.raise e) f code).fieldState f = fldStopped ∧
      (stopField (s.raise e) f code).bit (Reg.fldStatus f) 7 = true ∧
      (stopField (s.raise e) f code).bits (Reg.fldGleanCount f) 15 0 = 0 ∧
      (stopField (s.raise e) f code).bits (Reg.fldStop f) 15 0 = code ∧
      (stopField (s.raise e) f code).island.net = s.island.net ++ [e] := by
  have h' : (s.raise e).fieldState f = fldReady ∨ (s.raise e).fieldState f = fldQuiesced := h
  obtain ⟨fs, hs, ys, d, he⟩ := stopField_of_settled code h'
  obtain ⟨hstate, hgleaned, hcount, hcode⟩ := stopSettled_shows (s.raise e) f code
  have hnet := stopSettled_net (s.raise e) f code
  rw [he]
  generalize stopSettled (s.raise e) f code = u at hstate hgleaned hcount hcode hnet
  exact ⟨hstate, hgleaned, hcount, hcode.trans (Nat.mod_eq_of_lt hc), hnet⟩

end

end Sys2Proof.Machine

section
open Sys2Proof Sys2Proof.Machine

/-- Settles O22: each request by the row of R200's table that the Field's state selects. -/
theorem fieldRequestsFollowTheTable : Obligations.FieldRequestsFollowTheTable := by
  intro s req f hheld hf st refused mayStart
  refine ⟨fun hr => ⟨?_, ?_, ?_⟩, fun hr => ⟨fun hm => ?_, fun hm => ?_, fun h => ?_, fun h => ?_, fun h => ?_,
    fun h => ?_, fun h => ?_⟩⟩
  · exact answers_of_eq (exec_fieldStart hf s) hheld (controlField_of_denied hr)
  · exact answers_of_eq (exec_fieldQuiesce hf s) hheld (controlField_of_denied hr)
  · exact answers_of_eq (exec_fieldStop hf s) hheld (controlField_of_denied hr)
  · obtain ⟨hstate, hgleaned, hlevel⟩ := runField_shows s f
    refine ⟨?_, hstate, hgleaned, hlevel, runField_sameRegs s f, runField_frame s f⟩
    exact answers_of_eq (exec_fieldStart hf s) hheld ((controlField_of_reached hr).trans (startField_of_allowed hm))
  · exact answers_of_eq (exec_fieldStart hf s) hheld ((controlField_of_reached hr).trans (startField_of_refused hm))
  · obtain ⟨fs, he⟩ := emptyBuffers_frame (quiesceShown s f) f
    have hfurrow := emptyBuffers_furrow (quiesceShown s f) f
    have hx := (exec_fieldQuiesce hf s).trans
      (congrArg (live s) ((controlField_of_reached hr).trans (quiesceField_of_running h)))
    rw [he] at hx hfurrow
    refine yields_of_live hx hheld ⟨setFieldState_shows s f fldQuiescing, ?_, setFieldState_sameRegs s f fldQuiescing,
      setFieldState_hoppers s f fldQuiescing, fun n => ?_⟩
    · exact congrArg Field.quiesceTicks (State.field_setField_self _ _ _)
    · have hshown : (quiesceShown s f).furrow n = s.furrow n :=
        setFieldState_furrow s f fldQuiescing n
      exact hshown ▸ hfurrow n
  · exact answers_of_eq (exec_fieldQuiesce hf s) hheld ((controlField_of_reached hr).trans (quiesceField_of_refused h))
  · have hallowed := requestStop_of_allowed (h.imp_right Or.inl)
    exact yields_of_eq (exec_fieldStop hf s) hheld ((controlField_of_reached hr).trans hallowed)
      (stopField_after_raise _ hf (by decide) h)
  · have hallowed := requestStop_of_allowed (.inr (.inr h))
    exact yields_of_eq (exec_fieldStop hf s) hheld ((controlField_of_reached hr).trans hallowed)
      (stopField_settled_after_raise _ (by decide) h)
  · exact answers_of_eq (exec_fieldStop hf s) hheld ((controlField_of_reached hr).trans (requestStop_of_refused h))

end
end

section
/-! Resets of PCIe functions, and what one leaves of the others (R201, R424, R474). -/

namespace Sys2Proof.Machine

/-! What a reset of one function leaves. -/

/-- From s to t the state of every Field but function k's, every function's register but k's, the reset state of every
other function, and the pins stay, and events are only added. -/
structure ResetLeaves (k : Nat) (s t : State) : Prop where
  field : ∀ g < 8, g + 1 ≠ k → t.fieldState g = s.fieldState g
  pcieFn : ∀ fn, fn ≠ k → t.reg (Reg.pcieFn fn) = s.reg (Reg.pcieFn fn)
  function : ∀ fn, fn ≠ k → s.function fn = {} → t.function fn = {}
  pins : t.pins = s.pins
  net : s.island.net <+: t.island.net

/-- A function in its reset state has no vector enabled, so that none fires (R430). -/
theorem notify_function_of_reset {s : State} {fn : Nat} (h : s.function fn = {}) (n v : Nat) :
    (s.notify n v).function fn = {} := by
  by_cases hn : fn = n
  · subst hn
    simp only [State.notify, h, Bool.not_false, if_true]
  · unfold State.notify
    dsimp only
    split
    · exact h
    · split
      · rw [State.function_setFunction_ne _ _ hn, h]
      · exact h

section
variable {k : Nat} {s t u : State}

theorem ResetLeaves.refl : ResetLeaves k s s := ⟨fun _ _ _ => rfl, fun _ _ => rfl, fun _ _ h => h, rfl, List.prefix_rfl⟩

theorem ResetLeaves.trans (h : ResetLeaves k s t) (h' : ResetLeaves k t u) : ResetLeaves k s u where
  field g hg hne := (h'.field g hg hne).trans (h.field g hg hne)
  pcieFn fn hne := (h'.pcieFn fn hne).trans (h.pcieFn fn hne)
  function fn hne e := h'.function fn hne (h.function fn hne e)
  pins := h'.pins.trans h.pins
  net := h.net.trans h'.net

theorem ResetLeaves.setReg {a : Nat} {v : Word} (h : ResetLeaves k s t) (hf : ∀ g < 8, g + 1 ≠ k → Reg.fldStatus g ≠ a)
    (hp : ∀ fn, fn ≠ k → Reg.pcieFn fn ≠ a) : ResetLeaves k s (t.setReg a v) :=
  { h with
    field := fun g hg hne => (State.bits_setReg_ne _ _ _ _ (hf g hg hne)).trans (h.field g hg hne)
    pcieFn := fun fn hne => (State.reg_setReg_ne _ _ (hp fn hne)).trans (h.pcieFn fn hne) }

theorem ResetLeaves.raise {e : Event} (h : ResetLeaves k s t) : ResetLeaves k s (t.raise e) :=
  { h with net := h.net.trans (List.prefix_append _ _) }

theorem ResetLeaves.notify {n v : Nat} (h : ResetLeaves k s t) : ResetLeaves k s (t.notify n v) where
  field g hg hne := by
    obtain ⟨p, o, e⟩ := notify_frame t n v
    rw [e]
    exact h.field g hg hne
  pcieFn fn hne := by
    obtain ⟨p, o, e⟩ := notify_frame t n v
    rw [e]
    exact h.pcieFn fn hne
  function fn hne e := notify_function_of_reset (h.function fn hne e) n v
  pins := by
    obtain ⟨p, o, e⟩ := notify_frame t n v
    rw [e]
    exact h.pins
  net := by
    obtain ⟨p, o, e⟩ := notify_frame t n v
    rw [e]
    exact h.net

end

/-! The slip of the function's transaction (R423, R424). -/

/-- The state in which the end of set r's transaction is recorded (R422, R423). -/
def buckleEnded (s : State) (r outcome cause : Nat) : State :=
  buckleCause ((((((s.setBits (Reg.bklStatus r) 31 30 0).setBits (Reg.bklStatus r) 29 27 outcome).setBit (Reg.bklStatus r) 26
    true).setBit (Reg.bklStatus r) 25 false).setReg (Reg.bklInfo r) 0).setBuckle r {}) r cause (s.buckleId r)

theorem endBuckle_of_function {k : Nat} (hk : k < 9) (s : State) (outcome cause : Nat) :
    endBuckle s (functionSet k) outcome cause = (buckleEnded s (functionSet k) outcome cause).notify k 2 := by
  unfold endBuckle functionSet
  cases k with
  | zero => exact if_pos rfl
  | succ k => exact (if_neg (by omega)).trans (if_pos (by omega))

theorem ResetLeaves.setBuckle {k r : Nat} {s t : State} {b : Buckle} (h : ResetLeaves k s t) :
    ResetLeaves k s (t.setBuckle r b) := { h with }

theorem buckleEnded_leaves {k : Nat} (hk : k < 9) (j : Nat) (s : State) (outcome cause : Nat) :
    ResetLeaves j s (buckleEnded s (functionSet k) outcome cause) := by
  have hstatus {t : State} {v : Word} (h : ResetLeaves j s t) :
      ResetLeaves j s (t.setReg (Reg.bklStatus (functionSet k)) v) :=
    h.setReg (fun g hg _ => by unfold Reg.fldStatus Reg.bklStatus; omega)
      (fun fn _ => by unfold Reg.pcieFn Reg.bklStatus functionSet; omega)
  have hinfo {t : State} {v : Word} (h : ResetLeaves j s t) :
      ResetLeaves j s (t.setReg (Reg.bklInfo (functionSet k)) v) :=
    h.setReg (fun g hg _ => by unfold Reg.fldStatus Reg.bklInfo; omega)
      (fun fn _ => by unfold Reg.pcieFn Reg.bklInfo functionSet; omega)
  exact (hstatus (hinfo (hstatus (hstatus (hstatus (hstatus ResetLeaves.refl))))).setBuckle).raise

/-- A slip touches no Field and no function's register or reset state. -/
theorem slip_leaves {k : Nat} (hk : k < 9) (j : Nat) (s : State) (outcome cause : Nat) :
    ResetLeaves j s (slip s (functionSet k) outcome cause) := by
  unfold slip
  split
  · exact ResetLeaves.refl
  · rw [endBuckle_of_function hk]
    exact (buckleEnded_leaves hk j s outcome cause).notify

/-! The stop of the function's Field (R201, R424). -/

section
variable {s : State} {f : Nat} (code : Nat)

theorem recordStop_leaves (hf : f < 8) (s : State) : ResetLeaves (f + 1) s (recordStop s f code) := by
  have hreg {t : State} {a : Nat} {v : Word} (h : ResetLeaves (f + 1) s t)
      (ha : a = Reg.fldStop f ∨ a = Reg.fldStopTickLo f ∨ a = Reg.fldStopTickHi f) :
      ResetLeaves (f + 1) s (t.setReg a v) :=
    h.setReg
      (fun g hg _ => by unfold Reg.fldStatus Reg.fldStop Reg.fldStopTickLo Reg.fldStopTickHi at *; omega)
      (fun fn _ => by unfold Reg.pcieFn Reg.fldStop Reg.fldStopTickLo Reg.fldStopTickHi at *; omega)
  exact hreg (hreg (hreg (hreg ResetLeaves.refl (.inl rfl)) (.inl rfl)) (.inr (.inl rfl))) (.inr (.inr rfl))

/-- A change of Field f's status is that of function f + 1's Field. -/
theorem ResetLeaves.setStatus {t : State} {v : Word} (h : ResetLeaves (f + 1) s t) (hf : f < 8) :
    ResetLeaves (f + 1) s (t.setReg (Reg.fldStatus f) v) :=
  h.setReg (fun g hg hne => by unfold Reg.fldStatus; omega) (fun fn _ => by unfold Reg.pcieFn Reg.fldStatus; omega)

theorem stopShown_leaves (hf : f < 8) (s : State) : ResetLeaves (f + 1) s (stopShown s f code) :=
  ((recordStop_leaves code hf s).setStatus hf).notify.notify

theorem stopSettled_leaves (hf : f < 8) (s : State) : ResetLeaves (f + 1) s (stopSettled s f code) :=
  ((((recordStop_leaves code hf s).setStatus hf).notify.notify).setReg
    (fun g hg _ => by unfold Reg.fldStatus Reg.fldGleanCount; omega)
    (fun fn _ => by unfold Reg.pcieFn Reg.fldGleanCount; omega)).setStatus hf

theorem stopField_leaves_others (hf : f < 8) (s : State) : ResetLeaves (f + 1) s (stopField s f code) := by
  by_cases h : s.fieldState f = fldRunning ∨ s.fieldState f = fldQuiescing
  · obtain ⟨-, -, hnet, -⟩ := stopField_stops code hf h
    have hshown := stopShown_leaves code hf s
    have hafter := stopField_leaves code h
    refine ⟨fun g hg hne => ?_, fun fn hne => (hafter.pcieFn fn).trans (hshown.pcieFn fn hne), fun fn hne e => ?_,
      hafter.host.pins.trans hshown.pins, hnet⟩
    · have hstatus : FieldReg (Reg.fldStatus g) := by unfold FieldReg Reg.fldCtrl Reg.fldStatus; omega
      rw [State.fieldState, State.bits, stopField_reg code h hstatus]
      exact hshown.field g hg hne
    · rw [State.function, hafter.host.pcie]
      exact hshown.function fn hne e
  · by_cases h' : s.fieldState f = fldReady ∨ s.fieldState f = fldQuiesced
    · obtain ⟨fs, hs, ys, d, he⟩ := stopField_of_settled code h'
      have hsettled := stopSettled_leaves code hf s
      rw [he]
      generalize stopSettled s f code = u at hsettled
      exact { hsettled with }
    · rw [stopField_of_inactive code h h']
      exact ResetLeaves.refl

end

/-- The stop of a function's Field on its reset (R424). -/
def stopForReset (s : State) (f : Nat) : State :=
  if s.fieldState f = fldRunning ∨ s.fieldState f = fldQuiescing ∨
      s.fieldState f = fldReady ∨ s.fieldState f = fldQuiesced then
    stopField (s.raise { code := 0x2206, cls := 0, inst := f }) f 0x2206
  else s

/-- What a reset of its function makes of Field f, from s to t (R201, R424). -/
def FieldReset (s : State) (f : Nat) (t : State) : Prop :=
  let st := s.fieldState f
  let stop : Event := { code := 0x2206, cls := 0, inst := f }
  (st = fldRunning ∨ st = fldQuiescing → t.fieldState f = fldStopping ∧ stop ∈ t.island.net) ∧
    (st = fldReady ∨ st = fldQuiesced → t.fieldState f = fldStopped ∧ stop ∈ t.island.net) ∧
    (st = fldUnconfigured ∨ st = fldStopping ∨ st = fldStopped → t.fieldState f = st)

section
variable {s : State} {f : Nat}

theorem stopForReset_leaves (hf : f < 8) (s : State) : ResetLeaves (f + 1) s (stopForReset s f) := by
  unfold stopForReset
  split
  · exact ResetLeaves.refl.raise.trans (stopField_leaves_others _ hf _)
  · exact ResetLeaves.refl

theorem stopForReset_resets (hf : f < 8) (s : State) : FieldReset s f (stopForReset s f) := by
  refine ⟨fun h => ?_, fun h => ?_, fun h => ?_⟩
  · obtain ⟨hstate, -, -, es, hes⟩ :=
      stopField_after_raise { code := 0x2206, cls := 0, inst := f } (code := 0x2206) hf (by decide) h
    rw [stopForReset, if_pos (h.imp_right Or.inl)]
    exact ⟨hstate, by rw [hes]; exact List.mem_append_right _ List.mem_cons_self⟩
  · obtain ⟨hstate, -, -, -, hnet⟩ :=
      stopField_settled_after_raise { code := 0x2206, cls := 0, inst := f } (code := 0x2206) (by decide) h
    rw [stopForReset, if_pos (.inr (.inr h))]
    exact ⟨hstate, by rw [hnet]; exact List.mem_append_right _ List.mem_cons_self⟩
  · rw [stopForReset, if_neg (by rcases h with h | h | h <;> rw [h] <;> decide)]

theorem FieldReset.of_eq {u t : State} (h : FieldReset u f t) (e : u.fieldState f = s.fieldState f) : FieldReset s f t := by
  unfold FieldReset at h ⊢
  rwa [e] at h

theorem FieldReset.after {t u : State} (h : FieldReset s f t) (hstate : u.fieldState f = t.fieldState f)
    (hnet : t.island.net <+: u.island.net) : FieldReset s f u := by
  obtain ⟨hactive, hsettled, hother⟩ := h
  exact ⟨fun e => ⟨hstate.trans (hactive e).1, hnet.mem (hactive e).2⟩,
    fun e => ⟨hstate.trans (hsettled e).1, hnet.mem (hsettled e).2⟩, fun e => hstate.trans (hother e)⟩

end

/-! A Function Level Reset (R424). -/

/-- What a reset makes of function fn and its Field, from s to t. -/
def FunctionReset (s : State) (fn : Nat) (t : State) : Prop :=
  t.bit (Reg.pcieFn fn) 2 = true ∧ t.bit (Reg.pcieFn fn) 1 = false ∧ t.function fn = {} ∧
    (fn ≠ 0 → FieldReset s (fn - 1) t)

/-- The state of a reset once the function's transaction has slipped and its Field stopped. -/
def resetBegun (s : State) (fn : Nat) : State :=
  if fn = 0 then slip s (functionSet fn) 2 0x27 else stopForReset (slip s (functionSet fn) 2 0x27) (fn - 1)

section
variable {fn : Nat}

theorem resetFunction_eq (s : State) (fn : Nat) : resetFunction s fn =
    (((resetBegun s fn).setBit (Reg.pcieFn fn) 2 true).setBit (Reg.pcieFn fn) 1 false).setFunction fn {} := rfl

theorem resetBegun_leaves (hfn : fn < 9) (s : State) : ResetLeaves fn s (resetBegun s fn) := by
  unfold resetBegun
  split
  · exact slip_leaves hfn _ s _ _
  · next h =>
    have hstop := stopForReset_leaves (f := fn - 1) (by omega) (slip s (functionSet fn) 2 0x27)
    rw [Nat.sub_add_cancel (Nat.pos_of_ne_zero h)] at hstop
    exact (slip_leaves hfn _ s _ _).trans hstop

theorem ResetLeaves.setPcieFn {s t : State} {v : Word} (h : ResetLeaves fn s t) :
    ResetLeaves fn s (t.setReg (Reg.pcieFn fn) v) :=
  h.setReg (fun g _ _ => by unfold Reg.fldStatus Reg.pcieFn; omega) (fun k hk => by unfold Reg.pcieFn; omega)

theorem resetFunction_leaves (hfn : fn < 9) (s : State) : ResetLeaves fn s (resetFunction s fn) := by
  have h : ResetLeaves fn s (((resetBegun s fn).setBit (Reg.pcieFn fn) 2 true).setBit (Reg.pcieFn fn) 1 false) :=
    (resetBegun_leaves hfn s).setPcieFn.setPcieFn
  rw [resetFunction_eq]
  exact { h with
    function := fun k hk e => (State.function_setFunction_ne _ _ hk).trans (h.function k hk e) }

theorem resetBegun_resets (hfn : fn < 9) (h : fn ≠ 0) (s : State) : FieldReset s (fn - 1) (resetBegun s fn) := by
  rw [resetBegun, if_neg h]
  exact (stopForReset_resets (by omega) _).of_eq ((slip_leaves hfn 0 s 2 0x27).field (fn - 1) (by omega) (by omega))

theorem resetFunction_resets (hfn : fn < 9) (s : State) : FunctionReset s fn (resetFunction s fn) := by
  have hstatus : Reg.fldStatus (fn - 1) ≠ Reg.pcieFn fn := by unfold Reg.fldStatus Reg.pcieFn; omega
  rw [resetFunction_eq]
  refine ⟨?_, ?_, State.function_setFunction_self _ _ _, fun h => ?_⟩
  · rw [State.setFunction_bit, State.bit_setBit_of_disjoint _ _ _ _ (by decide) (.inr (by decide))]
    exact State.bit_setBit_self _ _ _ (by decide)
  · rw [State.setFunction_bit]
    exact State.bit_setBit_self _ _ _ (by decide)
  · refine (resetBegun_resets hfn h s).after ?_ List.prefix_rfl
    rw [State.fieldState, State.setFunction_bits, State.bits_setBit_of_disjoint _ _ _ _ (by decide) (.inl hstatus),
      State.bits_setBit_of_disjoint _ _ _ _ (by decide) (.inl hstatus), State.fieldState]

/-- A reset of one function stays as another one is reset. -/
theorem FunctionReset.leaves {s t u : State} {k : Nat} (h : FunctionReset s fn t) (hfn : fn < 9) (hne : fn ≠ k)
    (hl : ResetLeaves k t u) : FunctionReset s fn u := by
  obtain ⟨hset, hclear, hfunction, hfield⟩ := h
  refine ⟨?_, ?_, hl.function fn hne hfunction, fun h0 => ?_⟩
  · rw [State.bit, hl.pcieFn fn hne]
    exact hset
  · rw [State.bit, hl.pcieFn fn hne]
    exact hclear
  · exact (hfield h0).after (hl.field (fn - 1) (by omega) (by omega)) hl.net

theorem FunctionReset.of_eq {s t u : State} (h : FunctionReset u fn t)
    (e : fn ≠ 0 → u.fieldState (fn - 1) = s.fieldState (fn - 1)) : FunctionReset s fn t := by
  obtain ⟨hset, hclear, hfunction, hfield⟩ := h
  exact ⟨hset, hclear, hfunction, fun h0 => (hfield h0).of_eq (e h0)⟩

/-- From s to t the functions below k have been reset in turn, and no other function's Field is touched yet (R474). -/
structure ResetBelow (k : Nat) (s t : State) : Prop where
  reset : ∀ fn < k, FunctionReset s fn t
  field : ∀ g < 8, k ≤ g + 1 → t.fieldState g = s.fieldState g
  pins : t.pins = s.pins

theorem ResetBelow.succ {s t : State} {k : Nat} (h : ResetBelow k s t) (hk : k < 9) :
    ResetBelow (k + 1) s (resetFunction t k) := by
  have hleaves := resetFunction_leaves hk t
  have hown := (resetFunction_resets hk t).of_eq fun h0 => h.field (k - 1) (by omega) (by omega)
  refine ⟨fun fn hfn => ?_, fun g hg hle => (hleaves.field g hg (by omega)).trans (h.field g hg (by omega)),
    hleaves.pins.trans h.pins⟩
  by_cases e : fn = k
  · rw [e]
    exact hown
  · exact (h.reset fn (by omega)).leaves (by omega) e hleaves

theorem resetFunctions_below (s : State) {k : Nat} (hk : k ≤ 9) :
    ResetBelow k s (forUpTo k (fun fn s => resetFunction s fn) s) := by
  induction k with
  | zero => exact ⟨fun _ h => absurd h (Nat.not_lt_zero _), fun _ _ _ => rfl, rfl⟩
  | succ k ih =>
    rw [forUpTo_succ]
    exact (ih (by omega)).succ (by omega)

/-- The link's loss leaves the functions as they are. -/
theorem FunctionReset.withoutLink {s t : State} (hfn : fn < 9) (h : FunctionReset s fn t) :
    FunctionReset s fn (t.setReg Reg.pcieLink 0) := by
  have hl : ResetLeaves 9 t (t.setReg Reg.pcieLink 0) := ResetLeaves.refl.setReg
    (fun g hg _ => by unfold Reg.fldStatus Reg.pcieLink; omega) (fun k _ => by unfold Reg.pcieFn Reg.pcieLink; omega)
  exact h.leaves hfn (by omega) hl

theorem assertPerst_of_low {s : State} (h : s.pins.perst = true) : assertPerst s = s := by
  have e : ({ s with pins := { s.pins with perst := true } } : State) = s := by rw [← h]
  rw [assertPerst, h, Bool.or_true, if_pos rfl]
  exact e

theorem assertPerst_of_high {s : State} (hheld : s.held = false) (h : s.pins.perst = false) : assertPerst s =
    (forUpTo 9 (fun fn s => resetFunction s fn) { s with pins := { s.pins with perst := true } }).setReg Reg.pcieLink 0 := by
  have hreset : s.inReset = false := by
    simp only [State.held, Bool.or_eq_false_iff] at hheld
    exact hheld.1.1
  rw [assertPerst, h, hreset]
  exact if_neg (by decide)

end

/-! The link and its errors (R429, R435, R474). -/

theorem OnlyRegs.withQueue {s t : State} (h : OnlyRegs s t) : OnlyRegs s (t.withQueue s.pending) := by
  rw [h]
  exact OnlyRegs.refl

section
variable {s : State}

theorem exec_pcieFlr {fn : Nat} (hfn : fn < 9) (s : State) :
    exec (.pcieFlr fn) s = live s (if s.linkUp then resetFunction s fn else s) := congrArg (live s) (withUnit_of hfn s _)

/-- Training brings the link up where PERST_N is high (R425, R474). -/
theorem trainPcie_eq {width speed : Nat} (hw : [1, 2, 4, 8].contains width = true) (hlo : 1 ≤ speed) (hhi : speed ≤ 5)
    (s : State) : trainPcie s width speed = pcieUp s (width, speed) := by
  have hspeed : (if speed = 0 then 5 else speed - 1) = speed - 1 := if_neg (by omega)
  have hidx : [1, 2, 4, 8].idxOf width < 4 := List.idxOf_lt_length_of_mem (List.contains_iff_mem.mp hw)
  have hget : ([1, 2, 4, 8][[1, 2, 4, 8].idxOf width]?).getD 8 = width := by
    rw [List.getElem?_idxOf (List.contains_iff_mem.mp hw)]
    rfl
  rw [trainPcie, withUnit_of hidx, hspeed, withUnit_of (by omega), hget, Nat.sub_add_cancel hlo]

theorem pcieUp_of_low {w : Nat × Nat} (h : s.pins.perst = true) : pcieUp s w = s := if_pos h

theorem pcieUp_shows {width speed : Nat} (h : s.pins.perst = false) (hw : width < 16) (hs : speed < 8) :
    let t := (pcieUp s (width, speed)).withQueue s.pending
    t.bit Reg.pcieLink 0 = true ∧ t.bits Reg.pcieLink 7 4 = width ∧ t.bits Reg.pcieLink 3 1 = speed ∧
      SameRegsBut [Reg.pcieLink] s t ∧ OnlyRegs s t := by
  rw [pcieUp, if_neg (Bool.eq_false_iff.mp h)]
  refine ⟨?_, ?_, ?_,
    ((SameRegsBut.refl.setBits List.mem_cons_self).setBits List.mem_cons_self).setBit List.mem_cons_self,
    OnlyRegs.refl.setBits.setBits.setBit.withQueue⟩
  · rw [State.withQueue_bit]
    exact State.bit_setBit_self _ _ _ (by decide)
  · rw [State.withQueue_bits, State.bits_setBit_of_disjoint _ _ _ _ (by decide) (by decide),
      State.bits_setBits_of_disjoint _ _ _ _ (by decide) (by decide), State.bits_setBits_self _ _ _ _ (by decide)]
    exact Nat.mod_eq_of_lt hw
  · rw [State.withQueue_bits, State.bits_setBit_of_disjoint _ _ _ _ (by decide) (by decide),
      State.bits_setBits_self _ _ _ _ (by decide)]
    exact Nat.mod_eq_of_lt hs

theorem SameRegsBut.raise {as : List Nat} {t : State} {e : Event} (h : SameRegsBut as s t) : SameRegsBut as s (t.raise e) := h

theorem pcieError_sameRegs {as : List Nat} (h : Reg.pcieErr ∈ as) (s : State) (flag cause cls : Nat) :
    SameRegsBut as s (pcieError s flag cause cls) := (SameRegsBut.refl.setBit h).raise

theorem pcieError_frame (s : State) (flag cause cls : Nat) :
    OnlyRegs (s.raise { code := 0x0D00 + cause, cls := cls }) (pcieError s flag cause cls) :=
  OnlyRegs.refl.setBit.raise_eq _

theorem pcieError_flag {flag : Nat} (hf : flag < 32) (s : State) (cause cls : Nat) :
    (pcieError s flag cause cls).bit Reg.pcieErr flag = true := by
  rw [pcieError, State.raise_bit, State.bit_setBit_self _ _ _ hf]

/-- An error that is counted: its flag, its count and its entry (R429). -/
theorem pcieError_counted {flag msb lsb : Nat} (hf : flag < 32) (hm : msb < 32) (s : State) (cause cls : Nat) :
    let t := ((pcieError s flag cause cls).addSat Reg.pcieCount msb lsb).withQueue s.pending
    t.bit Reg.pcieErr flag = true ∧
      t.bits Reg.pcieCount msb lsb = min (s.bits Reg.pcieCount msb lsb + 1) (2 ^ (msb + 1 - lsb) - 1) ∧
      SameRegsBut [Reg.pcieErr, Reg.pcieCount] s t ∧
      OnlyRegs (s.raise { code := 0x0D00 + cause, cls := cls }) t := by
  have hne : Reg.pcieErr ≠ Reg.pcieCount := by decide
  refine ⟨?_, ?_, (pcieError_sameRegs List.mem_cons_self s flag cause cls).addSat
    (List.mem_cons_of_mem _ List.mem_cons_self), (pcieError_frame s flag cause cls).addSat.withQueue⟩
  · rw [State.withQueue_bit, State.bit, State.reg_addSat_ne _ _ _ _ hne]
    exact pcieError_flag hf s cause cls
  · rw [State.withQueue_bits, State.bits_addSat_self _ _ _ _ hm, pcieError, State.raise_bits,
      State.bits_setBit_of_disjoint _ _ _ _ hf (.inl hne.symm)]

theorem linkError_of_loss (h : s.linkUp = true) :
    linkError s true = (pcieError s 31 3 2).setReg Reg.pcieLink 0 := by
  simp only [linkError, h, Bool.not_true, Bool.false_eq_true, if_false, if_true]

theorem linkError_of_error (h : s.linkUp = true) :
    linkError s false = (pcieError s 29 3 2).addSat Reg.pcieCount 31 16 := by
  simp only [linkError, h, Bool.not_true, Bool.false_eq_true, if_false]

theorem linkError_of_down {down : Bool} (h : s.linkUp = false) : linkError s down = s := by
  simp only [linkError, h, Bool.not_false, if_true]

/-- A loss of the link: its flag, PCIE_LINK cleared, and its entry (R429). -/
theorem linkLoss_shows (s : State) :
    let t := ((pcieError s 31 3 2).setReg Reg.pcieLink 0).withQueue s.pending
    t.bit Reg.pcieErr 31 = true ∧ t.reg Reg.pcieLink = 0 ∧ SameRegsBut [Reg.pcieErr, Reg.pcieLink] s t ∧
      OnlyRegs (s.raise { code := 0x0D03, cls := 2 }) t := by
  have hne : Reg.pcieErr ≠ Reg.pcieLink := by decide
  have hregs : SameRegsBut [Reg.pcieErr, Reg.pcieLink] s ((pcieError s 31 3 2).setReg Reg.pcieLink 0) :=
    (pcieError_sameRegs List.mem_cons_self s 31 3 2).setReg (List.mem_cons_of_mem _ List.mem_cons_self)
  have hframe : OnlyRegs (s.raise { code := 0x0D03, cls := 2 }) ((pcieError s 31 3 2).setReg Reg.pcieLink 0) :=
    (pcieError_frame s 31 3 2).setReg
  refine ⟨?_, ?_, (sameRegsBut_withQueue _ _ _ _).mpr hregs, hframe.withQueue⟩
  · rw [State.withQueue_bit, State.bit, State.reg_setReg_ne _ _ hne]
    exact pcieError_flag (by decide) s 3 2
  · rw [State.withQueue_reg]
    exact State.reg_setReg_self _ _ _

end

end Sys2Proof.Machine

section
open Sys2Proof Sys2Proof.Machine

/-- Settles O38: a reset touches its own function and Field alone, so that PERST_N's nine resets stand side by side. -/
theorem pcieLinkEventsShow : Obligations.PcieLinkEventsShow := by
  intro s hheld reset
  refine ⟨fun h => ⟨fun fn hfn => ?_, ?_, fun down => ?_⟩, fun h => ⟨fun fn hfn => ?_, ?_, ?_, ?_⟩,
    fun width speed hw hlo hhi => ⟨fun hp => ?_, fun hp => ?_⟩, fun hp => ?_, fun hp => ?_⟩
  · exact answers_of_eq (exec_pcieFlr hfn s) hheld (if_neg (Bool.eq_false_iff.mp h))
  · exact answers_of_live (congrArg (live s) (if_neg (Bool.eq_false_iff.mp h))) hheld
  · exact answers_of_live (congrArg (live s) (linkError_of_down h)) hheld
  · exact yields_of_eq (exec_pcieFlr hfn s) hheld (if_pos h) (resetFunction_resets hfn s)
  · exact yields_of_live (congrArg (live s) (if_pos h)) hheld (pcieError_counted (by decide) (by decide) s 1 1)
  · exact yields_of_live (congrArg (live s) (linkError_of_error h)) hheld
      (pcieError_counted (by decide) (by decide) s 3 2)
  · exact yields_of_live (congrArg (live s) (linkError_of_loss h)) hheld (linkLoss_shows s)
  · exact answers_of_live (congrArg (live s) ((trainPcie_eq hw hlo hhi s).trans (pcieUp_of_low hp))) hheld
  · have hwidth : width < 16 := by
      simp only [List.contains_cons, List.contains_nil, Bool.or_eq_true, beq_iff_eq, Bool.or_false] at hw
      omega
    exact yields_of_live (congrArg (live s) (trainPcie_eq hw hlo hhi s)) hheld
      (pcieUp_shows hp hwidth (Nat.lt_of_le_of_lt hhi (by decide)))
  · exact answers_of_always (congrArg (always s) (assertPerst_of_low hp))
  · obtain ⟨hreset, -, hpins⟩ := resetFunctions_below { s with pins := { s.pins with perst := true } } (Nat.le_refl 9)
    have hx : exec .perstAssert s = _ := congrArg (always s) (assertPerst_of_high hheld hp)
    generalize forUpTo 9 (fun fn s => resetFunction s fn) { s with pins := { s.pins with perst := true } } = u
      at hreset hpins hx
    refine yields_of_always hx ⟨hpins, ?_, fun fn hfn => (hreset fn hfn).withoutLink hfn⟩
    rw [State.withQueue_reg]
    exact State.reg_setReg_self _ _ _

end
end

section
/-! The events of a Field that quiesces or stops (R200, R201, R202, R203). -/

namespace Sys2Proof.Machine

section
variable {f : Nat}

theorem exec_quiesceComplete (hf : f < 8) (s : State) :
    exec (.quiesceComplete f) s = live s (completeQuiesce s f) := congrArg (live s) (withUnit_of hf s _)

theorem exec_quiesceLimitExpiry (hf : f < 8) (s : State) :
    exec (.quiesceLimitExpiry f) s = live s (expireQuiesce s f) := congrArg (live s) (withUnit_of hf s _)

theorem exec_fieldStopped (hf : f < 8) (s : State) :
    exec (.fieldStopped f) s = live s (completeStop s f) := congrArg (live s) (withUnit_of hf s _)

theorem exec_stopAckTimeout (hf : f < 8) (s : State) :
    exec (.stopAckTimeout f) s = live s (stopTimeout s f) := congrArg (live s) (withUnit_of hf s _)

theorem completeStop_of_acked {s : State} (h : s.fieldState f = fldStopping) (hu : s.unackedHoppers f = []) :
    completeStop s f = setFieldState s f fldStopped := if_pos ⟨h, by rw [hu]; rfl⟩

theorem completeStop_of_not {s : State} (h : ¬ (s.fieldState f = fldStopping ∧ s.unackedHoppers f = [])) :
    completeStop s f = s := if_neg fun ⟨hst, hu⟩ => h ⟨hst, List.isEmpty_iff.mp hu⟩

end

/-! Hoppers whose final stubble write is not acknowledged in time (R203). -/

/-- The entry of a hopper whose final write is not acknowledged. -/
abbrev noAckEvent (h : Nat) : Event := { code := 0x2208, cls := 2, inst := h }

/-- From s to t the listed hoppers are noted, each with its entry; the rest of the state stays. -/
structure NotesNoAck (hs : List Nat) (s t : State) : Prop where
  net : t.island.net = s.island.net ++ hs.map noAckEvent
  noAck : ∀ h ∈ hs, (t.hopper h).noAck = true
  frame : ∃ xs i, t = { s with hoppers := xs, island := i }

theorem noteNoAck_keeps {s : State} {h : Nat} (k : Nat) (hk : (s.hopper h).noAck = true) :
    ((noteNoAck s k).hopper h).noAck = true := by
  rw [noteNoAck, State.raise_hopper, State.hopper_setHopper]
  split
  · rfl
  · exact hk

theorem foldl_noteNoAck (hs : List Nat) (s : State) : NotesNoAck hs s (hs.foldl noteNoAck s) := by
  induction hs generalizing s with
  | nil => exact ⟨(List.append_nil _).symm, nofun, _, _, rfl⟩
  | cons h hs ih =>
    obtain ⟨hnet, hnote, xs, i, hframe⟩ := ih (noteNoAck s h)
    refine ⟨?_, fun k hk => ?_, xs, i, ?_⟩
    · exact hnet.trans (List.append_assoc _ [_] _)
    · rcases List.mem_cons.mp hk with rfl | hk
      · refine foldl_induct (P := fun u : State => (u.hopper k).noAck = true) hs ?_ fun u j _ hu => noteNoAck_keeps j hu
        rw [noteNoAck, State.raise_hopper, State.hopper_setHopper_self]
      · exact hnote k hk
    · rw [List.foldl_cons, hframe]
      rfl

/-! The timeout of a stopping Field (R200, R203). -/

theorem dropUnacked_frame (s : State) (f n : Nat) : ∃ r fs, dropUnacked s f n = { s with regs := r, furrows := fs } := by
  have hshow {u : State} (hu : ∃ r, u = { s with regs := r }) (x : Furrow) :
      ∃ r fs, showFence (u.setFurrow n x) n = { s with regs := r, furrows := fs } := by
    obtain ⟨r, rfl⟩ := hu
    exact ⟨_, _, OnlyRegs.refl.showFence⟩
  unfold dropUnacked
  dsimp only
  refine hshow ?_ _
  split
  · split
    · exact ⟨_, rfl⟩
    · exact ⟨_, rfl⟩
  · exact ⟨_, rfl⟩

theorem forUpTo_dropUnacked_frame (s : State) (f k : Nat) :
    ∃ r fs, forUpTo k (fun n s => dropUnacked s f n) s = { s with regs := r, furrows := fs } := by
  refine forUpTo_induct (P := fun u : State => ∃ r fs, u = { s with regs := r, furrows := fs }) ⟨_, _, rfl⟩ ?_
  rintro n _ - ⟨r, fs, rfl⟩
  obtain ⟨r', fs', h⟩ := dropUnacked_frame { s with regs := r, furrows := fs } f n
  exact ⟨r', fs', h⟩

/-- A stopping Field at its timeout: stopped, with each unacknowledged hopper noted. -/
theorem expireStop_stops (s : State) (f : Nat) : (expireStop s f).fieldState f = fldStopped ∧
    (expireStop s f).now = s.now ∧
      (expireStop s f).island.net = s.island.net ++ (s.unackedHoppers f).map noAckEvent ∧
      ∀ h ∈ s.unackedHoppers f, ((expireStop s f).hopper h).noAck = true := by
  obtain ⟨hnet, hnote, xs, i, hframe⟩ := foldl_noteNoAck (s.unackedHoppers f) s
  generalize hu : (s.unackedHoppers f).foldl noteNoAck s = u at hnet hnote hframe
  obtain ⟨r, fs, hdrop⟩ := forUpTo_dropUnacked_frame u f 64
  obtain ⟨p, o, hset⟩ := setFieldState_frame { u with regs := r, furrows := fs } f fldStopped
  refine ⟨setFieldState_shows _ f fldStopped, ?_⟩
  rw [expireStop, hu, hdrop, hset]
  refine ⟨?_, hnet, hnote⟩
  rw [hframe]
  rfl

/-- A run of the clock leaves the hoppers whose final write is not acknowledged. -/
theorem unackedHoppers_runUntil (s : State) (t f : Nat) : (runUntil s t).unackedHoppers f = s.unackedHoppers f := by
  rw [runUntil_eq]
  rfl

theorem owedHoppers_runUntil (s : State) (t f : Nat) : (runUntil s t).owedHoppers f = s.owedHoppers f := by
  rw [runUntil_eq]
  rfl

theorem runUntil_island (s : State) (t : Nat) : (runUntil s t).island = s.island := by
  rw [runUntil_eq]

section
variable {s : State} {f : Nat}

theorem stopTimeout_of_stopping (h : s.fieldState f = fldStopping) :
    stopTimeout s f = expireStop (runUntil s (s.stopDue f)) f := if_pos h

theorem stopTimeout_of_owed (h : s.fieldState f ≠ fldStopping) (ho : s.owedHoppers f ≠ []) :
    stopTimeout s f = expireOwed (runUntil s (s.stopDue f)) f := by
  rw [stopTimeout, if_neg h, if_neg (fun e => ho (List.isEmpty_iff.mp e))]

theorem stopTimeout_of_none (h : s.fieldState f ≠ fldStopping) (ho : s.owedHoppers f = []) : stopTimeout s f = s := by
  rw [stopTimeout, if_neg h, ho]
  rfl

end

/-! The timeout of writes that are owed since a stop from ready or quiesced (R203). -/

/-- A write of Field f that is owed its acknowledgement. -/
abbrev State.owes (s : State) (f : Nat) (u : Unacked) : Bool := u.owed && s.hopperIn f u.hopper

/-- The writes that Furrow n owes Field f are dropped. -/
def dropOwed (s : State) (f n : Nat) : State :=
  s.setFurrow n { s.furrow n with unacked := (s.furrow n).unacked.filter fun u => !s.owes f u }

theorem expireOwed_eq (s : State) (f : Nat) :
    expireOwed s f = forUpTo 64 (fun n s => dropOwed s f n) ((s.owedHoppers f).foldl noteNoAck s) := rfl

theorem forUpTo_dropOwed_frame (s : State) (f k : Nat) :
    ∃ fs, forUpTo k (fun n s => dropOwed s f n) s = { s with furrows := fs } := by
  refine forUpTo_induct (P := fun u : State => ∃ fs, u = { s with furrows := fs }) ⟨_, rfl⟩ ?_
  rintro n _ - ⟨fs, rfl⟩
  exact ⟨_, rfl⟩

/-- None of the first k Furrows owes the Field a write any more. -/
theorem forUpTo_dropOwed_clears {s : State} {f k n : Nat} (hn : n < k) :
    (((forUpTo k (fun n s => dropOwed s f n) s).furrow n).unacked.filter fun u => s.owes f u) = [] := by
  induction k with
  | zero => cases hn
  | succ k ih =>
    obtain ⟨fs, hframe⟩ := forUpTo_dropOwed_frame s f k
    rw [forUpTo_succ]
    by_cases h : n = k
    · subst h
      rw [dropOwed, State.furrow_setFurrow_self, hframe]
      refine List.filter_eq_nil_iff.mpr fun u hu => ?_
      obtain ⟨-, hno⟩ := List.mem_filter.mp hu
      exact Bool.eq_false_iff.mp (Bool.not_eq_true' _ ▸ hno)
    · rw [dropOwed, State.furrow_setFurrow_ne _ _ h]
      exact ih (by omega)

/-- Owed writes at their timeout: noted, and owed no longer. -/
theorem expireOwed_notes (s : State) (f : Nat) : (expireOwed s f).fieldState f = s.fieldState f ∧
    (expireOwed s f).now = s.now ∧ (expireOwed s f).owedHoppers f = [] ∧
      (expireOwed s f).island.net = s.island.net ++ (s.owedHoppers f).map noAckEvent ∧
      ∀ h ∈ s.owedHoppers f, ((expireOwed s f).hopper h).noAck = true := by
  obtain ⟨hnet, hnote, xs, i, hframe⟩ := foldl_noteNoAck (s.owedHoppers f) s
  rw [expireOwed_eq]
  generalize (s.owedHoppers f).foldl noteNoAck s = u at hnet hnote hframe
  obtain ⟨fs, hdrop⟩ := forUpTo_dropOwed_frame u f 64
  refine ⟨?_, ?_, ?_, ?_, ?_⟩
  · rw [hdrop, hframe]
    rfl
  · rw [hdrop, hframe]
    rfl
  · refine List.flatMap_eq_nil_iff.mpr fun n hn => List.map_eq_nil_iff.mpr ?_
    have hcleared := forUpTo_dropOwed_clears (s := u) (f := f) (List.mem_range.mp hn)
    rw [hdrop] at hcleared ⊢
    exact hcleared
  · rw [hdrop]
    exact hnet
  · rw [hdrop]
    exact hnote

section
variable {s : State} {f due : Nat}

/-- STOP_ACK_TIMEOUT of a stopping Field: the clock runs to the due tick. -/
theorem stopTimeout_stops (hdue : s.stopDue f = due) (h : s.fieldState f = fldStopping) :
    (stopTimeout s f).fieldState f = fldStopped ∧ (stopTimeout s f).now = (runUntil s due).now ∧
      (stopTimeout s f).island.net = s.island.net ++ (s.unackedHoppers f).map noAckEvent ∧
      ∀ h ∈ s.unackedHoppers f, ((stopTimeout s f).hopper h).noAck = true := by
  have hstops := expireStop_stops (runUntil s due) f
  rw [unackedHoppers_runUntil, runUntil_island] at hstops
  rwa [stopTimeout_of_stopping h, hdue]

/-- STOP_ACK_TIMEOUT of a Field that is owed writes. -/
theorem stopTimeout_notes (hdue : s.stopDue f = due) (h : s.fieldState f ≠ fldStopping) (ho : s.owedHoppers f ≠ []) :
    (stopTimeout s f).fieldState f = s.fieldState f ∧ (stopTimeout s f).now = (runUntil s due).now ∧
      (stopTimeout s f).owedHoppers f = [] ∧
      (stopTimeout s f).island.net = s.island.net ++ (s.owedHoppers f).map noAckEvent ∧
      ∀ h ∈ s.owedHoppers f, ((stopTimeout s f).hopper h).noAck = true := by
  obtain ⟨hstate, hnotes⟩ := expireOwed_notes (runUntil s due) f
  rw [owedHoppers_runUntil, runUntil_island] at hnotes
  rw [stopTimeout_of_owed h ho, hdue]
  exact ⟨hstate.trans (runUntil_bits _ _ _ _ _), hnotes⟩

end

end Sys2Proof.Machine
end

section
/-! Gleaning of a stopped Field (R203, R219, R220, R221, R222). -/

namespace Sys2Proof.Machine

/-! Numbers at the offsets of a record. -/

theorem leAt_leBytes (n v : Nat) (bs : List Byte) : leAt (leBytes n v ++ bs) 0 n = v % 256 ^ n := by
  rw [leAt, slice_zero, List.append_assoc, List.take_left' (length_leBytes n v), leNat_leBytes]

theorem leAt_leBytes_last (n v : Nat) : leAt (leBytes n v) 0 n = v % 256 ^ n := by
  rw [← List.append_nil (leBytes n v), leAt_leBytes]

theorem leAt_after_leBytes {n off : Nat} (h : n ≤ off) (v k : Nat) (bs : List Byte) :
    leAt (leBytes n v ++ bs) off k = leAt bs (off - n) k := by
  rw [leAt, leAt, slice, slice, List.drop_append, length_leBytes,
    List.drop_eq_nil_of_le (by rw [length_leBytes]; exact h), List.nil_append]

theorem leAt_lt (bs : List Byte) (off n : Nat) : leAt bs off n < 256 ^ n := by
  have h := leNat_lt (slice bs off n)
  rwa [length_slice] at h

/-! A report entry (R221). -/

/-- The flags of an entry (R203, R220, R221). -/
def gleanFlags (x : Hopper) (unreadable trimmed : Bool) : Nat :=
  bval unreadable + 2 * bval trimmed + 4 * bval x.noAck + 8 * bval x.wasParked

theorem bval_le_one (b : Bool) : bval b ≤ 1 := by cases b <;> decide

section
variable (x : Hopper) (unreadable trimmed : Bool)

theorem gleanFlags_low : gleanFlags x unreadable trimmed % 4 = bval unreadable + 2 * bval trimmed := by
  have hu := bval_le_one unreadable
  have ht := bval_le_one trimmed
  unfold gleanFlags
  omega

theorem gleanFlags_high : gleanFlags x unreadable trimmed / 4 = bval x.noAck + 2 * bval x.wasParked := by
  have hu := bval_le_one unreadable
  have ht := bval_le_one trimmed
  unfold gleanFlags
  omega

theorem gleanFlags_lt : gleanFlags x unreadable trimmed < 256 := by
  have hlow := gleanFlags_low x unreadable trimmed
  have hhigh := gleanFlags_high x unreadable trimmed
  have hn := bval_le_one x.noAck
  have hw := bval_le_one x.wasParked
  omega

end

/-- What an entry of 32 bytes reads, field by field. -/
structure EntryReads (e : List Byte) (h : Nat) (x : Hopper) (tag committed total fault state stubble : Nat)
    (unreadable trimmed : Bool) : Prop where
  length : e.length = 32
  hopper : leAt e 0 2 = h % 65536
  head : leAt e 2 2 = x.head % 65536
  tag : leAt e 4 4 = tag % 2 ^ 32
  committed : leAt e 8 2 = committed % 65536
  total : leAt e 10 2 = total % 65536
  fault : leAt e 12 2 = fault % 65536
  state : leAt e 14 1 = state % 256
  flags : leAt e 15 1 = gleanFlags x unreadable trimmed
  stubble : leAt e 16 8 = stubble % 2 ^ 40
  zero : leAt e 24 4 = 0
  crc : leAt e 28 4 = (crc32c (e.take 28)).toNat

theorem gleanEntry_reads (h : Nat) (x : Hopper) (tag committed total fault state stubble : Nat) (unreadable trimmed : Bool) :
    EntryReads (gleanEntry h x tag committed total fault state stubble unreadable trimmed) h x tag committed total fault state
      stubble unreadable trimmed := by
  have hflags := gleanFlags_lt x unreadable trimmed
  unfold gleanEntry
  rw [← gleanFlags]
  dsimp only
  generalize hb : leBytes 2 h ++ leBytes 2 x.head ++ leBytes 4 tag ++ leBytes 2 committed ++ leBytes 2 total ++ leBytes 2 fault ++
    leBytes 1 state ++ leBytes 1 (gleanFlags x unreadable trimmed) ++ leBytes 8 (stubble % 2 ^ 40) ++ leBytes 4 0 = b
  have hlen : b.length = 28 := by simp only [← hb, List.length_append, length_leBytes]
  have hcrc := (crc32c b).isLt
  have hread (off k : Nat) (rest : List Byte) : leAt (b ++ rest) off k = leAt (leBytes 2 h ++ (leBytes 2 x.head ++
      (leBytes 4 tag ++ (leBytes 2 committed ++ (leBytes 2 total ++ (leBytes 2 fault ++ (leBytes 1 state ++
      (leBytes 1 (gleanFlags x unreadable trimmed) ++ (leBytes 8 (stubble % 2 ^ 40) ++ (leBytes 4 0 ++ rest)))))))))) off k := by
    simp only [← hb, List.append_assoc]
  constructor
  case length => rw [List.length_append, length_leBytes, hlen]
  case crc =>
    rw [List.take_left' hlen, hread]
    simp only [leAt_after_leBytes, leAt_leBytes_last, Nat.reduceLeDiff, Nat.reduceSub]
    exact Nat.mod_eq_of_lt hcrc
  case stubble =>
    rw [hread]
    simp only [leAt_after_leBytes, leAt_leBytes, Nat.reduceLeDiff, Nat.reduceSub]
    omega
  case flags =>
    rw [hread]
    simp only [leAt_after_leBytes, leAt_leBytes, Nat.reduceLeDiff, Nat.reduceSub]
    omega
  all_goals
    rw [hread]
    simp only [leAt_after_leBytes, leAt_leBytes, Nat.reduceLeDiff, Nat.reduceSub, Nat.le_refl, Nat.sub_self, Nat.reducePow,
      Nat.zero_mod]

/-! One hopper's entry (R220). -/

/-- The descriptor at the head of a hopper. -/
abbrev State.headDesc (s : State) (h : Nat) : Desc := s.descAt (s.hopper h).headSlot

/-- The descriptor at a hopper's head cannot be read: poisoned, or its CRC fails. -/
abbrev State.headLost (s : State) (h : Nat) : Prop :=
  s.poisoned (s.hopper h).headSlot 64 = true ∨ (s.headDesc h).crcOk = false

/-- The first half of the stubble granule of the task at a hopper's head: its stubble word. -/
abbrev State.headStubble (s : State) (h : Nat) : List Byte := s.view (s.headDesc h).stubbleAddr 16

/-- The stubble word of the task at a hopper's head cannot be read. -/
abbrev State.stubbleLost (s : State) (h : Nat) : Prop :=
  s.poisoned (s.headDesc h).stubbleAddr 32 = true ∨ stubbleReadable (s.headStubble h) (s.headDesc h) = false ∨
    (s.extentRegion (s.headDesc h).stubbleAddr 32).isNone = true

/-- The leading tiles of the task at a hopper's head whose stored copies match. -/
abbrev State.headGood (s : State) (h : Nat) : Nat :=
  goodTiles s (s.headDesc h) ((tileExtents s (s.hopper h).furrow (s.headDesc h)).getD []) (leAt (s.headStubble h) 4 2)

/-- The entry of a task whose descriptor can be read. -/
abbrev State.taskEntry (s : State) (h committed : Nat) (unreadable trimmed : Bool) : List Byte :=
  gleanEntry h (s.hopper h) (s.headDesc h).tag committed (s.headDesc h).tiles (leAt (s.headStubble h) 8 2)
    (leAt (s.headStubble h) 10 1 % 8) (s.headDesc h).stubbleAddr unreadable trimmed

section
variable {s : State} {h : Nat}

theorem gleanHopper_of_lost (hl : s.headLost h) : gleanHopper s h =
    (gleanEntry h (s.hopper h) 0 0 0 0 0 0 true false, false, [((s.hopper h).headSlot, 64)]) :=
  if_pos (by rcases hl with e | e <;> simp [e])

theorem gleanHopper_of_unreadable (hl : ¬ s.headLost h) (hu : s.stubbleLost h) : gleanHopper s h =
    (s.taskEntry h 0 true false, false, [((s.hopper h).headSlot, 64), ((s.headDesc h).stubbleAddr, 32)]) := by
  have hhead : ¬ (s.poisoned (s.hopper h).headSlot 64 || !(s.headDesc h).crcOk) = true := by
    simpa only [Bool.or_eq_true, Bool.not_eq_true'] using hl
  refine (if_neg hhead).trans (if_pos ?_)
  rcases hu with e | e | e <;> simp [e]

/-- The count of a stubble word that can be read is trimmed to the leading good tiles. -/
theorem gleanHopper_of_readable (hl : ¬ s.headLost h) (hu : ¬ s.stubbleLost h) : ∃ reads, gleanHopper s h =
    (s.taskEntry h (s.headGood h) false (decide (s.headGood h < leAt (s.headStubble h) 4 2)),
      decide (s.headGood h < leAt (s.headStubble h) 4 2), reads) := by
  have hhead : ¬ (s.poisoned (s.hopper h).headSlot 64 || !(s.headDesc h).crcOk) = true := by
    simpa only [Bool.or_eq_true, Bool.not_eq_true'] using hl
  have hstubble : ¬ (s.poisoned (s.headDesc h).stubbleAddr 32 || !stubbleReadable (s.headStubble h) (s.headDesc h) ||
      (s.extentRegion (s.headDesc h).stubbleAddr 32).isNone) = true := by
    simpa only [Bool.or_eq_true, Bool.not_eq_true', or_assoc] using hu
  exact ⟨_, (if_neg hhead).trans (if_neg hstubble)⟩

theorem goodTiles_le (s : State) (d : Desc) (xs : List (List Extent)) (c : Nat) : goodTiles s d xs c ≤ c := by
  refine (List.takeWhile_prefix _).length_le.trans ?_
  rw [List.length_zipIdx, List.length_take]
  exact Nat.min_le_left _ _

/-- Whatever can be read, the entry is a record of the hopper and its head (R221). -/
theorem gleanHopper_reads (s : State) (h : Nat) : ∃ tag committed total fault state stubble unreadable trimmed,
    EntryReads (gleanHopper s h).1 h (s.hopper h) tag committed total fault state stubble unreadable trimmed := by
  by_cases hl : s.headLost h
  · rw [gleanHopper_of_lost hl]
    exact ⟨_, _, _, _, _, _, _, _, gleanEntry_reads _ _ _ _ _ _ _ _ _ _⟩
  · by_cases hu : s.stubbleLost h
    · rw [gleanHopper_of_unreadable hl hu]
      exact ⟨_, _, _, _, _, _, _, _, gleanEntry_reads _ _ _ _ _ _ _ _ _ _⟩
    · obtain ⟨reads, e⟩ := gleanHopper_of_readable hl hu
      rw [e]
      exact ⟨_, _, _, _, _, _, _, _, gleanEntry_reads _ _ _ _ _ _ _ _ _ _⟩

theorem length_gleanHopper (s : State) (h : Nat) : (gleanHopper s h).1.length = 32 := by
  obtain ⟨_, _, _, _, _, _, _, _, he⟩ := gleanHopper_reads s h
  exact he.length

end

/-! Writing the entries (R219). -/

/-- From s to t the registers of the Fields, the running tasks and the hoppers stay, and events are only added. -/
structure Gleans (s t : State) : Prop where
  stays : FieldsStay s t
  hoppers : t.hoppers = s.hoppers

section
variable {s t u : State}

theorem Gleans.refl : Gleans s s := ⟨FieldsStay.refl, rfl⟩

theorem Gleans.accessed (h : Gleans s t) (ha : Accessed t u) : Gleans s u :=
  ⟨h.stays.accessed ha, ha.hoppers.trans h.hoppers⟩

theorem Gleans.raise {e : Event} (h : Gleans s t) : Gleans s (t.raise e) := ⟨h.stays.raise, h.hoppers⟩

theorem Gleans.setReg {a : Nat} {v : Word} (h : Gleans s t) (ha : ¬ FieldReg a) : Gleans s (t.setReg a v) :=
  ⟨h.stays.setReg ha, h.hoppers⟩

theorem Gleans.reeveBusError {a : Nat} (h : Gleans s t) : Gleans s (reeveBusError t a) := by
  have hout {b : Nat} (hb : 0x5000000000 ≤ b) : ¬ FieldReg b := fun ⟨_, hi⟩ => by unfold Reg.fldCtrl at hi; omega
  have herr : ¬ FieldReg Reg.reeveBuserr := hout (by decide)
  have hlo : ¬ FieldReg Reg.reeveBuserrAddrLo := hout (by decide)
  have hhi : ¬ FieldReg Reg.reeveBuserrAddrHi := hout (by decide)
  exact (((h.setReg herr).setReg hlo).setReg hhi).raise

theorem Gleans.reeveRead {a n : Nat} (h : Gleans s t) : Gleans s (reeveRead t a n) := by
  have hread := h.accessed (Accessed.refl.noteRead (a := a) (n := n))
  unfold Machine.reeveRead
  dsimp only
  split
  · exact hread.reeveBusError
  · exact hread

theorem reeveRead_mem (s : State) (a n : Nat) : (reeveRead s a n).mem = s.mem := by
  unfold reeveRead
  dsimp only
  split
  · rw [reeveBusError, State.raise_mem, State.setReg64_mem, State.setBit_mem, noteRead_mem]
  · exact noteRead_mem s a n

end

/-- The Reeve's reads for one hopper's entry. -/
def gleanReads (s : State) (h : Nat) : State := (gleanHopper s h).2.2.foldl (fun s (a, n) => reeveRead s a n) s

/-- One hopper's entry, written as the i-th from address a, with its event where its count is trimmed. -/
def gleanInto (f a : Nat) (s : State) (x : Nat × Nat) : State :=
  ((gleanReads s x.1).store (a + 32 * x.2) (gleanHopper s x.1).1).raiseIf (gleanHopper s x.1).2.1
    { code := 0x2209, cls := 2, inst := f }

section
variable {f a : Nat} {s t : State}

theorem gleanReads_mem (s : State) (h : Nat) : (gleanReads s h).mem = s.mem :=
  foldl_induct (P := fun t : State => t.mem = s.mem) _ rfl fun u _ _ hu => (reeveRead_mem u _ _).trans hu

theorem gleanInto_gleans (f a : Nat) (s : State) (x : Nat × Nat) : Gleans s (gleanInto f a s x) := by
  have hreads : Gleans s (gleanReads s x.1) :=
    foldl_induct (P := Gleans s) _ Gleans.refl fun _ _ _ h => h.reeveRead
  have hstored := hreads.accessed (Accessed.refl.store (a := a + 32 * x.2) (bs := (gleanHopper s x.1).1) (poison := false))
  unfold gleanInto State.raiseIf
  split
  · exact hstored.raise
  · exact hstored

theorem gleanInto_trimmed {x : Nat × Nat} (h : (gleanHopper s x.1).2.1 = true) :
    { code := 0x2209, cls := 2, inst := f } ∈ (gleanInto f a s x).island.net := by
  rw [gleanInto, h, raiseIf_true, State.raise_net]
  exact List.mem_append_right _ List.mem_cons_self

/-- One entry is written where it belongs, and no other byte changes (R219). -/
theorem gleanInto_byte (f : Nat) {i : Nat} (s : State) (h : Nat) (hr : a + 32 * (i + 1) ≤ 0x2000000000) (y : Nat) :
    (gleanInto f a s (h, i)).byte y =
      if a + 32 * i ≤ y ∧ y < a + 32 * i + 32 then ((gleanHopper s h).1[y - (a + 32 * i)]?).getD 0 else s.byte y := by
  have hstore := byte_store (gleanReads s h) (a + 32 * i) y (gleanHopper s h).1 false fun hge _ => by omega
  have hreads : (gleanReads s h).byte y = s.byte y := congrArg (mapGet 0 · y) (gleanReads_mem s h)
  have hraise : (gleanInto f a s (h, i)).byte y = ((gleanReads s h).store (a + 32 * i) (gleanHopper s h).1).byte y := by
    unfold gleanInto State.raiseIf
    split <;> rfl
  rw [hraise, hstore, length_gleanHopper, hreads]

theorem foldl_gleanInto_gleans (f a : Nat) (s : State) (xs : List (Nat × Nat)) :
    Gleans s (xs.foldl (gleanInto f a) s) :=
  foldl_induct (P := Gleans s) xs Gleans.refl fun u x _ h =>
    have hx := gleanInto_gleans f a u x
    ⟨⟨fun b hb => (hx.stays.regs b hb).trans (h.stays.regs b hb), fun m => (hx.stays.task m).trans (h.stays.task m),
      h.stays.net.trans hx.stays.net⟩, hx.hoppers.trans h.hoppers⟩

/-- The entries from the k-th on are written where they belong, and no other byte changes. -/
theorem foldl_gleanInto_byte (f : Nat) (hs : List Nat) {k : Nat} (s : State) (hr : a + 32 * (k + hs.length) ≤ 0x2000000000)
    {y : Nat} (hy : ¬ (a + 32 * k ≤ y ∧ y < a + 32 * (k + hs.length))) :
    ((hs.zipIdx k).foldl (gleanInto f a) s).byte y = s.byte y := by
  induction hs generalizing s k with
  | nil => rfl
  | cons h hs ih =>
    rw [List.length_cons] at hr hy
    rw [List.zipIdx_cons, List.foldl_cons, ih _ (by omega) (by omega), gleanInto_byte f s h (by omega), if_neg (by omega)]

/-- Each entry is that of its hopper as its writing finds it, the first one's as s is. -/
theorem foldl_gleanInto_entry (f : Nat) (hs : List Nat) {k i h : Nat} (s : State)
    (hr : a + 32 * (k + hs.length) ≤ 0x2000000000) (hi : hs[i]? = some h) :
    ∃ u, u.hoppers = s.hoppers ∧ (i = 0 → u = s) ∧
      ((hs.zipIdx k).foldl (gleanInto f a) s).bytes (a + 32 * (k + i)) 32 = (gleanHopper u h).1 := by
  induction hs generalizing s k i with
  | nil => cases hi
  | cons g hs ih =>
    rw [List.length_cons] at hr
    rw [List.zipIdx_cons, List.foldl_cons]
    cases i with
    | zero =>
      cases hi
      refine ⟨s, rfl, fun _ => rfl, ?_⟩
      have hentry := bytes_of_written (t := (hs.zipIdx (k + 1)).foldl (gleanInto f a) (gleanInto f a s (h, k)))
        (a := a + 32 * (k + 0)) (bs := (gleanHopper s h).1) fun j hj => by
          rw [length_gleanHopper] at hj
          rw [foldl_gleanInto_byte f hs _ (by omega) (by omega), gleanInto_byte f s h (by omega), if_pos (by omega)]
          congr 2
          omega
      rwa [length_gleanHopper] at hentry
    | succ i =>
      obtain ⟨u, hu, -, hentry⟩ := ih (k := k + 1) (i := i) (gleanInto f a s (g, k)) (by omega) hi
      refine ⟨u, hu.trans (gleanInto_gleans f a s (g, k)).hoppers, nofun, ?_⟩
      rwa [show k + (i + 1) = k + 1 + i by omega]

end

/-! The report (R219, R221). -/

/-- The hoppers of a Field with a task in flight. -/
abbrev State.gleanedHoppers (s : State) (f : Nat) : List Nat := (s.hoppersOf f).filter fun h => (s.hopper h).inflight

/-- The address of a Field's report. -/
abbrev State.gleanAddr (s : State) (f : Nat) : Nat := s.reg64 (Reg.fldGleanAddrLo f) (Reg.fldGleanAddrHi f)

/-- The state once the entries of a Field's report are written. -/
def gleanWritten (s : State) (f : Nat) : State := (s.gleanedHoppers f).zipIdx.foldl (gleanInto f (s.gleanAddr f)) s

/-- The state in which a report of n entries is shown. -/
def gleanShown (s : State) (f n : Nat) : State :=
  ((s.setBits (Reg.fldGleanCount f) 15 0 n).setBit (Reg.fldStatus f) 7 true).setField f { s.field f with gleanFailed := false }

section
variable {s : State} {f : Nat}

theorem exec_gleaning (hf : f < 8) (s : State) : exec (.gleaning f) s = live s (glean s f) :=
  congrArg (live s) (withUnit_of hf s _)

theorem glean_of_not_due (h : s.fieldState f ≠ fldStopped ∨ s.bit (Reg.fldStatus f) 7 = true) : glean s f = s := if_pos h

theorem not_gleaned_of_stopped (h : s.fieldState f = fldStopped) (hg : s.bit (Reg.fldStatus f) 7 = false) :
    ¬ (s.fieldState f ≠ fldStopped ∨ s.bit (Reg.fldStatus f) 7 = true) := by
  rintro (e | e)
  · exact e h
  · rw [hg] at e
    cases e

theorem glean_of_no_room (h : s.fieldState f = fldStopped) (hg : s.bit (Reg.fldStatus f) 7 = false)
    (hr : ¬ (s.gleanAddr f % 32 = 0 ∧ s.inFieldDram f (s.gleanAddr f) (32 * (s.gleanedHoppers f).length) = true)) :
    glean s f = (s.raiseIf (!(s.field f).gleanFailed) { code := 0x220B, cls := 2, inst := f }).setField f
      { s.field f with gleanFailed := true } := by
  have hfield : (s.raiseIf (!(s.field f).gleanFailed) { code := 0x220B, cls := 2, inst := f }).field f = s.field f := by
    unfold State.raiseIf
    split <;> rfl
  refine ((if_neg (not_gleaned_of_stopped h hg)).trans (if_pos ?_)).trans ?_
  · by_cases ha : s.gleanAddr f % 32 = 0
    · exact .inr (Bool.not_eq_true' _ ▸ Bool.eq_false_iff.mpr fun hd => hr ⟨ha, hd⟩)
    · exact .inl ha
  · dsimp only
    rw [hfield]

theorem glean_of_room (h : s.fieldState f = fldStopped) (hg : s.bit (Reg.fldStatus f) 7 = false)
    (ha : s.gleanAddr f % 32 = 0) (hd : s.inFieldDram f (s.gleanAddr f) (32 * (s.gleanedHoppers f).length) = true) :
    ∃ p o, glean s f = { gleanShown (gleanWritten s f) f (s.gleanedHoppers f).length with pcie := p, outbox := o } := by
  obtain ⟨p, o, hn⟩ := notify_frame (gleanShown (gleanWritten s f) f (s.gleanedHoppers f).length) (f + 1) 1
  obtain ⟨p', o', hn'⟩ :=
    notify_frame ((gleanShown (gleanWritten s f) f (s.gleanedHoppers f).length).notify (f + 1) 1) 0 1
  refine ⟨p', o', ((if_neg (not_gleaned_of_stopped h hg)).trans (if_neg ?_)).trans (hn'.trans (by rw [hn]))⟩
  rintro (e | e)
  · exact e ha
  · rw [hd] at e
    cases e

theorem gleanShown_shows (s : State) (f n : Nat) : (gleanShown s f n).bits (Reg.fldGleanCount f) 15 0 = n % 65536 ∧
    (gleanShown s f n).bit (Reg.fldStatus f) 7 = true ∧ ((gleanShown s f n).field f).gleanFailed = false := by
  have hne : Reg.fldGleanCount f ≠ Reg.fldStatus f := by unfold Reg.fldGleanCount Reg.fldStatus; omega
  refine ⟨?_, ?_, by rw [gleanShown, State.field_setField_self]⟩
  · rw [gleanShown, State.setField_bits, State.bits_setBit_of_disjoint _ _ _ _ (by decide) (.inl hne)]
    exact State.bits_setBits_self _ _ _ _ (by decide)
  · rw [gleanShown, State.setField_bit]
    exact State.bit_setBit_self _ _ _ (by decide)

end

end Sys2Proof.Machine
end

section
/-! The report of a gleaning, and O23 (R200 to R203, R219 to R222). -/

namespace Sys2Proof.Machine

section
variable {s : State} {h : Nat}

/-- The entry of a task whose descriptor can be read, whatever becomes of its count. -/
theorem taskEntry_reads (s : State) (h committed : Nat) (unreadable trimmed : Bool) :
    EntryReads (s.taskEntry h committed unreadable trimmed) h (s.hopper h) (s.headDesc h).tag committed (s.headDesc h).tiles
      (leAt (s.headStubble h) 8 2) (leAt (s.headStubble h) 10 1 % 8) (s.headDesc h).stubbleAddr unreadable trimmed :=
  gleanEntry_reads _ _ _ _ _ _ _ _ _ _

theorem gleanHopper_lost_reads (hl : s.headLost h) : let e := (gleanHopper s h).1
    leAt e 4 4 = 0 ∧ leAt e 8 2 = 0 ∧ leAt e 15 1 % 4 = 1 := by
  have he := gleanEntry_reads h (s.hopper h) 0 0 0 0 0 0 true false
  rw [gleanHopper_of_lost hl]
  exact ⟨he.tag, he.committed, he.flags ▸ gleanFlags_low _ _ _⟩

/-- What an entry shows of the task comes from its descriptor and its stubble word (R220). -/
theorem gleanHopper_task_reads (hl : ¬ s.headLost h) : let e := (gleanHopper s h).1
    leAt e 4 4 = (s.headDesc h).tag % 2 ^ 32 ∧ leAt e 10 2 = (s.headDesc h).tiles % 65536 ∧
      leAt e 12 2 = leAt (s.headStubble h) 8 2 ∧ leAt e 14 1 = leAt (s.headStubble h) 10 1 % 8 ∧
      leAt e 16 8 = (s.headDesc h).stubbleAddr % 2 ^ 40 := by
  obtain ⟨committed, unreadable, trimmed, reads, hentry⟩ : ∃ committed unreadable trimmed reads,
      gleanHopper s h = (s.taskEntry h committed unreadable trimmed, reads) := by
    by_cases hu : s.stubbleLost h
    · exact ⟨_, _, _, _, gleanHopper_of_unreadable hl hu⟩
    · obtain ⟨reads, e⟩ := gleanHopper_of_readable hl hu
      exact ⟨_, _, _, _, e⟩
  have he := taskEntry_reads s h committed unreadable trimmed
  have hfault := leAt_lt (s.headStubble h) 8 2
  rw [hentry]
  exact ⟨he.tag, he.total, he.fault.trans (Nat.mod_eq_of_lt hfault), he.state.trans (Nat.mod_eq_of_lt (by omega)),
    he.stubble⟩

theorem gleanHopper_unreadable_reads (hl : ¬ s.headLost h) (hu : s.stubbleLost h) : let e := (gleanHopper s h).1
    leAt e 8 2 = 0 ∧ leAt e 15 1 % 4 = 1 := by
  have he := taskEntry_reads s h 0 true false
  rw [gleanHopper_of_unreadable hl hu]
  exact ⟨he.committed, he.flags ▸ gleanFlags_low _ _ _⟩

theorem gleanHopper_readable_reads (hl : ¬ s.headLost h) (hu : ¬ s.stubbleLost h) : let e := (gleanHopper s h).1
    leAt e 8 2 = s.headGood h ∧
      leAt e 15 1 % 4 = 2 * bval (decide (s.headGood h < leAt (s.headStubble h) 4 2)) ∧
      (s.headGood h < leAt (s.headStubble h) 4 2 → (gleanHopper s h).2.1 = true) := by
  obtain ⟨reads, e⟩ := gleanHopper_of_readable hl hu
  have he := taskEntry_reads s h (s.headGood h) false (decide (s.headGood h < leAt (s.headStubble h) 4 2))
  have hgood : s.headGood h ≤ leAt (s.headStubble h) 4 2 := goodTiles_le _ _ _ _
  have hcount := leAt_lt (s.headStubble h) 4 2
  rw [e]
  dsimp only
  refine ⟨he.committed.trans (Nat.mod_eq_of_lt (by omega)), ?_, fun hlt => decide_eq_true hlt⟩
  rw [he.flags, gleanFlags_low]
  exact Nat.zero_add _

end

/-! The report as its Field leaves it. -/

section
variable {s : State} {f : Nat}

/-- The report's bytes and the events of the gleaning reach the state that the Field shows. -/
theorem gleanShown_frame (s : State) (f n : Nat) : ∃ r fs, gleanShown s f n = { s with regs := r, fields := fs } := by
  have hregs : OnlyRegs s ((s.setBits (Reg.fldGleanCount f) 15 0 n).setBit (Reg.fldStatus f) 7 true) :=
    OnlyRegs.refl.setBits.setBit
  rw [gleanShown, hregs]
  exact ⟨_, _, rfl⟩

/-- The report: one entry for each hopper with a task in flight, and no other byte (R219, R221). -/
theorem gleanWritten_report (hr : s.gleanAddr f + 32 * (s.gleanedHoppers f).length ≤ 0x2000000000) :
    SameBytesOutside (s.gleanAddr f) (32 * (s.gleanedHoppers f).length) s (gleanWritten s f) ∧
      ∀ i h, (s.gleanedHoppers f)[i]? = some h → ∃ u, u.hoppers = s.hoppers ∧ (i = 0 → u = s) ∧
        (gleanWritten s f).bytes (s.gleanAddr f + 32 * i) 32 = (gleanHopper u h).1 := by
  refine ⟨fun y hy => foldl_gleanInto_byte f _ (k := 0) (y := y) s (by omega) (by omega), fun i h hi => ?_⟩
  obtain ⟨u, hu, hfirst, hentry⟩ := foldl_gleanInto_entry (a := s.gleanAddr f) f _ (k := 0) s (by omega) hi
  rw [Nat.zero_add] at hentry
  exact ⟨u, hu, hfirst, hentry⟩

/-- The first entry's event is raised where its count is trimmed (R220). -/
theorem gleanWritten_trimmed {h : Nat} (hh : (s.gleanedHoppers f).head? = some h) (ht : (gleanHopper s h).2.1 = true) :
    { code := 0x2209, cls := 2, inst := f } ∈ (gleanWritten s f).island.net := by
  obtain ⟨hs, e⟩ := List.head?_eq_some_iff.mp hh
  rw [gleanWritten, e, List.zipIdx_cons, List.foldl_cons]
  exact (foldl_gleanInto_gleans f _ _ _).stays.net.mem (gleanInto_trimmed (x := (h, 0)) ht)

/-- What every entry of the report holds (R203, R221). -/
theorem entry_reads {u : State} {e : List Byte} {h : Nat} (hu : u.hoppers = s.hoppers) (he : e = (gleanHopper u h).1) :
    leAt e 0 2 = h % 65536 ∧ leAt e 2 2 = (s.hopper h).head % 65536 ∧ leAt e 24 4 = 0 ∧
      leAt e 28 4 = (crc32c (e.take 28)).toNat ∧
      leAt e 15 1 / 4 = bval (s.hopper h).noAck + 2 * bval (s.hopper h).wasParked := by
  obtain ⟨tag, committed, total, fault, state, stubble, unreadable, trimmed, hreads⟩ := gleanHopper_reads u h
  have hsame : u.hopper h = s.hopper h := by rw [State.hopper, hu, State.hopper]
  rw [hsame] at hreads
  rw [he]
  exact ⟨hreads.hopper, hreads.head, hreads.zero, hreads.crc, hreads.flags ▸ gleanFlags_high _ _ _⟩

end

end Sys2Proof.Machine

section
open Sys2Proof Sys2Proof.Machine

/-- Settles O23: the events by the row of R200's table that the Field's state selects, the report entry by entry, each written
where no later one reaches. -/
theorem fieldEventsAndGleaningFollowTheTable : Obligations.FieldEventsAndGleaningFollowTheTable := by
  refine ⟨?_, ?_⟩
  · intro s f hheld hf st due noAck
    refine ⟨fun h hi => ?_, fun h => ?_, fun h hl => ?_, fun h => ?_, fun h hu => ?_, fun h => ?_, fun h => ?_, fun h ho => ?_,
      fun h ho => ?_⟩
    · have hx : completeQuiesce s f = setFieldState s f fldQuiesced := if_pos ⟨h, hi⟩
      exact yields_of_eq (exec_quiesceComplete hf s) hheld hx
        ⟨setFieldState_shows s f _, setFieldState_sameRegs s f _, setFieldState_hoppers s f _, setFieldState_furrows s f _⟩
    · exact answers_of_eq (exec_quiesceComplete hf s) hheld (if_neg h)
    · have hx : expireQuiesce s f = stopField (s.raise { code := 0x2205, cls := 3, inst := f }) f 0x2205 := if_pos ⟨h, hl⟩
      obtain ⟨hstate, hcode, -, hnet⟩ := stopField_after_raise { code := 0x2205, cls := 3, inst := f } (code := 0x2205) hf
        (by decide) (.inr h)
      exact yields_of_eq (exec_quiesceLimitExpiry hf s) hheld hx ⟨hstate, hcode, hnet⟩
    · exact answers_of_eq (exec_quiesceLimitExpiry hf s) hheld (if_neg h)
    · exact yields_of_eq (exec_fieldStopped hf s) hheld (completeStop_of_acked h hu)
        ⟨setFieldState_shows s f _, setFieldState_sameRegs s f _, setFieldState_hoppers s f _, setFieldState_furrows s f _⟩
    · exact answers_of_eq (exec_fieldStopped hf s) hheld (completeStop_of_not h)
    · exact yields_of_live (exec_stopAckTimeout hf s) hheld (stopTimeout_stops rfl h)
    · exact yields_of_live (exec_stopAckTimeout hf s) hheld (stopTimeout_notes rfl h ho)
    · exact answers_of_eq (exec_stopAckTimeout hf s) hheld (stopTimeout_of_none h ho)
  · intro s f hheld hf hs a room
    refine ⟨fun h => ?_, fun h hg => ⟨fun hr => ?_, fun hr => ?_⟩⟩
    · exact answers_of_eq (exec_gleaning hf s) hheld (glean_of_not_due h)
    · exact answers_of_eq (exec_gleaning hf s) hheld (glean_of_no_room h hg hr)
    · obtain ⟨p, o, hx⟩ := glean_of_room h hg hr.1 hr.2
      obtain ⟨hcount, hgleaned, hfailed⟩ := gleanShown_shows (gleanWritten s f) f (s.gleanedHoppers f).length
      obtain ⟨r, fs, hframe⟩ := gleanShown_frame (gleanWritten s f) f (s.gleanedHoppers f).length
      rw [hframe] at hx hcount hgleaned hfailed
      refine yields_of_eq (exec_gleaning hf s) hheld hx
        ⟨hcount, hgleaned, hfailed, fun hlim => ?_⟩
      obtain ⟨hsame, hentry⟩ := gleanWritten_report hlim
      refine ⟨hsame, fun i h hi => ?_, fun h hh => ?_⟩
      · obtain ⟨u, hu, -, he⟩ := hentry i h hi
        exact entry_reads hu he
      · obtain ⟨u, -, hfirst, he⟩ := hentry 0 h (List.head?_eq_getElem? ▸ hh)
        rw [hfirst rfl] at he
        intro x d w lost unreadable good e
        have he : e = (gleanHopper s h).1 := he
        rw [he]
        refine ⟨gleanHopper_lost_reads, gleanHopper_task_reads, gleanHopper_unreadable_reads, fun hl hu => ?_⟩
        obtain ⟨hgood, hflags, htrim⟩ := gleanHopper_readable_reads hl hu
        exact ⟨hgood, hflags, fun hlt => gleanWritten_trimmed hh (htrim hlt)⟩

end
end

section
/-! The Trace chain's sends, pops and links, and the reports that a peer be fenced (R241, R452, R455, R457, R458). -/

namespace Sys2Proof.Machine

/-! Sending (R455, R458). -/

/-- What a link puts out of a frame: the frame, if the link is up (R455). -/
def State.onLink (s : State) (up : Bool) (bytes : List Byte) : List Output :=
  if s.bit Reg.reeveChain (if up then 27 else 26) then [.chainFrame up bytes] else []

theorem chainOn_outbox (s : State) (up : Bool) (b : List Byte) :
    chainOn s up b = { s with outbox := s.outbox ++ s.onLink up b } := by
  by_cases h : s.bit Reg.reeveChain (if up then 27 else 26) = true
  · rw [chainOn, if_pos h, State.onLink, if_pos h]
    rfl
  · rw [chainOn, if_neg h, State.onLink, if_neg h, List.append_nil]

section
variable {s : State} {dst : Nat}

theorem chainUnicast_self {kind : Nat} {p : List Byte} (ha : s.addressed = true) (hd : dst = s.chipId) :
    chainUnicast s kind dst p = s := (if_neg (by rw [ha]; decide)).trans (if_pos hd)

/-- Lower addresses lie upstream (R455). -/
theorem chainUnicast_towards {kind : Nat} {p : List Byte} (ha : s.addressed = true) (hd : dst ≠ s.chipId) :
    chainUnicast s kind dst p = chainOn s (dst < s.chipId) (chainBytes kind s.chainSrc dst p) :=
  (if_neg (by rw [ha]; decide)).trans (if_neg hd)

theorem chainUnicast_unaddressed {kind : Nat} {p : List Byte} (ha : s.addressed = false) : chainUnicast s kind dst p =
    chainOn (chainOn s true (chainBytes kind s.chainSrc dst p)) false (chainBytes kind s.chainSrc dst p) :=
  if_pos (by rw [ha]; rfl)

/-- The state that a send leaves: what the links put out has left, and the sender is busy for the frame's time (R455). -/
def State.sends (s : State) (out : List Output) : State :=
  { s with chain := { s.chain with busyUntil := s.now + mgmtFrameTicks }, outbox := s.outbox ++ out }

/-- The MGMT frame that carries REEVE_CHAIN_TX (R453, R458). -/
abbrev State.mgmtFrame (s : State) (dst : Nat) : List Byte := chainBytes 9 s.chainSrc dst (s.bytes chainTxBase 64)

theorem sends_chipId (s : State) (out : List Output) : (s.sends out).chipId = s.chipId := rfl

theorem sends_nil (s : State) : { s with chain := { s.chain with busyUntil := s.now + mgmtFrameTicks } } = s.sends [] := by
  rw [State.sends, List.append_nil]

theorem exec_chainSend (hd : dst < 16) (s : State) (all : Bool) :
    exec (.chainSend all dst) s = live s (sendMgmt s all dst) := congrArg (live s) (withUnit_of hd s _)

theorem sendMgmt_of_busy {all : Bool} (hb : s.sendBusy = true) : sendMgmt s all dst = s := if_pos hb

theorem sendMgmt_of_idle {all : Bool} (hb : s.sendBusy = false) : sendMgmt s all dst =
    if all then chainBroadcast (s.sends []) 0x09 (s.bytes chainTxBase 64)
    else chainUnicast (s.sends []) 0x09 dst (s.bytes chainTxBase 64) := by
  rw [← sends_nil]
  exact if_neg (Bool.eq_false_iff.mp hb)

theorem chainOn_sends (s : State) (out : List Output) (up : Bool) (b : List Byte) :
    chainOn (s.sends out) up b = s.sends (out ++ s.onLink up b) := by
  rw [chainOn_outbox, State.sends, State.sends, ← List.append_assoc]
  rfl

theorem sendMgmt_broadcast (hb : s.sendBusy = false) :
    sendMgmt s true dst = s.sends (s.onLink true (s.mgmtFrame 16) ++ s.onLink false (s.mgmtFrame 16)) := by
  rw [sendMgmt_of_idle hb, if_pos rfl, chainBroadcast]
  simp only [chainOn_sends, List.nil_append]
  rfl

theorem sendMgmt_towards (hb : s.sendBusy = false) (ha : s.addressed = true) (hd : dst ≠ s.chipId) :
    sendMgmt s false dst = s.sends (s.onLink (dst < s.chipId) (s.mgmtFrame dst)) := by
  rw [sendMgmt_of_idle hb, if_neg (by decide), chainUnicast_towards (s := s.sends []) ha hd, chainOn_sends, sends_chipId]
  rfl

theorem sendMgmt_self (hb : s.sendBusy = false) (ha : s.addressed = true) (hd : dst = s.chipId) :
    sendMgmt s false dst = s.sends [] := by
  rw [sendMgmt_of_idle hb, if_neg (by decide), chainUnicast_self (s := s.sends []) ha hd]

theorem sendMgmt_unaddressed (hb : s.sendBusy = false) (ha : s.addressed = false) :
    sendMgmt s false dst = s.sends (s.onLink true (s.mgmtFrame dst) ++ s.onLink false (s.mgmtFrame dst)) := by
  rw [sendMgmt_of_idle hb, if_neg (by decide), chainUnicast_unaddressed (s := s.sends []) ha, chainOn_sends, chainOn_sends]
  rfl

end

/-! The queue of received messages (R458). -/

theorem popMgmt_shows (s : State) : (popMgmt s).chain.queue = s.chain.queue.drop 1 ∧
    (popMgmt s).bits Reg.reeveChainStatus 4 0 = (s.chain.queue.length - 1) % 32 ∧
    SameRegsBut [Reg.reeveChainStatus] s (popMgmt s) ∧
    popMgmt s = { s with regs := (popMgmt s).regs, chain := { s.chain with queue := (popMgmt s).chain.queue } } := by
  refine ⟨rfl, ?_, fun a ha => State.reg_setReg_ne _ _ (List.ne_of_not_mem_cons ha), rfl⟩
  rw [popMgmt, State.bits_setBits_self _ _ _ _ (by decide), List.length_drop]
  rfl

/-! Links and the wait for an address (R452, R457). -/

theorem traceLink_shows (s : State) (up b : Bool) :
    (traceLink s up b).bit Reg.reeveChain (if up then 27 else 26) = b ∧ SameRegsBut [Reg.reeveChain] s (traceLink s up b) ∧
      OnlyRegs s (traceLink s up b) :=
  ⟨State.bit_setBit_self _ _ _ (by cases up <;> decide), SameRegsBut.refl.setBit List.mem_cons_self, OnlyRegs.refl.setBit⟩

/-- The end of the wait of step 6 at tick t (R457). -/
def endStep6 (s : State) (t : Nat) : State :=
  let u := runUntil s t
  { u with chain := { u.chain with step6 := none } }

theorem endStep6_shows (s : State) (t : Nat) : (endStep6 s t).chain.step6 = none ∧
    (endStep6 s t).now = (runUntil s t).now ∧
    endStep6 s t = { s with time := (endStep6 s t).time, chain := { s.chain with step6 := none } } :=
  ⟨rfl, rfl, by rw [endStep6, runUntil_eq]⟩

theorem endStep6_pending (s : State) (t : Nat) : (endStep6 s t).pending = s.pending := runUntil_pending s t

theorem exec_chainAddressTimeout (s : State) : exec .chainAddressTimeout s =
    live s (match s.chain.step6 with | some t => endStep6 s (t + 640000000) | none => s) := rfl

theorem exec_chainAddressTimeout_of_none {s : State} (h : s.chain.step6 = none) :
    exec .chainAddressTimeout s = live s s := by
  rw [exec_chainAddressTimeout, h]

theorem exec_chainAddressTimeout_of_some {s : State} {t : Nat} (h : s.chain.step6 = some t) :
    exec .chainAddressTimeout s = live s (endStep6 s (t + 640000000)) := by
  rw [exec_chainAddressTimeout, h]

/-! Reports that a peer be fenced (R241, R242). -/

section
variable {s : State} {p : Nat}

theorem exec_droveFenceReq (hp : p < 16) (s : State) : exec (.droveFenceReq p) s = live s (reportFence s p) :=
  congrArg (live s) (withUnit_of hp s _)

theorem exec_peerHeartbeatTimeout (hp : p < 16) (s : State) :
    exec (.peerHeartbeatTimeout p) s = live s (heartbeatLost s p) := congrArg (live s) (withUnit_of hp s _)

theorem heartbeatLost_of_late (h : 3 ≤ mapGet 0 s.chain.missed p) : heartbeatLost s p = reportFence s p := if_pos h

theorem heartbeatLost_of_early (h : ¬ 3 ≤ mapGet 0 s.chain.missed p) : heartbeatLost s p = s := if_neg h

/-- Whichever way a peer's loss is noticed, it is reported. -/
theorem exec_of_fence_report {c : Instr} (hp : p < 16) (hc : c ∈ [Instr.droveFenceReq p, .peerHeartbeatTimeout p])
    (hl : c = .peerHeartbeatTimeout p → 3 ≤ mapGet 0 s.chain.missed p) : exec c s = live s (reportFence s p) := by
  simp only [List.mem_cons, List.not_mem_nil, or_false] at hc
  obtain rfl | rfl := hc
  · exact exec_droveFenceReq hp s
  · rw [exec_peerHeartbeatTimeout hp, heartbeatLost_of_late (hl rfl)]

theorem not_fenced_of_livePeer (h : s.livePeer p = true) : s.bit (Reg.drovePeer p) 2 = false := by
  simp only [State.livePeer, Bool.and_eq_true, Bool.not_eq_true'] at h
  exact h.2

theorem reportFence_of_dead (h : s.livePeer p = false) : reportFence s p = s := if_pos (by rw [h]; rfl)

theorem reportFence_of_live (h : s.livePeer p = true) : reportFence s p =
    if s.addressed && s.chipId == 0 && s.bit Reg.reeveChain 26 then headReport s p
    else if s.addressed && s.chipId != 0 && s.bit Reg.reeveChain 27 then chainUnicast s 0x05 0 (leBytes 1 p)
    else fenceDue s p := if_neg (by rw [h]; decide)

theorem reportFence_of_head (h : s.livePeer p = true) (ha : s.addressed = true) (hid : s.chipId = 0)
    (hlink : s.bit Reg.reeveChain 26 = true) : reportFence s p = headReport s p := by
  rw [reportFence_of_live h, ha, hid, hlink]
  rfl

theorem reportFence_to_head (h : s.livePeer p = true) (ha : s.addressed = true) (hid : s.chipId ≠ 0)
    (hlink : s.bit Reg.reeveChain 27 = true) : reportFence s p = chainUnicast s 0x05 0 (leBytes 1 p) := by
  rw [reportFence_of_live h, if_neg (by simp [hid]), if_pos (by simp [ha, hid, hlink])]

/-- A chip whose chain is down applies its own report (R242). -/
theorem reportFence_of_down (h : s.livePeer p = true) (hd : s.addressed = false ∨
    (s.chipId = 0 ∧ s.bit Reg.reeveChain 26 = false) ∨ (s.chipId ≠ 0 ∧ s.bit Reg.reeveChain 27 = false)) :
    reportFence s p = fenceDue s p := by
  rw [reportFence_of_live h]
  obtain ha | ⟨hid, hlink⟩ | ⟨hid, hlink⟩ := hd
  · rw [ha]
    rfl
  · rw [if_neg (by simp [hlink]), if_neg (by simp [hid])]
  · rw [if_neg (by simp [hid]), if_neg (by simp [hlink])]

theorem headReport_of_new (h : s.livePeer p = true) (hr : p ∉ s.chain.reports) (hn : p ∉ s.chain.noticed) :
    headReport s p = { s with chain := { s.chain with reports := s.chain.reports ++ [p] } } :=
  if_neg (by simp [hr, hn, not_fenced_of_livePeer h])

theorem headReport_of_known (h : p ∈ s.chain.reports ∨ p ∈ s.chain.noticed) : headReport s p = s :=
  if_pos (h.imp List.contains_iff_mem.mpr fun hn => .inl (List.contains_iff_mem.mpr hn))

end

end Sys2Proof.Machine

section
open Sys2Proof Sys2Proof.Machine

/-- Settles O51: a send by its way over the links, a report by the first of the three ways that is open to this chip. -/
theorem chainSendsAndFenceReports : Obligations.ChainSendsAndFenceReports := by
  refine ⟨?_, ?_⟩
  · intro s hh b on sent
    refine ⟨fun hb dst hd all => ?_, fun hb dst hd => ⟨?_, fun ha hne => ?_, fun ha he => ?_, fun ha => ?_⟩,
      ?_, fun up => ⟨?_, ?_⟩, fun h => ?_, fun t0 h => ?_⟩
    · exact answers_of_eq (exec_chainSend hd s all) hh (sendMgmt_of_busy hb)
    · exact answers_of_eq (exec_chainSend hd s true) hh (sendMgmt_broadcast hb)
    · exact answers_of_eq (exec_chainSend hd s false) hh (sendMgmt_towards hb ha hne)
    · exact answers_of_eq (exec_chainSend hd s false) hh (sendMgmt_self hb ha he)
    · exact answers_of_eq (exec_chainSend hd s false) hh (sendMgmt_unaddressed hb ha)
    · exact yields_of_kept_queue rfl hh rfl (popMgmt_shows s)
    · exact yields_of_kept_queue rfl hh rfl (traceLink_shows s up true)
    · exact yields_of_kept_queue rfl hh rfl (traceLink_shows s up false)
    · exact answers_of_live (exec_chainAddressTimeout_of_none h) hh
    · exact yields_of_kept_queue (exec_chainAddressTimeout_of_some h) hh (endStep6_pending s _) (endStep6_shows s _)
  · intro s p hh hp late
    refine ⟨fun hl => ?_, fun c hc hl => ?_⟩
    · exact answers_of_eq (exec_peerHeartbeatTimeout hp s) hh (heartbeatLost_of_early hl)
    · have hx : exec c s = live s (reportFence s p) := exec_of_fence_report hp hc hl
      refine ⟨fun hd => answers_of_eq hx hh (reportFence_of_dead hd),
        fun h ha hid hlink => ⟨fun hr hn => ?_, fun hk => ?_⟩,
        fun h ha hid hlink => answers_of_eq hx hh (reportFence_to_head h ha hid hlink),
        fun h hd => answers_of_eq hx hh (reportFence_of_down h hd)⟩
      · exact answers_of_eq hx hh ((reportFence_of_head h ha hid hlink).trans (headReport_of_new h hr hn))
      · exact answers_of_eq hx hh ((reportFence_of_head h ha hid hlink).trans (headReport_of_known hk))

end
end

section
/-! The Droveway's records, and the message that waits for the end of its cycle (R232, R237 to R240). -/

namespace Sys2Proof.Machine

/-! Streams, ports and peers. -/

@[simp] theorem State.stream_setStream_self (s : State) (q p : Nat) (x : Stream) : (s.setStream q p x).stream q p = x :=
  mapGet_mapSet_self _ _ _ _

@[simp] theorem State.drovePort_setPort_self (s : State) (q : Nat) (x : DrovePort) : (s.setPort q x).drovePort q = x :=
  mapGet_mapSet_self _ _ _ _

@[simp] theorem State.drovePeer_setPeer_self (s : State) (p : Nat) (x : DrovePeer) : (s.setPeer p x).drovePeer p = x :=
  mapGet_mapSet_self _ _ _ _

/-- A control frame that is queued waits behind those that its port holds (R232). -/
@[simp] theorem sendControl_control (s : State) (q : Nat) (c : ControlFrame) :
    ((sendControl s q c).drovePort q).control = (s.drovePort q).control ++ [c] := by
  rw [sendControl, State.drovePort_setPort_self]

/-! A write of memory leaves the Droveway. -/

section
variable {s t : State}

theorem OnlyRegs.ite {b : Prop} {_ : Decidable b} {t' : State} (h : OnlyRegs s t) (h' : OnlyRegs s t') :
    OnlyRegs s (if b then t else t') := by
  split <;> assumption

theorem OnlyRegs.setReg64 {lo hi v : Nat} (h : OnlyRegs s t) : OnlyRegs s (t.setReg64 lo hi v) := h.setReg.setReg

theorem OnlyRegs.dramError {b : Nat} {uncorr scrub : Bool} (h : OnlyRegs s t) : OnlyRegs s (dramError t b uncorr scrub) :=
  have hset := (ite (b := (uncorr || !t.bit Reg.dramErr 31) = true) h.setReg64.setBit.setBits h).setBit
  ite hset.addSat hset.addSat

end

theorem dramError_drove (s : State) (b : Nat) (uncorr scrub : Bool) : (dramError s b uncorr scrub).drove = s.drove := by
  rw [OnlyRegs.refl.dramError]

theorem checkBlock_drove (s : State) (b : Nat) (u : Upset) (scrub : Bool) : (checkBlock s b u scrub).drove = s.drove := by
  unfold checkBlock
  dsimp only
  split
  · rfl
  all_goals
    rw [State.raise_drove, dramError_drove]
    rfl

theorem writeBlock_drove (s : State) (b off : Nat) (bs : List Byte) (p : Bool) (u : Upset) :
    (writeBlock s b off bs p u).drove = s.drove := by
  unfold writeBlock
  split
  · rfl
  · exact checkBlock_drove _ _ _ _

theorem writeDram_drove (s : State) (a : Nat) (bs : List Byte) (p : Bool) (u : Upset) (fuel : Nat) :
    (writeDram s a bs p u fuel).drove = s.drove := by
  induction fuel generalizing s a bs with
  | zero => rfl
  | succ fuel ih =>
    rw [writeDram]
    split
    · rfl
    · exact (ih _ _ _).trans (writeBlock_drove _ _ _ _ _ _)

@[simp] theorem store_drove (s : State) (a : Nat) (bs : List Byte) (p : Bool) : (s.store a bs p).drove = s.drove := by
  unfold State.store
  split
  · exact writeDram_drove _ _ _ _ _ _
  · split
    · rw [writeSeed, markRange_eq, cancelWriteBacks_eq]
      rfl
    · rw [markRange_eq]
      rfl

@[simp] theorem store_pending (s : State) (a : Nat) (bs : List Byte) (p : Bool) : (s.store a bs p).pending = s.pending :=
  Accessed.refl.store.pending

/-! Messages that are accepted (R232, R237, R240). -/

/-- Before its message is accepted, a buffer that adopts a later round starts it (R240). -/
def roundStarted (s : State) (m : Message) : State :=
  if s.roundOpen m.buffer m.round then s else startRound s m.buffer m.round

theorem roundStarted_frame (s : State) (m : Message) : ∃ r b, roundStarted s m =
    { s with regs := r, drove := { s.drove with buffers := b } } := by
  unfold roundStarted
  split
  · exact ⟨_, _, rfl⟩
  · exact ⟨_, _, rfl⟩

/-- The place of a message's payload in the round's half of its buffer (R237). -/
def State.payloadAddr (s : State) (m : Message) : Nat :=
  leAt (s.entry 0xD 2 m.buffer) 16 8 + m.round % 2 * leAt (s.entry 0xD 2 m.buffer) 8 4 + m.offset

/-- The count of an accepted message's bytes, and its LAST (R237). -/
def countReceived (s : State) (src : Nat) (m : Message) : State :=
  let b := s.rxBuffer m.buffer
  let k := 16 * (m.round % 2) + src
  let b := { b with received := mapSet 0 b.received k (mapGet 0 b.received k + m.payload.length) }
  if m.last then
    let s := s.setBit (Reg.droveRxbLast m.buffer) (src + if m.round = s.roundOf m.buffer then 0 else 16) true
    s.setRxBuffer m.buffer { b with totals := mapSet 0 b.totals k m.aux }
  else s.setRxBuffer m.buffer b

theorem acceptMessage_eq (s : State) (src : Nat) (m : Message) :
    acceptMessage s src m = countReceived (s.store (s.payloadAddr m) m.payload) src m := rfl

theorem countReceived_frame (s : State) (src : Nat) (m : Message) : ∃ r b, countReceived s src m =
    { s with regs := r, drove := { s.drove with buffers := b } } := by
  unfold countReceived
  dsimp only
  split
  · exact ⟨_, _, rfl⟩
  · exact ⟨_, _, rfl⟩

/-- A buffer takes a message: besides the payload's write the Droveway's buffers and registers alone change. -/
theorem acceptMessage_frame (s : State) (src : Nat) (m : Message) : ∃ r b, acceptMessage (roundStarted s m) src m =
    { (roundStarted s m).store (s.payloadAddr m) m.payload with
      regs := r, drove := { s.drove with buffers := b } } := by
  obtain ⟨r, b, e⟩ := roundStarted_frame s m
  obtain ⟨r', b', e'⟩ := countReceived_frame ((roundStarted s m).store (s.payloadAddr m) m.payload) src m
  have haddr : (roundStarted s m).payloadAddr m = s.payloadAddr m := by
    rw [e]
    rfl
  refine ⟨r', b', ?_⟩
  rw [acceptMessage_eq, haddr, e', store_drove, e]

theorem countForAck_frame (s : State) (q p : Nat) : ∃ x ps, countForAck s q p =
    { s with drove := { s.drove with streams := mapSet {} s.drove.streams (16 * q + p) x, ports := ps } } ∧
      x.expected = (s.stream q p).expected := by
  unfold countForAck
  dsimp only
  split
  · exact ⟨_, _, rfl, rfl⟩
  · exact ⟨_, _, rfl, rfl⟩

/-- A delivered frame of its stream leaves the expected number (R231). -/
@[simp] theorem countForAck_expected (s : State) (q p : Nat) :
    ((countForAck s q p).stream q p).expected = (s.stream q p).expected := by
  obtain ⟨x, ps, e, hx⟩ := countForAck_frame s q p
  rw [e]
  exact (congrArg Stream.expected (mapGet_mapSet_self _ _ _ _)).trans hx

theorem groupOver_frame (s : State) (m : Message) (lost rejected : Bool) : ∃ g, groupOver s m lost rejected =
    { s with drove := { s.drove with groups := g } } := by
  unfold groupOver
  split
  · exact ⟨_, rfl⟩
  · exact ⟨_, rfl⟩

/-- A message from a peer that its buffer takes is recorded and counted for its stream's next ACK (R232, R234, R237). -/
theorem takeMessage_from_peer (s : State) (q src : Nat) (m : Message) : takeMessage s (some q) src m =
    countForAck ((acceptMessage (roundStarted s m) src m).setPeer src ((s.drovePeer src).record m.msgId)) q src := by
  have hpeer : (acceptMessage (roundStarted s m) src m).drovePeer src = s.drovePeer src := by
    obtain ⟨r, b, e⟩ := acceptMessage_frame s src m
    rw [e]
    rfl
  rw [← hpeer]
  rfl

theorem takeMessage_from_self (s : State) (src : Nat) (m : Message) : takeMessage s none src m =
    groupOver (acceptMessage (roundStarted s m) src m) m false false := rfl

theorem acceptMessage_pending (s : State) (src : Nat) (m : Message) :
    (acceptMessage (roundStarted s m) src m).pending = s.pending := by
  obtain ⟨r, b, e⟩ := acceptMessage_frame s src m
  obtain ⟨r', b', e'⟩ := roundStarted_frame s m
  rw [e]
  exact (store_pending _ _ _ _).trans (by rw [e'])

theorem acceptMessage_late (s : State) (src : Nat) (m : Message) :
    (acceptMessage (roundStarted s m) src m).drove.late = s.drove.late := by
  obtain ⟨r, b, e⟩ := acceptMessage_frame s src m
  rw [e]

theorem takeMessage_kept (s : State) (port : Option Nat) (src : Nat) (m : Message) :
    (takeMessage s port src m).pending = s.pending ∧ (takeMessage s port src m).drove.late = s.drove.late := by
  cases port with
  | none =>
    obtain ⟨g, e⟩ := groupOver_frame (acceptMessage (roundStarted s m) src m) m false false
    rw [takeMessage_from_self, e]
    exact ⟨acceptMessage_pending s src m, acceptMessage_late s src m⟩
  | some q =>
    rw [takeMessage_from_peer]
    obtain ⟨x, ps, e, -⟩ := countForAck_frame
      ((acceptMessage (roundStarted s m) src m).setPeer src ((s.drovePeer src).record m.msgId)) q src
    rw [e]
    exact ⟨acceptMessage_pending s src m, acceptMessage_late s src m⟩

/-! Messages that are rejected (R237). -/

/-- A message from a peer that is rejected: its NACK with the reason, and the F0 entry. -/
theorem refuseMessage_from_peer (s : State) (q src : Nat) (m : Message) (why : Nat) :
    refuseMessage s (some q) src m why = sendControl (s.raise { code := 0x0606, cls := 0, inst := q }) q
      { peer := src, nack := true, seq := (s.stream q src).expected, reason := why, msgId := m.msgId } := rfl

theorem undeliver_late (s : State) (m : Message) : (undeliver s m).drove.late = s.drove.late := by
  unfold undeliver
  split
  · rfl
  · rfl

theorem refuseMessage_kept (s : State) (port : Option Nat) (src : Nat) (m : Message) (why : Nat) :
    (refuseMessage s port src m why).pending = s.pending ∧
      (refuseMessage s port src m why).drove.late = s.drove.late := by
  cases port with
  | none =>
    change (groupOver (undeliver (rejectEntry s none) m) m false true).pending = s.pending ∧
      (groupOver (undeliver (rejectEntry s none) m) m false true).drove.late = s.drove.late
    obtain ⟨g, e⟩ := groupOver_frame (undeliver (rejectEntry s none) m) m false true
    obtain ⟨d, e'⟩ := undeliver_frame (rejectEntry s none) m
    have hlate := undeliver_late (rejectEntry s none) m
    rw [e]
    exact ⟨by rw [e']; rfl, hlate⟩
  | some q => exact ⟨rfl, rfl⟩

/-! The message that waits for the end of its cycle (R239, log 93). -/

/-- The state in which no message waits any more. -/
def State.noLate (s : State) : State := { s with drove := { s.drove with late := none } }

theorem settleLate_of_none {s : State} (h : s.drove.late = none) : settleLate s = s := by
  unfold settleLate
  rw [h]

theorem settleLate_of_some {s : State} {l : LateMessage} (h : s.drove.late = some l) : settleLate s =
    if s.noLate.roundOpen l.msg.buffer l.msg.round then takeMessage s.noLate l.port l.src l.msg
    else refuseMessage s.noLate l.port l.src l.msg 4 := by
  unfold settleLate
  rw [h]
  rfl

/-- The judgement leaves the queue, and no message to be judged. -/
theorem settleLate_kept (s : State) : (settleLate s).pending = s.pending ∧ (settleLate s).drove.late = none := by
  cases h : s.drove.late with
  | none => rw [settleLate_of_none h]; exact ⟨rfl, h⟩
  | some l =>
    rw [settleLate_of_some h]
    split
    · exact takeMessage_kept s.noLate _ _ _
    · exact refuseMessage_kept s.noLate _ _ _ _

@[simp] theorem settleLate_pending (s : State) : (settleLate s).pending = s.pending := (settleLate_kept s).1

end Sys2Proof.Machine
end

section
/-! Frames that a Droveway port receives and sends (R35, R226, R229). -/

namespace Sys2Proof.Machine

section
variable {r s : State} {f : DroveFrame} {q : Nat}

/-! Counts of 16 bits. -/

theorem bits_addSat_low (s : State) (a : Nat) : (s.addSat a 15 0).bits a 15 0 = min (s.bits a 15 0 + 1) 65535 :=
  State.bits_addSat_self s a 1 0 (by decide)

theorem bits_addSat_high (s : State) (a : Nat) : (s.addSat a 31 16).bits a 31 16 = min (s.bits a 31 16 + 1) 65535 :=
  State.bits_addSat_self s a 1 16 (by decide)

/-! Received frames: the checks come first, then the frame's own kind (R229). -/

theorem exec_droveDispatchRx (hf : f.port < 4) (r : State) : exec (.droveDispatchRx f) r =
    live r (receiveDrove (settleLate r) f (fun h => h.kind == 1) receiveData) := congrArg (live r) (withUnit_of hf r _)

theorem exec_droveCombineRx (hf : f.port < 4) (r : State) : exec (.droveCombineRx f) r =
    live r (receiveDrove (settleLate r) f (fun h => h.kind == 2) receiveData) := congrArg (live r) (withUnit_of hf r _)

theorem exec_drovePutRx (hf : f.port < 4) (r : State) : exec (.drovePutRx f) r =
    live r (receiveDrove (settleLate r) f (fun h => h.kind == 3) receiveData) := congrArg (live r) (withUnit_of hf r _)

theorem exec_droveGetRx (hf : f.port < 4) (r : State) : exec (.droveGetRx f) r =
    live r (receiveDrove (settleLate r) f (fun h => h.kind == 4) receiveData) := congrArg (live r) (withUnit_of hf r _)

theorem exec_droveBalePushRx (hf : f.port < 4) (r : State) : exec (.droveBalePushRx f) r =
    live r (receiveDrove (settleLate r) f (fun h => h.kind == 5) receiveData) := congrArg (live r) (withUnit_of hf r _)

theorem exec_droveAckRx (hf : f.port < 4) (r : State) : exec (.droveAckRx f) r =
    live r (receiveDrove (settleLate r) f (fun h => h.kind == 6 && !bitOf h.flags 5)
      fun s q h => acknowledge s q h.src h.seq none) := congrArg (live r) (withUnit_of hf r _)

theorem exec_droveOpenRx (hf : f.port < 4) (r : State) : exec (.droveOpenRx f) r =
    live r (receiveDrove (settleLate r) f (fun h => h.kind == 6 && bitOf h.flags 5)
      fun s q h => receiveOpen s q h.src) := congrArg (live r) (withUnit_of hf r _)

theorem exec_droveNackRx (hf : f.port < 4) (r : State) : exec (.droveNackRx f) r =
    live r (receiveDrove (settleLate r) f (fun h => h.kind == 7) receiveNack) := congrArg (live r) (withUnit_of hf r _)

variable {mine : DroveHeader → Bool} {act : State → Nat → DroveHeader → State}

theorem receiveDrove_of_other (h : s.droveCheck f = .other) :
    receiveDrove s f mine act = s.addSat (Reg.drovePortDrop f.port) 15 0 := by
  rw [receiveDrove, h]

theorem receiveDrove_of_crc (h : s.droveCheck f = .crc) : receiveDrove s f mine act =
    (s.addSat (Reg.drovePortDrop f.port) 31 16).raise { code := 0x0601, cls := 1, inst := f.port } := by
  rw [receiveDrove, h]

theorem receiveDrove_of_mine (h : s.droveCheck f = .good) (hm : mine (readHeader f.bytes) = true) :
    receiveDrove s f mine act = act s f.port (readHeader f.bytes) := by
  rw [receiveDrove, h]
  exact if_pos hm

theorem receiveDrove_of_other_kind (h : s.droveCheck f = .good) (hm : mine (readHeader f.bytes) = false) :
    receiveDrove s f mine act = s := by
  rw [receiveDrove, h]
  exact if_neg (Bool.eq_false_iff.mp hm)

/-- A command for a received frame: the checks, and its own kinds of header. -/
theorem exec_of_received {c : Instr × Bool} (hf : f.port < 4) (r : State) (hc :
    let h := readHeader f.bytes
    c ∈ [(Instr.droveDispatchRx f, h.kind == 1), (.droveCombineRx f, h.kind == 2), (.drovePutRx f, h.kind == 3),
      (.droveGetRx f, h.kind == 4), (.droveBalePushRx f, h.kind == 5), (.droveAckRx f, h.kind == 6 && !bitOf h.flags 5),
      (.droveOpenRx f, h.kind == 6 && bitOf h.flags 5), (.droveNackRx f, h.kind == 7)]) :
    ∃ mine act, exec c.1 r = live r (receiveDrove (settleLate r) f mine act) ∧ mine (readHeader f.bytes) = c.2 := by
  simp only [List.mem_cons, List.not_mem_nil, or_false] at hc
  obtain rfl | rfl | rfl | rfl | rfl | rfl | rfl | rfl := hc
  · exact ⟨_, _, exec_droveDispatchRx hf r, rfl⟩
  · exact ⟨_, _, exec_droveCombineRx hf r, rfl⟩
  · exact ⟨_, _, exec_drovePutRx hf r, rfl⟩
  · exact ⟨_, _, exec_droveGetRx hf r, rfl⟩
  · exact ⟨_, _, exec_droveBalePushRx hf r, rfl⟩
  · exact ⟨_, _, exec_droveAckRx hf r, rfl⟩
  · exact ⟨_, _, exec_droveOpenRx hf r, rfl⟩
  · exact ⟨_, _, exec_droveNackRx hf r, rfl⟩

end

end Sys2Proof.Machine

section
open Sys2Proof Sys2Proof.Machine

/-- Settles O25: every command for a received frame makes the same checks first. -/
theorem droveChecksDiscardFrames : Obligations.DroveChecksDiscardFrames := by
  intro r f hh hf s h c hc
  obtain ⟨mine, act, hx, hm⟩ : ∃ mine act, exec c.1 r = live r (receiveDrove s f mine act) ∧ mine h = c.2 :=
    exec_of_received hf r hc
  have hq : s.pending = r.pending := settleLate_pending r
  clear_value s
  refine ⟨fun hk => ?_, fun hk => ?_, fun hk hother => ?_⟩
  · rw [receiveDrove_of_other hk] at hx
    exact yields_of_kept_queue hx hh hq ⟨bits_addSat_low s _, SameRegsBut.refl.addSat List.mem_cons_self, rfl⟩
  · rw [receiveDrove_of_crc hk] at hx
    exact yields_of_kept_queue hx hh hq ⟨(State.raise_bits _ _ _ _ _).trans (bits_addSat_high s _),
      (SameRegsBut.refl.addSat List.mem_cons_self).raise, OnlyRegs.refl.addSat.raise_eq _⟩
  · exact answers_of_eq hx hh (receiveDrove_of_other_kind hk (hm.trans hother))

end
end

section
/-! DROVE_FRAME_TX: control frames, then retransmissions, then new frames (R226, R230). -/

namespace Sys2Proof.Machine

section
variable {s : State} {q : Nat}

theorem exec_droveFrameTx (hq : q < 4) (r : State) : exec (.droveFrameTx q) r = live r (transmit (settleLate r) q) :=
  congrArg (live r) (withUnit_of hq r _)

theorem transmit_of_down (h : s.bit (Reg.drovePortStatus q) 0 = false) : transmit s q = s := if_pos (by rw [h]; rfl)

theorem transmit_of_control {c : ControlFrame} {cs : List ControlFrame} (h : s.bit (Reg.drovePortStatus q) 0 = true)
    (hc : (s.drovePort q).control = c :: cs) : transmit s q =
      (s.setPort q { s.drovePort q with control := cs }).emit (.frame q (controlFrame s q c)) := by
  rw [transmit, if_neg (by rw [h]; decide)]
  dsimp only
  rw [hc]

/-- Without a control frame a retransmission leaves, and without one a new frame (R226). -/
theorem transmit_of_data (h : s.bit (Reg.drovePortStatus q) 0 = true) (hc : (s.drovePort q).control = []) :
    transmit s q =
      ((List.range 16).findSome? (resendOn s q)).getD ((s.nextNew q).elim s (sendNew s q)) := by
  rw [transmit, if_neg (by rw [h]; decide)]
  dsimp only
  rw [hc]
  cases (List.range 16).findSome? (resendOn s q) with
  | some t => rfl
  | none => cases s.nextNew q <;> rfl

theorem transmit_of_resend {t : State} (h : s.bit (Reg.drovePortStatus q) 0 = true) (hc : (s.drovePort q).control = [])
    (hr : (List.range 16).findSome? (resendOn s q) = some t) : transmit s q = t := by
  rw [transmit_of_data h hc, hr]
  rfl

theorem transmit_of_new {m : Message} (h : s.bit (Reg.drovePortStatus q) 0 = true) (hc : (s.drovePort q).control = [])
    (hr : (List.range 16).findSome? (resendOn s q) = none) (hm : s.nextNew q = some m) :
    transmit s q = sendNew s q m := by
  rw [transmit_of_data h hc, hr, hm]
  rfl

theorem transmit_of_nothing (h : s.bit (Reg.drovePortStatus q) 0 = true) (hc : (s.drovePort q).control = [])
    (hr : (List.range 16).findSome? (resendOn s q) = none) (hm : s.nextNew q = none) : transmit s q = s := by
  rw [transmit_of_data h hc, hr, hm]
  rfl

/-! Retransmissions (R226, R233). -/

/-- The first stream with a frame to send again is the one that sends. -/
theorem findSome_range_of_first {α : Type} {g : Nat → Option α} {n p : Nat} {t : α} (hp : p < n) (hg : g p = some t)
    (hfirst : ∀ k < p, g k = none) : (List.range n).findSome? g = some t := by
  obtain ⟨k, rfl⟩ := Nat.exists_eq_add_of_lt hp
  have hnone : (List.range p).findSome? g = none := List.findSome?_eq_none_iff.mpr fun k hk => hfirst k (List.mem_range.mp hk)
  rw [Nat.add_assoc, List.range_add, List.findSome?_append, hnone, Nat.add_comm k, List.range_add, List.map_append, List.findSome?_append]
  simp [hg]

/-- A stream's window once its frame w has been sent again. -/
def resentWindow (x : Stream) (w : WindowFrame) : Stream :=
  { x with window := x.window.map fun v =>
      if v.seq = w.seq then { v with again := false, msg := { v.msg with asked := false, admitted := false } } else v }

theorem resendOn_of_admitted {p : Nat} {w : WindowFrame} (hw : (s.stream q p).window.find? (·.again) = some w)
    (ha : w.msg.admitted = true) : resendOn s q p = some
      (((s.setStream q p (resentWindow (s.stream q p) w)).addSat (Reg.drovePeerRetx p) 31 0).emit
        (frameOut q w.msg.poison (dataFrame s q w.seq w.msg))) := by
  unfold resendOn
  dsimp only
  rw [hw]
  exact if_pos ha

theorem bits_word (s : State) (a : Nat) : s.bits a 31 0 = (s.reg a).toNat := by
  rw [State.bits, bitsOf, Nat.pow_zero, Nat.div_one]
  exact Nat.mod_eq_of_lt (s.reg a).isLt

/-- A count that fills its register. -/
theorem toNat_addSat_word (s : State) (a : Nat) :
    ((s.addSat a 31 0).reg a).toNat = min ((s.reg a).toNat + 1) (2 ^ 32 - 1) := by
  rw [← bits_word, ← bits_word]
  exact State.bits_addSat_self s a 1 0 (by decide)

/-! New frames (R226, R230). -/

/-- The state once a new frame of message m has entered its stream's window. -/
def State.windowed (s : State) (q : Nat) (m : Message) : State :=
  let x := s.drovePort q
  let u := s.setPort q { x with ready := x.ready.filter fun k => k.uid != m.uid, rr := (m.field + 1) % 8 }
  let t := s.stream q m.dst
  u.setStream q m.dst { t with
    nextSeq := (t.nextSeq + 1) % 2 ^ 32
    window := t.window ++ [{ seq := t.nextSeq, msg := { m with asked := false, admitted := false, sent := true } }]
    lastAdvance := if t.window.isEmpty then s.now else t.lastAdvance }

theorem sendNew_eq (s : State) (q : Nat) (m : Message) : sendNew s q m =
    (onlyIf m.sent (fun u => u.addSat (Reg.drovePeerRetx m.dst) 31 0) (s.windowed q m)).emit
      (frameOut q m.poison (dataFrame s q (s.stream q m.dst).nextSeq m)) := rfl

theorem sendNew_frame (s : State) (q : Nat) (m : Message) : ∃ r, sendNew s q m = { s.windowed q m with
    regs := r, outbox := s.outbox ++ [frameOut q m.poison (dataFrame s q (s.stream q m.dst).nextSeq m)] } := by
  rw [sendNew_eq]
  cases m.sent with
  | false => exact ⟨_, rfl⟩
  | true => exact ⟨_, rfl⟩

theorem sendNew_regs (s : State) (q : Nat) (m : Message) : SameRegsBut [Reg.drovePeerRetx m.dst] s (sendNew s q m) := by
  rw [sendNew_eq]
  cases m.sent with
  | false => exact fun _ _ => rfl
  | true => exact fun a ha => State.reg_setReg_ne _ _ (List.ne_of_not_mem_cons ha)

end

end Sys2Proof.Machine

section
open Sys2Proof Sys2Proof.Machine

/-- Settles O28: transmit takes the three kinds of frame in the order of R226. -/
theorem droveTransmitsByPriority : Obligations.DroveTransmitsByPriority := by
  intro r q hh hq s
  have hx : exec (.droveFrameTx q) r = live r (transmit s q) := exec_droveFrameTx hq r
  have hpending : s.pending = r.pending := settleLate_pending r
  clear_value s
  refine ⟨fun hup => answers_of_eq hx hh (transmit_of_down hup), fun hup => ⟨fun c cs hc => ?_,
    fun hc hr => ⟨fun hm => ?_, fun m hm => ?_⟩, fun hc p w hfirst hp hw ha => ?_⟩⟩
  · rw [transmit_of_control hup hc] at hx
    exact yields_of_kept_queue hx hh hpending ⟨State.drovePort_setPort_self _ _ _, rfl⟩
  · exact answers_of_eq hx hh (transmit_of_nothing hup hc hr hm)
  · rw [transmit_of_new hup hc hr hm] at hx
    obtain ⟨regs, e⟩ := sendNew_frame s q m
    have hregs := sendNew_regs s q m
    rw [e] at hx hregs
    exact yields_of_kept_queue hx hh hpending
      ⟨congrArg Stream.nextSeq (State.stream_setStream_self _ _ _ _),
        congrArg Stream.window (State.stream_setStream_self _ _ _ _),
        congrArg DrovePort.rr (State.drovePort_setPort_self _ _ _), rfl, hregs, fun _ => rfl⟩
  · rw [transmit_of_resend hup hc (findSome_range_of_first hp (resendOn_of_admitted hw ha) hfirst)] at hx
    have hcount := toNat_addSat_word (s.setStream q p (resentWindow (s.stream q p) w)) (Reg.drovePeerRetx p)
    exact yields_of_kept_queue hx hh hpending
      ⟨rfl, (congrArg BitVec.toNat (State.emit_reg _ _ _)).trans hcount,
        fun a ha => State.reg_setReg_ne _ _ (List.ne_of_not_mem_cons ha), fun _ => rfl⟩

end
end

section
/-! What waits to be sent: admissions, assignment to streams, and the numbers and totals of messages (R225, R226, R228, R233). -/

namespace Sys2Proof.Machine

/-! Messages changed where they wait (R216, R228). -/

/-- A map's values changed alike: an unlisted key holds what it held. -/
theorem mapGet_map {α : Type} {d : α} {g : α → α} (hg : g d = d) (m : SMap α) (a : Nat) :
    mapGet d (m.map fun (k, v) => (k, g v)) a = g (mapGet d m a) := by
  induction m with
  | nil => exact hg.symm
  | cons e m ih =>
    obtain ⟨k, v⟩ := e
    by_cases h : a = k
    · simp [mapGet, mapFind, h]
    · simpa [mapGet, mapFind, h] using ih

/-- A stream whose window's messages are changed, but not their frames. -/
def Stream.mapMsgs (x : Stream) (on : Message → Message) : Stream :=
  { x with window := x.window.map fun w => { w with msg := on w.msg } }

theorem Stream.mapMsgs_id (x : Stream) : x.mapMsgs id = x := by
  simp [Stream.mapMsgs]

theorem Stream.mapMsgs_mapMsgs (x : Stream) (f g : Message → Message) : (x.mapMsgs f).mapMsgs g = x.mapMsgs (g ∘ f) := by
  simp [Stream.mapMsgs]

@[simp] theorem Stream.mapMsgs_seqs (x : Stream) (on : Message → Message) :
    (x.mapMsgs on).window.map (·.seq) = x.window.map (·.seq) := by
  simp [Stream.mapMsgs]

theorem mapMessages_streams (s : State) (on : Message → Message) (k : Nat) :
    mapGet {} (mapMessages s on).drove.streams k = (mapGet {} s.drove.streams k).mapMsgs on :=
  mapGet_map (d := ({} : Stream)) (g := (·.mapMsgs on)) rfl _ k

theorem mapMessages_control (s : State) (on : Message → Message) (q : Nat) :
    (mapGet {} (mapMessages s on).drove.ports q).control = (mapGet {} s.drove.ports q).control := by
  have e := mapGet_map (d := ({} : DrovePort)) (g := fun p => { p with ready := p.ready.map on }) rfl s.drove.ports q
  exact (congrArg DrovePort.control e).trans rfl

theorem mapMessages_record (s : State) (on : Message → Message) (p : Nat) :
    (mapGet {} (mapMessages s on).drove.peers p).highest = (mapGet {} s.drove.peers p).highest ∧
      (mapGet {} (mapMessages s on).drove.peers p).seen = (mapGet {} s.drove.peers p).seen := by
  have e := mapGet_map (d := ({} : DrovePeer)) (g := fun p => { p with held := p.held.map on }) rfl s.drove.peers p
  exact ⟨(congrArg DrovePeer.highest e).trans rfl, (congrArg DrovePeer.seen e).trans rfl⟩

/-! What waits to be sent. -/

/-- From d to e messages move and change where they wait to be sent: windows keep their frames, ports their control frames, peers
the record of what they delivered. -/
structure Droveway.Sends (d e : Droveway) : Prop where
  stream : ∀ k, ∃ on, mapGet {} e.streams k = (mapGet {} d.streams k).mapMsgs on
  control : ∀ q, (mapGet {} e.ports q).control = (mapGet {} d.ports q).control
  record : ∀ p, (mapGet {} e.peers p).highest = (mapGet {} d.peers p).highest ∧
    (mapGet {} e.peers p).seen = (mapGet {} d.peers p).seen
  late : e.late = d.late
  own : d.own = [] → e.own = []

theorem Droveway.Sends.refl {d : Droveway} : d.Sends d :=
  ⟨fun _ => ⟨id, (Stream.mapMsgs_id _).symm⟩, fun _ => rfl, fun _ => ⟨rfl, rfl⟩, rfl, id⟩

theorem Droveway.Sends.trans {d e f : Droveway} (h : d.Sends e) (h' : e.Sends f) : d.Sends f where
  stream k := by
    obtain ⟨on, e⟩ := h.stream k
    obtain ⟨on', e'⟩ := h'.stream k
    exact ⟨on' ∘ on, by rw [e', e, Stream.mapMsgs_mapMsgs]⟩
  control q := (h'.control q).trans (h.control q)
  record p := ⟨(h'.record p).1.trans (h.record p).1, (h'.record p).2.trans (h.record p).2⟩
  late := h'.late.trans h.late
  own := h'.own ∘ h.own

/-- From s to t work is done on what waits to be sent: of the registers the levels of the yokes' buckets 2 may change, and no byte
of memory does. -/
structure Sends (s t : State) : Prop where
  frame : t = { s with regs := t.regs, words := t.words, yokes := t.yokes, drove := t.drove }
  regs : ∀ a, (∀ f, a ≠ Reg.yokeLevel f 2) → t.reg a = s.reg a
  drove : s.drove.Sends t.drove

section
variable {s t u : State}

theorem Sends.refl : Sends s s := ⟨rfl, fun _ _ => rfl, .refl⟩

theorem Sends.trans (h : Sends s t) (h' : Sends t u) : Sends s u where
  frame := h'.frame.trans (congrArg (fun v : State =>
    { v with regs := u.regs, words := u.words, yokes := u.yokes, drove := u.drove }) h.frame)
  regs a ha := (h'.regs a ha).trans (h.regs a ha)
  drove := h.drove.trans h'.drove

theorem Sends.ite {b : Prop} {_ : Decidable b} {t' : State} (h : Sends s t) (h' : Sends s t') :
    Sends s (if b then t else t') := by
  split <;> assumption

theorem Sends.foldl {α : Type} {f : State → α → State} {xs : List α} (h : Sends s t)
    (hf : ∀ t x, Sends s t → Sends s (f t x)) : Sends s (xs.foldl f t) :=
  foldl_induct (P := Sends s) xs h fun t x _ => hf t x

theorem Sends.withDrove {d : Droveway} (h : Sends s t) (hd : t.drove.Sends d) : Sends s { t with drove := d } where
  frame := congrArg (fun v : State => { v with drove := d }) h.frame
  regs := h.regs
  drove := h.drove.trans hd

theorem Sends.mem (h : Sends s t) : t.mem = s.mem := by rw [h.frame]

theorem Sends.pending (h : Sends s t) : t.pending = s.pending := by rw [h.frame]

theorem Sends.stream (h : Sends s t) (q p : Nat) : ∃ on, t.stream q p = (s.stream q p).mapMsgs on :=
  h.drove.stream (16 * q + p)

theorem Sends.control (h : Sends s t) (q : Nat) : (t.drovePort q).control = (s.drovePort q).control := h.drove.control q

theorem Sends.expected (h : Sends s t) (q p : Nat) : (t.stream q p).expected = (s.stream q p).expected := by
  obtain ⟨on, e⟩ := h.stream q p
  rw [e]
  rfl

theorem Sends.seqs (h : Sends s t) (q p : Nat) :
    (t.stream q p).window.map (·.seq) = (s.stream q p).window.map (·.seq) := by
  obtain ⟨on, e⟩ := h.stream q p
  rw [e, Stream.mapMsgs_seqs]

/-- The chip's own number is in none of the registers. -/
theorem Sends.chipId (h : Sends s t) : t.chipId = s.chipId := by
  unfold State.chipId State.bits
  rw [h.regs _ fun f => by unfold Reg.reeveChain Reg.yokeLevel; omega]

theorem Sends.streamUp (h : Sends s t) {q : Nat} (hq : q < 4) (p : Nat) : t.streamUp q p = s.streamUp q p := by
  unfold State.streamUp State.bit
  rw [h.regs _ fun f => by unfold Reg.drovePortStatus Reg.yokeLevel; omega]

/-! Updates. -/

theorem Sends.mapMessages {on : Message → Message} (h : Sends s t) : Sends s (mapMessages t on) :=
  h.withDrove
    { stream := fun k => ⟨on, mapMessages_streams t on k⟩
      control := mapMessages_control t on
      record := mapMessages_record t on
      late := rfl
      own := fun e => by rw [e]; rfl }

theorem Sends.setPort {q : Nat} {x : DrovePort} (h : Sends s t) (hx : x.control = (t.drovePort q).control) :
    Sends s (t.setPort q x) :=
  h.withDrove { Droveway.Sends.refl with
    control := fun k => by
      rw [mapGet_mapSet]
      split
      · next e => rw [hx, e]; rfl
      · rfl }

theorem Sends.setPeer {p : Nat} {x : DrovePeer} (h : Sends s t) (hh : x.highest = (t.drovePeer p).highest)
    (hs : x.seen = (t.drovePeer p).seen) : Sends s (t.setPeer p x) :=
  h.withDrove { Droveway.Sends.refl with
    record := fun k => by
      rw [mapGet_mapSet]
      split
      · next e => rw [hh, hs, e]; exact ⟨rfl, rfl⟩
      · exact ⟨rfl, rfl⟩ }

theorem Sends.setGroup {g : Nat} {x : MsgGroup} (h : Sends s t) : Sends s (t.setGroup g x) :=
  h.withDrove { Droveway.Sends.refl with }

theorem Sends.rewriteWords {b : WordBuffer} {i : Nat} (h : Sends s t) : Sends s (t.rewriteWords b i) where
  frame := congrArg (fun v : State => { v with words := (t.rewriteWords b i).words }) h.frame
  regs := h.regs
  drove := h.drove

theorem Sends.setYoke {f r : Nat} {y : Yoke} (h : Sends s t) : Sends s (t.setYoke f r y) where
  frame := congrArg (fun v : State => { v with yokes := (t.setYoke f r y).yokes }) h.frame
  regs := h.regs
  drove := h.drove

theorem Sends.setYokeLevel {f : Nat} {v : Int} (h : Sends s t) : Sends s (t.setYokeLevel f 2 v) where
  frame := congrArg (fun u : State => { u with regs := (t.setYokeLevel f 2 v).regs }) h.frame
  regs a ha := (State.reg_setReg_ne _ _ (ha f)).trans (h.regs a ha)
  drove := h.drove

/-! Admissions (R215, R226). -/

theorem Sends.admitFrame {uid : Nat} (h : Sends s t) : Sends s (admitAtOnce t (.frame uid)) :=
  (h.mapMessages : Sends s (mapMessage t uid fun m => { m with admitted := true }))

theorem Sends.askFrame {m : Message} (h : Sends s t) : Sends s (askFrame t m) :=
  ite h.admitFrame (ite h.setYokeLevel.admitFrame h.setYoke)

/-! Assignment to streams (R225). -/

/-- One message held for peer p goes to port q, and is written into its buffers. -/
theorem Sends.assignOne {p q rr : Nat} {held ready : List Message} (h : Sends s t) :
    Sends s (((t.setPeer p { t.drovePeer p with held := held, rr := rr }).setPort q
      { t.drovePort q with ready := ready }).rewriteWords .drove q) :=
  have hpeer : Sends s (t.setPeer p { t.drovePeer p with held := held, rr := rr }) := h.setPeer rfl rfl
  have hport : Sends s (State.setPort _ q { t.drovePort q with ready := ready }) := hpeer.setPort rfl
  hport.rewriteWords

theorem Sends.assignHeld {p fuel : Nat} (h : Sends s t) : Sends s (assignHeld t p fuel) := by
  induction fuel generalizing t with
  | zero => exact h
  | succ fuel ih =>
    rw [Machine.assignHeld]
    dsimp only
    split
    · apply ih
      split
      · exact h.assignOne
      · exact h.assignOne.askFrame
    · exact h

theorem Sends.assignAll {p : Nat} (h : Sends s t) : Sends s (assignAll t p) := h.assignHeld

/-! Messages that are issued, and those that are over (R228, R243, R247). -/

theorem Sends.undeliver {m : Message} (h : Sends s t) : Sends s (undeliver t m) := by
  unfold Machine.undeliver
  split
  · exact h
  · exact Sends.mapMessages (h.withDrove { Droveway.Sends.refl with })

theorem Sends.groupOver {m : Message} {lost rejected : Bool} (h : Sends s t) : Sends s (groupOver t m lost rejected) := by
  unfold Machine.groupOver
  split
  · exact h
  · exact h.setGroup

end

end Sys2Proof.Machine
end

section
/-! ACK, NACK and OPEN at a stream's window (R230, R232, R233). -/

namespace Sys2Proof.Machine

/-! Retransmission (R233). -/

/-- A window frame that is to be sent again, where it lies at number n or above. -/
def markFrame (n : Nat) (w : WindowFrame) : WindowFrame :=
  if seqFrom n w.seq then
    { w with again := true, msg := { w.msg with asked := true, admitted := w.msg.asked && w.msg.admitted } }
  else w

theorem markFrame_seq (n : Nat) (w : WindowFrame) : (markFrame n w).seq = w.seq := by
  unfold markFrame
  split <;> rfl

theorem markFrame_again {n : Nat} {w : WindowFrame} (h : seqFrom n w.seq = true) : (markFrame n w).again = true := by
  rw [markFrame, if_pos h]

/-- A stream whose window frames from number n on are to be sent again. -/
def Stream.markedFrom (x : Stream) (n : Nat) : Stream := { x with window := x.window.map (markFrame n) }

@[simp] theorem Stream.markedFrom_seqs (x : Stream) (n : Nat) :
    (x.markedFrom n).window.map (·.seq) = x.window.map (·.seq) := by
  simp only [Stream.markedFrom, List.map_map, Function.comp_def, markFrame_seq]

theorem Stream.markedFrom_again {x : Stream} {n : Nat} {w : WindowFrame} (hw : w ∈ (x.markedFrom n).window)
    (h : seqFrom n w.seq = true) : w.again = true := by
  rw [Stream.markedFrom, List.mem_map] at hw
  obtain ⟨v, -, rfl⟩ := hw
  exact markFrame_again (markFrame_seq n v ▸ h)

/-- A message's change leaves what its frame is. -/
theorem Stream.mem_mapMsgs {x : Stream} {on : Message → Message} {w : WindowFrame} (hw : w ∈ (x.mapMsgs on).window) :
    ∃ v ∈ x.window, w.seq = v.seq ∧ w.again = v.again := by
  rw [Stream.mapMsgs, List.mem_map] at hw
  obtain ⟨v, hv, rfl⟩ := hw
  exact ⟨v, hv, rfl, rfl⟩

theorem retransmitFrom_sends (s : State) (q p n : Nat) :
    Sends (s.setStream q p ((s.stream q p).markedFrom n)) (retransmitFrom s q p n) :=
  Sends.refl.foldl fun _ _ h => h.askFrame

theorem retransmitFrom_seqs (s : State) (q p n : Nat) :
    ((retransmitFrom s q p n).stream q p).window.map (·.seq) = (s.stream q p).window.map (·.seq) := by
  rw [(retransmitFrom_sends s q p n).seqs, State.stream_setStream_self, Stream.markedFrom_seqs]

theorem retransmitFrom_again {s : State} {q p n : Nat} {w : WindowFrame}
    (hw : w ∈ ((retransmitFrom s q p n).stream q p).window) (h : seqFrom n w.seq = true) : w.again = true := by
  obtain ⟨on, e⟩ := (retransmitFrom_sends s q p n).stream q p
  rw [e, State.stream_setStream_self] at hw
  obtain ⟨v, hv, hseq, hagain⟩ := Stream.mem_mapMsgs hw
  rw [hagain]
  exact Stream.markedFrom_again hv (hseq ▸ h)

/-! Cumulative acknowledgements (R232, R233). -/

/-- What an acknowledgement of the frames below n takes out of a window, and the message that a NACK rejects. -/
def acknowledges (n : Nat) (rejected : Option Nat) (w : WindowFrame) : Bool :=
  (w.seq != n && seqFrom w.seq n) || rejected == some w.msg.msgId

/-- The state once the window has lost what is acknowledged. -/
def State.acked (s : State) (q p n : Nat) (rejected : Option Nat) : State :=
  let t := s.stream q p
  if (t.window.filter (acknowledges n rejected)).isEmpty then s
  else s.setStream q p
    { t with window := t.window.filter fun w => !acknowledges n rejected w, timeouts := 0, lastAdvance := s.now }

theorem acked_shows (s : State) (q p n : Nat) (rejected : Option Nat) : let u := s.acked q p n rejected
    (u.stream q p).window = (s.stream q p).window.filter (fun w => !acknowledges n rejected w) ∧
      (u.stream q p).expected = (s.stream q p).expected ∧ u.mem = s.mem ∧ u.pending = s.pending := by
  unfold State.acked
  dsimp only
  split
  · next h =>
    refine ⟨(List.filter_eq_self.mpr fun w hw => ?_).symm, rfl, rfl, rfl⟩
    rw [List.isEmpty_iff, List.filter_eq_nil_iff] at h
    rw [Bool.eq_false_iff.mpr (h w hw)]
    rfl
  · rw [State.stream_setStream_self]
    exact ⟨rfl, rfl, rfl, rfl⟩

theorem acknowledge_sends (s : State) (q p n : Nat) (rejected : Option Nat) :
    Sends (s.acked q p n rejected) (acknowledge s q p n rejected) := by
  refine Sends.assignAll (Sends.refl.foldl fun t w h => ?_)
  exact (Sends.ite h.undeliver h).groupOver

/-- What an acknowledgement leaves: the window without what it takes out, the expected number, and every byte of memory. -/
theorem acknowledge_shows (s : State) (q p n : Nat) (rejected : Option Nat) : let t := acknowledge s q p n rejected
    (t.stream q p).window.map (·.seq) =
        ((s.stream q p).window.filter fun w => !acknowledges n rejected w).map (·.seq) ∧
      (t.stream q p).expected = (s.stream q p).expected ∧ t.mem = s.mem ∧ t.pending = s.pending := by
  have h := acknowledge_sends s q p n rejected
  obtain ⟨hwindow, hexp, hmem, hpending⟩ := acked_shows s q p n rejected
  exact ⟨by rw [h.seqs, hwindow], (h.expected q p).trans hexp, h.mem.trans hmem, h.pending.trans hpending⟩

/-! NACK (R233). -/

/-- The message that a NACK rejects, for a reason from 3 to 6. -/
def DroveHeader.rejected (h : DroveHeader) : Option Nat := if 3 ≤ h.reason ∧ h.reason ≤ 6 then some h.msgId else none

theorem rejected_beq_some (h : DroveHeader) (id : Nat) :
    (h.rejected == some id) = (3 ≤ h.reason && h.reason ≤ 6 && id == h.msgId) := by
  unfold DroveHeader.rejected
  split
  · next hr => simp only [hr, decide_true, Bool.true_and, Option.some_beq_some, Bool.beq_comm]
  · next hr =>
    rw [← Bool.decide_and, decide_eq_false hr]
    rfl

theorem acknowledges_none (n : Nat) :
    (fun w => !acknowledges n none w) = fun w : WindowFrame => !(w.seq != n && seqFrom w.seq n) := by
  funext w
  rw [acknowledges, show (none == some w.msg.msgId) = false from rfl, Bool.or_false]

/-- A NACK takes out what an ACK of its number would, and the frame of the message that it rejects. -/
theorem filter_acknowledges (h : DroveHeader) (ws : List WindowFrame) :
    ws.filter (fun w => !acknowledges h.seq h.rejected w) =
      (ws.filter fun w => !(w.seq != h.seq && seqFrom w.seq h.seq)).filter fun w =>
        !(3 ≤ h.reason && h.reason ≤ 6 && w.msg.msgId == h.msgId) := by
  rw [List.filter_filter]
  refine congrArg (List.filter · ws) (funext fun w => ?_)
  rw [acknowledges, rejected_beq_some, Bool.not_or, Bool.and_comm]

theorem receiveNack_of_gap {s : State} {q : Nat} {h : DroveHeader} (hr : h.reason = 1) :
    receiveNack s q h = retransmitFrom (acknowledge s q h.src h.seq h.rejected) q h.src h.seq := if_pos hr

theorem receiveNack_of_other {s : State} {q : Nat} {h : DroveHeader} (hr : h.reason ≠ 1) :
    receiveNack s q h = acknowledge s q h.src h.seq h.rejected := if_neg hr

theorem receiveNack_shows (s : State) (q : Nat) (h : DroveHeader) : let t := receiveNack s q h
    (t.stream q h.src).window.map (·.seq) =
        ((s.stream q h.src).window.filter fun w => !acknowledges h.seq h.rejected w).map (·.seq) ∧
      (h.reason = 1 → ∀ w ∈ (t.stream q h.src).window, seqFrom h.seq w.seq = true → w.again = true) ∧
      t.mem = s.mem ∧ t.pending = s.pending := by
  obtain ⟨hseqs, -, hmem, hpending⟩ := acknowledge_shows s q h.src h.seq h.rejected
  by_cases hr : h.reason = 1
  · rw [receiveNack_of_gap hr]
    have hsent := retransmitFrom_sends (acknowledge s q h.src h.seq h.rejected) q h.src h.seq
    exact ⟨(retransmitFrom_seqs _ _ _ _).trans hseqs, fun _ _ hw hn => retransmitFrom_again hw hn,
      hsent.mem.trans hmem, hsent.pending.trans hpending⟩
  · rw [receiveNack_of_other hr]
    exact ⟨hseqs, fun h1 => absurd h1 hr, hmem, hpending⟩

/-! ACK with OPEN (R230). -/

theorem renumber_seqs (n : Nat) (ws : List WindowFrame) : (renumber n ws).map (·.seq) = List.range' n ws.length := by
  induction ws generalizing n with
  | nil => rfl
  | cons w ws ih => rw [renumber, List.map_cons, ih, List.length_cons, List.range'_succ]

/-- The state once an OPEN is answered, unless it is itself an answer (log 16). -/
def State.openReplied (s : State) (q p : Nat) : State :=
  if s.openAnswered q p then s.setStream q p { s.stream q p with openAt := none }
  else sendOpen (s.setStream q p { s.stream q p with sinceAck := 0 }) q p

theorem openReplied_shows (s : State) (q p : Nat) : let u := s.openReplied q p
    u.mem = s.mem ∧ u.pending = s.pending ∧ (u.stream q p).window = (s.stream q p).window ∧
      (u.drovePort q).control = (s.drovePort q).control ++
        (if s.openAnswered q p then [] else [{ peer := p, nack := false, seq := 0, openIt := true }]) := by
  unfold State.openReplied
  dsimp only
  split
  · rw [State.stream_setStream_self]
    exact ⟨rfl, rfl, rfl, (List.append_nil _).symm⟩
  · have hwindow : ((sendOpen (s.setStream q p { s.stream q p with sinceAck := 0 }) q p).stream q p).window =
        (s.stream q p).window := by
      have e : ∀ u : State, ((sendOpen u q p).stream q p).window = (u.stream q p).window := fun u =>
        (congrArg Stream.window (State.stream_setStream_self u q p { u.stream q p with openAt := some u.now })).trans rfl
      rw [e, State.stream_setStream_self]
    exact ⟨rfl, rfl, hwindow, sendControl_control _ _ _⟩

/-- A stream that an OPEN has opened: it expects number 0, and its window is numbered again from 0. -/
def Stream.opened (x : Stream) (now : Nat) : Stream :=
  { x with
    rxOpen := true, expected := 0, nackTick := none
    window := renumber 0 x.window, nextSeq := x.window.length, timeouts := 0, lastAdvance := now }

/-- What marking for retransmission and asking for admission leave of a stream that is opened. -/
theorem Stream.opened_shows (x : Stream) (now : Nat) (on : Message → Message) :
    let y := ((x.opened now).markedFrom 0).mapMsgs on
    y.rxOpen = true ∧ y.expected = 0 ∧ y.window.map (·.seq) = List.range x.window.length ∧
      y.nextSeq = x.window.length := by
  refine ⟨rfl, rfl, ?_, rfl⟩
  rw [Stream.mapMsgs_seqs, Stream.markedFrom_seqs, Stream.opened, renumber_seqs, List.range_eq_range']

/-- The state in which the stream is open both ways. -/
def State.openedBoth (s : State) (q p : Nat) : State :=
  setStreamUp (s.setStream q p ((s.stream q p).opened s.now)) q p true

theorem receiveOpen_eq (s : State) (q p : Nat) : receiveOpen s q p =
    assignAll (retransmitFrom ((s.openReplied q p).openedBoth q p) q p 0) p := rfl

theorem openedBoth_stream (s : State) (q p : Nat) : (s.openedBoth q p).stream q p = (s.stream q p).opened s.now :=
  State.stream_setStream_self s q p _

theorem openedBoth_kept (s : State) (q p : Nat) : ∃ r d, s.openedBoth q p =
    { s with regs := r, drove := { s.drove with streams := d } } := ⟨_, _, rfl⟩

theorem State.streamUp_setStream (s : State) (q p q' p' : Nat) (x : Stream) :
    (s.setStream q p x).streamUp q' p' = s.streamUp q' p' := rfl

theorem openedBoth_streamUp (s : State) {q p : Nat} (hq : q < 4) (hp : p < 16) :
    (s.openedBoth q p).streamUp q p = true := by
  have hne : Reg.drovePortStatus q ≠ Reg.drovePeer p := by unfold Reg.drovePortStatus Reg.drovePeer; omega
  rw [State.streamUp, State.openedBoth, setStreamUp, State.bit_setBit_of_disjoint _ _ _ _ (by omega) (.inl hne)]
  exact State.bit_setBit_self _ _ _ (by omega)

theorem receiveOpen_sends (s : State) (q p : Nat) : let u := (s.openReplied q p).openedBoth q p
    Sends (u.setStream q p ((u.stream q p).markedFrom 0)) (receiveOpen s q p) := by
  rw [receiveOpen_eq]
  exact (retransmitFrom_sends _ q p 0).assignAll

theorem receiveOpen_stream (s : State) (q p : Nat) : ∃ on now, (receiveOpen s q p).stream q p =
    ((((s.openReplied q p).stream q p).opened now).markedFrom 0).mapMsgs on := by
  obtain ⟨on, e⟩ := (receiveOpen_sends s q p).stream q p
  rw [State.stream_setStream_self, openedBoth_stream] at e
  exact ⟨on, _, e⟩

/-- Beside its stream, an OPEN that is answered leaves what the answer leaves. -/
theorem receiveOpen_kept (s : State) (q p : Nat) : let t := receiveOpen s q p
    (t.drovePort q).control = ((s.openReplied q p).drovePort q).control ∧ t.mem = (s.openReplied q p).mem ∧
      t.pending = (s.openReplied q p).pending := by
  have h := receiveOpen_sends s q p
  obtain ⟨r, d, e⟩ := openedBoth_kept (s.openReplied q p) q p
  rw [e] at h
  exact ⟨h.control q, h.mem, h.pending⟩

/-- What an OPEN leaves: its stream open both ways, and the answer, unless it is an answer itself (log 16). -/
structure OpenShown (s : State) (q p : Nat) (t : State) : Prop where
  rxOpen : (t.stream q p).rxOpen = true
  expected : (t.stream q p).expected = 0
  window : (t.stream q p).window.map (·.seq) = List.range (s.stream q p).window.length
  nextSeq : (t.stream q p).nextSeq = (s.stream q p).window.length
  up : t.streamUp q p = true
  control : (t.drovePort q).control = (s.drovePort q).control ++
    (if s.openAnswered q p then [] else [{ peer := p, nack := false, seq := 0, openIt := true }])
  mem : t.mem = s.mem
  pending : t.pending = s.pending

theorem receiveOpen_streamUp (s : State) {q p : Nat} (hq : q < 4) (hp : p < 16) :
    (receiveOpen s q p).streamUp q p = true := by
  rw [(receiveOpen_sends s q p).streamUp hq p, State.streamUp_setStream]
  exact openedBoth_streamUp _ hq hp

theorem receiveOpen_shows (s : State) {q p : Nat} (hq : q < 4) (hp : p < 16) : OpenShown s q p (receiveOpen s q p) := by
  obtain ⟨on, now, e⟩ := receiveOpen_stream s q p
  obtain ⟨hcontrol, hmem, hpending⟩ := receiveOpen_kept s q p
  obtain ⟨hmem', hpending', hwindow, hqueued⟩ := openReplied_shows s q p
  obtain ⟨hrx, hexp, hseqs, hnext⟩ := Stream.opened_shows ((s.openReplied q p).stream q p) now on
  have hup := receiveOpen_streamUp s hq hp
  generalize receiveOpen s q p = t at *
  generalize s.openReplied q p = u at *
  rw [← e, hwindow] at hseqs hnext
  rw [← e] at hrx hexp
  exact ⟨hrx, hexp, hseqs, hnext, hup, hcontrol.trans hqueued, hmem.trans hmem', hpending.trans hpending'⟩

theorem readHeader_src_lt (bs : List Byte) : (readHeader bs).src < 16 := Nat.mod_lt _ (by decide)

end Sys2Proof.Machine

section
open Sys2Proof Sys2Proof.Machine

/-- Settles O27: what an acknowledgement takes out of the window, and what OPEN makes of it. -/
theorem droveAcknowledgementsMoveTheWindow : Obligations.DroveAcknowledgementsMoveTheWindow := by
  intro r f hh hf hgood s h q x kept
  have hq : s.pending = r.pending := settleLate_pending r
  have hack := exec_droveAckRx hf r
  have hnack := exec_droveNackRx hf r
  have hopen := exec_droveOpenRx hf r
  change exec _ r = live r (receiveDrove s f _ _) at hack hnack hopen
  change s.droveCheck f = .good at hgood
  clear_value s
  refine ⟨fun hk hflag => ?_, fun hk => ?_, fun hk hflag => ?_⟩
  · rw [receiveDrove_of_mine hgood (by simp [h, hk, hflag])] at hack
    obtain ⟨hseqs, hexp, hmem, hpending⟩ := acknowledge_shows s q h.src h.seq none
    rw [acknowledges_none] at hseqs
    exact yields_of_kept_queue hack hh (hpending.trans hq) ⟨hseqs, hexp, sameBytes_of_mem hmem⟩
  · rw [receiveDrove_of_mine hgood (by simp [h, hk])] at hnack
    obtain ⟨hseqs, hagain, hmem, hpending⟩ := receiveNack_shows s q h
    rw [filter_acknowledges] at hseqs
    exact yields_of_kept_queue hnack hh (hpending.trans hq) ⟨hseqs, hagain, sameBytes_of_mem hmem⟩
  · rw [receiveDrove_of_mine hgood (by simp [h, hk, hflag])] at hopen
    have ho := receiveOpen_shows s (q := q) (p := h.src) hf (readHeader_src_lt _)
    exact yields_of_kept_queue hopen hh (ho.pending.trans hq)
      ⟨ho.rxOpen, ho.expected, ho.window, ho.nextSeq, ho.up, ho.control, sameBytes_of_mem ho.mem⟩

end
end

section
/-! Messages that this chip issues: what their issue leaves of the streams and records of what it receives (R225, R228). -/

namespace Sys2Proof.Machine

section
variable {s t u : State}

/-! A message to another chip (R225, R228, R243). -/

theorem totalMessage_sends (s : State) (m : Message) :
    Sends s (totalMessage s m).2 ∧ (totalMessage s m).1.dst = m.dst := by
  unfold totalMessage
  split
  · exact ⟨.refl, rfl⟩
  · refine ⟨Sends.refl.withDrove { Droveway.Sends.refl with }, ?_⟩
    dsimp only
    split <;> rfl

theorem numberMessage_sends (s : State) (m : Message) : Sends s (numberMessage s m).2 := by
  have hpeer : Sends s (({ s with drove := { s.drove with nextUid := s.drove.nextUid + 1 } }).setPeer m.dst
      { s.drovePeer m.dst with nextMsg := ((s.drovePeer m.dst).nextMsg + 1) % 2 ^ 32 }) :=
    Sends.setPeer (Sends.refl.withDrove { Droveway.Sends.refl with }) rfl rfl
  unfold numberMessage
  dsimp only
  split
  · exact hpeer
  · exact hpeer.setGroup

theorem Sends.groupFenced {m : Message} (h : Sends s t) : Sends s (groupFenced t m) :=
  ite h.undeliver.groupOver h.undeliver.groupOver

theorem issueRemote_sends (s : State) (m : Message) : Sends s (issueRemote s m) := by
  have h := numberMessage_sends s m
  unfold issueRemote
  dsimp only
  split
  · exact h.groupFenced
  · exact Sends.assignAll (Sends.setPeer h rfl rfl)

/-- With no message to itself waiting, a chip has none to deliver. -/
theorem drainOwn_of_nil (h : s.drove.own = []) : drainOwn s = s := by
  have hnone : deliverOwn s.drove.own.length s = s := by
    rw [h]
    rfl
  rw [drainOwn, hnone, hnone]

/-- The issue of a message to another chip is work on what waits to be sent. -/
theorem issueMessage_sends {m : Message} (hown : s.drove.own = []) (hdst : m.dst ≠ s.chipId) :
    Sends s (issueMessage s m) := by
  obtain ⟨htotal, hsame⟩ := totalMessage_sends s m
  have hne : (totalMessage s m).1.dst ≠ (totalMessage s m).2.chipId := by rwa [hsame, htotal.chipId]
  have hremote := htotal.trans (issueRemote_sends (totalMessage s m).2 (totalMessage s m).1)
  have hqueue : queueMessage s m = issueRemote (totalMessage s m).2 (totalMessage s m).1 := if_neg hne
  rw [issueMessage, hqueue, drainOwn_of_nil (hremote.drove.own hown)]
  exact hremote

/-- So is the issue of several. -/
theorem foldl_issueMessage_sends {ms : List Message} (hown : s.drove.own = []) (hdst : ∀ m ∈ ms, m.dst ≠ s.chipId) :
    Sends s (ms.foldl issueMessage s) := by
  refine foldl_induct (P := Sends s) ms .refl fun t m hm h => h.trans (issueMessage_sends (h.drove.own hown) ?_)
  rw [h.chipId]
  exact hdst m hm

/-! What stays of the receiver. -/

/-- From s to t every stream keeps its expected number and every peer the record of what it delivered; only a message of this chip
to itself waits in t for the end of its cycle (R239). -/
structure Stays (s t : State) : Prop where
  expected : ∀ q p, (t.stream q p).expected = (s.stream q p).expected
  record : ∀ p, (t.drovePeer p).highest = (s.drovePeer p).highest ∧ (t.drovePeer p).seen = (s.drovePeer p).seen
  late : ∀ l, t.drove.late = some l → l.port = none

theorem Stays.refl (h : s.drove.late = none) : Stays s s :=
  ⟨fun _ _ => rfl, fun _ => ⟨rfl, rfl⟩, fun l hl => by rw [h] at hl; cases hl⟩

theorem Stays.sends (h : Stays s t) (h' : Sends t u) : Stays s u where
  expected q p := (h'.expected q p).trans (h.expected q p)
  record p := ⟨(h'.drove.record p).1.trans (h.record p).1, (h'.drove.record p).2.trans (h.record p).2⟩
  late l hl := h.late l (h'.drove.late ▸ hl)

theorem Stays.of_frame (h : Stays s t) (hs : u.drove.streams = t.drove.streams) (hp : u.drove.peers = t.drove.peers)
    (hl : ∀ l, u.drove.late = some l → l.port = none) : Stays s u where
  expected q p := by
    rw [State.stream, hs]
    exact h.expected q p
  record p := by
    rw [State.drovePeer, hp]
    exact h.record p
  late := hl

theorem Stays.foldl {α : Type} {f : State → α → State} {xs : List α} (h : Stays s t)
    (hf : ∀ t x, Stays s t → Stays s (f t x)) : Stays s (xs.foldl f t) :=
  foldl_induct (P := Stays s) xs h fun t x _ => hf t x

/-! A message of this chip to itself at its buffer (R225, R237, R239). -/

theorem Stays.takeMessage {src : Nat} {m : Message} (h : Stays s t) : Stays s (takeMessage t none src m) := by
  have haccept : Stays s (acceptMessage (roundStarted t m) src m) := by
    obtain ⟨r, b, e⟩ := acceptMessage_frame t src m
    exact h.of_frame (by rw [e]) (by rw [e]) (acceptMessage_late t src m ▸ h.late)
  rw [takeMessage_from_self]
  exact haccept.sends Sends.refl.groupOver

theorem Stays.rejectEntry (h : Stays s t) : Stays s (rejectEntry t none) := h.of_frame rfl rfl h.late

theorem Stays.refuseMessage {src why : Nat} {m : Message} (h : Stays s t) : Stays s (refuseMessage t none src m why) :=
  h.rejectEntry.sends Sends.refl.undeliver.groupOver

theorem Stays.noLate (h : Stays s t) : Stays s t.noLate := h.of_frame rfl rfl nofun

theorem Stays.settleLate (h : Stays s t) : Stays s (settleLate t) := by
  cases hl : t.drove.late with
  | none => rwa [settleLate_of_none hl]
  | some l =>
    rw [settleLate_of_some hl, h.late l hl]
    split
    · exact h.noLate.takeMessage
    · exact h.noLate.refuseMessage

theorem Stays.arriveMessage {src : Nat} {m : Message} (h : Stays s t) : Stays s (arriveMessage t none src m) := by
  unfold Machine.arriveMessage
  split
  · exact h.takeMessage
  · split
    · exact h.of_frame rfl rfl fun l hl => by cases hl; rfl
    · exact h.refuseMessage

/-! A message of this chip to itself as it is issued and delivered (R225, R252). -/

/-- A yoke's answer to a request of a frame. -/
theorem Stays.yokeRequest {f r n uid : Nat} (h : Stays s t) : Stays s (yokeRequest t f r ⟨n, .frame uid⟩) := by
  unfold Machine.yokeRequest
  split
  · exact h.sends Sends.refl.admitFrame
  · dsimp only
    split
    · have hlevel : Stays s (t.setYokeLevel f r (t.yokeLevel f r - n)) := h.of_frame rfl rfl h.late
      exact hlevel.sends Sends.refl.admitFrame
    · exact h.of_frame rfl rfl h.late

theorem Stays.queueSelf {m : Message} (h : Stays s t) : Stays s (queueSelf t m) := by
  have hnumbered := h.sends (numberMessage_sends t m)
  have hqueued : Stays s { (numberMessage t m).2 with drove := { (numberMessage t m).2.drove with
      own := (numberMessage t m).2.drove.own ++ [(numberMessage t m).1] } } := hnumbered.of_frame rfl rfl hnumbered.late
  exact hqueued.yokeRequest

theorem Stays.queueMessage {m : Message} (h : Stays s t) : Stays s (queueMessage t m) := by
  have htotal := h.sends (totalMessage_sends t m).1
  unfold Machine.queueMessage
  dsimp only
  split
  · exact htotal.queueSelf
  · exact htotal.sends (issueRemote_sends _ _)

/-- The answers to a GET go to its requester; the free bytes of their tag are all that is drawn for them. -/
theorem responses_shows (s : State) (src : Nat) (m : Message) :
    (responses s src m).2 = { s with freeCount := s.freeCount + 4 } ∧ ∀ k ∈ (responses s src m).1, k.dst = src := by
  refine ⟨rfl, fun k hk => ?_⟩
  obtain ⟨⟨off, bs⟩, -, rfl⟩ := List.mem_map.mp hk
  rfl

theorem Stays.responses {src : Nat} {m : Message} (h : Stays s t) : Stays s (responses t src m).2 :=
  h.of_frame rfl rfl h.late

/-- A GET of this chip to itself that its window takes: its answers are issued. -/
def State.selfAnswered (s : State) (m : Message) : State :=
  (responses s s.chipId m).1.foldl queueMessage (groupOver (responses s s.chipId m).2 m false false)

theorem deliverSelf_of_get (s : State) {m : Message} (hk : m.kind = 4) : deliverSelf s m =
    match s.getRejects s.chipId m with
    | some _ => groupOver (rejectEntry s none) m false true
    | none => s.selfAnswered m := by
  rw [deliverSelf, if_pos hk]
  rfl

theorem deliverSelf_of_data (s : State) {m : Message} (hk : m.kind ≠ 4) :
    deliverSelf s m = arriveMessage (settleLate s) none s.chipId m := if_neg hk

theorem Stays.selfAnswered {m : Message} (h : Stays s t) : Stays s (t.selfAnswered m) :=
  Stays.foldl (h.responses.sends Sends.refl.groupOver) fun _ _ => Stays.queueMessage

theorem Stays.deliverSelf {m : Message} (h : Stays s t) : Stays s (deliverSelf t m) := by
  by_cases hk : m.kind = 4
  · rw [deliverSelf_of_get t hk]
    split
    · exact h.rejectEntry.sends Sends.refl.groupOver
    · exact h.selfAnswered
  · rw [deliverSelf_of_data t hk]
    exact h.settleLate.arriveMessage

theorem Stays.deliverOwn {fuel : Nat} (h : Stays s t) : Stays s (deliverOwn fuel t) := by
  induction fuel generalizing t with
  | zero => exact h
  | succ fuel ih =>
    rw [Machine.deliverOwn]
    split
    · split
      · exact ih (Stays.deliverSelf (h.of_frame rfl rfl h.late))
      · exact h
    · exact h

theorem Stays.issueMessage {m : Message} (h : Stays s t) : Stays s (issueMessage t m) :=
  h.queueMessage.deliverOwn.deliverOwn

end

end Sys2Proof.Machine
end

section
/-! Data frames at their stream and their buffer (R231, R232, R234, R237, R239, R252). -/

namespace Sys2Proof.Machine

/-! A payload in memory (R117, R237). -/

section
variable {s : State} {a : Nat}

theorem store_in_dram (h : a < 0x2000000000) (bs : List Byte) (p : Bool) :
    (s.store a bs p).bytes a bs.length = bs ∧ SameBytesOutside a bs.length s (s.store a bs p) := by
  have hbyte := fun x => byte_store s a x bs p fun hge => absurd h (Nat.not_lt.mpr hge)
  refine ⟨bytes_of_written fun i hi => ?_, fun x hx => ?_⟩
  · rw [hbyte, if_pos (by omega), Nat.add_sub_cancel_left]
  · rw [hbyte, if_neg hx]

/-- A write into a seedbed as the engine pads it to whole granules (R117). -/
def wholeGranules (a : Nat) (bs : List Byte) : List Byte :=
  List.replicate (a % 32) 0 ++ bs ++ List.replicate (roundUp (a % 32 + bs.length) 32 - (a % 32 + bs.length)) 0

theorem length_wholeGranules (a : Nat) (bs : List Byte) :
    (wholeGranules a bs).length = roundUp (a % 32 + bs.length) 32 := by
  simp only [wholeGranules, List.length_append, List.length_replicate, roundUp, ceilDiv]
  omega

theorem wholeGranules_getElem? {bs : List Byte} {i : Nat} (hi : i < bs.length) :
    (wholeGranules a bs)[a % 32 + i]? = bs[i]? := by
  rw [wholeGranules, List.append_assoc, List.getElem?_append_right (by simp), List.length_replicate,
    Nat.add_sub_cancel_left, List.getElem?_append_left hi]

theorem byte_writeSeed (s : State) (a x : Nat) (bs : List Byte) (p : Bool) : (writeSeed s a bs p).byte x =
    if a / 32 * 32 ≤ x ∧ x < a / 32 * 32 + roundUp (a % 32 + bs.length) 32 then
      ((wholeGranules a bs)[x - a / 32 * 32]?).getD 0
    else s.byte x := by
  have e : writeSeed s a bs p = ((cancelWriteBacks s (a / 32 * 32) (wholeGranules a bs).length).poke (a / 32 * 32)
      (wholeGranules a bs)).markRange (a / 32 * 32) (wholeGranules a bs).length (if p then .double else .clean) := by
    simp only [writeSeed, wholeGranules, List.length_append, List.length_replicate]
  rw [e, markRange_byte, byte_poke, length_wholeGranules]
  split
  · rfl
  · rw [State.byte, cancelWriteBacks_mem]
    rfl

theorem store_in_seedbed {n : Nat} (h : seedbedOf a = some n) (bs : List Byte) (p : Bool) :
    (s.store a bs p).bytes a bs.length = bs ∧
      SameBytesOutside (a / 32 * 32) (roundUp (a % 32 + bs.length) 32) s (s.store a bs p) := by
  rw [store_of_seedbed h]
  refine ⟨bytes_of_written fun i hi => ?_, fun x hx => ?_⟩
  · have hround : a % 32 + bs.length ≤ roundUp (a % 32 + bs.length) 32 := by
      unfold roundUp ceilDiv
      omega
    rw [byte_writeSeed, if_pos (by omega), show a + i - a / 32 * 32 = a % 32 + i by omega, wholeGranules_getElem? hi]
  · rw [byte_writeSeed, if_neg hx]

end

/-! The frame with the expected number (R231, R234, R237). -/

/-- The state once the frame with the expected number is the next but one to come (R231). -/
def State.advanced (s : State) (q p : Nat) : State :=
  s.setStream q p { s.stream q p with expected := ((s.stream q p).expected + 1) % 2 ^ 32, nackTick := none }

section
variable {s : State} {q p : Nat}

theorem advanced_expected (s : State) (q p : Nat) :
    ((s.advanced q p).stream q p).expected = ((s.stream q p).expected + 1) % 2 ^ 32 := by
  rw [State.advanced, State.stream_setStream_self]

theorem advanced_rejects (s : State) (q p : Nat) (m : Message) : (s.advanced q p).rejects m = s.rejects m := rfl

theorem advanced_getRejects (s : State) (q p src : Nat) (m : Message) :
    (s.advanced q p).getRejects src m = s.getRejects src m := rfl

variable {h : DroveHeader}

theorem receiveNext_of_duplicate (hd : (s.drovePeer h.src).duplicate h.msgId = true) : receiveNext s q h =
    countForAck ((s.advanced q h.src).raise { code := 0x0607, cls := 0, inst := h.src }) q h.src := if_pos hd

theorem receiveNext_of_data (hd : (s.drovePeer h.src).duplicate h.msgId = false) (hk : h.kind ≠ 4) :
    receiveNext s q h = arriveMessage (s.advanced q h.src) (some q) h.src h.msg :=
  (if_neg (Bool.eq_false_iff.mp hd)).trans (if_neg hk)

/-- What a GET does at its window (R252). -/
def State.getArrives (s : State) (q : Nat) (h : DroveHeader) : State :=
  match s.getRejects h.src h.msg with
  | some why => refuseMessage s (some q) h.src h.msg why
  | none =>
    let t := s.setPeer h.src ((s.drovePeer h.src).record h.msgId)
    (responses t h.src h.msg).1.foldl issueMessage (countForAck (responses t h.src h.msg).2 q h.src)

theorem receiveNext_of_get (hd : (s.drovePeer h.src).duplicate h.msgId = false) (hk : h.kind = 4) :
    receiveNext s q h = (s.advanced q h.src).getArrives q h :=
  (if_neg (Bool.eq_false_iff.mp hd)).trans (if_pos hk)

end

section
variable {s : State} {q src : Nat} {m : Message} {why : Nat}

/-- A duplicate leaves its event, and counts for the stream's next ACK (R234). -/
theorem countForAck_shows (s : State) (q p : Nat) (e : Event) : let t := countForAck ((s.advanced q p).raise e) q p
    (t.stream q p).expected = ((s.stream q p).expected + 1) % 2 ^ 32 ∧
      t = { s.raise e with drove := t.drove } ∧ t.pending = s.pending := by
  have hexp := countForAck_expected ((s.advanced q p).raise e) q p
  obtain ⟨x, ps, hframe, -⟩ := countForAck_frame ((s.advanced q p).raise e) q p
  refine ⟨hexp.trans (advanced_expected s q p), ?_, ?_⟩
  · rw [hframe]
    rfl
  · rw [hframe]
    rfl

/-- A message of a peer that its buffer or its window rejects: its NACK, its event (R237, R252). -/
theorem refuseMessage_shows (s : State) (q src : Nat) (m : Message) (why : Nat) :
    let t := refuseMessage (s.advanced q src) (some q) src m why
    (t.stream q src).expected = ((s.stream q src).expected + 1) % 2 ^ 32 ∧
      (t.drovePort q).control = (s.drovePort q).control ++
        [{ peer := src, nack := true, seq := ((s.stream q src).expected + 1) % 2 ^ 32, reason := why, msgId := m.msgId }] ∧
      t = { s.raise { code := 0x0606, cls := 0, inst := q } with drove := t.drove } ∧ t.pending = s.pending := by
  rw [refuseMessage_from_peer, advanced_expected]
  exact ⟨advanced_expected s q src, sendControl_control _ _ _, rfl, rfl⟩

/-- A message of a peer that its buffer takes: recorded, and its payload written (R234, R237). -/
theorem takeMessage_shows (s : State) (q src : Nat) (m : Message) : let t := takeMessage s (some q) src m
    (t.stream q src).expected = (s.stream q src).expected ∧
      t.drovePeer src = (s.drovePeer src).record m.msgId ∧
      ∃ v : State, v.mem = s.mem ∧ t.mem = (v.store (s.payloadAddr m) m.payload).mem := by
  obtain ⟨r, b, haccept⟩ := acceptMessage_frame s src m
  obtain ⟨r', b', hround⟩ := roundStarted_frame s m
  rw [takeMessage_from_peer]
  generalize hu : (acceptMessage (roundStarted s m) src m).setPeer src ((s.drovePeer src).record m.msgId) = u
  have hstream : u.stream q src = s.stream q src := by
    rw [← hu, haccept]
    rfl
  have hpeer : u.drovePeer src = (s.drovePeer src).record m.msgId := by rw [← hu, State.drovePeer_setPeer_self]
  have hmem : u.mem = ((roundStarted s m).store (s.payloadAddr m) m.payload).mem := by
    rw [← hu, haccept]
    rfl
  have hexp := (countForAck_expected u q src).trans (congrArg Stream.expected hstream)
  obtain ⟨x, ps, hcount, -⟩ := countForAck_frame u q src
  refine ⟨hexp, ?_, roundStarted s m, by rw [hround], ?_⟩
  · rw [hcount]
    exact hpeer
  · rw [hcount]
    exact hmem

/-- Where a taken message's payload lands, and every other byte of memory (R117, R237). -/
theorem takeMessage_payload (s : State) (q src : Nat) (m : Message) : let t := takeMessage s (some q) src m
    let a := s.payloadAddr m
    (a < 0x2000000000 → t.bytes a m.payload.length = m.payload ∧ SameBytesOutside a m.payload.length s t) ∧
      ∀ n, seedbedOf a = some n → t.bytes a m.payload.length = m.payload ∧
        SameBytesOutside (a / 32 * 32) (roundUp (a % 32 + m.payload.length) 32) s t := by
  obtain ⟨-, -, v, hv, ht⟩ := takeMessage_shows s q src m
  generalize takeMessage s (some q) src m = t at ht
  have hout : ∀ lo n, SameBytesOutside lo n v (v.store (s.payloadAddr m) m.payload) → SameBytesOutside lo n s t :=
    fun lo n h x hx => (sameBytes_of_mem ht x).trans ((h x hx).trans (sameBytes_of_mem hv x))
  refine ⟨fun ha => ?_, fun n hn => ?_⟩
  · obtain ⟨hwritten, hkept⟩ := store_in_dram (s := v) ha m.payload false
    exact ⟨(bytes_congr ht _ _).trans hwritten, hout _ _ hkept⟩
  · obtain ⟨hwritten, hkept⟩ := store_in_seedbed (s := v) hn m.payload false
    exact ⟨(bytes_congr ht _ _).trans hwritten, hout _ _ hkept⟩

/-! A data message at its buffer (R237, R239). -/

theorem arriveMessage_of_taken {port : Option Nat} (hr : s.rejects m = none) :
    arriveMessage s port src m = takeMessage s port src m := by
  rw [arriveMessage, hr]

theorem arriveMessage_of_late {port : Option Nat} (hr : s.rejects m = some 4)
    (hm : m.round = (s.roundOf m.buffer + 2) % 65536) :
    arriveMessage s port src m = { s with drove := { s.drove with late := some ⟨port, src, m, s.ioCycle⟩ } } := by
  rw [arriveMessage, hr]
  exact if_pos ⟨rfl, hm⟩

theorem arriveMessage_of_refused {port : Option Nat} (hr : s.rejects m = some why)
    (hm : why ≠ 4 ∨ m.round ≠ (s.roundOf m.buffer + 2) % 65536) :
    arriveMessage s port src m = refuseMessage s port src m why := by
  rw [arriveMessage, hr]
  exact if_neg fun h => hm.elim (· h.1) (· h.2)

/-! A GET at its window (R252). -/

/-- The state once a GET that its window takes is recorded and counted for its stream's next ACK. -/
def State.getTaken (s : State) (q : Nat) (h : DroveHeader) : State :=
  countForAck (responses (s.setPeer h.src ((s.drovePeer h.src).record h.msgId)) h.src h.msg).2 q h.src

variable {h : DroveHeader}

theorem getArrives_of_rejected (hr : s.getRejects h.src h.msg = some why) :
    s.getArrives q h = refuseMessage s (some q) h.src h.msg why := by
  rw [State.getArrives, hr]

theorem getArrives_of_taken (hr : s.getRejects h.src h.msg = none) : ∃ ms : List Message, (∀ m ∈ ms, m.dst = h.src) ∧
    s.getArrives q h = ms.foldl issueMessage (s.getTaken q h) := by
  rw [State.getArrives, hr]
  exact ⟨_, (responses_shows _ _ _).2, rfl⟩

/-- A taken GET is recorded. -/
theorem getTaken_shows (s : State) (q : Nat) (h : DroveHeader) : let t := s.getTaken q h
    (t.stream q h.src).expected = (s.stream q h.src).expected ∧
      t.drovePeer h.src = (s.drovePeer h.src).record h.msgId ∧ t.drove.late = s.drove.late ∧
      t.drove.own = s.drove.own ∧ t.chipId = s.chipId ∧ t.mem = s.mem := by
  unfold State.getTaken
  rw [(responses_shows _ _ _).1]
  generalize hu : s.setPeer h.src ((s.drovePeer h.src).record h.msgId) = u
  have hpeer : u.drovePeer h.src = (s.drovePeer h.src).record h.msgId := by rw [← hu, State.drovePeer_setPeer_self]
  have hexp := countForAck_expected { u with freeCount := u.freeCount + 4 } q h.src
  obtain ⟨x, ps, hcount, -⟩ := countForAck_frame { u with freeCount := u.freeCount + 4 } q h.src
  subst hu
  refine ⟨hexp, ?_⟩
  rw [hcount]
  exact ⟨hpeer, rfl, rfl, rfl, rfl⟩

/-- Its answers leave what the receiver keeps of the stream and the peer, and, to another chip, every byte of memory. -/
theorem getArrives_shows (hr : s.getRejects h.src h.msg = none) (hl : s.drove.late = none) : let t := s.getArrives q h
    (t.stream q h.src).expected = (s.stream q h.src).expected ∧
      (t.drovePeer h.src).highest = ((s.drovePeer h.src).record h.msgId).highest ∧
      (t.drovePeer h.src).seen = ((s.drovePeer h.src).record h.msgId).seen ∧
      (s.drove.own = [] → h.src ≠ s.chipId → SameBytes s t) := by
  obtain ⟨hexp, hpeer, hlate, hown, hchip, hmem⟩ := getTaken_shows s q h
  obtain ⟨ms, hdst, e⟩ := getArrives_of_taken (q := q) hr
  rw [e]
  generalize s.getTaken q h = u at *
  have hstays : Stays u (ms.foldl issueMessage u) := (Stays.refl (hlate.trans hl)).foldl fun _ _ => Stays.issueMessage
  refine ⟨(hstays.expected _ _).trans hexp, hpeer ▸ (hstays.record _).1, hpeer ▸ (hstays.record _).2, fun h0 hne => ?_⟩
  have hsent := foldl_issueMessage_sends (hown.trans h0) fun m hm => by rwa [hdst m hm, hchip]
  exact sameBytes_of_mem (hsent.mem.trans hmem)

/-! What the frame with the expected number comes to (R231, R237, R239, R252). -/

theorem receiveNext_of_taken (hd : (s.drovePeer h.src).duplicate h.msgId = false) (hk : h.kind ≠ 4)
    (hr : s.rejects h.msg = none) : receiveNext s q h = takeMessage (s.advanced q h.src) (some q) h.src h.msg :=
  (receiveNext_of_data hd hk).trans (arriveMessage_of_taken (advanced_rejects s q h.src h.msg ▸ hr))

theorem receiveNext_of_late (hd : (s.drovePeer h.src).duplicate h.msgId = false) (hk : h.kind ≠ 4)
    (hr : s.rejects h.msg = some 4) (hm : h.msg.round = (s.roundOf h.msg.buffer + 2) % 65536) : receiveNext s q h =
      { s.advanced q h.src with
        drove := { (s.advanced q h.src).drove with late := some ⟨some q, h.src, h.msg, s.ioCycle⟩ } } :=
  (receiveNext_of_data hd hk).trans (arriveMessage_of_late (advanced_rejects s q h.src h.msg ▸ hr) hm)

theorem receiveNext_of_refused (hd : (s.drovePeer h.src).duplicate h.msgId = false) (hk : h.kind ≠ 4)
    (hr : s.rejects h.msg = some why) (hm : why ≠ 4 ∨ h.msg.round ≠ (s.roundOf h.msg.buffer + 2) % 65536) :
    receiveNext s q h = refuseMessage (s.advanced q h.src) (some q) h.src h.msg why :=
  (receiveNext_of_data hd hk).trans (arriveMessage_of_refused (advanced_rejects s q h.src h.msg ▸ hr) hm)

theorem receiveNext_of_refused_get (hd : (s.drovePeer h.src).duplicate h.msgId = false) (hk : h.kind = 4)
    (hr : s.getRejects h.src h.msg = some why) :
    receiveNext s q h = refuseMessage (s.advanced q h.src) (some q) h.src h.msg why :=
  (receiveNext_of_get hd hk).trans (getArrives_of_rejected (advanced_getRejects s q h.src h.src h.msg ▸ hr))

/-! A data frame on its stream (R231). -/

theorem receiveData_of_closed (hx : (s.stream q h.src).rxOpen = false) : receiveData s q h = s := by
  rw [receiveData]
  exact if_pos (by rw [hx]; rfl)

theorem receiveData_of_open (hx : (s.stream q h.src).rxOpen = true) : receiveData s q h =
    if h.seq = (s.stream q h.src).expected then receiveNext s q h
    else if seqFrom (s.stream q h.src).expected h.seq then
      if (match (s.stream q h.src).nackTick with | none => true | some n => decide (n + s.rto ≤ s.now)) then
        sendControl (s.setStream q h.src { s.stream q h.src with nackTick := some s.now }) q
          { peer := h.src, nack := true, seq := (s.stream q h.src).expected, reason := 1 }
      else s
    else s := by
  rw [receiveData]
  exact if_neg (by rw [hx]; exact Bool.false_ne_true)

theorem receiveData_of_expected (hx : (s.stream q h.src).rxOpen = true) (hs : h.seq = (s.stream q h.src).expected) :
    receiveData s q h = receiveNext s q h := (receiveData_of_open hx).trans (if_pos hs)

theorem receiveData_of_below (hx : (s.stream q h.src).rxOpen = true) (hs : h.seq ≠ (s.stream q h.src).expected)
    (ha : seqFrom (s.stream q h.src).expected h.seq = false) : receiveData s q h = s := by
  rw [receiveData_of_open hx, if_neg hs]
  exact if_neg (Bool.eq_false_iff.mp ha)

theorem receiveData_of_ahead (hx : (s.stream q h.src).rxOpen = true) (hs : h.seq ≠ (s.stream q h.src).expected)
    (ha : seqFrom (s.stream q h.src).expected h.seq = true)
    (hk : ∀ k, (s.stream q h.src).nackTick = some k → k + s.rto ≤ s.now) : receiveData s q h =
      sendControl (s.setStream q h.src { s.stream q h.src with nackTick := some s.now }) q
        { peer := h.src, nack := true, seq := (s.stream q h.src).expected, reason := 1 } := by
  rw [receiveData_of_open hx, if_neg hs, if_pos ha]
  refine if_pos ?_
  split
  · rfl
  · next k hn => exact decide_eq_true (hk k hn)

theorem receiveData_of_nacked {k : Nat} (hx : (s.stream q h.src).rxOpen = true)
    (hs : h.seq ≠ (s.stream q h.src).expected) (ha : seqFrom (s.stream q h.src).expected h.seq = true)
    (hn : (s.stream q h.src).nackTick = some k) (hk : s.now < k + s.rto) : receiveData s q h = s := by
  rw [receiveData_of_open hx, if_neg hs, if_pos ha, hn]
  exact if_neg (by rw [decide_eq_true_eq]; omega)

/-- A NACK for a gap, and what it leaves (R231). -/
theorem receiveData_ahead_shows (s : State) (q p : Nat) (c : ControlFrame) :
    let t := sendControl (s.setStream q p { s.stream q p with nackTick := some s.now }) q c
    (t.drovePort q).control = (s.drovePort q).control ++ [c] ∧
      t.stream q p = { s.stream q p with nackTick := some s.now } ∧ t = { s with drove := t.drove } :=
  ⟨sendControl_control _ _ _, State.stream_setStream_self s q p _, rfl⟩

end

/-- A command for a received data frame: the checks, then its stream (R229, R231). -/
theorem exec_of_data {f : DroveFrame} {c : Nat × Instr} (hf : f.port < 4) (r : State)
    (hc : c ∈ [(1, Instr.droveDispatchRx f), (2, .droveCombineRx f), (3, .drovePutRx f), (5, .droveBalePushRx f),
      (4, .droveGetRx f)]) :
    exec c.2 r = live r (receiveDrove (settleLate r) f (fun h => h.kind == c.1) receiveData) := by
  simp only [List.mem_cons, List.not_mem_nil, or_false] at hc
  obtain rfl | rfl | rfl | rfl | rfl := hc
  · exact exec_droveDispatchRx hf r
  · exact exec_droveCombineRx hf r
  · exact exec_drovePutRx hf r
  · exact exec_droveBalePushRx hf r
  · exact exec_droveGetRx hf r

/-- A peer's message whose round is not open at the end of its cycle is rejected for its round (R239). -/
theorem settleLate_of_closed {r : State} {l : LateMessage} {q : Nat} (hl : r.drove.late = some l) (hp : l.port = some q)
    (ho : r.roundOpen l.msg.buffer l.msg.round = false) :
    settleLate r = refuseMessage r.noLate (some q) l.src l.msg 4 := by
  rw [settleLate_of_some hl, hp]
  exact if_neg (Bool.eq_false_iff.mp ho)

end Sys2Proof.Machine

section
open Sys2Proof Sys2Proof.Machine

/-- Settles O26: a frame before, behind or at its stream's expected number, and there the message's way into its buffer. -/
theorem droveDataFramesInOrder : Obligations.DroveDataFramesInOrder := by
  refine ⟨?_, fun r => ⟨settleLate_of_none, (settleLate_kept r).2, fun l q hl hp ho => ?_⟩⟩
  · intro r f hh hf hgood s h q x c hc hkind
    have hq : s.pending = r.pending := settleLate_pending r
    have hlate : s.drove.late = none := (settleLate_kept r).2
    have hexec : exec c.2 r = live r (receiveDrove s f (fun h => h.kind == c.1) receiveData) := exec_of_data hf r hc
    have hmsg : h.msg.msgId = h.msgId := rfl
    change s.droveCheck f = .good at hgood
    clear_value s
    rw [receiveDrove_of_mine hgood (by simp [h, hkind])] at hexec
    change exec c.2 r = live r (receiveData s q h) at hexec
    clear_value h q
    refine ⟨fun hx => ?_, fun hx hs ha => ?_, fun hx hs ha hk => ?_, fun k hx hs ha hn hk => ?_, fun hx hs hd => ?_,
      fun hx hs hd hk hr => ?_, fun hx hs hd hk why hr => ⟨fun hw hm => ?_, fun hm => ?_⟩, fun hx hs hd hk why hr => ?_,
      fun hx hs hd hk hr => ?_⟩
    · exact answers_of_eq hexec hh (receiveData_of_closed hx)
    · exact answers_of_eq hexec hh (receiveData_of_below hx hs ha)
    · rw [receiveData_of_ahead hx hs ha hk] at hexec
      exact yields_of_kept_queue hexec hh hq (receiveData_ahead_shows s q h.src _)
    · exact answers_of_eq hexec hh (receiveData_of_nacked hx hs ha hn hk)
    · rw [receiveData_of_expected hx hs, receiveNext_of_duplicate hd] at hexec
      obtain ⟨hexp, hframe, hpending⟩ := countForAck_shows s q h.src { code := 0x0607, cls := 0, inst := h.src }
      exact yields_of_kept_queue hexec hh (hpending.trans hq) ⟨hexp, hframe⟩
    · rw [receiveData_of_expected hx hs, receiveNext_of_taken hd hk hr] at hexec
      obtain ⟨hexp, hpeer, -⟩ := takeMessage_shows (s.advanced q h.src) q h.src h.msg
      obtain ⟨hdram, hseed⟩ := takeMessage_payload (s.advanced q h.src) q h.src h.msg
      rw [advanced_expected] at hexp
      rw [hmsg] at hpeer
      exact yields_of_kept_queue hexec hh ((takeMessage_kept _ _ _ _).1.trans hq) ⟨hexp, hpeer, hdram, hseed⟩
    · subst hw
      rw [receiveData_of_expected hx hs, receiveNext_of_late hd hk hr hm] at hexec
      exact yields_of_kept_queue hexec hh hq ⟨advanced_expected s q h.src, rfl, rfl⟩
    · rw [receiveData_of_expected hx hs, receiveNext_of_refused hd hk hr hm] at hexec
      obtain ⟨hexp, hcontrol, hframe, hpending⟩ := refuseMessage_shows s q h.src h.msg why
      rw [hmsg] at hcontrol
      exact yields_of_kept_queue hexec hh (hpending.trans hq) ⟨hexp, hcontrol, hframe⟩
    · rw [receiveData_of_expected hx hs, receiveNext_of_refused_get hd hk hr] at hexec
      obtain ⟨hexp, hcontrol, hframe, hpending⟩ := refuseMessage_shows s q h.src h.msg why
      rw [hmsg] at hcontrol
      exact yields_of_kept_queue hexec hh (hpending.trans hq) ⟨hexp, hcontrol, hframe⟩
    · rw [receiveData_of_expected hx hs, receiveNext_of_get hd hk] at hexec
      obtain ⟨hexp, hhighest, hseen, hbytes⟩ := getArrives_shows (s := s.advanced q h.src) (q := q) hr hlate
      rw [advanced_expected] at hexp
      exact yields_of_live hexec hh ⟨hexp, hhighest, hseen, hbytes⟩
  · rw [settleLate_of_closed hl hp ho, refuseMessage_from_peer]
    exact ⟨rfl, sendControl_control _ _ _⟩

end
end

section
/-! Accesses of DRAM: what the check of a block records and raises, and what its reader and a write leave (R34, R126,
R262 to R265). -/

namespace Sys2Proof.Machine

/-! The check of a block (R264, R265, R270). -/

/-- The registers that record an error of a block. -/
def blockErrorRegs (b : Nat) : List Nat :=
  [Reg.dramErr, Reg.dramErrAddrLo, Reg.dramErrAddrHi, Reg.dramChEcc (dramChannel b)]

/-- The events of a check that finds m in a block; under the patrol an error of its data has a code of its own. -/
def blockEntries (m : Mark) (b : Nat) (scrub : Bool) : List Event :=
  let k := if scrub then 2 else 0
  match m with
  | .clean => []
  | .single => [{ code := 0x0401 + k, cls := 1, inst := dramChannel b }]
  | .double => [{ code := 0x0402 + k, cls := 2, inst := dramChannel b }]
  | .wrongAddress => [{ code := 0x0405, cls := 4, inst := dramChannel b }]

section
variable {as : List Nat} {s t : State}

theorem SameRegsBut.ite {b : Prop} {_ : Decidable b} {t' : State} (h : SameRegsBut as s t) (h' : SameRegsBut as s t') :
    SameRegsBut as s (if b then t else t') := by
  split <;> assumption

theorem SameRegsBut.setReg64 {lo hi v : Nat} (h : SameRegsBut as s t) (hlo : lo ∈ as) (hhi : hi ∈ as) :
    SameRegsBut as s (t.setReg64 lo hi v) := (h.setReg hlo).setReg hhi

end

theorem dramError_regs (s : State) (b : Nat) (uncorr scrub : Bool) :
    SameRegsBut (blockErrorRegs b) s (dramError s b uncorr scrub) := by
  have herr : Reg.dramErr ∈ blockErrorRegs b := by simp [blockErrorRegs]
  have hlo : Reg.dramErrAddrLo ∈ blockErrorRegs b := by simp [blockErrorRegs]
  have hhi : Reg.dramErrAddrHi ∈ blockErrorRegs b := by simp [blockErrorRegs]
  have hcount : Reg.dramChEcc (dramChannel b) ∈ blockErrorRegs b := by simp [blockErrorRegs]
  unfold dramError
  extract_lets s1 s2
  have hplace : SameRegsBut (blockErrorRegs b) s s1 :=
    SameRegsBut.refl.setReg64 hlo hhi |>.setBit herr |>.setBits herr |>.ite SameRegsBut.refl
  have hflag : SameRegsBut (blockErrorRegs b) s s2 := hplace.setBit herr
  exact (hflag.addSat hcount).ite (hflag.addSat hcount)

/-- A check stores what it finds, records an error in registers and raises its event. -/
theorem checkBlock_frame (s : State) (b : Nat) (u : Upset) (scrub : Bool) : checkBlock s b u scrub =
    { setBlockMark s b (metMark (s.blockMark b) u) with
      regs := (checkBlock s b u scrub).regs
      island := { s.island with net := s.island.net ++ blockEntries (metMark (s.blockMark b) u) b scrub } } := by
  have hclean (t : State) : t = { t with island := { t.island with net := t.island.net ++ [] } } := by
    rw [List.append_nil]
  have hraise (t : State) (uncorr : Bool) (e : Event) : (dramError t b uncorr scrub).raise e =
      { t with regs := ((dramError t b uncorr scrub).raise e).regs
               island := { t.island with net := t.island.net ++ [e] } } :=
    (OnlyRegs.refl.dramError (s := t)).raise_eq e
  unfold checkBlock
  cases metMark (s.blockMark b) u
  · exact hclean _
  · exact hraise _ _ _
  · exact hraise _ _ _
  · exact hraise _ _ _

theorem checkBlock_regs (s : State) (b : Nat) (u : Upset) (scrub : Bool) :
    SameRegsBut (blockErrorRegs b) s (checkBlock s b u scrub) := by
  have hset (m : Mark) : SameRegsBut (blockErrorRegs b) s (setBlockMark s b m) := SameRegsBut.refl
  unfold checkBlock
  dsimp only
  split
  · exact hset _
  · exact ((hset _).trans (dramError_regs _ b _ _)).raise
  · exact ((hset _).trans (dramError_regs _ b _ _)).raise
  · exact ((hset _).trans (dramError_regs _ b _ _)).raise

theorem checkBlock_net (s : State) (b : Nat) (u : Upset) (scrub : Bool) : (checkBlock s b u scrub).island.net =
    s.island.net ++ blockEntries (metMark (s.blockMark b) u) b scrub := by
  rw [checkBlock_frame]

theorem checkBlock_outbox (s : State) (b : Nat) (u : Upset) (scrub : Bool) :
    (checkBlock s b u scrub).outbox = s.outbox := by
  rw [checkBlock_frame]
  rfl

theorem checkBlock_mark (s : State) (b : Nat) (u : Upset) (scrub : Bool) (g : Nat) :
    (checkBlock s b u scrub).mark g = if g / 2 = b then metMark (s.blockMark b) u else s.mark g := by
  rw [checkBlock_frame]
  exact setBlockMark_mark s b _ g

theorem checkBlock_blockMark (s : State) (b : Nat) (u : Upset) (scrub : Bool) :
    (checkBlock s b u scrub).blockMark b = metMark (s.blockMark b) u := by
  rw [State.blockMark, checkBlock_mark, if_pos (by omega)]

theorem granulesOf_block (b : Nat) : granulesOf (b * 64) 64 = [2 * b, 2 * b + 1] := by
  have hcount : (b * 64 + 64 - 1) / 32 + 1 - b * 64 / 32 = 2 := by omega
  have hfirst : b * 64 / 32 = 2 * b := by omega
  rw [granulesOf, if_neg (by decide), hcount, hfirst]
  rfl

/-- A checked block is poisoned as its check found it: both of its granules hold the mark. -/
theorem checkBlock_poisoned (s : State) (b : Nat) (u : Upset) (scrub : Bool) :
    (checkBlock s b u scrub).poisoned (b * 64) 64 = true ↔
      metMark (s.blockMark b) u = .double ∨ metMark (s.blockMark b) u = .wrongAddress := by
  have heven := checkBlock_mark s b u scrub (2 * b)
  have hodd := checkBlock_mark s b u scrub (2 * b + 1)
  rw [if_pos (by omega)] at heven hodd
  simp [State.poisoned, granulesOf_block, heven, hodd]

/-! The answer to a reader (R126). -/

/-- The registers that a poisoned read of this requester sets. -/
def poisonRegs (r : Requester) : List Nat :=
  if r = .reeve then [Reg.reeveBuserr, Reg.reeveBuserrAddrLo, Reg.reeveBuserrAddrHi] else []

/-- The event of a poisoned read of this requester. -/
def poisonEntries (r : Requester) : List Event := if r = .reeve then [{ code := 0x0002, cls := 0 }] else []

/-- Poison that another requester than the Reeve receives ends a Furrow's task at most. -/
theorem receivePoison_frame {r : Requester} (hr : r ≠ .reeve) (s : State) (a : Nat) : receivePoison s r a =
    { s with furrows := (receivePoison s r a).furrows, yokes := (receivePoison s r a).yokes } := by
  unfold receivePoison
  split
  · split
    · split
      · rfl
      · exact toEnding_frame _ _ _ _
    · rfl
  · exact absurd rfl hr
  · rfl

theorem receivePoison_net (s : State) (r : Requester) (a : Nat) :
    (receivePoison s r a).island.net = s.island.net ++ poisonEntries r := by
  by_cases hr : r = .reeve
  · subst hr
    simp [receivePoison, reeveBusError, State.raise, poisonEntries]
  · rw [receivePoison_frame hr, poisonEntries, if_neg hr, List.append_nil]

theorem receivePoison_regs (s : State) (r : Requester) (a : Nat) :
    SameRegsBut (poisonRegs r) s (receivePoison s r a) := by
  by_cases hr : r = .reeve
  · subst hr
    have hset : SameRegsBut (poisonRegs .reeve) s (s.setBit Reg.reeveBuserr 31 true) :=
      SameRegsBut.refl.setBit (by simp [poisonRegs])
    exact (hset.setReg64 (by simp [poisonRegs]) (by simp [poisonRegs])).raise
  · intro x _
    rw [receivePoison_frame hr]
    rfl

theorem answerRead_net (s : State) (r : Requester) (a n : Nat) : (answerRead s r a n).island.net =
    s.island.net ++ if s.poisoned a n = true then poisonEntries r else [] := by
  unfold answerRead
  dsimp only
  split
  · exact receivePoison_net _ r a
  · exact (List.append_nil _).symm

theorem answerRead_regs (s : State) (r : Requester) (a n : Nat) : SameRegsBut (poisonRegs r) s (answerRead s r a n) := by
  unfold answerRead
  dsimp only
  split
  · exact receivePoison_regs _ r a
  · exact SameRegsBut.refl

/-! Reads (R34, R262). -/

section
variable {s : State} {r : Requester} {a : Nat} {u : Upset}

theorem dramRead_of_reached (hd : s.region a = some .dram) (hr : s.reaches (.req r) a 1 false = true) :
    dramRead s r a u = answerRead (checkBlock s (a / 64) u false) r (a / 64 * 64) 64 := by
  simp [dramRead, hd, hr]

theorem dramRead_of_denied (h : s.region a ≠ some .dram ∨ s.reaches (.req r) a 1 false = false) :
    dramRead s r a u = denyRead s r (a / 64 * 64) 64 := by
  unfold dramRead
  dsimp only
  split
  · rfl
  · next hd => exact if_pos (congrArg (!·) (h.resolve_left hd))

end

/-- A read that is taken answers the block as its check left it, and changes no byte. -/
theorem readBlock_answers (s : State) (r : Requester) (b : Nat) (u : Upset) :
    let t := answerRead (checkBlock s b u false) r (b * 64) 64
    t.outbox = s.outbox ++ [.row (s.bytes (b * 64) 64) (t.poisoned (b * 64) 64)] ∧ SameBytes s t ∧
      t.blockMark b = metMark (s.blockMark b) u := by
  obtain ⟨hmem, hmarks, hout⟩ := memoryStays_answerRead (checkBlock s b u false) r (b * 64) 64
  refine ⟨?_, sameBytes_of_mem (hmem.trans (checkBlock_mem s b u false)), ?_⟩
  · rw [hout, State.emit_outbox, checkBlock_outbox, bytes_congr (checkBlock_mem s b u false),
      poisoned_congr (hmarks.trans (State.emit_marks _ _))]
  · rw [State.blockMark, mark_congr hmarks]
    exact checkBlock_blockMark s b u false

/-- The events of a read that is taken: the check's, then the Reeve's of a poisoned block. -/
theorem readBlock_net (s : State) (r : Requester) (b : Nat) (u : Upset) :
    (answerRead (checkBlock s b u false) r (b * 64) 64).island.net =
      s.island.net ++ blockEntries (metMark (s.blockMark b) u) b false ++
        if r = .reeve ∧ (metMark (s.blockMark b) u = .double ∨ metMark (s.blockMark b) u = .wrongAddress) then
          [{ code := 0x0002, cls := 0 }]
        else [] := by
  rw [answerRead_net, checkBlock_net, poisonEntries, ite_and]
  simp only [checkBlock_poisoned]
  split <;> split <;> rfl

theorem readBlock_regs (s : State) (r : Requester) (b : Nat) (u : Upset) :
    SameRegsBut (blockErrorRegs b ++ poisonRegs r) s (answerRead (checkBlock s b u false) r (b * 64) 64) :=
  fun a ha => by
    obtain ⟨herr, hpoison⟩ := not_or.mp (mt List.mem_append.mpr ha)
    exact (answerRead_regs _ r _ _ a hpoison).trans (checkBlock_regs s b u false a herr)

/-! Writes (R34, R262). -/

theorem writeBlock_outbox (s : State) (b off : Nat) (bs : List Byte) (p : Bool) (u : Upset) :
    (writeBlock s b off bs p u).outbox = s.outbox := by
  unfold writeBlock
  split
  · rfl
  · exact checkBlock_outbox s b u false

theorem writeDram_outbox (s : State) (a : Nat) (bs : List Byte) (p : Bool) (u : Upset) (fuel : Nat) :
    (writeDram s a bs p u fuel).outbox = s.outbox := by
  induction fuel generalizing s a bs with
  | zero => rfl
  | succ fuel ih =>
    rw [writeDram]
    split
    · rfl
    · exact (ih _ _ _).trans (writeBlock_outbox _ _ _ _ _ _)

section
variable {s : State} {r : Requester} {a : Nat} {bs : List Byte} {p : Bool} {u : Upset}

theorem dramWrite_of_denied (hne : bs ≠ [])
    (h : s.region a ≠ some .dram ∨ s.reaches (.req r) a bs.length true = false) :
    dramWrite s r a bs p u = deniedAccess s r a := by
  rw [dramWrite, if_neg hne]
  split
  · rfl
  · next hd => exact if_pos (congrArg (!·) (h.resolve_left hd))

/-- A write that is taken stores its bytes, leaves the others, and sends nothing. -/
theorem dramWrite_of_reached (hne : bs ≠ []) (hd : s.region a = some .dram)
    (hr : s.reaches (.req r) a bs.length true = true) : (dramWrite s r a bs p u).bytes a bs.length = bs ∧
      SameBytesOutside a bs.length s (dramWrite s r a bs p u) ∧ (dramWrite s r a bs p u).outbox = s.outbox := by
  have hwrite : dramWrite s r a bs p u = writeDram s a bs p u (bs.length / 64 + 2) := by simp [dramWrite, hne, hd, hr]
  have hbyte := byte_writeDram s a bs p u (bs.length / 64 + 2) (hf := by omega)
  rw [hwrite]
  refine ⟨bytes_of_written fun i hi => ?_, fun x hx => ?_, writeDram_outbox s a bs p u _⟩
  · rw [hbyte, if_pos (by omega), Nat.add_sub_cancel_left]
  · rw [hbyte, if_neg hx]

end

end Sys2Proof.Machine

section
open Sys2Proof Sys2Proof.Machine

/-- Settles O30: a read is the check of its block and the answer to its reader, a write the bytes of writeDram, and out of
reach both are a denied access. -/
theorem dramAccessesCheckBlocks : Obligations.DramAccessesCheckBlocks := by
  intro s req a hh
  refine ⟨fun u => ?_, fun data hne => ?_⟩
  · intro m ch
    have hread : exec (.dramRead req a u) s = live s (dramRead s req a u) := rfl
    refine ⟨fun hd hr => ?_, fun hdenied => ?_⟩
    · rw [dramRead_of_reached hd hr] at hread
      obtain ⟨hout, hbytes, hmark⟩ := readBlock_answers s req (a / 64) u
      exact yields_of_live hread hh
        ⟨hout, hbytes, hmark, readBlock_net s req (a / 64) u, readBlock_regs s req (a / 64) u⟩
    · rw [dramRead_of_denied hdenied] at hread
      refine ⟨fun hr => ?_, fun n hr => ?_⟩
      · rw [denyRead_of_not_furrow hr] at hread
        exact answers_of_live hread hh
      · subst hr
        exact answers_of_live hread hh
  · have hwrite (poison : Bool) :
        exec (.dramWrite req a data poison) s = live s (dramWrite s req a data poison .clean) := rfl
    have hpart (u : Upset) : exec (.dramPartialWrite req a data u) s = live s (dramWrite s req a data false u) := rfl
    refine ⟨fun hd hr => ⟨fun poison => ?_, fun u => ?_⟩, fun hdenied => ⟨fun poison => ?_, fun u => ?_⟩⟩
    · exact yields_of_live (hwrite poison) hh (dramWrite_of_reached hne hd hr)
    · exact yields_of_live (hpart u) hh (dramWrite_of_reached hne hd hr)
    · exact answers_of_live ((hwrite poison).trans (congrArg (live s) (dramWrite_of_denied hne hdenied))) hh
    · exact answers_of_live ((hpart u).trans (congrArg (live s) (dramWrite_of_denied hne hdenied))) hh

end
end

section
/-! Patrol scrub, refresh and the retraining of DRAM channels (R258, R268 to R270). -/

namespace Sys2Proof.Machine

/-! Patrol scrub (R270). -/

/-- t is s after checks of blocks: marks, error records and events differ alone. -/
structure BlocksChecked (s t : State) : Prop where
  frame : t = { s with regs := t.regs, marks := t.marks, island := t.island }
  regs : ∀ a, ¬ AccessReg a → t.reg a = s.reg a

section
variable {s t : State}

theorem BlocksChecked.refl : BlocksChecked s s := ⟨rfl, fun _ _ => rfl⟩

theorem BlocksChecked.trans {u : State} (h : BlocksChecked s t) (h' : BlocksChecked t u) : BlocksChecked s u where
  frame := by rw [h'.frame, h.frame]
  regs a ha := (h'.regs a ha).trans (h.regs a ha)

theorem BlocksChecked.ite {b : Prop} {_ : Decidable b} {t' : State} (h : BlocksChecked s t) (h' : BlocksChecked s t') :
    BlocksChecked s (if b then t else t') := by
  split <;> assumption

theorem BlocksChecked.forUpTo {n : Nat} {f : Nat → State → State} (h : BlocksChecked s t)
    (hf : ∀ i t, BlocksChecked s t → BlocksChecked s (f i t)) : BlocksChecked s (forUpTo n f t) :=
  forUpTo_induct (P := BlocksChecked s) h fun i t _ => hf i t

theorem blocksChecked_setBlockMark (s : State) (b : Nat) (m : Mark) : BlocksChecked s (setBlockMark s b m) :=
  ⟨rfl, fun _ _ => rfl⟩

theorem blocksChecked_checkBlock (s : State) (b : Nat) (u : Upset) (scrub : Bool) :
    BlocksChecked s (checkBlock s b u scrub) where
  frame := by
    rw [checkBlock_frame]
    rfl
  regs := Accessed.refl.checkBlock.regs

theorem BlocksChecked.scrubBlock {b : Nat} {u : Upset} (h : BlocksChecked s t) : BlocksChecked s (scrubBlock t b u) :=
  have hchecked := h.trans (blocksChecked_checkBlock t b u true)
  ite (hchecked.trans (blocksChecked_setBlockMark _ b .clean)) hchecked

theorem BlocksChecked.mem (h : BlocksChecked s t) : t.mem = s.mem := by rw [h.frame]

theorem BlocksChecked.pending (h : BlocksChecked s t) : t.pending = s.pending := by rw [h.frame]

theorem BlocksChecked.dram (h : BlocksChecked s t) : t.dram = s.dram := by rw [h.frame]

theorem BlocksChecked.bits (h : BlocksChecked s t) {a : Nat} (msb lsb : Nat) (ha : ¬ AccessReg a) :
    t.bits a msb lsb = s.bits a msb lsb := by
  rw [State.bits, h.regs a ha, State.bits]

/-- DRAM_CFG, DRAM_STATUS, DRAM_TRAIN_CTRL and DRAM_SCRUB record no error of an access. -/
theorem not_accessReg_of_dramControl {a : Nat} (lo : Reg.dramCfg ≤ a) (hi : a ≤ Reg.dramScrub) : ¬ AccessReg a := by
  unfold Reg.dramCfg at lo
  unfold Reg.dramScrub at hi
  rintro (⟨f, hf, r, hr, rfl⟩ | ⟨m, hm, rfl | rfl⟩ | ⟨c, hc, rfl⟩ | rfl | rfl | rfl) <;>
    simp only [Reg.yokeLevel, Reg.furSbErr, Reg.furSbEccCnt, Reg.dramChEcc, Reg.dramErr, Reg.dramErrAddrLo,
      Reg.dramErrAddrHi] at lo hi <;> omega

theorem not_accessReg_dramScrub : ¬ AccessReg Reg.dramScrub := not_accessReg_of_dramControl (by decide) (by decide)

theorem BlocksChecked.dramInstalled (h : BlocksChecked s t) : t.dramInstalled = s.dramInstalled := by
  rw [State.dramInstalled, h.bits 2 0 (not_accessReg_of_dramControl (by decide) (by decide)), State.dramInstalled]

end

/-- The chunk's next block is the one that the scrub reads next. -/
def nextScrubBlock (s : State) : State :=
  { s with dram := { s.dram with scrubBlock := (s.dram.scrubBlock + 1) % 32 } }

/-- The place of the scrub once every channel has taken its block: the next block of the chunk, after the last one the
first of the next local chunk, or of chunk 0 with one more pass. -/
def advanceScrub (s : State) : State :=
  if s.dram.scrubBlock < 31 then nextScrubBlock s
  else if s.bits Reg.dramScrub 20 0 + 1 < s.dramInstalled / 65536 then
    (nextScrubBlock s).setBits Reg.dramScrub 20 0 (s.bits Reg.dramScrub 20 0 + 1)
  else ((nextScrubBlock s).setBits Reg.dramScrub 20 0 0).addWrap Reg.dramScrub 31 21

section
variable {s : State}

/-- A patrol scrub of an installed DRAM checks blocks and then advances. -/
theorem patrolScrub_of_installed (h : s.dramInstalled ≠ 0) (upsets : List (Nat × Upset)) :
    ∃ v, BlocksChecked s v ∧ patrolScrub s upsets = advanceScrub v := by
  unfold patrolScrub
  rw [if_neg h]
  extract_lets loc pos v t
  have hv : BlocksChecked s v := BlocksChecked.refl.ite (BlocksChecked.refl.forUpTo fun _ _ h => h.scrubBlock.ite h)
  have hpos : v.dram.scrubBlock = pos := by rw [hv.dram]
  refine ⟨v, hv, ?_⟩
  rw [advanceScrub, nextScrubBlock, hpos, hv.bits 20 0 not_accessReg_dramScrub]
  rfl

/-- An advance of the scrub changes DRAM_SCRUB and its place alone. -/
theorem advanceScrub_frame (s : State) :
    advanceScrub s = { nextScrubBlock s with regs := (advanceScrub s).regs } := by
  have hnext : OnlyRegs (nextScrubBlock s) (nextScrubBlock s) := OnlyRegs.refl
  exact hnext.ite (hnext.setBits.ite hnext.setBits.setBits)

theorem advanceScrub_pending (s : State) : (advanceScrub s).pending = s.pending := by
  rw [advanceScrub_frame]
  rfl

theorem advanceScrub_mem (s : State) : (advanceScrub s).mem = s.mem := by
  rw [advanceScrub_frame]
  rfl

theorem advanceScrub_scrubBlock (s : State) : (advanceScrub s).dram.scrubBlock = (s.dram.scrubBlock + 1) % 32 := by
  rw [advanceScrub_frame]
  rfl

theorem advanceScrub_in_chunk (h : s.dram.scrubBlock < 31) :
    (advanceScrub s).bits Reg.dramScrub 20 0 = s.bits Reg.dramScrub 20 0 := by
  rw [advanceScrub, if_pos h]
  rfl

theorem advanceScrub_next_chunk (h : 31 ≤ s.dram.scrubBlock)
    (hc : s.bits Reg.dramScrub 20 0 + 1 < s.dramInstalled / 65536) :
    (advanceScrub s).bits Reg.dramScrub 20 0 = (s.bits Reg.dramScrub 20 0 + 1) % 2 ^ 21 := by
  rw [advanceScrub, if_neg (Nat.not_lt.mpr h), if_pos hc]
  exact State.bits_setBits_self _ _ _ _ (by decide)

theorem advanceScrub_new_pass (h : 31 ≤ s.dram.scrubBlock)
    (hc : s.dramInstalled / 65536 ≤ s.bits Reg.dramScrub 20 0 + 1) :
    (advanceScrub s).bits Reg.dramScrub 20 0 = 0 ∧
      (advanceScrub s).bits Reg.dramScrub 31 21 = (s.bits Reg.dramScrub 31 21 + 1) % 2 ^ 11 := by
  rw [advanceScrub, if_neg (Nat.not_lt.mpr h), if_neg (Nat.not_lt.mpr hc)]
  constructor
  · rw [State.addWrap, State.bits_setBits_of_disjoint _ _ _ _ (by decide) (by decide),
      State.bits_setBits_self _ _ _ _ (by decide)]
    rfl
  · rw [State.bits_addWrap_self _ _ _ _ (by decide), State.bits_setBits_of_disjoint _ _ _ _ (by decide) (by decide)]
    rfl

end

/-! Refresh (R258). -/

/-- A refresh moves its channel's bank and rate, and leaves the other channels'. -/
theorem refreshBank_refresh (s : State) (c k : Nat) : mapGet (0, 0) (refreshBank s c).dram.refresh k =
    if k = c then (((mapGet (0, 0) s.dram.refresh c).1 + 1) % (16 * (1 + s.bits Reg.dramCfg 3 3)),
      Config.refreshRate c s.dram.mr4Tick)
    else mapGet (0, 0) s.dram.refresh k := mapGet_mapSet _ _ _ _ _

theorem refreshBank_frame (s : State) (c : Nat) :
    refreshBank s c = { s with dram := { s.dram with refresh := (refreshBank s c).dram.refresh } } := rfl

/-! Retraining (R268, R269). -/

section
variable {s : State} {margin : Nat} {temp : Int}

theorem retrainSlice_before_ready (h : s.bit Reg.reeveBoot 31 = false) : retrainSlice s margin temp = s := by
  simp [retrainSlice, h]

theorem retrainSlice_of_inner (hb : s.bit Reg.reeveBoot 31 = true) (ht : s.bit Reg.dramStatus 8 = true)
    (h : s.dram.slices + 1 < 256) :
    retrainSlice s margin temp = { s with dram := { s.dram with slices := s.dram.slices + 1 } } := by
  simp [retrainSlice, hb, ht, h]

theorem retrainSlice_of_last (hb : s.bit Reg.reeveBoot 31 = true) (ht : s.bit Reg.dramStatus 8 = true)
    (h : 256 ≤ s.dram.slices + 1) :
    retrainSlice s margin temp = endRetrain s (s.bits Reg.dramStatus 4 0) margin temp := by
  simp [retrainSlice, hb, ht, Nat.not_lt.mpr h]

theorem retrainSlice_of_none_due (hb : s.bit Reg.reeveBoot 31 = true) (ht : s.bit Reg.dramStatus 8 = false)
    (h : s.nextTrain = none) : retrainSlice s margin temp = s := by
  simp [retrainSlice, hb, ht, h]

theorem retrainSlice_of_due {k : Nat} {rotation : Bool} (hb : s.bit Reg.reeveBoot 31 = true)
    (ht : s.bit Reg.dramStatus 8 = false) (h : s.nextTrain = some (k, rotation)) :
    retrainSlice s margin temp = startRetrain s k rotation := by
  simp [retrainSlice, hb, ht, h]

end

theorem bits_withDram (s : State) (x : DramState) (a msb lsb : Nat) :
    ({ s with dram := x } : State).bits a msb lsb = s.bits a msb lsb := rfl

theorem bit_withDram (s : State) (x : DramState) (a i : Nat) : ({ s with dram := x } : State).bit a i = s.bit a i := rfl

theorem OnlyRegs.withDram {s t : State} (h : OnlyRegs s t) (x : DramState) :
    ({ t with dram := x } : State) = { s with regs := t.regs, dram := x } := by
  rw [h]

/-- DRAM_STATUS with a retraining of channel k in progress. -/
def showChannel (s : State) (k : Nat) : State := (s.setBits Reg.dramStatus 4 0 k).setBit Reg.dramStatus 8 true

theorem startRetrain_frame (s : State) (k : Nat) (rotation : Bool) :
    startRetrain s k rotation = { showChannel s k with dram := (startRetrain s k rotation).dram } := rfl

theorem startRetrain_pending (s : State) (k : Nat) (rotation : Bool) :
    (startRetrain s k rotation).pending = s.pending := by
  rw [startRetrain_frame, showChannel, State.setBit_pending, State.setBits_pending]

/-- The first slice of a retraining shows its channel in DRAM_STATUS. -/
theorem startRetrain_shows (s : State) (k : Nat) (rotation : Bool) :
    let t := startRetrain s k rotation
    t.bit Reg.dramStatus 8 = true ∧ t.bits Reg.dramStatus 4 0 = k % 32 ∧ t.dram.slices = 1 ∧
      SameRegsBut [Reg.dramStatus] s t ∧ t = { s with regs := t.regs, dram := t.dram } := by
  have hm : Reg.dramStatus ∈ [Reg.dramStatus] := List.mem_singleton_self _
  have hregs : SameRegsBut [Reg.dramStatus] s (showChannel s k) := (SameRegsBut.refl.setBits hm).setBit hm
  refine ⟨?_, ?_, rfl, ?_, ?_⟩
  · rw [startRetrain_frame, bit_withDram]
    exact State.bit_setBit_self _ _ _ (by decide)
  · rw [startRetrain_frame, bits_withDram, showChannel, State.bits_setBit_of_disjoint _ _ _ _ (by decide) (by decide)]
    exact State.bits_setBits_self _ _ _ _ (by decide)
  · rw [startRetrain_frame]
    exact hregs
  · exact OnlyRegs.refl.setBits.setBit.withDram _

/-- The registers as a retraining of channel c ends. -/
def showTraining (s : State) (c margin : Nat) (temp : Int) : State :=
  (((s.setBits (Reg.dramChTrain c) 31 24 (min margin 255)).setBits (Reg.dramChTrain c) 23 16 (unsignedOf temp 8)).addSat
    (Reg.dramChTrain c) 15 0).setBit Reg.dramStatus 8 false

/-- What the end of a retraining of channel c leaves beside the registers: the token's entry, and the channel's turn. -/
def noteTraining (s : State) (c margin : Nat) (temp : Int) : State :=
  let t := s.retrained c margin temp
  { t with dram := { t.dram with slices := 0, lastTrained := mapSet 0 t.dram.lastTrained c t.tickNumber } }

/-- A margin below the least one is reported, and its channel placed first. -/
def reportLowMargin (s : State) (c : Nat) : State := retrainNow (s.raise { code := 0x0406, cls := 2, inst := c }) c

section
variable (s : State) (c margin : Nat) (temp : Int) (a msb lsb i : Nat)

@[simp] theorem noteTraining_reg : (noteTraining s c margin temp).reg a = s.reg a := rfl

@[simp] theorem noteTraining_bits : (noteTraining s c margin temp).bits a msb lsb = s.bits a msb lsb := rfl

@[simp] theorem noteTraining_bit : (noteTraining s c margin temp).bit a i = s.bit a i := rfl

@[simp] theorem noteTraining_pending : (noteTraining s c margin temp).pending = s.pending := rfl

@[simp] theorem noteTraining_island : (noteTraining s c margin temp).island = s.island := rfl

@[simp] theorem noteTraining_slices : (noteTraining s c margin temp).dram.slices = 0 := rfl

@[simp] theorem noteTraining_front : (noteTraining s c margin temp).dram.front = s.dram.front := rfl

@[simp] theorem reportLowMargin_reg : (reportLowMargin s c).reg a = s.reg a := rfl

@[simp] theorem reportLowMargin_bits : (reportLowMargin s c).bits a msb lsb = s.bits a msb lsb := rfl

@[simp] theorem reportLowMargin_bit : (reportLowMargin s c).bit a i = s.bit a i := rfl

@[simp] theorem reportLowMargin_pending : (reportLowMargin s c).pending = s.pending := rfl

@[simp] theorem reportLowMargin_slices : (reportLowMargin s c).dram.slices = s.dram.slices := rfl

@[simp] theorem reportLowMargin_front : (reportLowMargin s c).dram.front = c :: s.dram.front.filter (· != c) := rfl

@[simp] theorem reportLowMargin_net :
    (reportLowMargin s c).island.net = s.island.net ++ [{ code := 0x0406, cls := 2, inst := c }] := rfl

end

/-- The state at a retraining's end, before the margin is judged. -/
def trainingEnded (s : State) (c margin : Nat) (temp : Int) : State :=
  noteTraining (showTraining s c margin temp) c margin temp

theorem endRetrain_eq (s : State) (c margin : Nat) (temp : Int) : endRetrain s c margin temp =
    if margin < (trainingEnded s c margin temp).bits Reg.dramTrainCtrl 31 24 then
      reportLowMargin ((trainingEnded s c margin temp).setBit Reg.dramStatus 9 true) c
    else trainingEnded s c margin temp := rfl

/-- From s to t a retraining of channel c has ended, and its results are shown. -/
structure TrainingShown (s t : State) (c margin : Nat) (temp : Int) : Prop where
  ended : t.bit Reg.dramStatus 8 = false
  slices : t.dram.slices = 0
  margin : t.bits (Reg.dramChTrain c) 31 24 = min margin 255
  temp : t.bits (Reg.dramChTrain c) 23 16 = unsignedOf temp 8
  count : t.bits (Reg.dramChTrain c) 15 0 = min (s.bits (Reg.dramChTrain c) 15 0 + 1) 65535
  regs : SameRegsBut [Reg.dramChTrain c, Reg.dramStatus] s t

theorem dramChTrain_ne_of_control (c : Nat) {a : Nat} (h : a ≤ Reg.dramScrub) : Reg.dramChTrain c ≠ a := by
  unfold Reg.dramScrub at h
  unfold Reg.dramChTrain
  omega

theorem dramChTrain_ne_dramStatus (c : Nat) : Reg.dramChTrain c ≠ Reg.dramStatus :=
  dramChTrain_ne_of_control c (by decide)

theorem showTraining_bits (s : State) (c margin : Nat) (temp : Int) (msb lsb : Nat) :
    (showTraining s c margin temp).bits (Reg.dramChTrain c) msb lsb =
      (((s.setBits (Reg.dramChTrain c) 31 24 (min margin 255)).setBits (Reg.dramChTrain c) 23 16
        (unsignedOf temp 8)).addSat (Reg.dramChTrain c) 15 0).bits (Reg.dramChTrain c) msb lsb :=
  State.bits_setBit_of_disjoint _ _ _ _ (by decide) (.inl (dramChTrain_ne_dramStatus c))

theorem showTraining_regs (s : State) (c margin : Nat) (temp : Int) :
    SameRegsBut [Reg.dramChTrain c, Reg.dramStatus] s (showTraining s c margin temp) :=
  have htrain : Reg.dramChTrain c ∈ [Reg.dramChTrain c, Reg.dramStatus] := by simp
  (((SameRegsBut.refl.setBits htrain).setBits htrain).addSat htrain).setBit (by simp)

theorem trainingEnded_shown (s : State) (c margin : Nat) (temp : Int) :
    TrainingShown s (trainingEnded s c margin temp) c margin temp := by
  unfold trainingEnded
  constructor
  case ended =>
    rw [noteTraining_bit, showTraining]
    exact State.bit_setBit_self _ _ _ (by decide)
  case slices => exact noteTraining_slices _ c margin temp
  case margin =>
    rw [noteTraining_bits, showTraining_bits, State.addSat, State.bits_setBits_of_disjoint _ _ _ _ (by omega) (by omega),
      State.bits_setBits_of_disjoint _ _ _ _ (by omega) (by omega), State.bits_setBits_self _ _ _ _ (by omega)]
    omega
  case temp =>
    rw [noteTraining_bits, showTraining_bits, State.addSat, State.bits_setBits_of_disjoint _ _ _ _ (by omega) (by omega),
      State.bits_setBits_self _ _ _ _ (by omega)]
    exact Nat.mod_eq_of_lt (unsignedOf_lt temp 8)
  case count =>
    rw [noteTraining_bits, showTraining_bits, State.bits_addSat_self _ _ _ _ (by omega),
      State.bits_setBits_of_disjoint _ _ _ _ (by omega) (by omega),
      State.bits_setBits_of_disjoint _ _ _ _ (by omega) (by omega)]
    rfl
  case regs => exact fun a ha => (noteTraining_reg _ c margin temp a).trans (showTraining_regs s c margin temp a ha)

theorem TrainingShown.reportLowMargin {s t : State} {c margin : Nat} {temp : Int} (h : TrainingShown s t c margin temp) :
    TrainingShown s (reportLowMargin (t.setBit Reg.dramStatus 9 true) c) c margin temp := by
  have hkeep (msb lsb : Nat) : (t.setBit Reg.dramStatus 9 true).bits (Reg.dramChTrain c) msb lsb =
      t.bits (Reg.dramChTrain c) msb lsb :=
    State.bits_setBit_of_disjoint _ _ _ _ (by decide) (.inl (dramChTrain_ne_dramStatus c))
  have hregs := h.regs.setBit (a := Reg.dramStatus) (i := 9) (b := true) (by simp)
  constructor
  case ended => rw [reportLowMargin_bit, State.bit_setBit_of_disjoint _ _ _ _ (by decide) (by decide), h.ended]
  case slices => rw [reportLowMargin_slices, State.setBit_dram, h.slices]
  case margin => rw [reportLowMargin_bits, hkeep, h.margin]
  case temp => rw [reportLowMargin_bits, hkeep, h.temp]
  case count => rw [reportLowMargin_bits, hkeep, h.count]
  case regs => exact fun a ha => (reportLowMargin_reg _ c a).trans (hregs a ha)

theorem endRetrain_shown (s : State) (c margin : Nat) (temp : Int) :
    TrainingShown s (endRetrain s c margin temp) c margin temp := by
  rw [endRetrain_eq]
  split
  · exact (trainingEnded_shown s c margin temp).reportLowMargin
  · exact trainingEnded_shown s c margin temp

section
variable (s : State) (c margin : Nat) (temp : Int)

theorem trainingEnded_dramTrainCtrl :
    (trainingEnded s c margin temp).bits Reg.dramTrainCtrl 31 24 = s.bits Reg.dramTrainCtrl 31 24 := by
  have hne : Reg.dramTrainCtrl ≠ Reg.dramChTrain c := (dramChTrain_ne_of_control c (by decide)).symm
  have hstatus : Reg.dramTrainCtrl ≠ Reg.dramStatus := by decide
  rw [State.bits, (trainingEnded_shown s c margin temp).regs _ (by simp [hne, hstatus]), State.bits]

theorem trainingEnded_pending :
    (trainingEnded s c margin temp).pending = s.pending := by
  rw [trainingEnded, noteTraining_pending, showTraining, State.setBit_pending, State.addSat_pending,
    State.setBits_pending, State.setBits_pending]

theorem trainingEnded_island :
    (trainingEnded s c margin temp).island = s.island := by
  rw [trainingEnded, noteTraining_island, showTraining, State.setBit_island, State.addSat_island, State.setBits_island,
    State.setBits_island]

theorem trainingEnded_front :
    (trainingEnded s c margin temp).dram.front = s.dram.front := by
  rw [trainingEnded, noteTraining_front, showTraining, State.setBit_dram, State.addSat_dram, State.setBits_dram,
    State.setBits_dram]

theorem endRetrain_pending : (endRetrain s c margin temp).pending = s.pending := by
  rw [endRetrain_eq]
  split
  · rw [reportLowMargin_pending, State.setBit_pending, trainingEnded_pending]
  · exact trainingEnded_pending s c margin temp

end

section
variable {s : State} {c margin : Nat}

/-- A margin that is enough raises nothing. -/
theorem endRetrain_of_enough (h : s.bits Reg.dramTrainCtrl 31 24 ≤ margin) (temp : Int) :
    (endRetrain s c margin temp).island = s.island := by
  rw [endRetrain_eq, trainingEnded_dramTrainCtrl, if_neg (Nat.not_lt.mpr h), trainingEnded_island]

theorem endRetrain_of_low (h : margin < s.bits Reg.dramTrainCtrl 31 24) (temp : Int) :
    (endRetrain s c margin temp).bit Reg.dramStatus 9 = true ∧
      (endRetrain s c margin temp).dram.front = c :: s.dram.front.filter (· != c) ∧
      (endRetrain s c margin temp).island.net = s.island.net ++ [{ code := 0x0406, cls := 2, inst := c }] := by
  rw [endRetrain_eq, trainingEnded_dramTrainCtrl, if_pos h]
  refine ⟨?_, ?_, ?_⟩
  · rw [reportLowMargin_bit, State.bit_setBit_self _ _ _ (by decide)]
  · rw [reportLowMargin_front, State.setBit_dram, trainingEnded_front]
  · rw [reportLowMargin_net, State.setBit_island, trainingEnded_island]

end

end Sys2Proof.Machine

section
open Sys2Proof Sys2Proof.Machine

/-- Settles O31: a scrub step checks blocks and advances; a slice of a retraining by the cases of retrainSlice, its end by
what it shows and by its margin. -/
theorem dramUpkeepAndRetrainingKeepData : Obligations.DramUpkeepAndRetrainingKeepData := by
  refine ⟨fun s upsets hh => ?_, fun s margin temp hh => ?_⟩
  · intro loc
    have hscrub : exec (.dramPatrolScrubRead upsets) s = live s (patrolScrub s upsets) := rfl
    refine ⟨fun h => ?_, fun h => ?_, fun c hc => ⟨?_, ?_⟩⟩
    · rw [patrolScrub, if_pos h] at hscrub
      exact answers_of_live hscrub hh
    · obtain ⟨v, hv, he⟩ := patrolScrub_of_installed h upsets
      have hloc : v.bits Reg.dramScrub 20 0 = loc := hv.bits 20 0 not_accessReg_dramScrub
      have hpass : v.bits Reg.dramScrub 31 21 = s.bits Reg.dramScrub 31 21 := hv.bits 31 21 not_accessReg_dramScrub
      rw [he] at hscrub
      rw [← hpass, ← hloc, ← hv.dram, ← hv.dramInstalled]
      exact yields_of_kept_queue hscrub hh ((advanceScrub_pending v).trans hv.pending)
        ⟨sameBytes_of_mem ((advanceScrub_mem v).trans hv.mem), advanceScrub_scrubBlock v, advanceScrub_in_chunk,
          advanceScrub_next_chunk, advanceScrub_new_pass⟩
    · have hrefresh : exec (.dramRefresh c) s = live s (refreshBank s c) := congrArg (live s) (withUnit_of hc s _)
      have hown := refreshBank_refresh s c c
      rw [if_pos rfl] at hown
      obtain ⟨hbank, hrate⟩ := Prod.mk.inj hown
      exact yields_of_kept_queue hrefresh hh (by rw [refreshBank_frame])
        ⟨hbank, hrate, fun k hk => (refreshBank_refresh s c k).trans (if_neg hk), refreshBank_frame s c⟩
    · exact answers_of_live (congrArg (live s) (withUnit_of hc s _)) hh
  · intro c
    have hslice {t : State} (e : retrainSlice s margin temp = t) : exec (.dramRetrainSlice margin temp) s = live s t :=
      congrArg (live s) e
    refine ⟨fun hb => ?_, fun hb ht h => ?_, fun hb ht h => ?_, fun hb ht h => ?_, fun k r hb ht h => ?_⟩
    · exact answers_of_live (hslice (retrainSlice_before_ready hb)) hh
    · exact answers_of_live (hslice (retrainSlice_of_inner hb ht h)) hh
    · obtain ⟨hended, hslices, hmargin, htemp, hcount, hregs⟩ := endRetrain_shown s c margin temp
      exact yields_of_kept_queue (hslice (retrainSlice_of_last hb ht h)) hh (endRetrain_pending s c margin temp)
        ⟨hended, hslices, hmargin, htemp, hcount, hregs, fun he => endRetrain_of_enough he temp,
          fun hl => endRetrain_of_low hl temp⟩
    · exact answers_of_live (hslice (retrainSlice_of_none_due hb ht h)) hh
    · exact yields_of_kept_queue (hslice (retrainSlice_of_due hb ht h)) hh (startRetrain_pending s k r)
        (startRetrain_shows s k r)

end
end
